-- ==== Sys2Proof/Word.lean ====
section
/-!
DEFINITION. The words of the block (00 R7, R8): bytes, 32-bit register words, memory lines, stored lines, and tables by key.
-/
namespace Sys2Proof

/-- One byte of any format (00 R8). -/
abbrev Byte := BitVec 8

/-- One CTLPORT word (14 R437). -/
abbrev Word := BitVec 32

/-- The 64 data bytes of a memory line (00 Table 0-4). -/
abbrev Line := BitVec 512

/-- The 72 bytes of a line as stored: bits [511:0] the data, bits [575:512] the sideband (00 Table 0-4, 14 R422). -/
abbrev Stored := BitVec 576

/-- A reason, result or status code of the block's own tables. -/
abbrev Code := BitVec 8

/-- A table by index, holding only the entries in use, in strictly rising index order. -/
abbrev Tbl (α : Type) := List (Nat × α)

end Sys2Proof
end

