-- ==== Sys2Proof/Syntax.lean ====
section
/-!
DEFINITION. The commands of the block: one constructor per row of spec/opcode_table.json, with what each row brings in from outside.
-/
namespace Sys2Proof

/-- One line answered by a memory controller: its 72 bytes, and whether it is uncorrectable (14 R431). -/
structure MemAnswer where
  data : Stored
  poison : Bool
  deriving DecidableEq, Repr, Inhabited

/-- What memory answers to the reads a command makes itself, in the order it makes them: the missing lines of a counter tree, level 0 first, go ahead
of the line they cover. A tree or catalogue line that no answer is brought for is as the block last wrote it (15 R454; 04 R114, R131; log 7, log 9). -/
structure MemIn where
  lines : List MemAnswer
  deriving DecidableEq, Repr, Inhabited

/-- A region by its index, and what memory answers to the reads that its catalogue entry needs (04 R114, R118). -/
structure RegionNamed where
  index : BitVec 21
  m : MemIn
  deriving DecidableEq, Repr, Inhabited

/-- A memory object by its index, and what memory answers to the reads that its region's catalogue entry needs (04 R114; 09 R298). -/
structure ObjNamed where
  index : Nat
  m : MemIn
  deriving DecidableEq, Repr, Inhabited

/-- A clock that is back: its domain, and the lanes whose known-answer test fails at the start that it lets go on (01 R36; 02 R69; log 157). -/
structure ClockBack where
  domain : Nat
  badLanes : List Nat
  deriving DecidableEq, Repr, Inhabited

/-- The end of the write of a charter slot: whether flash took it, and the lanes whose known-answer test fails where its charter is the first (02 R56, R60;
log 157). -/
structure SlotWrite where
  flashOk : Bool
  badLanes : List Nat
  deriving DecidableEq, Repr, Inhabited

/-- One FABPORT request with the fields of Table 14-2 (14 R422); `data` holds one beat, or the beats of a CWRITE. -/
structure FabReq where
  ch : Nat
  addr : BitVec 52
  shelf : BitVec 24
  cls : BitVec 4
  budget : BitVec 32
  tag : BitVec 16
  epoch : BitVec 32
  mid : BitVec 32
  dest : BitVec 14
  count : BitVec 4
  mask : BitVec 64
  data : List Stored
  deriving DecidableEq, Repr, Inhabited

/-- One received or sent frame: the outer header of Table 5-5, the payload as on the wire, and the GCM tag (05 R162). -/
structure Frame where
  version : Byte
  kind : Byte
  payloadLen : BitVec 16
  session : BitVec 32
  sequence : BitVec 64
  payload : List Byte
  tag : BitVec 128
  deriving DecidableEq, Repr, Inhabited

/-- The cipher work of one beat (01 Table 1-3). -/
inductive CipherOp where
  | xtsEncrypt
  | xtsDecrypt
  | keystream
  deriving DecidableEq, Repr, Inhabited

/-- The derivation a working key comes from: its tag in the derived-key cache (03 R85). -/
structure KeyHandle where
  slot : Nat
  half : Nat
  purpose : Nat
  volume : Nat
  bits : Nat
  tenant : Nat
  folio : Nat
  instId : Nat
  qualifier : Nat
  generation : Nat
  deriving DecidableEq, Repr, Inhabited

/-- One 64-byte beat presented to a lane (01 R21), with the request it belongs to: its place in the request in address order, and whether it is the
request's last (01 R24). -/
structure Beat where
  op : CipherOp
  key : KeyHandle
  tweak : BitVec 128
  data : Line
  reqTag : Nat
  index : Nat
  last : Bool
  deriving DecidableEq, Repr, Inhabited

/-- What the surroundings show during a start: the pins sampled at C3, CCLK (its MHz, 0 where absent) and HCLK at C5, the lanes whose known-answer test fails at C10,
the fuse bits that do not blow, flash operations that fail, and self-refresh as held (02 R66, 14 R433, R445; log 12). -/
structure StartIn where
  tmpHigh : Bool
  frCompat : Bool
  flPart : BitVec 8
  cclkMhz : BitVec 12
  hclk : Bool
  badLanes : List Nat
  stuckFuses : List Nat
  flashFails : Bool
  vaultStuck : Bool
  srHeld : List Bool
  deriving DecidableEq, Repr, Inhabited

/-- What the block's own checks show in one CCLK (11 R327 to R329, Tables 11-1 and 11-2; 06 R226, R227; 07 R245, R246; log 131). No row of the table
stands for a failing check, so PORT_SELECT, the row of a CCLK, carries it. `twice`: the repeat of the work fails its check as well. -/
inductive Upset where
  | none_
  /-- A GHASH unit of the row's port, over a frame being sent. -/
  | frameOut (twice : Bool)
  /-- A GHASH unit of the row's port, over a frame being received. -/
  | frameIn (twice : Bool)
  /-- The datapath of the SRE, over the next elements it combines or converts: its residues, or under CHECK_DUAL its second copy. -/
  | sreData (dual twice : Bool)
  /-- A GHASH unit over a chunk of a collective context. -/
  | sreChunk (coll : Nat) (twice : Bool)
  /-- The CHECK of a running job, or a GHASH unit over its segment. -/
  | bulk (job : Nat) (ghash twice : Bool)
  /-- An AES core, the hash unit or the asymmetric engine of key services. -/
  | keys (twice : Bool)
  /-- A single-bit error, or a minority copy, in an array of a unit: corrected. -/
  | corrected (unit array : Nat)
  /-- An uncorrectable word of a clean cache entry: key services (5), a group buffer of the lane pool (0), a counter line (1). -/
  | cleanLost (unit entry : Nat)
  /-- An uncorrectable word of a dirty counter line. -/
  | counterLost (region page : Nat)
  /-- An uncorrectable word of a vault half. -/
  | halfLost (slot half : Nat)
  /-- An uncorrectable word of the early-arrival buffer, by place. -/
  | earlyLost (place : Nat)
  /-- An uncorrectable word of the chunk store, of a collective context. -/
  | chunkLost (coll : Nat)
  /-- An uncorrectable word of a segment buffer or of the suspend store, of a job. -/
  | segmentLost (job : Nat)
  /-- An uncorrectable word of the COW buffer, of an open stratum command. -/
  | copyLost (entry : Nat)
  /-- An uncorrectable word of a memory port's request queue, by operation. -/
  | requestLost (seq : Nat)
  /-- An uncorrectable word of the origination table. -/
  | origLost (entry : Nat)
  /-- An uncorrectable word of the row's port's replay buffer. -/
  | frameLost
  /-- An uncorrectable word of a host objects table. -/
  | hostLost
  /-- An uncorrectable word of any other CORE state, of a unit. -/
  | coreLost (unit : Nat)
  /-- A parity error in the crossing FIFOs of a reset domain: AON (0), HCLK (1), a port's. -/
  | parity (domain : Nat)
  /-- CCLK runs at another frequency, in MHz (01 R28; 15 GEN_CCLK_FREQ). -/
  | cclk (mhz : BitVec 12)
  /-- The compare of a lane, over the next beat it serves a request with (01 R23). -/
  | lane (lane : Nat) (twice : Bool)
  deriving DecidableEq, Repr, Inhabited

/-- The commands: the rows of spec/opcode_table.json, in its order. A port of a link or D2D command is its EGRESS code
(0-15 link, 16-19 D2D, Table 5-11); a memory port is its number; a reset port is its QOS_STAT_SEL.PORT code (Table 10-8). -/
inductive Instr where
  | powerGood (e : StartIn)
  | coldPowerLoss
  | geodeRegenerate (puf : BitVec 20460) (flashOk : Bool)
  | drbgInstantiate
  | startReady
  | tamperZeroise (vaultClean : Bool)
  | clockLost (domain : Nat)
  | clockReturn (c : ClockBack)
  | aclkLost
  | laneBeat (lane : Nat) (b : Beat) (miscompare replayMiscompare : Bool)
  | laneReplace (lane : Nat) (failing : List Nat)
  | fenceTestDone (lane : Nat) (pass : Bool)
  | spareSelfTest (lane : Nat) (pass : Bool)
  | keyDerivationDone
  | charterLoad (source : Bool) (m : MemIn) (flashOk : Bool)
  | charterStored (w : SlotWrite)
  | funcStopWrite (value : Word)
  | functionDrained (function : Nat)
  | loadWrapped (slot : BitVec 10) (m : MemIn)
  | activate (slot : BitVec 10)
  | retirePrev (slot : BitVec 10)
  | discardStaged (slot : BitVec 10)
  | zeroise (slot : BitVec 10)
  | genEphemeral (slot : BitVec 10)
  | vaultMaskRefresh
  | entropyTestFail
  | entropyRetest (pass : Bool)
  | drbgReseed
  | fabRead (q : FabReq) (m : MemIn)
  | fabWrite (q : FabReq) (cat tree : MemIn)
  | fabWritePartial (q : FabReq) (m : MemIn)
  | fabCread (q : FabReq) (m : MemIn)
  | fabCwrite (q : FabReq) (m : MemIn)
  | fabRawRead (q : FabReq) (m : MemIn)
  | fabRawWrite (q : FabReq) (m : MemIn)
  | fabLoad (q : FabReq)
  | fabStore (q : FabReq)
  | fabStorePartial (q : FabReq)
  | fabStoreFlagged (q : FabReq)
  | fabStorePartialFlagged (q : FabReq)
  | fabAtomic (q : FabReq)
  | fabAtomicFetch (q : FabReq)
  | fabReservedOp (q : FabReq)
  | memReadData (port tag : Nat) (epoch : Word) (a : MemAnswer) (m : MemIn) (tagMismatches : Nat)
  | memWriteAck (port tag : Nat) (epoch : Word)
  | memTrained (port : Nat)
  | catalogueFormat (flashOk : Bool)
  | create (index : BitVec 21) (m : MemIn)
  | destroy (r : RegionNamed)
  | setRights (index : BitVec 21) (m : MemIn)
  | pageReencrypt (index page : Nat) (m : MemIn)
  | sweepStep (index : Nat) (m : MemIn)
  | sweepVerifyDone (index : Nat) (m : MemIn)
  | memCalRequest (port : Nat)
  | memCalGrant (port : Nat)
  | memCalEnd (port : Nat)
  | memCalOverrun (port : Nat)
  | memSrAck (port : Nat)
  | linkUp (port : Nat)
  | hello (port : Nat) (f : Frame)
  | identity (port : Nat) (f : Frame)
  | keyShare (port : Nat) (f : Frame)
  | keyConfirm (port : Nat) (f : Frame)
  | bringupTimeout (port : Nat)
  | bringupRetry (port : Nat)
  | data (port : Nat) (f : Frame) (m : MemIn)
  | idle (port : Nat) (f : Frame)
  | nak (port : Nat) (f : Frame)
  | rekey (port : Nat) (f : Frame)
  | rekeyDone (port : Nat) (f : Frame)
  | rekeyThreshold (port : Nat)
  | rekeyOverdue (port : Nat)
  | seqExhausted (port : Nat)
  | rekeyTimeout (port : Nat)
  | rekeyNow (port : Nat)
  | creditIdleTimer (port : Nat)
  | cadenceTick (port vc : Nat)
  | retryResend (dest vc : Nat)
  | atomicLineIdle (line : Nat)
  | deadTargetTimeout (tag : Nat)
  | routeWrite (value : Word)
  | lnkCalRequest (port : Nat)
  | lnkCalGrant (port : Nat)
  | lnkCalEnd (port : Nat)
  | lnkCalOverrun (port : Nat)
  | contextOpen (m : MemIn)
  | eabExpire (position : Nat)
  | collTimeout (group coll : Nat)
  | chunkResend (group coll : Nat)
  | groupRetire (group : Word)
  | jobStart (m : MemIn) (flashOk : Bool)
  | jobResume (m : MemIn)
  | cut (m : MemIn) (flashOk : Bool)
  | cutFlushDone (entry : Nat) (m : MemIn)
  | restore (m : MemIn)
  | cutTimeout (entry : Nat)
  | doorbell (value : Word)
  | commandFetch (sq : Nat) (m : MemIn)
  | commandDispatch (sq : Nat) (m : MemIn)
  | commandComplete (flight : Nat) (m : MemIn)
  | ctxCreate (slice index : Nat)
  | ctxDestroy (slice index : Nat)
  | switch (slice index : Nat)
  | qCreate (slice index : Nat) (m : MemIn)
  | qDestroy (slice index : Nat)
  | eventCreate (slice index : Nat) (m : MemIn)
  | eventDestroy (slice index : Nat)
  | objCreate (slice index : Nat) (m : MemIn)
  | objAdopt (slice index : Nat)
  | objFree (slice : Nat) (o : ObjNamed)
  | objDestroyRetry (o : ObjNamed)
  | sliceResetDrain (slice : Nat)
  | sliceResetSquash (slice : Nat)
  | sliceResetSettle (slice : Nat)
  | drainTimeout (slice : Nat)
  | squashTimeout (slice : Nat)
  | portSelect (port : Nat) (u : Upset)
  | requestAged (port seq : Nat)
  | watchdogHang (watchdog : Nat)
  | portReset (port : Nat)
  | hostReset
  | coreWarmReset (e : StartIn)
  | blockWarmRecovery (e : StartIn)
  | coldStartRequest (flashOk : Bool)
  | rungTimerExpiry (rung port : Nat)
  | quiesceDrainDone
  | dumpTake
  | dumpUnitTimeout (unit got : Nat)
  | dumpCopy (flashOk : Bool)
  | annalsWrite (flashOk : Bool)
  | hourTick (flashOk : Bool)
  | driverLaneFence (value : Word)
  | driverLaneUnfence (value : Word)
  | getVersion (mailbox : Bool)
  | getCapabilities (mailbox : Bool)
  | negotiateAlgorithms (mailbox : Bool)
  | getDigests (mailbox : Bool)
  | getCertificate (mailbox : Bool)
  | challenge (mailbox : Bool)
  | getMeasurements (mailbox : Bool)
  | spdmUnsupported (mailbox : Bool)
  | mbxSend (value : Word)
  | mbxRelease
  | colophon (m : MemIn)
  | enlistNonce (m : MemIn)
  | enlistNonceExpire (position : Nat)
  | enlist (m : MemIn)
  | delist (m : MemIn)
  | lockAdmission (m : MemIn)
  | rosterSign (m : MemIn)
  | rosterLoad (m : MemIn)
  | appoint (m : MemIn) (flashOk : Bool)
  | wrapDomain (m : MemIn)
  | genPair (m : MemIn)
  | rekeyIssue (m : MemIn)
  | rekeyApply (m : MemIn)
  | fwMeasure (m : MemIn) (flashOk : Bool)
  | fwStage (m : MemIn) (flashOk : Bool)
  | fwActivate (m : MemIn)
  | fwAbandon (m : MemIn)
  | endorse (m : MemIn) (flashOk : Bool)
  | certStore (m : MemIn) (flashOk : Bool)
  | ideBind (m : MemIn)
  | ideKeyex (m : MemIn)
  | ideDeliver (m : MemIn)
  | ideSwitch (m : MemIn)
  | ideClose (m : MemIn)
  | transition (source : Bool) (m : MemIn) (flashOk : Bool)
  | debugEnable (source : Bool) (m : MemIn) (flashOk : Bool)
  | debugDisable (flashOk : Bool)
  | raiseFloor (source : Bool) (m : MemIn) (flashOk : Bool)
  | clearStanding (source : Bool) (m : MemIn) (flashOk : Bool)
  | fusePgmAck (blown : Bool)
  | flashGrantTimeout
  | genCommitSreTiming
  | genCommitShape (port : Nat)
  | registerWrite (offset : BitVec 16) (value : Word) (m : MemIn)
  | debugPathReset
  | mboxPut (b : Byte)
  | mboxSend
  | mboxGet
  | regsRead (offset : BitVec 16)
  | regsWrite (offset : BitVec 16) (value : Word) (m : MemIn)
  | lcsStage (record : List Byte)
  | fabdbgRead (shelf : BitVec 24) (addr : BitVec 52) (m : MemIn)
  | fabdbgWrite (shelf : BitVec 24) (addr : BitVec 52) (d : Line) (cat tree : MemIn)
  | fabdbgRawRead (shelf : BitVec 24) (addr : BitVec 52) (m : MemIn)
  | fabdbgRawWrite (shelf : BitVec 24) (addr : BitVec 52) (d : Stored) (m : MemIn)
  | scan (bits : List Bool)
  | linkDown (port : Nat)
  | flashGrantLost
  | aclkReturn
  deriving DecidableEq, Repr

end Sys2Proof
end

