-- ==== Sys2Proof/Machine/Codes.lean ====
section
/-!
DEFINITION. The reason, result and status codes of the block's own tables, by the names the tables give them.
-/
namespace Sys2Proof.Machine

/-! Key services (03 Table 3-4). -/
def Rsn.shelfVolume : Code := 0x20#8
def Rsn.shelfTenant : Code := 0x21#8
def Rsn.keyAbsent : Code := 0x22#8
def Rsn.keyRights : Code := 0x23#8
def Rsn.keyGenStale : Code := 0x24#8
def Rsn.keyExhausted : Code := 0x25#8
def Rsn.keyRevoked : Code := 0x26#8
def Rsn.geodeFail : Code := 0x27#8
def Rsn.bedrockFail : Code := 0x28#8
def Rsn.tampered : Code := 0x29#8
def Rsn.drbgFail : Code := 0x2A#8

/-! IME (04 Table 4-7). -/
def Rsn.regionAbsent : Code := 0x30#8
def Rsn.outOfRegion : Code := 0x31#8
def Rsn.regionRights : Code := 0x32#8
def Rsn.carveOut : Code := 0x33#8
def Rsn.sealFail : Code := 0x34#8
def Rsn.treeFail : Code := 0x35#8
def Rsn.memPoison : Code := 0x36#8
def Rsn.counterEnd : Code := 0x37#8
def Rsn.compMismatch : Code := 0x38#8
def Rsn.opDenied : Code := 0x39#8

/-! ILE (05 Table 5-15). -/
def Rsn.deadTarget : Code := 0x40#8
def Rsn.farTarget : Code := 0x41#8
def Rsn.noRoute : Code := 0x42#8
def Rsn.storeLost : Code := 0x43#8
def Rsn.noQueue : Code := 0x44#8
def Rsn.msgTooLong : Code := 0x45#8
def Rsn.shapeDenied : Code := 0x46#8
def Rsn.opUnsupported : Code := 0x47#8

/-! Service classes (10 Table 10-5). -/
def Rsn.queueFull : Code := 0xA0#8
def Rsn.noLanes : Code := 0xA1#8
def Rsn.portStopped : Code := 0xA2#8
def Rsn.unchartered : Code := 0xA3#8

/-! Faults (11 Table 11-13). -/
def Rsn.laneCheck : Code := 0xB0#8
def Rsn.tagCheck : Code := 0xB1#8
def Rsn.ghashCheck : Code := 0xB2#8
def Rsn.keyCheck : Code := 0xB3#8
def Rsn.arrayError : Code := 0xB4#8
def Rsn.resetAbort : Code := 0xB5#8

/-! Charter status codes (02 Table 2-8). -/
def Chr.ok : Code := 0x00#8
def Chr.badMagic : Code := 0x01#8
def Chr.badLayout : Code := 0x02#8
def Chr.sectionMalformed : Code := 0x03#8
def Chr.schemaUnsupported : Code := 0x04#8
def Chr.configMismatch : Code := 0x05#8
def Chr.rollback : Code := 0x06#8
def Chr.signerNotPermitted : Code := 0x07#8
def Chr.badSignature : Code := 0x08#8
def Chr.sectionMissing : Code := 0x09#8
def Chr.laneAllocation : Code := 0x0A#8
def Chr.limit : Code := 0x0B#8
def Chr.noCommonVersion : Code := 0x0C#8
def Chr.modeNotPermitted : Code := 0x0D#8
def Chr.notStopped : Code := 0x0E#8
def Chr.busy : Code := 0x0F#8
def Chr.storeFailed : Code := 0x10#8
def Chr.abandoned : Code := 0x11#8

/-! Key command results (03 Table 3-13). -/
def Kc.done : Code := 0x00#8
def Kc.badRecord : Code := 0x01#8
def Kc.unwrapFail : Code := 0x02#8
def Kc.slotReserved : Code := 0x03#8
def Kc.kindMismatch : Code := 0x04#8
def Kc.prevInUse : Code := 0x05#8
def Kc.noStaged : Code := 0x06#8
def Kc.domainMismatch : Code := 0x07#8
def Kc.genOrder : Code := 0x08#8
def Kc.keyExhausted : Code := 0x09#8
def Kc.tenantConflict : Code := 0x0A#8
def Kc.geodeFail : Code := 0x0B#8
def Kc.tampered : Code := 0x0C#8
def Kc.drbgFail : Code := 0x0D#8
def Kc.stagedPresent : Code := 0x0E#8
def Kc.noPrev : Code := 0x0F#8
def Kc.slotInUse : Code := 0x10#8

/-! Region command results (04 Table 4-5). -/
def Rc.done : Code := 0x00#8
def Rc.badRecord : Code := 0x01#8
def Rc.regionAbsent : Code := 0x02#8
def Rc.inUse : Code := 0x03#8
def Rc.zeroSize : Code := 0x04#8
def Rc.alignment : Code := 0x05#8
def Rc.limit : Code := 0x06#8
def Rc.carveOut : Code := 0x07#8
def Rc.overlap : Code := 0x08#8
def Rc.modeNotPermitted : Code := 0x09#8
def Rc.rootsFull : Code := 0x0A#8
def Rc.keyAbsent : Code := 0x0B#8
def Rc.storeFailed : Code := 0x0C#8
def Rc.formatExhausted : Code := 0x0D#8
def Rc.busy : Code := 0x0E#8

/-! SRE (06 Table 6-8). -/
def Sc.badDescriptor : Code := 0x50#8
def Sc.featureDenied : Code := 0x51#8
def Sc.groupOrder : Code := 0x52#8
def Sc.groupTableFull : Code := 0x53#8
def Sc.groupTableBad : Code := 0x54#8
def Sc.descMismatch : Code := 0x55#8
def Sc.chunkAuth : Code := 0x56#8
def Sc.chunkMalformed : Code := 0x57#8
def Sc.peerAbort : Code := 0x58#8
def Sc.collTimeout : Code := 0x59#8
def Sc.checkFail : Code := 0x5A#8
def Sc.cancelled : Code := 0x5B#8

/-! BCE (07 Table 7-10). -/
def Bc.jobMalformed : Code := 0x60#8
def Bc.parcelMalformed : Code := 0x61#8
def Bc.parcelForeign : Code := 0x62#8
def Bc.parcelAuth : Code := 0x63#8
def Bc.parcelReplay : Code := 0x64#8
def Bc.dstSpace : Code := 0x65#8
def Bc.releaseDenied : Code := 0x66#8
def Bc.approvalInvalid : Code := 0x67#8
def Bc.quorumShort : Code := 0x68#8
def Bc.releaseWeaker : Code := 0x69#8
def Bc.serialUsed : Code := 0x6A#8
def Bc.serialExhausted : Code := 0x6B#8
def Bc.ownersAbsent : Code := 0x6C#8
def Bc.bulkCheckFail : Code := 0x6D#8
def Bc.jobAbandoned : Code := 0x6E#8
def Bc.bceFlashFailed : Code := 0x6F#8

/-! Stratum controller (08 Table 8-15). -/
def Str.stratumMalformed : Code := 0x70#8
def Str.stratumOrder : Code := 0x71#8
def Str.stratumBusy : Code := 0x72#8
def Str.notArchivist : Code := 0x73#8
def Str.cutMismatch : Code := 0x74#8
def Str.cutTimeout : Code := 0x75#8
def Str.cutAborted : Code := 0x76#8
def Str.stratumFrozen : Code := 0x77#8
def Str.stratumFlashFailed : Code := 0x78#8
def Str.msgAuth : Code := 0x79#8
def Str.manifestAuth : Code := 0x7A#8
def Str.manifestMalformed : Code := 0x7B#8
def Str.shapeMismatch : Code := 0x7C#8
def Str.stratumMixed : Code := 0x7D#8
def Str.shardMismatch : Code := 0x7E#8
def Str.shardAuth : Code := 0x7F#8

/-! Host objects unit (09 Table 9-13). -/
def Hc.sliceAbsent : Code := 0x80#8
def Hc.sliceResetting : Code := 0x81#8
def Hc.sliceReset : Code := 0x82#8
def Hc.cmdMalformed : Code := 0x83#8
def Hc.queueAbsent : Code := 0x84#8
def Hc.foreign : Code := 0x85#8
def Hc.objAbsent : Code := 0x86#8
def Hc.objRetiring : Code := 0x87#8
def Hc.eventAbsent : Code := 0x88#8
def Hc.fenceEnd : Code := 0x89#8
def Hc.cancelMiss : Code := 0x8A#8
def Hc.hobBusy : Code := 0x8B#8
def Hc.hobInUse : Code := 0x8C#8
def Hc.indexUsed : Code := 0x8D#8
def Hc.indexRange : Code := 0x8E#8
def Hc.ringMalformed : Code := 0x8F#8
def Hc.regionCmdFailed : Code := 0x90#8
def Hc.hobStopped : Code := 0x91#8

/-! Attestation (12 Table 12-10). -/
def Ac.attMalformed : Code := 0xC0#8
def Ac.roleWrong : Code := 0xC1#8
def Ac.nonceStale : Code := 0xC2#8
def Ac.capsuleAuth : Code := 0xC3#8
def Ac.endorseFail : Code := 0xC4#8
def Ac.admissionRefused : Code := 0xC5#8
def Ac.rosterFull : Code := 0xC6#8
def Ac.admitLocked : Code := 0xC7#8
def Ac.admitUnlocked : Code := 0xC8#8
def Ac.memberUnlisted : Code := 0xC9#8
def Ac.kexMismatch : Code := 0xCA#8
def Ac.rosterStale : Code := 0xCB#8
def Ac.appointStale : Code := 0xCC#8
def Ac.fwDigest : Code := 0xCD#8
def Ac.fwAuth : Code := 0xCE#8
def Ac.fwRollback : Code := 0xCF#8
def Ac.fwState : Code := 0xD0#8
def Ac.ideBusy : Code := 0xD1#8
def Ac.ideState : Code := 0xD2#8
def Ac.attBusy : Code := 0xD3#8
def Ac.noIdentity : Code := 0xD4#8
def Ac.attFlashFailed : Code := 0xD5#8
def Ac.admitFull : Code := 0xD6#8

/-! Life cycle (13 Table 13-14). -/
def Lc.lcsMalformed : Code := 0xE0#8
def Lc.lcsStateWrong : Code := 0xE1#8
def Lc.lcsReplay : Code := 0xE2#8
def Lc.lcsRole : Code := 0xE3#8
def Lc.lcsAuth : Code := 0xE4#8
def Lc.lcsBusy : Code := 0xE5#8
def Lc.lcsFlashFailed : Code := 0xE6#8
def Lc.logFull : Code := 0xE7#8
def Lc.fuseDirty : Code := 0xE8#8
def Lc.debugActive : Code := 0xE9#8
def Lc.debugLocked : Code := 0xEA#8
def Lc.floorOrder : Code := 0xEB#8

/-! Fault classes (11 Table 11-3). -/
def Flc.laneCheck : Nat := 0
def Flc.laneSelftest : Nat := 1
def Flc.tagCheck : Nat := 2
def Flc.ghashResidue : Nat := 3
def Flc.sreResidue : Nat := 4
def Flc.sreDual : Nat := 5
def Flc.keysvcCheck : Nat := 6
def Flc.bulkCheck : Nat := 7
def Flc.arrayCorrected : Nat := 8
def Flc.arrayUncorrectable : Nat := 9
def Flc.fifoParity : Nat := 10
def Flc.clockLost : Nat := 11
def Flc.sealFail : Nat := 12
def Flc.treeFail : Nat := 13
def Flc.memPoison : Nat := 14
def Flc.keyExhausted : Nat := 15
def Flc.calOverrun : Nat := 16
def Flc.linkFault : Nat := 17
def Flc.linkBringup : Nat := 18
def Flc.storeFault : Nat := 19
def Flc.hang : Nat := 20
def Flc.resetHang : Nat := 21
def Flc.sliceHang : Nat := 22
def Flc.tamper : Nat := 23
def Flc.zeroiseVerify : Nat := 24
def Flc.rootFail : Nat := 25
def Flc.flashFail : Nat := 26
def Flc.loss : Nat := 28
def Flc.recovery : Nat := 29
def Flc.dump : Nat := 30
def Flc.portNoLanes : Nat := 31

end Sys2Proof.Machine
end

