-- ==== Sys2Proof/Config.lean ====
section
/-!
DEFINITION. What an implementation fixes and the manual does not restate: the published primitives and the free values, all without a body.
-/
namespace Sys2Proof

/-- AES-256 forward cipher of one block (FIPS 197, named in 00 "Standards"; log 2). -/
opaque Config.aesEnc : BitVec 256 → BitVec 128 → BitVec 128

/-- AES-256 inverse cipher of one block (log 2). -/
opaque Config.aesDec : BitVec 256 → BitVec 128 → BitVec 128

/-- SHA-384 of a message (log 2). -/
opaque Config.sha384 : List Byte → BitVec 384

/-- ECDSA verification over P-384 with SHA-384: public key (x then y), message, signature (r then s) (log 2). -/
opaque Config.ecdsaVerify : BitVec 768 → List Byte → BitVec 768 → Bool

/-- ECDSA signature: private scalar, message, and the draw that feeds its nonce (log 2). -/
opaque Config.ecdsaSign : BitVec 384 → List Byte → Nat → BitVec 768

/-- ECDH over P-384: the x coordinate of the shared point (log 2). -/
opaque Config.ecdhX : BitVec 384 → BitVec 768 → BitVec 384

/-- Whether a point lies on P-384 and is not the identity (log 2). -/
opaque Config.onCurve : BitVec 768 → Bool

/-- The public key of a private scalar (log 2). -/
opaque Config.pubOf : BitVec 384 → BitVec 768

/-- The free values of the model: the n-th value drawn from a source the manual leaves open or random (log 3). -/
opaque Config.draw : Nat → Nat

/-- The keystream that fills pad lines, under its seed: the manual names no cipher for it (04 R146; log 145). -/
opaque Config.padFill : BitVec 256 → Nat → BitVec 512

/-- The BCH(1023, 513) decoder: the message of a codeword, or none where more than 57 errors make it undecodable (03 R78; log 2). -/
opaque Config.bchDecode : BitVec 1023 → Option (BitVec 513)

/-- The BCH(1023, 513) encoder of one codeword (03 R80; log 2). -/
opaque Config.bchEncode : BitVec 513 → BitVec 1023

/-- The memory port and line slot an address is interleaved to: outside the manual's text (04 R107; log 8). -/
opaque Config.memPortOf : Nat → Nat

/-- The set of the derived-key cache that a derivation's tag selects (03 R85; log 3). -/
opaque Config.dkcSet : Nat → Nat

/-- The XTS tweak of a 64-byte unit of the flash partition, by its offset: the manual does not give it (13 R399; log 134). -/
opaque Config.flashTweak : Nat → BitVec 128

/-- What one shift of a granted scan chain makes of a word of the state it passes through (14 R449; log 3). -/
opaque Config.scanShift : Nat → Nat → Nat

/-- A charter image of the Shepol 32 schema, which only Dvorord documents, as the native image of the same contents (02 R58; log 3). -/
opaque Config.shepol32 : List Byte → List Byte

end Sys2Proof
end

