-- ==== Sys2Proof/Machine/State.lean ====
section
/-!
DEFINITION. The state of the block as plain data: every register, store, table, queue and pin the spec gives it, the queue of waiting commands, and the state at reset.
-/
namespace Sys2Proof.Machine

/-- No command of this block ends in a fault: the spec gives every command an effect or an answer (log 4). -/
inductive Fault where
  deriving DecidableEq, Repr

/-- Why a step gives no next state. -/
inductive Refusal where
  /-- A command without a meaning yet; raised by its arm of Dispatch alone. Safe: nothing is said of the command. -/
  | notModelled (mnemonic : String)
  deriving DecidableEq, Repr

/-! ### Configuration, pins, domains, time -/

/-- The scaled parameters of the instance (01 R44, Table 1-9; 15 R456, R457). -/
structure Cfg where
  lanes : Nat
  sreLog2 : Nat
  memPorts : Nat
  lnkPorts : Nat
  d2dPorts : Nat
  catLog2 : Nat
  ctrLog2 : Nat
  eabLog2 : Nat
  configId : Word
  hwRev : Word
  idcode : Word
  deriving DecidableEq, Repr

/-- One memory port's handshake levels (14 Table 14-7): inputs as last seen, then outputs. -/
structure MemPin where
  trained : Bool := false
  calReq : Bool := false
  calSeenLow : Bool := true
  srAck : Bool := false
  srHeld : Bool := true
  init : Bool := false
  calGnt : Bool := false
  srReq : Bool := false
  deriving DecidableEq, Repr

/-- One link or D2D port's handshake levels (14 Table 14-9). -/
structure LnkPin where
  up : Bool := false
  calReq : Bool := false
  calSeenLow : Bool := true
  en : Bool := false
  calGnt : Bool := false
  deriving DecidableEq, Repr

/-- Levels of the block's other pins (14 R418, R442, R446). -/
structure Pin where
  pwrok : Bool
  tmpHigh : Bool
  flPart : BitVec 8
  coldreq : Bool
  mem : Tbl MemPin
  lnk : Tbl LnkPin
  deriving DecidableEq, Repr

/-- One reset domain (01 R36 to R40; 11 R355, R356). A domain not listed is in reset with epoch 0. `first`: its epoch is the one the
cold start set, and its first exit leaves it so (log 70). -/
structure Dom where
  inReset : Bool := true
  epoch : Word := 0#32
  drops : Nat := 0
  clockLost : Bool := false
  first : Bool := true
  deriving DecidableEq, Repr

/-- The reset domains by their index of R356, and what CORE sees of ACLK (01 R36). -/
structure Doms where
  d : Tbl Dom
  aclkLost : Bool
  aclkWait : Bool
  deriving DecidableEq, Repr

/-- The time counts (10 R309; 11 R331): AON nanoseconds, ACLK since power good. -/
structure Tm where
  ns : Nat
  aclk : Nat
  deriving DecidableEq, Repr

/-! ### Faults and annals -/

/-- The requester a fault record names (11 R331), as it stood at acceptance. -/
structure Who where
  master : Nat
  world : Nat
  agent : Nat
  pasid : Option Nat
  slice : Option Nat
  context : Option Nat
  shelf : Nat
  addr : Nat
  tag : Nat
  deriving DecidableEq, Repr

/-- A fault record (11 Table 11-4). -/
structure FaultRec where
  cls : Nat
  verdict : Nat
  action : Nat
  reason : Code
  unit : Nat
  loc : Nat
  who : Option Who
  epoch : Word
  detail : Nat
  time : Nat
  hours : Nat
  boot : Nat
  deriving DecidableEq, Repr

/-- Where a reset stands (11 Table 11-8): asked for, draining (Q2), waiting for self-refresh (Q4), or restarting (Q7). -/
inductive RstPhase where
  | requested
  | drain
  | selfRefresh
  | restart
  deriving DecidableEq, Repr

/-- A reset in progress: its rung as FLT_STATUS.RUNG codes it, its port (Table 10-8 code), the class that started it, when its timer expires (11
R342) and when step Q2 stops waiting for writes (R343). -/
structure Running where
  rung : Nat
  port : Nat
  phase : RstPhase
  cls : Nat
  start : StartIn
  due : Nat := 0
  drainBy : Nat := 0
  deriving DecidableEq, Repr

/-- A reset of the past windows of R345. -/
structure PastReset where
  rung : Nat
  port : Nat
  ns : Nat
  deriving DecidableEq, Repr

/-- One unit's section of a crash dump (11 Table 11-9). -/
structure DumpSec where
  unit : Nat
  status : Nat
  words : List Word
  pending : List (BitVec 128)
  deriving DecidableEq, Repr

/-- A crash dump (11 Table 11-9). -/
structure Dump where
  cause : Nat
  cls : Nat
  time : Nat
  hours : Nat
  boot : Nat
  recovery : Nat
  secs : List DumpSec
  deriving DecidableEq, Repr

/-- The FLT_ registers and the annals logger (11 R332, R342 to R361). -/
structure Flt where
  permanent : Bool
  dumpReady : Bool
  annalsLost : Bool
  ignoredWrite : Bool
  ignoredOffset : Nat
  merged : Nat
  coldReq : Bool
  escCtrl : Word
  hangCtrl : Word
  waitUs : Nat
  annalsSel : Word
  dumpSel : Word
  epochSel : Word
  queue : List FaultRec
  stalled : List FaultRec
  running : List Running
  portWait : List (Nat × Nat)
  history : List PastReset
  dump : Option Dump
  dumpDue : Bool
  dumpNext : Nat
  lossW : Tbl Nat
  lossC : Tbl Nat
  recovery : Nat
  coreResets : Nat
  hours : Nat
  deriving DecidableEq, Repr

/-! ### Fuses, flash, charter -/

/-- A charter as merged (02 R473): header values, and per section type its VERSION and body. -/
structure Charter where
  schemaMajor : Nat
  schemaMinor : Nat
  signer : Nat
  sequence : Nat
  configId : Nat
  secs : Tbl (Nat × List Byte)
  deriving DecidableEq, Repr

/-- One charter slot in flash: the merged image in its first 64 KiB, and the sector that follows, SEQUENCE and the binding tag (02 R54). -/
structure ChrSlot where
  chr : Charter
  sequence : Nat
  bind : BitVec 128
  deriving DecidableEq, Repr

/-- The PUF helper record (03 Table 3-7). -/
structure Helper where
  serial : Nat
  kcv : BitVec 64
  offset : BitVec 20460
  mac : BitVec 128
  deriving DecidableEq, Repr

/-- The life-cycle intent record (13 R402). -/
structure Intent where
  bytes : List Byte
  deriving DecidableEq, Repr

/-- The flash partition as logical records, what a read of each would give (14 R443, R475; log 11). -/
structure Flash where
  intent : Option Intent
  formatEpoch : Nat
  hours : Nat
  boot : Nat
  userKey : Option (BitVec 512)
  slots : Tbl ChrSlot
  slotVoid : List Nat
  dumps : Tbl Dump
  rings : Tbl (List FaultRec)
  standing : List (Nat × Nat × Nat)
  accession : Tbl (List Byte)
  accVoid : List Nat
  helper : Option Helper
  certChain : Option (List Byte)
  endorse : Option (List Byte)
  importHigh : Tbl Nat
  exportReserve : Tbl Nat
  stratumHigh : Tbl Nat
  appoint : Option (List Byte)
  fwTags : Tbl (List Byte)
  deriving DecidableEq, Repr

/-- The fuse macro and its shadow (03 R75; 13 R394; 14 R444). -/
structure Fuse where
  blown : BitVec 8192
  shadow : BitVec 8192
  deriving DecidableEq, Repr

/-- A charter load between steps 4 and 7 of Table 2-9 (02 R60). -/
structure ChrLoad where
  merged : Charter
  bind : BitVec 128
  carried : List Nat
  slot : Nat
  deriving DecidableEq, Repr

/-- The GEN_ group: start, charter, functions, interrupts (02; 15 R456 to R459). `c5Wait`: the cold start that waits at step C5 for a clock. -/
structure Gen where
  released : Bool
  ready : Bool
  unchartered : Bool
  c6Done : Bool
  c10Done : Bool
  c12Done : Bool
  halted : Bool
  c5Wait : Option StartIn
  lastStart : Nat
  startDrbg : Bool
  startUnch : Bool
  startBedFail : Bool
  startBedAbsent : Bool
  startGeode : Bool
  strap : Bool
  cclkMhz : BitVec 12
  cclkValid : Bool
  chrBase : BitVec 64
  chrShelf : Word
  chrLen : Word
  chrWindow : List Host.Cell
  chrBusy : Bool
  chrStaged : Bool
  chrOverrun : Bool
  chrCode : Code
  charter : Option Charter
  slotInUse : Nat
  glob : List Byte
  load : Option ChrLoad
  funcStop : BitVec 32
  funcHeld : BitVec 32
  funcState : BitVec 32
  verSel : Word
  irqStatus : Word
  irqEnable : Word
  commitCode : Code
  commitPair : Nat
  commitPort : Nat
  portSel : Word
  wlatch : Tbl Word
  rlatch : Tbl Word
  deriving DecidableEq, Repr

/-! ### Lanes -/

/-- The state of a lane (01 Table 1-2). -/
inductive LaneSt where
  | absent
  | spare
  | bound (port : Nat)
  | common
  | fenced
  deriving DecidableEq, Repr

/-- A lane (01 R18, R20, R26; 11 R336, R338). A lane not listed is ABSENT. -/
structure Lane where
  st : LaneSt := .absent
  selfOk : Bool := true
  fenceMark : Bool := false
  driverHeld : Bool := false
  testing : Bool := false
  testByDriver : Bool := false
  verdict : Nat := 0
  deriving DecidableEq, Repr

/-- A place that a fenced lane left in a group, and when, in AON nanoseconds (01 R29 to R31). -/
structure Vacancy where
  lane : Nat
  group : Nat
  at_ : Nat
  deriving DecidableEq, Repr

/-- A beat that a lane has done, by its group, request and place: it waits for those ahead of it (01 R24). -/
structure BeatDone where
  group : Nat
  req : Nat
  index : Nat
  last : Bool
  lane : Nat
  data : Line
  deriving DecidableEq, Repr

/-- One derived-key cache or group buffer entry: its derivation, and the key XOR its scrambling keystream (03 R85, R98). -/
structure DkEntry where
  tag : KeyHandle
  stored : BitVec 576
  deriving DecidableEq, Repr

/-- The lane pool (01 R18 to R32). Port groups 0 to 23 by the code of Table 10-8, group 24 the common group. `flaw`: lanes whose next compare fails,
and whether its replay fails too (log 144); `next`: per group, the place of the next beat to release of a request; `done`: beats that wait for it;
`turn`: the engine whose turn it is for a COMMON lane (07 R248). -/
structure LanePool where
  l : Tbl Lane
  size : Tbl Nat
  bceMin : Nat
  vacant : List Vacancy
  lent : List Nat
  ctx : Tbl (List DkEntry)
  flaw : Tbl Bool
  next : List (Nat × Nat × Nat)
  done : List BeatDone
  turn : Nat
  deriving DecidableEq, Repr

/-! ### Key services -/

/-- A vault half as stored: XOR its mask, with the mask key that covers it and the mask epoch (03 R98). -/
structure Half where
  masked : BitVec 256
  keyNo : Bool
  epoch : Nat
  deriving DecidableEq, Repr

/-- The masks of a slot (03 Table 3-11): life-cycle, world, master, volume. -/
structure Masks where
  lcs : BitVec 6
  world : BitVec 4
  master : BitVec 8
  vol : BitVec 8
  deriving DecidableEq, Repr

/-- A vault slot (03 R88). KIND 0 is EMPTY. -/
structure Slot where
  kind : Nat
  rootClass : Nat
  tenant : Nat
  masks : Masks
  genCur : Nat
  prevLive : Bool
  staged : Option Masks
  half0 : Option Half
  half1 : Option Half
  cnt0 : Nat
  cnt1 : Nat
  deriving DecidableEq, Repr

/-- The AON kill bank (03 R99). -/
structure KillBank where
  mask0 : Option (BitVec 256)
  mask1 : Option (BitVec 256)
  scramble : Option (BitVec 256)
  geode : Option (BitVec 256)
  bedrock : Option (BitVec 256)
  deriving DecidableEq, Repr

/-- Key services and the vault (03). -/
structure Key where
  kill : KillBank
  slots : Tbl Slot
  maskEpoch : Nat
  maskCur : Bool
  slateOn : Bool
  bedrockFail : Bool
  bedrockAbsent : Bool
  geodeFail : Bool
  drbgFail : Bool
  tampered : Bool
  killed : Bool
  zeroised : Bool
  coreWipeDue : Bool
  lastReason : Code
  geodeCause : Nat
  enrolled : Bool
  pufRead : Bool
  idPub : Option (BitVec 768)
  kexPub : Option (BitVec 768)
  dkc : List DkEntry
  missq : List (KeyHandle × List Nat)
  drbgUp : Bool
  drbgReqs : Nat
  reseedDue : Bool
  retries : Nat
  seedWait : Nat
  cmdAddr : BitVec 64
  cmdShelf : Word
  cmdArg : BitVec 64
  cmdBusy : Bool
  cmdResult : Code
  slotSel : Word
  genWait : Option Nat
  deriving DecidableEq, Repr

/-! ### Fabric operations and FABPORT answers -/

/-- A fabric operation: the header of 05 Table 5-9 and its data. -/
structure FabOp where
  op : Nat
  flagged : Bool
  fetch : Bool
  last : Bool
  shape : Nat
  ttl : Nat
  tag : Nat
  address : Nat
  shelf : Nat
  cls : Nat
  world : Nat
  deadline : Word
  epoch : Word
  dest : Nat
  src : Nat
  data : List Byte
  deriving DecidableEq, Repr

/-- Who is answered when a memory operation completes. -/
inductive Src where
  /-- A FABPORT channel: its request tag and epoch (14 R427). -/
  | fab (ch : Nat) (tag : BitVec 16) (epoch : Word)
  /-- The debug access path (14 R450). -/
  | dbg
  /-- A fabric operation taken from the ingress queue, and the port it came in on (05 R180). -/
  | remote (op : FabOp) (port : Nat)
  /-- The block's own traffic: nothing is answered (04 R107). -/
  | own
  deriving DecidableEq, Repr

/-- What the block puts on its output ports, in order (log 13). -/
inductive Out where
  | fabRsp (ch : Nat) (tag : BitVec 16) (epoch : Word) (beat : Nat) (last : Bool) (data : Stored) (poison : Bool)
      (result service : Nat) (reason : Code) (lateness : Nat)
  | fabLpsn (ch : Nat) (tag : BitVec 16) (reason : Code)
  | memCmd (port : Nat) (write : Bool) (line tag : Nat) (epoch : Word) (cls : Nat) (data : Stored)
  | frame (port : Nat) (f : Frame)
  | ctlRsp (data : Word) (err : Nat)
  | flashOp (record : String)
  | flashErase (offset bytes : Nat)
  | flashProgram (offset : Nat) (data : List Byte)
  | fuseBlow (bit : Nat)
  | lane (lane : Nat) (data : Line) (reqTag : Nat)
  | dbg (name : String) (status data : Nat)
  | outputsReset
  deriving DecidableEq, Repr

/-! ### IME -/

/-- A catalogue entry (04 Table 4-2, Table 4-3). An index not listed is FREE at the format's REGION_GEN. -/
structure Region where
  state : Nat
  base : Nat
  size : Nat
  mode : Nat
  init : Bool
  volume : Nat
  verify : Nat
  compress : Bool
  rawRead : Bool
  rawWrite : Bool
  shape : Nat
  renew : Bool
  lcs : BitVec 6
  world : BitVec 4
  rd : BitVec 8
  wr : BitVec 8
  creations : Nat
  baseGen : Nat
  sweepPtr : Nat
  treeOff : Nat
  rootIx : Nat
  release : Nat
  snap : Nat
  snapPtr : Nat
  deriving DecidableEq, Repr

/-- A counter line of a P3 page (04 Table 4-10): major count, minors of the lines written, the parity it carries, and whether a
minor overflow has found its major count exhausted (04 R133). -/
structure CtrLine where
  major : Nat
  minors : Tbl Nat
  parity : Bool
  ended : Bool := false
  deriving DecidableEq, Repr

/-- A root store entry (04 R128): the region it serves (the catalogue is region 2^21) and its top node's counters. -/
structure Root where
  owner : Nat
  cnt : Tbl Nat
  deriving DecidableEq, Repr

/-- What a memory operation does (04 Table 4-1, and the IME's own line traffic). -/
inductive MemKind where
  | read
  | write
  | partial_
  | rawRead
  | rawWrite
  | cread
  | cwrite
  | ownWrite
  | resident
  | copyRead
  /-- The header line of a CWRITE, read and checked before the block is written (04 R137, R144). -/
  | cwHead
  deriving DecidableEq, Repr

/-- Where a memory operation stands. -/
inductive MemPhase where
  /-- It waits for derivations of its keys (03 R86). -/
  | keyWait
  /-- Its page is under re-encryption (04 R132). -/
  | pageHeld
  /-- A cut holds it (08 R261). -/
  | cutHeld
  /-- An earlier operation on its line comes first (04 R108). -/
  | lineWait
  /-- It is ready to be issued at MEMPORT. -/
  | ready
  /-- Its read command is outstanding. -/
  | readOut
  /-- Its line has arrived and waits for the derivation of the keys that open it (03 R86). -/
  | openWait
  /-- It waits to issue its write command. -/
  | writeReady
  /-- Its write command is outstanding. -/
  | writeOut
  deriving DecidableEq, Repr

/-- One memory operation in a port's queue (04 R107). `gen`: the generation an encryption resolved at step K5 (03 R93); `answers`: what memory answered
to the tree reads that acceptance called for; `fetches`: the port and tag of each tree read issued with its own read (R131); `mism`: tag-unit mismatches
over the line that arrived (11 Table 11-1); `age`: the ageing time it entered with (10 R325); `due`: when
the watchdog of its outstanding command expires (11 R339). -/
structure MemEnt where
  seq : Nat
  port : Nat
  src : Src
  kind : MemKind
  phase : MemPhase
  line : Nat
  region : Nat
  reg : Region
  who : Who
  cls : Nat
  deadline : Option Nat
  entered : Nat
  aged : Bool
  plain : Line
  mask : BitVec 64
  stored : Stored
  tag : Nat
  lineIx : Nat
  n : Nat
  lines : Nat
  answered : Bool
  gen : Nat
  answers : List MemAnswer
  fetches : List (Nat × Nat)
  mism : Nat
  major : Nat
  minor : Nat
  fail : Code
  cutOk : Bool
  age : Nat
  due : Nat
  deriving DecidableEq, Repr

/-- A compressed block in progress (04 R144 to R146): its lines answered so far, and whether its header line has been checked. -/
structure Blk where
  id : Nat
  src : Src
  who : Who
  write : Bool
  n : Nat
  s : Nat
  region : Nat
  deadline : Option Nat
  cls : Nat
  port : Nat
  got : Tbl (Line × Code)
  checked : Bool := true
  deriving DecidableEq, Repr

/-- A sweep of a region (04 R140 to R142). -/
structure Sweep where
  region : Nat
  renew : Bool
  ptr : Nat
  skipped : Nat
  failed : List Nat
  verifying : Bool
  deriving DecidableEq, Repr

/-- A memory-port or link calibration window: asked for at `at_`, in AON nanoseconds, and open or not, since then (04 R150; 05 R188). `limit`: LIMIT_US in
nanoseconds as it stood at the request (15 Table 15-6). -/
structure CalWin where
  port : Nat
  open_ : Bool
  at_ : Nat
  limit : Nat
  deriving DecidableEq, Repr

/-- A page of the COW buffer (08 R266): its copied lines by offset, or why a copy read failed. -/
structure CowPage where
  region : Nat
  page : Nat
  lines : Tbl Line
  fail : Code
  deriving DecidableEq, Repr

/-- The inline memory engine (04; 15 Tables 15-6, 15-7). `catCache`: the indices in the catalogue cache, the most recent first (R114); `cached`: the tree
lines in the counter cache by region, level and place, the most recent first (R130); `catSt`, `catPtr`, `catRenew`: STATE, SWEEP_PTR and RENEW of the
catalogue itself (R134); `dying`: regions that DESTROY has closed to requests and that still complete earlier ones, and whether the driver's command
waits (R118); `padSeed`, `padUsed`: the keystream that fills pad lines, and the lines taken from it (R146); `shelveDebt`: on each memory port, the 64ths of beats that
sweeps still owe to RATE (R140). -/
structure Ime where
  formatted : Bool
  formatDue : Bool
  createLimit : Nat
  formatEpoch : Nat
  cat : Tbl Region
  roots : Tbl Root
  ctr : Tbl (Tbl CtrLine)
  node : Tbl (Tbl Nat)
  cached : List (Nat × Nat × Nat)
  catCache : List Nat
  catSt : Nat
  catPtr : Nat
  catRenew : Bool
  dying : List (Nat × Bool)
  padSeed : Option (BitVec 256)
  padUsed : Nat
  shelveDebt : Tbl Nat
  dirty : List (Nat × Nat × CtrLine)
  ents : List MemEnt
  blks : List Blk
  seq : Nat
  sweeps : List Sweep
  cals : List CalWin
  pageHeld : List (Nat × Nat)
  padFails : Nat
  lastReason : Code
  lostCounters : Nat
  shelveCtrl : Word
  calCtrl : Word
  cmdAddr : BitVec 64
  cmdShelf : Word
  cmdBusy : Bool
  cmdCode : Code
  cmdOp : Nat
  cmdIndex : Nat
  cmdWait : Option (Nat × Nat)
  copyAhead : List (Nat × Nat)
  cow : List CowPage
  renewed : List (Nat × Nat)
  deriving DecidableEq, Repr

/-! ### ILE -/

/-- Port states (05 Table 5-1). -/
inductive PortSt where
  | down
  | hello
  | keying
  | open_
  | rekeying
  | retrain
  | failed
  deriving DecidableEq, Repr

/-- An operation or response waiting for a VC of a port (05 R169), with its place in the order of issue (R176). -/
structure TxOp where
  vc : Nat
  op : FabOp
  shape : Nat
  deadline : Option Nat
  entered : Nat
  aged : Bool
  orig : Option Nat
  pad : Nat
  seq : Nat
  age : Nat := 0
  deriving DecidableEq, Repr

/-- A rekey under way (05 Table 5-7). -/
structure Rekey where
  priv : Option (BitVec 384)
  pub : BitVec 768
  peer : Option (BitVec 768)
  hash : BitVec 384
  txDone : Bool
  rxDone : Bool
  since : Nat := 0
  deriving DecidableEq, Repr

/-- Shaping of one VC set (05 R189; 15 Table 15-9): the 64-bit mode and cadence registers. -/
structure ShapeRegs where
  mode : BitVec 64
  cad : BitVec 64
  deriving DecidableEq, Repr

/-- One link or D2D port (05 R153 to R170; 15 Table 15-9). `ctlq`: the NAK, REKEY and REKEY_DONE frames that a calibration window keeps from being
formed, by FTYPE; `nakAt`: when the latest NAK came; `helloDue`, `shareDue`, `rekeyDue`: the step L2, L5 or RK1 that waits for random numbers;
`shareWait`, `rekeyPeer`: the peer's KEY_SHARE and REKEY meanwhile.
`stepAt`: when the present step of a bring-up began, or the latest one failed (R156, R159).
`resetAsked`: a reset written to ILE_PORT_CTRL.RESET waits (R159). -/
structure LPort where
  st : PortSt := .down
  resume : PortSt := .open_
  fail : Nat := 0
  peerMember : Nat := 0
  peerRole : Nat := 0
  peerPort : Nat := 0
  peerInst : Nat := 0
  portVer : Nat := 0
  fabVer : Nat := 0
  session : Nat := 0
  txSeq : Nat := 0
  rxSeq : Nat := 0
  rekeyCtrl : Word := 0x28#32
  thresh : Nat := 40
  replay : List (Nat × Frame) := []
  nakSeq : Nat := 0
  nakCount : Nat := 0
  used : Tbl Nat := []
  freed : Tbl Nat := []
  held : Tbl Nat := []
  deficit : Tbl Nat := []
  msgs : Tbl (List Byte) := []
  ephPriv : Option (BitVec 384) := none
  thash : BitVec 384 := 0#384
  rekey : Option Rekey := none
  overdue : Bool := false
  txq : List TxOp := []
  ctlq : List Nat := []
  nakAt : Nat := 0
  helloDue : Bool := false
  shareDue : Bool := false
  shareWait : List Byte := []
  rekeyDue : Bool := false
  rekeyPeer : List Byte := []
  resetAsked : Bool := false
  stepAt : Nat := 0
  shape : Option ShapeRegs := none
  shadow : Option ShapeRegs := none
  deriving DecidableEq, Repr

/-- Who originated a fabric operation. -/
inductive OrigSrc where
  | fab (ch : Nat) (tag : BitVec 16) (epoch : Word) (mid : Word)
  | host (flight : Nat)
  | sre (group coll id : Nat)
  | stratum (entry : Nat)
  | none_
  deriving DecidableEq, Repr

/-- An entry of the origination table (05 R185): `seq` its place in the order of issue, `pad` the length its frame is sized for, `fail` the reason a
lane's compare gave it (01 R23). -/
structure Orig where
  src : OrigSrc
  op : FabOp
  vc : Nat
  egress : Nat
  who : Who
  deadline : Option Nat
  accepted : Nat
  posted : Bool
  held : Bool
  nacks : Nat
  resend : Bool
  msg : Option Nat
  seq : Nat
  pad : Nat
  fail : Code := 0#8
  deriving DecidableEq, Repr

/-- An operation in the target ingress queue (05 R181). -/
structure Ingress where
  op : FabOp
  port : Nat
  vc : Nat
  deadline : Option Nat
  answers : List MemAnswer
  deriving DecidableEq, Repr

/-- A line resident in the atomic unit (05 R179). -/
structure Resident where
  line : Nat
  data : Line
  region : Nat
  dirty : Bool
  deriving DecidableEq, Repr

/-- A message being gathered (05 R184). -/
structure Msg where
  src : Nat
  queue : Nat
  message : Nat
  bytes : List Byte
  deriving DecidableEq, Repr

/-- An entry of the roster table (12 R379): instance ID, KIND, admission index, KEX digest. -/
structure RosterEnt where
  inst : Nat
  kind : Nat
  admitted : Nat
  kex : List Byte
  deriving DecidableEq, Repr

/-- An outgoing write that a cut holds before ILE acceptance (08 R261). -/
structure HeldOut where
  src : OrigSrc
  op : FabOp
  who : Who
  deadline : Option Nat
  posted : Bool
  deriving DecidableEq, Repr

/-- A message of the block that waits for origination entries (05 R184; 10 R319). -/
structure PendingSend where
  src : OrigSrc
  queue : Nat
  message : Nat
  dest : Nat
  cls : Nat
  shape : Nat
  who : Who
  deadline : Option Nat
  bytes : List Byte
  deriving DecidableEq, Repr

/-- The inline link engine (05; 15 Tables 15-8, 15-9). -/
structure Ile where
  ports : Tbl LPort
  vcMap : BitVec 64
  routeAddr : Word
  routes : Tbl Word
  calCtrl : Word
  staleDrops : Nat
  postedLost : Bool
  lastReason : Code
  orig : Tbl Orig
  issue : Tbl Nat
  lost : List (Word × Nat × Nat)
  ingress : List Ingress
  nacked : List (Nat × Nat × Nat)
  resident : List Resident
  msgs : List Msg
  cals : List CalWin
  roster : Tbl RosterEnt
  heldOut : List HeldOut
  nextMsg : Nat
  sendq : List PendingSend
  creditNext : Nat
  deriving DecidableEq, Repr

/-! ### QOS -/

/-- Statistics of one port and class (10 Table 10-8). -/
structure QStat where
  tier0 : Nat := 0
  tier1 : Nat := 0
  served : Nat := 0
  late : Nat := 0
  refused : Nat := 0
  agedN : Nat := 0
  lateMax : Nat := 0
  deriving DecidableEq, Repr

/-- Service classes (10 R311, R313, R325, R326). Keys are 16 × port + class. -/
structure Qos where
  ctrl : Word
  statSel : Word
  credit : Tbl Nat
  carry : Tbl Nat
  stats : Tbl QStat
  deriving DecidableEq, Repr

/-! ### Life cycle -/

/-- A life-cycle action whose fuse blows are under way (13 R401 T2, R412): its record, the bits still to blow, and the blows
tried on the first of them (14 R445). -/
structure LcsAct where
  record : List Byte
  bits : List Nat
  tries : Nat
  flashOk : Bool
  deriving DecidableEq, Repr

/-- The LCS_ group and the life-cycle state (13 R394 to R414; 15 Table 15-14). `st` is LCS_STATE.LCS. -/
structure Lcs where
  st : Nat
  disagree : Bool
  discarded : Bool
  resumed : Bool
  intentPending : Bool
  debug : Bool
  scope : Nat
  debugPending : Bool
  pendingScope : Nat
  cmdBusy : Bool
  overrun : Bool
  code : Code
  cmdAddr : BitVec 64
  cmdShelf : Word
  stage : List Host.Cell
  accSel : Word
  accCount : Nat
  accChain : BitVec 384
  act : Option LcsAct
  deriving DecidableEq, Repr

/-! ### SRE -/

/-- A waiting engine command: its flight, and the descriptor it names (06 R210; 07 R230). -/
structure Launch where
  flight : Nat
  world : Nat
  slice : Nat
  context : Nat
  addr : Nat
  shelf : Nat
  deadline : Option Nat
  entered : Nat
  deriving DecidableEq, Repr

/-- An in-edge (06 R205, R213, R214): next EDGE_SEQ to consume, LIMIT granted, chunks consumed since the last CREDIT, since when its
peer is waited on (R223), and the messages held out of order. -/
structure InEdge where
  rank : Nat
  next : Nat := 0
  limit : Nat := 0
  since : Nat := 0
  at_ : Nat := 0
  held : Tbl (List Byte) := []
  deriving DecidableEq, Repr

/-- An out-edge (06 R213): next EDGE_SEQ, the LIMIT held (none before the first CREDIT), and the sealed messages that wait. -/
structure OutEdge where
  rank : Nat
  next : Nat := 0
  limit : Option Nat := none
  waiting : Tbl (List Byte) := []
  deriving DecidableEq, Repr

/-- A message sent and not yet acknowledged (06 R223, R224); `due`: when it goes again, once its SEND ended with DEAD_TARGET. -/
structure Unacked where
  id : Nat
  rank : Nat
  chunk : Bool
  bytes : List Byte
  due : Option Nat
  deriving DecidableEq, Repr

/-- A collective context (06 R210). `own` holds one 32-bit word for each element, `acc` the partials in formation by first element. -/
structure Coll where
  flight : Nat
  world : Nat
  slice : Nat
  context : Nat
  deadline : Option Nat
  desc : List Byte
  members : List Nat
  digests : List Byte
  slot : Nat
  half : Nat
  gen : Nat
  seed : BitVec 256
  started : Nat
  timeoutMs : Nat
  window : Nat
  own : List Word
  present : List Bool
  acc : Tbl (Nat × List Word × List Bool)
  ins : List InEdge
  outs : List OutEdge
  unacked : List Unacked
  nextMsg : Nat
  owedIn : Nat
  owedOut : Nat
  nonfinite : Nat
  overflow : Nat
  deriving DecidableEq, Repr

/-- An entry of the SRE group table (06 R208). -/
structure GroupEnt where
  group : Nat
  epoch : Nat
  last : Nat
  deriving DecidableEq, Repr

/-- A message of the early-arrival buffer, as received, and until when it is held, in AON nanoseconds (06 R212; 15 R464). -/
structure EabMsg where
  src : Nat
  until_ : Nat
  bytes : List Byte
  lost : Bool := false
  deriving DecidableEq, Repr

/-- The secure reduction engine (06; 15 R464). `groups` and `floor` belong to AON (06 R208). `flaw`: a check of the datapath that fails at the next
elements it works on, whether it is the dual compare, and whether it fails again when they are recomputed (06 R226, R227; log 137). -/
structure Sre where
  ctrl : Word
  ctrlShadow : Word
  eabCtrl : Word
  eabShadow : Word
  lateMsgs : Nat
  eabExpired : Nat
  lastReason : Code
  groups : Tbl GroupEnt
  floor : Nat
  groupStatus : Word
  colls : Tbl Coll
  launch : List Launch
  eab : List EabMsg
  flaw : Option (Bool × Bool)
  deriving DecidableEq, Repr

/-! ### BCE and stratum controller -/

/-- A job (07 R228 to R232). It waits until `opened`; it runs while `engine` names one, and is suspended while opened without one. Its place: segment
`seg`, byte `off` of it, with the input read so far in `buf`, the output formed in `out`, the GCM counter `ctr` and the GHASH accumulator `acc`.
`consumed`: it has taken a serial; `wrote`: it has written to DST or to the owner table (R249); `fail`: the reason a lane's compare gave it. -/
structure Job where
  id : Nat
  op : Nat
  flight : Option Nat
  cut : Option Nat
  pos : Nat
  world : Nat
  slice : Nat
  context : Nat
  addr : Nat
  shelf : Nat
  desc : List Byte
  deadline : Option Nat
  entered : Nat
  engine : Option Nat
  opened : Bool
  slot : Nat
  half : Nat
  gen : Nat
  inSlot : Nat
  inHalf : Nat
  region : Nat
  header : List Byte
  outHeader : List Byte
  seg : Nat
  segs : Nat
  segDone : Nat
  serial : Nat
  reserved : Nat
  plain : List Byte
  off : Nat
  buf : List Byte
  out : List Byte
  ctr : Nat
  acc : BitVec 128
  consumed : Bool
  wrote : Bool
  fail : Code
  deriving DecidableEq, Repr

/-- Where an open cut stands (08 Table 8-8). -/
inductive CutStep where
  | flush
  | waitGo
  | shards
  | waitDone
  deriving DecidableEq, Repr

/-- A region of an open stratum command (08 Table 8-5), with its RELEASE and MODE as read at the check. -/
structure CutRegion where
  shelf : Nat
  shardShelf : Nat
  shardAddr : Nat
  shardLen : Nat
  release : Nat
  mode : Nat
  size : Nat
  deriving DecidableEq, Repr

/-- An open stratum command (08 R258 to R276). `rel` lists the originations the flush still awaits. -/
structure Cut where
  flight : Nat
  restore : Bool
  world : Nat
  slice : Nat
  context : Nat
  deadline : Option Nat
  desc : List Byte
  tenant : Nat
  stratum : Nat
  slot : Nat
  half : Nat
  gen : Nat
  started : Nat
  timeoutMs : Nat
  step : CutStep
  regions : List CutRegion
  ranks : List Nat
  flush : List Nat
  ready : List Nat
  reports : Tbl (List Byte)
  entries : List Byte
  sealed_ : Nat
  copied : Nat
  reserved : Nat
  deriving DecidableEq, Repr

/-- A stratum message kept for a stratum not yet open at the archivist (08 R264). -/
structure EarlyMsg where
  tenant : Nat
  stratum : Nat
  src : Nat
  bytes : List Byte
  deriving DecidableEq, Repr

/-- The bulk cipher engine and the stratum controller (07, 08; 15 R464). -/
structure Bce where
  lateMsgs : Nat
  lastReason : Code
  stratumCtrl : Word
  jobs : List Job
  nextJob : Nat
  owners : Tbl (Nat × List (BitVec 768))
  exportFloor : Tbl Nat
  cuts : Tbl Cut
  early : List EarlyMsg
  deriving DecidableEq, Repr

/-! ### Attestation -/

/-- A mailbox and its SPDM connection (12 R364, R366): the messages so far of the connection and its negotiated version. -/
structure Mbx where
  req : List Host.Cell := []
  reqLen : Nat := 0
  rsp : List Byte := []
  rspReady : Bool := false
  busy : Bool := false
  pos : Nat := 0
  version : Nat := 0
  algs : Bool := false
  caps : Bool := false
  vca : List Byte := []
  meas : List Byte := []
  auth : List Byte := []
  deriving DecidableEq, Repr

/-- A firmware measurement (12 R372). -/
structure FwMeas where
  version : Nat
  digest : List Byte
  deriving DecidableEq, Repr

/-- The continuity counts of one memory port (12 Table 12-5). -/
structure ContPort where
  srHeld : Bool := false
  lastW : Nat := 0
  lastC : Nat := 0
  totalW : Nat := 0
  totalC : Nat := 0
  breaks : Nat := 0
  resets : Nat := 0
  deriving DecidableEq, Repr

/-- An IDE stream (12 R387 to R390): STREAM_ID and the KEY_SET of its last delivery. -/
structure IdeStream where
  streamId : Nat
  keySet : Nat
  deriving DecidableEq, Repr

/-- An attestation command that has passed its checks and waits for random numbers, with what it chose at its start (03 R100; 12 R381): ENLIST_NONCE;
WRAP_DOMAIN, with the half it wraps; GEN_PAIR; IDE_KEYEX; IDE_DELIVER. -/
inductive AttJob where
  | nonce
  | wrap (slot half tenant gen : Nat) (masks : Masks) (kex : List Byte)
  | pair (tenant gen : Nat) (kex : List Byte)
  | keyex (stream arg : Nat) (request : List Byte)
  | deliver (stream half set : Nat)
  deriving DecidableEq, Repr

/-- The operand block of a command that waits, what is left to do, and what memory answers to it. -/
structure AttWait where
  block : List Byte
  job : AttJob
  m : MemIn
  deriving DecidableEq, Repr

/-- The ATT_ group and the signer (12; 15 R470, R471). `mbxOrder` lists the requests that wait, oldest first: whether the debug path sent
it, and its ACLK (R364). -/
structure Att where
  cmdBusy : Bool
  cmdDetail : Nat
  cmdCode : Code
  cmdAddr : BitVec 64
  cmdShelf : Word
  fwTag : BitVec 128
  mbxCtl : Mbx
  mbxDbg : Mbx
  mbxOrder : List (Bool × Nat)
  fwCur : Tbl FwMeas
  fwStg : Tbl FwMeas
  member : Nat
  listed : Bool
  rosterEpoch : Nat
  rekeyEpoch : Nat
  admitted : List (List Byte)
  locked : Bool
  nonces : List (List Byte × Nat)
  nextIx : Nat
  contEvent : Nat
  contTime : Nat
  cont : Tbl ContPort
  ideRecv : Option (BitVec 768)
  ide : Tbl IdeStream
  delivery : Nat
  frozen : Option (List (List Byte))
  wait : Option AttWait
  deriving DecidableEq, Repr

/-! ### Debug access path -/

/-- The debug access path (14 R448 to R450): the instruction register and what each data register captures. -/
structure Dbg where
  ir : BitVec 8
  mbox : Word
  regs : BitVec 52
  fab : BitVec 704
  fabPending : Bool
  fabDiscard : Bool
  scan : List Bool
  deriving DecidableEq, Repr

/-! ### Host objects unit -/

/-- A slice (09 Table 9-1). A slice not listed is NORMAL with no live context. -/
structure Slice where
  live : Option Nat := none
  resetting : Bool := false
  squash : Bool := false
  resets : Nat := 0
  driver : Bool := false
  charter : Bool := false
  since : Nat := 0
  drainMs : Nat := 0
  squashMs : Nat := 0
  deriving DecidableEq, Repr

/-- A context; it is LIVE when its slice names it. -/
structure HCtx where
  slice : Nat
  world : Nat
  deriving DecidableEq, Repr

/-- A queue (09 Tables 9-1, 9-2): kind 1 SQ, 2 CQ, 3 RQ; `reserved` counts the CQ entries reserved (R284). -/
structure HQueue where
  kind : Nat
  ctx : Nat
  slice : Nat
  sizeLog2 : Nat
  slotLog2 : Nat
  shelf : Nat
  addr : Nat
  cq : Nat
  notify : Bool
  head : Nat
  tail : Nat
  reserved : Nat
  deriving DecidableEq, Repr

/-- An event (09 R293, R295). -/
structure HEvent where
  slice : Nat
  value : Nat
  ignored : Nat
  mirror : Bool
  mShelf : Nat
  mAddr : Nat
  deriving DecidableEq, Repr

/-- A memory object (09 R296 to R298): state 1 LIVE, 2 RETIRING. -/
structure HObj where
  slice : Nat
  cat : Nat
  state : Nat
  hold : Bool
  refs : Nat
  tried : Nat := 0
  deriving DecidableEq, Repr

/-- Where an in-flight command stands (09 R287 to R289). -/
inductive FlightSt where
  | fetched
  | dispatched
  | ended
  deriving DecidableEq, Repr

/-- An in-flight command: its record, its stage, and the engine's report once it has ended. -/
structure Flight where
  sq : Nat
  slice : Nat
  ctx : Nat
  world : Nat
  record : List Byte
  sqHead : Nat
  deadline : Option Nat
  stage : FlightSt
  result : Nat
  reason : Code
  detail : List Byte
  refs : List Nat
  target : Option Nat
  engaged : Bool
  entered : Nat
  untilCore : Bool := false
  deriving DecidableEq, Repr

/-- The host objects unit (09; 15 Tables 15-11, 15-12). -/
structure Hob where
  ctrl : BitVec 64
  fenceIgnored : Nat
  badDoorbell : Nat
  fenceEnd : Nat
  orphans : Nat
  lastReason : Code
  cmdAddr : BitVec 64
  cmdShelf : Word
  cmdArg : Word
  cmdBusy : Bool
  cmdDue : Nat
  cmdCode : Code
  cmdDetail : Nat
  busyHit : Bool
  cmdWait : Option (Nat × Nat)
  objSel : Word
  evtSel : Word
  slices : Tbl Slice
  ctxs : Tbl HCtx
  queues : Tbl HQueue
  events : Tbl HEvent
  objs : Tbl HObj
  flight : Tbl Flight
  nextFlight : Nat
  turn : List Nat
  deriving DecidableEq, Repr

/-! ### Reset values: every field as the spec states it, or as the log names it -/

/-- The full Relrik instance (01 Table 1-9, 15 Table 15-2; log 1). DBG_IDCODE is tied by the integrator: zero here (log 6). -/
def Cfg.relrik : Cfg :=
  { lanes := 208, sreLog2 := 10, memPorts := 4, lnkPorts := 16, d2dPorts := 4, catLog2 := 13, ctrLog2 := 23,
    eabLog2 := 21, configId := 0x00000001#32, hwRev := 0x00010000#32, idcode := 0#32 }

/-- A start with nothing failing. -/
def StartIn.plain : StartIn :=
  { tmpHigh := true, frCompat := false, flPart := 0#8, cclkMhz := 0#12, hclk := true, badLanes := [], stuckFuses := [],
    flashFails := false, vaultStuck := false, srHeld := [] }

/-- Pins before power (14 R418 to R447). -/
def Pin.reset : Pin := { pwrok := false, tmpHigh := true, flPart := 0#8, coldreq := false, mem := [], lnk := [] }

/-- FLT_ registers at reset (15 Table 15-14). -/
def Flt.reset : Flt :=
  { permanent := false, dumpReady := false, annalsLost := false, ignoredWrite := false, ignoredOffset := 0, merged := 0,
    coldReq := false, escCtrl := 0x2346C990#32, hangCtrl := 0x2A8A6414#32, waitUs := 50, annalsSel := 0#32,
    dumpSel := 0#32, epochSel := 0#32, queue := [], stalled := [], running := [], portWait := [], history := [],
    dump := none, dumpDue := false, dumpNext := 0, lossW := [], lossC := [], recovery := 0, coreResets := 0, hours := 0 }

/-- An erased flash partition (log 11). -/
def Flash.erased : Flash :=
  { intent := none, formatEpoch := 0, hours := 0, boot := 0, userKey := none, slots := [], slotVoid := [], dumps := [],
    rings := [], standing := [], accession := [], accVoid := [], helper := none, certChain := none, endorse := none,
    importHigh := [], exportReserve := [], stratumHigh := [], appoint := none, fwTags := [] }

/-- GEN_ registers at reset (15 Table 15-2). -/
def Gen.reset : Gen :=
  { released := false, ready := false, unchartered := false, c6Done := false, c10Done := false, c12Done := false,
    halted := false, c5Wait := none, lastStart := 0, startDrbg := false, startUnch := false, startBedFail := false,
    startBedAbsent := false, startGeode := false, strap := false, cclkMhz := 0#12, cclkValid := false, chrBase := 0#64,
    chrShelf := 0#32, chrLen := 0#32, chrWindow := [], chrBusy := false, chrStaged := false, chrOverrun := false,
    chrCode := 0#8, charter := none, slotInUse := 0, glob := [], load := none, funcStop := 0#32,
    funcHeld := 0#32, funcState := 0#32, verSel := 0#32, irqStatus := 0#32, irqEnable := 0#32, commitCode := 0#8,
    commitPair := 0, commitPort := 0, portSel := 0#32, wlatch := [], rlatch := [] }

/-- Lanes before any start: every GEN_LANE_STATE field reads 0 (15 Table 15-2). -/
def LanePool.reset : LanePool :=
  { l := [], size := [], bceMin := 0, vacant := [], lent := [], ctx := [], flaw := [], next := [], done := [], turn := 0 }

/-- An empty kill bank (03 R99). -/
def KillBank.empty : KillBank := { mask0 := none, mask1 := none, scramble := none, geode := none, bedrock := none }

/-- Key services at power-up: every slot EMPTY, registers 0 (03; 15 Table 15-6). -/
def Key.reset : Key :=
  { kill := KillBank.empty, slots := [], maskEpoch := 0, maskCur := false, slateOn := false, bedrockFail := false,
    bedrockAbsent := false, geodeFail := false, drbgFail := false, tampered := false, killed := false, zeroised := false,
    coreWipeDue := false, lastReason := 0#8, geodeCause := 0, enrolled := false, pufRead := false, idPub := none,
    kexPub := none, dkc := [], missq := [], drbgUp := false, drbgReqs := 0, reseedDue := false, retries := 0,
    seedWait := 0, cmdAddr := 0#64, cmdShelf := 0#32, cmdArg := 0#64, cmdBusy := false, cmdResult := 0#8,
    slotSel := 0#32, genWait := none }

/-- The IME at power-up (15 Table 15-6). -/
def Ime.reset : Ime :=
  { formatted := false, formatDue := false, createLimit := 0, formatEpoch := 0, cat := [], roots := [], ctr := [],
    node := [], cached := [], catCache := [], catSt := 1, catPtr := 0, catRenew := false, dying := [], padSeed := none, padUsed := 0, shelveDebt := [],
    dirty := [], ents := [], blks := [], seq := 0, sweeps := [], cals := [], pageHeld := [],
    padFails := 0, lastReason := 0#8, lostCounters := 0, shelveCtrl := 0x00000002#32, calCtrl := 0x00080004#32,
    cmdAddr := 0#64, cmdShelf := 0#32, cmdBusy := false, cmdCode := 0#8, cmdOp := 0, cmdIndex := 0, cmdWait := none,
    copyAhead := [], cow := [], renewed := [] }

/-- The ILE at power-up (15 Tables 15-8, 15-9): every port DOWN, ILE_VC_MAP at c mod 6. -/
def Ile.reset : Ile :=
  { ports := [], vcMap := 0x0000688B1A22C688#64, routeAddr := 0#32, routes := [], calCtrl := 0x00000008#32,
    staleDrops := 0, postedLost := false, lastReason := 0#8, orig := [], issue := [], lost := [], ingress := [],
    nacked := [], resident := [], msgs := [], cals := [], roster := [], heldOut := [], nextMsg := 0, sendq := [], creditNext := 0 }

/-- QOS_ registers at reset (15 Table 15-10). -/
def Qos.reset : Qos := { ctrl := 0x00400C80#32, statSel := 0#32, credit := [], carry := [], stats := [] }

/-- LCS_ registers at reset (15 Table 15-14; 13 Table 13-13). -/
def Lcs.reset : Lcs :=
  { st := 0, disagree := false, discarded := false, resumed := false, intentPending := false, debug := false, scope := 0,
    debugPending := false, pendingScope := 0, cmdBusy := false, overrun := false, code := 0#8, cmdAddr := 0#64,
    cmdShelf := 0#32, stage := [], accSel := 0#32, accCount := 0, accChain := 0#384, act := none }

/-- SRE_ registers at reset (15 Table 15-10 of R464). -/
def Sre.reset : Sre :=
  { ctrl := 0x07D00004#32, ctrlShadow := 0x07D00004#32, eabCtrl := 0x000007D0#32, eabShadow := 0x000007D0#32, lateMsgs := 0,
    eabExpired := 0, lastReason := 0#8, groups := [], floor := 0, groupStatus := 0#32, colls := [], launch := [], eab := [], flaw := none }

/-- BCE_ registers at reset. -/
def Bce.reset : Bce :=
  { lateMsgs := 0, lastReason := 0#8, stratumCtrl := 0x00002710#32, jobs := [], nextJob := 0, owners := [], exportFloor := [],
    cuts := [], early := [] }

/-- ATT_ registers at reset. -/
def Att.reset : Att :=
  { cmdBusy := false, cmdDetail := 0, cmdCode := 0#8, cmdAddr := 0#64, cmdShelf := 0#32, fwTag := 0#128, mbxCtl := {},
    mbxDbg := {}, mbxOrder := [], fwCur := [], fwStg := [], member := 0, listed := false, rosterEpoch := 0, rekeyEpoch := 0, admitted := [],
    locked := false, nonces := [], nextIx := 1, contEvent := 0, contTime := 0, cont := [], ideRecv := none, ide := [],
    delivery := 0, frozen := none, wait := none }

/-- The debug access path at reset: IDCODE in the instruction register (14 R448). -/
def Dbg.reset : Dbg :=
  { ir := 0x01#8, mbox := 0#32, regs := 0#52, fab := 0#704, fabPending := false, fabDiscard := false, scan := [] }

/-- HOB_ registers and tables at reset (15 Table 15-11). -/
def Hob.reset : Hob :=
  { ctrl := 0x0064006400000003#64, fenceIgnored := 0, badDoorbell := 0, fenceEnd := 0, orphans := 0, lastReason := 0#8,
    cmdAddr := 0#64, cmdShelf := 0#32, cmdArg := 0#32, cmdBusy := false, cmdDue := 0, cmdCode := 0#8, cmdDetail := 0, busyHit := false, cmdWait := none,
    objSel := 0#32, evtSel := 0#32, slices := [], ctxs := [], queues := [], events := [], objs := [], flight := [],
    nextFlight := 0, turn := [] }

/-- The state of the block. -/
structure State where
  cfg : Cfg
  pin : Pin
  dom : Doms
  tm : Tm
  fuse : Fuse
  flash : Flash
  gen : Gen
  lane : LanePool
  key : Key
  ime : Ime
  ile : Ile
  qos : Qos
  hob : Hob
  flt : Flt
  lcs : Lcs
  sre : Sre
  bce : Bce
  att : Att
  dbg : Dbg
  out : List Out
  freeIx : Nat
  pending : List Instr
  deriving DecidableEq, Repr

/-- The block without power: every register, store and output at its reset value, no command waiting (14 R418). -/
def State.reset : State :=
  { cfg := Cfg.relrik, pin := Pin.reset, dom := { d := [], aclkLost := false, aclkWait := false },
    tm := { ns := 0, aclk := 0 }, fuse := { blown := 0#8192, shadow := 0#8192 }, flash := Flash.erased, gen := Gen.reset,
    lane := LanePool.reset, key := Key.reset, ime := Ime.reset, ile := Ile.reset, qos := Qos.reset, hob := Hob.reset, flt := Flt.reset, lcs := Lcs.reset,
    sre := Sre.reset, bce := Bce.reset, att := Att.reset, dbg := Dbg.reset,
    out := [], freeIx := 0, pending := [] }

end Sys2Proof.Machine
end

