-- ==== Sys2Proof/Machine/Ops.lean ====
section
/-!
DEFINITION. The named operations over tables, buffers, bytes and the state that every command uses.
-/
namespace Sys2Proof.Machine

/-! ### Tables by index -/

/-- The entry at an index. -/
def tget {α : Type} : Tbl α → Nat → Option α
  | [], _ => none
  | (j, v) :: r, k => if j = k then some v else tget r k

/-- Put an entry at an index, keeping the rising order. -/
def tput {α : Type} : Tbl α → Nat → α → Tbl α
  | [], k, v => [(k, v)]
  | (j, w) :: r, k, v =>
    if k < j then (k, v) :: (j, w) :: r
    else if k = j then (k, v) :: r
    else (j, w) :: tput r k v

/-- Remove what a table lists at an index. -/
def tdel {α : Type} : Tbl α → Nat → Tbl α
  | [], _ => []
  | (j, w) :: r, k => if j = k then tdel r k else (j, w) :: tdel r k

/-- The entry at an index of a table whose unlisted indices hold `d`. -/
def dget {α : Type} (d : α) (t : Tbl α) (k : Nat) : α := (tget t k).getD d

/-- Put an entry in a table whose unlisted indices hold `d`: an entry equal to `d` is not listed. -/
def dput {α : Type} [DecidableEq α] (d : α) (t : Tbl α) (k : Nat) (v : α) : Tbl α :=
  if v = d then tdel t k else tput t k v

/-- Put or remove, as the option says. -/
def tset {α : Type} (t : Tbl α) (k : Nat) : Option α → Tbl α
  | some v => tput t k v
  | none => tdel t k

/-- Change the entry at an index, where there is one. -/
def tmod {α : Type} (t : Tbl α) (k : Nat) (f : α → α) : Tbl α :=
  match tget t k with
  | some v => tput t k (f v)
  | none => t

/-- Every index above `k`, in rising order. -/
def tblAbove {α : Type} : Nat → Tbl α → Bool
  | _, [] => true
  | k, (j, _) :: r => decide (k < j) && tblAbove j r

/-- The canonical form of a table: indices strictly rising. -/
def tblWf {α : Type} : Tbl α → Bool
  | [] => true
  | (j, _) :: r => tblAbove j r

/-- The smallest index below a bound that a table does not list. -/
def freeIndex {α : Type} (t : Tbl α) : Nat → Nat → Option Nat
  | _, 0 => none
  | k, n + 1 => if (tget t k).isNone then some k else freeIndex t (k + 1) n

/-! ### Addressed buffers: bytes by offset, zero where not listed -/

/-- One byte of a buffer. -/
def bufRead (b : List Host.Cell) (a : Nat) : Byte := dget 0#8 b a

/-- Write one byte, keeping the canonical form: a zero byte is not listed. -/
def bufWrite (b : List Host.Cell) (a : Nat) (v : Byte) : List Host.Cell := dput 0#8 b a v

/-- The canonical form: offsets strictly rising, no byte zero. -/
def bufWf (b : List Host.Cell) : Bool := tblWf b && b.all fun c => c.2 != 0#8

/-- `n` bytes from an offset. -/
def bufBytes (b : List Host.Cell) (a : Nat) : Nat → List Byte
  | 0 => []
  | n + 1 => bufRead b a :: bufBytes b (a + 1) n

/-- Write bytes from an offset on. -/
def bufFill (b : List Host.Cell) (a : Nat) : List Byte → List Host.Cell
  | [] => b
  | v :: r => bufFill (bufWrite b a v) (a + 1) r

/-- The little-endian 32-bit word at an offset (00 R8). -/
def bufWord (b : List Host.Cell) (a : Nat) : Word :=
  bufRead b (a + 3) ++ bufRead b (a + 2) ++ bufRead b (a + 1) ++ bufRead b a

/-- Write a 32-bit word, little-endian. -/
def bufPutWord (b : List Host.Cell) (a : Nat) (w : Word) : List Host.Cell :=
  bufFill b a [w.extractLsb' 0 8, w.extractLsb' 8 8, w.extractLsb' 16 8, w.extractLsb' 24 8]

/-! ### Bytes and fields (00 R7, R8) -/

/-- `n` bytes of a value, little-endian. -/
def leBytes : Nat → Nat → List Byte
  | 0, _ => []
  | n + 1, v => BitVec.ofNat 8 v :: leBytes n (v / 256)

/-- The value of bytes, little-endian. -/
def leNat : List Byte → Nat
  | [] => 0
  | b :: r => b.toNat + 256 * leNat r

/-- `n` bytes of a value, most significant first. -/
def beBytes (n v : Nat) : List Byte := (leBytes n v).reverse

/-- The value of bytes, most significant first. -/
def beNat (b : List Byte) : Nat := leNat b.reverse

/-- Bytes `[off, off + n)` of a list; short where the list ends. -/
def slice (b : List Byte) (off n : Nat) : List Byte := (b.drop off).take n

/-- The little-endian field of `n` bytes at an offset. -/
def fld (b : List Byte) (off n : Nat) : Nat := leNat (slice b off n)

/-- Bits `[lo + w - 1 : lo]` of a value. -/
def bits (v lo w : Nat) : Nat := v / 2 ^ lo % 2 ^ w

/-- One bit of a value. -/
def bit (v i : Nat) : Bool := bits v i 1 = 1

/-- Put `x` into bits `[lo + w - 1 : lo]` of `v`. -/
def putBits (v lo w x : Nat) : Nat := v - bits v lo w * 2 ^ lo + x % 2 ^ w * 2 ^ lo

/-- A Bool as a bit. -/
def b2n (b : Bool) : Nat := if b then 1 else 0

/-- Whether all of some bytes are zero. -/
def zeroBytes (b : List Byte) : Bool := b.all fun x => x == 0#8

/-- `n` zero bytes. -/
def zeros (n : Nat) : List Byte := List.replicate n 0#8

/-- Bytes padded with zero to a length. -/
def padTo (n : Nat) (b : List Byte) : List Byte := b ++ zeros (n - b.length)

/-- The bytes of a line, offset 0 first. -/
def lineBytes (l : Line) : List Byte := leBytes 64 l.toNat

/-- The line of 64 bytes. -/
def bytesLine (b : List Byte) : Line := BitVec.ofNat 512 (leNat b)

/-- Bytes merged under a mask: byte i of `new` where bit i is set (04 R137). -/
def mergeBytes (mask : BitVec 64) : Nat → List Byte → List Byte → List Byte
  | _, [], _ => []
  | _, o, [] => o
  | i, o :: os, n :: ns => (if mask.getLsbD i then n else o) :: mergeBytes mask (i + 1) os ns

/-- A line merged with another under a byte mask. -/
def mergeLine (mask : BitVec 64) (old new : Line) : Line :=
  bytesLine (mergeBytes mask 0 (lineBytes old) (lineBytes new))

/-- The smallest multiple of `m` that is at least `n`. -/
def roundUp (n m : Nat) : Nat := (n + m - 1) / m * m

/-- n divided by m, rounded up. -/
def ceilDiv (n m : Nat) : Nat := (n + m - 1) / m

/-- Saturating addition at 2^w - 1. -/
def satAdd (w a b : Nat) : Nat := min (2 ^ w - 1) (a + b)

/-- CRC-32 of IEEE 802.3 (11 Table 11-4), one bit. -/
def crcBit (c : BitVec 32) : BitVec 32 := if c.getLsbD 0 then (c >>> 1) ^^^ 0xEDB88320#32 else c >>> 1

/-- CRC-32 of IEEE 802.3, one byte. -/
def crcByte (c : BitVec 32) (b : Byte) : BitVec 32 :=
  crcBit (crcBit (crcBit (crcBit (crcBit (crcBit (crcBit (crcBit (c ^^^ b.zeroExtend 32))))))))

/-- CRC-32 of IEEE 802.3 over bytes. -/
def crc32 (b : List Byte) : BitVec 32 := (b.foldl crcByte 0xFFFFFFFF#32) ^^^ 0xFFFFFFFF#32

/-! ### Free values, outputs, time -/

/-- Take the next free value (log 3). -/
def fresh (s : State) : Nat × State := (Config.draw s.freeIx, { s with freeIx := s.freeIx + 1 })

/-- A free value of a width. -/
def freshBits (w : Nat) (s : State) : BitVec w × State := (BitVec.ofNat w (Config.draw s.freeIx), { s with freeIx := s.freeIx + 1 })

/-- Put something on an output port (log 13). -/
def emit (s : State) (o : Out) : State := { s with out := s.out ++ [o] }

/-- Put things on output ports, in order. -/
def emits (s : State) (o : List Out) : State := { s with out := s.out ++ o }

/-- The absolute deadline of a budget that begins to run now; 0xFFFF_FFFF is none (10 R308, R309). -/
def deadlineOf (s : State) (budget : Word) : Option Nat :=
  if budget = 0xFFFFFFFF#32 then none else some (s.tm.ns + budget.toNat)

/-- The remaining budget of a deadline, as DEADLINE carries it (10 R310). -/
def budgetOf (s : State) : Option Nat → Word
  | none => 0xFFFFFFFF#32
  | some d => BitVec.ofNat 32 (min 0xFFFFFFFE (d - s.tm.ns))

/-- The lateness of a completion now, in nanoseconds; 0 is SERVED (10 R322). -/
def latenessOf (s : State) : Option Nat → Nat
  | none => 0
  | some d => s.tm.ns - d

/-! ### Domains (01 R37 to R40; 11 R356) -/

/-- The reset domain at an index of R356. -/
def domAt (s : State) (d : Nat) : Dom := dget {} s.dom.d d

/-- Replace a reset domain. -/
def setDom (s : State) (d : Nat) (v : Dom) : State := { s with dom := { s.dom with d := dput {} s.dom.d d v } }

/-- The current epoch of a domain. -/
def epochOf (s : State) (d : Nat) : Word := (domAt s d).epoch

/-- Whether CORE is in reset. -/
def coreDown (s : State) : Bool := (domAt s 0).inReset

/-- The frequency of CCLK in MHz as its edges are counted; 0 while it is lost (15 GEN_CCLK_FREQ). -/
def cclkNow (s : State) : Nat := if s.gen.cclkValid then s.gen.cclkMhz.toNat else 0

/-- Whether HOST is in reset. -/
def hostDown (s : State) : Bool := (domAt s 1).inReset

/-- Count a drop under R39 against the domain whose epoch the dropped thing carried (11 R355). -/
def countDrop (s : State) (d : Nat) : State :=
  setDom s d { domAt s d with drops := satAdd 32 (domAt s d).drops 1 }

/-- A domain enters reset. -/
def enterReset (s : State) (d : Nat) : State :=
  let v := domAt s d
  setDom s d { v with inReset := true, first := v.first && v.inReset }

/-- A domain exits reset: its epoch increments by one, but at its first exit after the cold start that set it (01 R39; log 70). Once CORE has left
reset the commands that its reset abandoned can be reported (07 R250). -/
def exitReset (s : State) (d : Nat) : State :=
  let v := domAt s d
  let s := setDom s d { v with inReset := false, epoch := if v.first then v.epoch else v.epoch + 1#32, first := false }
  if d = 0 then { s with hob := { s.hob with flight := s.hob.flight.map fun x => (x.1, { x.2 with untilCore := false }) } } else s

/-- Whether a port's domain may leave reset: its clock runs, CORE has left reset, and the block is chartered (01 R36, R38; 02 R56). -/
def mayRelease (s : State) (q : Nat) : Bool := !(domAt s (2 + q)).clockLost && !coreDown s && !s.gen.unchartered

/-- Reset domain of a memory port (11 R356). -/
def domMem (p : Nat) : Nat := 2 + p

/-- Reset domain of a link or D2D port by its EGRESS code (11 R356). -/
def domLnk (e : Nat) : Nat := 6 + e

/-- QOS_STAT_SEL.PORT code of a link or D2D port by its EGRESS code (10 Table 10-8). -/
def qpOfLnk (e : Nat) : Nat := 4 + e

/-- Whether a memory port is present (01 R44; 15 R455). -/
def memPresent (s : State) (p : Nat) : Bool := p < s.cfg.memPorts

/-- Whether a link or D2D port is present, by its EGRESS code. -/
def lnkPresent (s : State) (e : Nat) : Bool :=
  if e < 16 then e < s.cfg.lnkPorts else e < 16 + s.cfg.d2dPorts

/-- Whether a port is present, by its QOS_STAT_SEL.PORT code. -/
def portPresent (s : State) (q : Nat) : Bool :=
  if q < 4 then memPresent s q else q < 24 && lnkPresent s (q - 4)

/-- The memory ports present. -/
def memPortsOf (s : State) : List Nat := (List.range 4).filter (memPresent s)

/-- The link and D2D ports present, by EGRESS code. -/
def lnkPortsOf (s : State) : List Nat := (List.range 20).filter (lnkPresent s)

/-- The pin levels of a memory port. -/
def memPin (s : State) (p : Nat) : MemPin := dget {} s.pin.mem p

/-- Replace the pin levels of a memory port. -/
def setMemPin (s : State) (p : Nat) (v : MemPin) : State := { s with pin := { s.pin with mem := dput {} s.pin.mem p v } }

/-- The pin levels of a link or D2D port. -/
def lnkPin (s : State) (e : Nat) : LnkPin := dget {} s.pin.lnk e

/-- Replace the pin levels of a link or D2D port. -/
def setLnkPin (s : State) (e : Nat) (v : LnkPin) : State := { s with pin := { s.pin with lnk := dput {} s.pin.lnk e v } }

/-! ### Interrupts (15 R459) -/

/-- Set a source bit of GEN_IRQ_STATUS, enabled or not. -/
def raiseIrq (s : State) (i : Nat) : State :=
  { s with gen := { s.gen with irqStatus := s.gen.irqStatus ||| (1#32 <<< i) } }

/-- CTL_IRQ: an enabled source is pending (14 R440; 15 R459). -/
def ctlIrq (s : State) : Bool := s.gen.irqStatus &&& s.gen.irqEnable != 0#32

end Sys2Proof.Machine
end

