-- ==== Sys2Proof/Machine/Fp.lean ====
section
/-!
DEFINITION. Binary floating point by exact integer arithmetic, rounded once to nearest, ties to even (05 R178 FADD32; 06 R194 to R196, R217, R219).
-/
namespace Sys2Proof.Machine

/-- A number format: exponent bits, mantissa bits, and whether it has infinities (E4M3 has none; 06 R195). -/
structure FpFmt where
  eb : Nat
  mb : Nat
  hasInf : Bool
  deriving DecidableEq, Repr

/-- The formats of 06 Table 6-1. -/
def fp32 : FpFmt := { eb := 8, mb := 23, hasInf := true }
def bf16 : FpFmt := { eb := 8, mb := 7, hasInf := true }
def fp16 : FpFmt := { eb := 5, mb := 10, hasInf := true }
def fpE4m3 : FpFmt := { eb := 4, mb := 3, hasInf := false }
def fpE5m2 : FpFmt := { eb := 5, mb := 2, hasInf := true }

/-- A floating-point value: a finite one is ± m × 2^(e - 2000), so that exponents stay natural numbers. -/
inductive FpVal where
  | nan
  | inf (neg : Bool)
  | fin (neg : Bool) (m e : Nat)
  deriving DecidableEq, Repr

/-- The exponent bias of a format. -/
def fpBias (f : FpFmt) : Nat := 2 ^ (f.eb - 1) - 1

/-- The offset exponent of the least bit of a subnormal of a format. -/
def fpLow (f : FpFmt) : Nat := 2001 - fpBias f - f.mb

/-- A bit pattern read as a value. -/
def fpDec (f : FpFmt) (w : Nat) : FpVal :=
  let man := bits w 0 f.mb
  let ex := bits w f.mb f.eb
  let neg := bit w (f.mb + f.eb)
  let top := 2 ^ f.eb - 1
  if ex = top ∧ f.hasInf then (if man = 0 then .inf neg else .nan)
  else if ex = top ∧ man = 2 ^ f.mb - 1 then .nan
  else if ex = 0 then .fin neg man (fpLow f)
  else .fin neg (2 ^ f.mb + man) (fpLow f + ex - 1)

/-- The sign bit of a format. -/
def fpSign (f : FpFmt) (neg : Bool) : Nat := if neg then 2 ^ (f.mb + f.eb) else 0

/-- The infinity pattern of a format, or its greatest finite value where it has none (06 Table 6-2: ±448 for E4M3). An infinite value written to E4M3
takes the same ±448 and counts neither as non-finite nor as an overflow (log 139). -/
def fpHuge (f : FpFmt) (neg : Bool) : Nat :=
  fpSign f neg + (if f.hasInf then (2 ^ f.eb - 1) * 2 ^ f.mb else 2 ^ (f.eb + f.mb) - 2)

/-- The NaN pattern the block writes (06 Table 6-2): quiet, or all ones in E4M3. -/
def fpNan (f : FpFmt) : Nat :=
  if f.hasInf then (2 ^ f.eb - 1) * 2 ^ f.mb + 2 ^ (f.mb - 1) else 2 ^ (f.eb + f.mb) - 1

/-- m / 2^d rounded to nearest, ties to even. -/
def roundShift (m d : Nat) : Nat :=
  let q := m / 2 ^ d
  let r := m % 2 ^ d
  if d = 0 then m
  else if 2 ^ (d - 1) < r ∨ (r = 2 ^ (d - 1) ∧ q % 2 = 1) then q + 1 else q

/-- A value rounded to a format: the bit pattern, and whether a finite value passed the format's range. -/
def fpEnc (f : FpFmt) : FpVal → Nat × Bool
  | .nan => (fpNan f, false)
  | .inf neg => (fpHuge f neg, false)
  | .fin neg m e =>
    if m = 0 then (fpSign f neg, false)
    else
      let q := max (e + Nat.log2 m - f.mb) (fpLow f)
      let m' := if q ≤ e then m * 2 ^ (e - q) else roundShift m (q - e)
      let w := (q - fpLow f) * 2 ^ f.mb + m'
      let limit := if f.hasInf then (2 ^ f.eb - 1) * 2 ^ f.mb else 2 ^ (f.eb + f.mb) - 1
      if limit ≤ w then (fpHuge f neg, true) else (fpSign f neg + w, false)

/-- The exact sum of two values; exact cancellation gives +0, and -0 + -0 gives -0. -/
def fpSum : FpVal → FpVal → FpVal
  | .nan, _ => .nan
  | _, .nan => .nan
  | .inf a, .inf b => if a = b then .inf a else .nan
  | .inf a, _ => .inf a
  | _, .inf b => .inf b
  | .fin a m e, .fin b n g =>
    let lo := min e g
    let x := m * 2 ^ (e - lo)
    let y := n * 2 ^ (g - lo)
    if a = b then .fin a (x + y) lo
    else if x = y then .fin false 0 lo
    else if y < x then .fin a (x - y) lo
    else .fin b (y - x) lo

/-- The exact product of two values; the offset exponents are added once. -/
def fpProd : FpVal → FpVal → FpVal
  | .nan, _ => .nan
  | _, .nan => .nan
  | .inf a, .inf b => .inf (a != b)
  | .inf a, .fin b n _ => if n = 0 then .nan else .inf (a != b)
  | .fin a m _, .inf b => if m = 0 then .nan else .inf (a != b)
  | .fin a m e, .fin b n g => .fin (a != b) (m * n) (e + g - 2000)

/-- IEEE 754 binary32 addition with the canonical NaN (05 R178; 06 R195). -/
def fadd32 (x y : Word) : Word := BitVec.ofNat 32 (fpEnc fp32 (fpSum (fpDec fp32 x.toNat) (fpDec fp32 y.toNat))).1

/-- Multiplication by SCALE, rounded once (06 R195). -/
def fmul32 (x y : Word) : Word := BitVec.ofNat 32 (fpEnc fp32 (fpProd (fpDec fp32 x.toNat) (fpDec fp32 y.toNat))).1

/-- A monotone key of a non-NaN binary32 pattern: -0 counts as less than +0 (06 R195). -/
def fpKey (w : Word) : Nat := if w.getLsbD 31 then 2 ^ 32 - 1 - w.toNat else w.toNat + 2 ^ 31

/-- Whether a binary32 pattern is a NaN. -/
def isNan32 (w : Word) : Bool := fpDec fp32 w.toNat == .nan

/-- MAX or MIN of two binary32 patterns; a NaN operand gives the canonical NaN (06 R195). -/
def fmax32 (max : Bool) (x y : Word) : Word :=
  if isNan32 x || isNan32 y then 0x7FC00000#32
  else if (decide (fpKey x < fpKey y)) == max then y else x

end Sys2Proof.Machine
end

