-- ==== Sys2Proof/Machine/Annals.lean ====
section
/-!
DEFINITION. Fault records, verdicts and the annals queue (11 R330 to R335), ignored writes (00 R11), and the start of a reset rung (11 R342, R345, R346).
-/
namespace Sys2Proof.Machine

/-! ### The charter section that sets the limits -/

/-- The body of a section of the charter in use. -/
def secBody (s : State) (ty : Nat) : Option (List Byte) :=
  match s.gen.charter with
  | some c => (tget c.secs ty).map (·.2)
  | none => none

/-- Default limit and window in hours of each class; a class with no entry is an Event (11 Table 11-3). -/
def annalsDefault : Tbl (Nat × Nat) :=
  [(0, (1, 720)), (1, (0, 0)), (2, (2, 720)), (3, (2, 720)), (4, (4, 720)), (5, (4, 720)), (6, (2, 720)),
   (7, (4, 720)), (8, (1000, 24)), (9, (1, 720)), (10, (2, 720)), (11, (3, 24)), (16, (3, 24)), (17, (8, 24)),
   (18, (16, 24)), (20, (2, 720)), (21, (1, 720)), (24, (0, 0)), (25, (1, 0)), (26, (4, 720))]

/-- Whether a class is an Event (11 R330). -/
def isEvent (c : Nat) : Bool := (tget annalsDefault c).isNone

/-- Limit and window in effect for a class: the ANNALS section's record, or the default (11 R330; 02 R51). -/
def annalsLimit (s : State) (c : Nat) : Nat × Nat :=
  match secBody s 8 with
  | some b => (fld b (4 * c) 2, fld b (4 * c + 2) 2)
  | none => dget (0, 0) annalsDefault c

/-! ### Verdict and record (11 R331, R334) -/

/-- The records of a unit that the count of R334 reads: those in its ring, and those on their way to it (log 15). -/
def unitRecords (s : State) (u : Nat) : List FaultRec :=
  dget [] s.flash.rings u ++ (s.flt.queue ++ s.flt.stalled).filter fun r => r.unit == u

/-- How many records of a class and location fall in the window, the new one included (11 R334 step 1). A window of 0 covers every record. -/
def verdictCount (s : State) (c u loc : Nat) : Nat :=
  let w := (annalsLimit s c).2
  1 + ((unitRecords s u).filter fun r => r.cls == c && r.loc == loc && (w == 0 || decide (s.flt.hours - w ≤ r.hours))).length

/-- Whether a resource is in the standing list (11 R332). -/
def standing (s : State) (c u loc : Nat) : Bool := s.flash.standing.contains (c, u, loc)

/-- VERDICT: 0 EVENT, 1 TRANSIENT, 2 PERMANENT (11 R334). -/
def verdictOf (s : State) (c u loc : Nat) : Nat :=
  if isEvent c then 0
  else if standing s c u loc || decide (verdictCount s c u loc > (annalsLimit s c).1) then 2
  else 1

/-- The reset domain whose epoch a record of a unit carries: CORE for units 0 to 5, HOST for 7, none (0) for AON units. -/
def unitEpoch (s : State) (u : Nat) : Word :=
  if u ≤ 5 then epochOf s 0 else if u = 7 then epochOf s 1 else 0#32

/-- A fault record as AON forms it (11 R331, R334). -/
def mkRecord (s : State) (c u loc act : Nat) (rsn : Code) (who : Option Who) (detail : Nat) : FaultRec :=
  { cls := c, verdict := verdictOf s c u loc, action := act, reason := rsn, unit := u, loc := loc, who := who,
    epoch := unitEpoch s u, detail := detail, time := s.tm.aclk, hours := s.flt.hours, boot := s.flash.boot }

/-- A record the full queue never gives up: PERMANENT, or ACTION of CORE_RESET or above (11 R332). -/
def keptRecord (r : FaultRec) : Bool := r.verdict == 2 || decide (7 ≤ r.action)

/-- The queue without its oldest EVENT record that may be replaced, where it has one (11 R332). -/
def dropEvent : List FaultRec → Option (List FaultRec)
  | [] => none
  | r :: q => if r.verdict == 0 && !keptRecord r then some q else (dropEvent q).map (r :: ·)

/-- Queue a record for flash: 256 entries, the oldest EVENT replaced when full; a kept record waits at the crossing (11 R332). -/
def queueRecord (s : State) (r : FaultRec) : State :=
  if s.flt.queue.length < 256 then { s with flt := { s.flt with queue := s.flt.queue ++ [r] } }
  else match dropEvent s.flt.queue with
    | some q => { s with flt := { s.flt with queue := q ++ [r], annalsLost := true } }
    | none =>
      if keptRecord r then { s with flt := { s.flt with stalled := s.flt.stalled ++ [r] } }
      else { s with flt := { s.flt with annalsLost := true } }

/-- Enter a resource in the standing list of 256; FLT_STATUS.PERMANENT and the FAULT source rise (11 R332, R334; 15 Table 15-5). -/
def enterStanding (s : State) (c u loc : Nat) : State :=
  let l := s.flash.standing
  let l' := if l.contains (c, u, loc) || decide (256 ≤ l.length) then l else l ++ [(c, u, loc)]
  raiseIrq { s with flash := { s.flash with standing := l' }, flt := { s.flt with permanent := true } } 8

/-- Form and queue a fault record (11 R330 to R334). A KEY_EXHAUSTED event sets the EXHAUST source (15 Table 15-5). -/
def record (s : State) (c u loc act : Nat) (rsn : Code) (who : Option Who) (detail : Nat) : State :=
  let r := mkRecord s c u loc act rsn who detail
  let s := queueRecord s r
  let s := if r.verdict = 2 then enterStanding s c u loc else s
  if c = Flc.keyExhausted then raiseIrq s 1 else s

/-- A fault record with no requester and no detail. -/
def recordPlain (s : State) (c u loc act : Nat) : State := record s c u loc act 0#8 none 0

/-- The record of a check: ACTION is REPEATED where the repeat passes, else what the second failure does (11 Table 11-1). -/
def checkRecord (s : State) (c u loc act : Nat) (rsn : Code) (who : Option Who) (detail : Nat) (twice : Bool) : State :=
  if twice then record s c u loc act rsn who detail else record s c u loc 2 0#8 who detail

/-- A failed write or read-back in the flash partition raises FLASH_FAIL (11 Table 11-3; 14 R442). -/
def flashFail (s : State) : State := recordPlain s Flc.flashFail 9 0 0

/-- The optional values a record marks VALID: the value with bit `v` set, or 0 (11 Table 11-4). -/
def validField (v : Nat) : Option Nat → Nat
  | some x => x % 2 ^ v + 2 ^ v
  | none => 0

/-- The 60 bytes of a fault record before its CRC (11 Table 11-4). -/
def recordBody (r : FaultRec) : List Byte :=
  leBytes 1 r.cls ++ leBytes 1 (r.verdict * 16 + r.action) ++ leBytes 1 r.reason.toNat ++ leBytes 1 r.unit
    ++ leBytes 2 r.loc
    ++ leBytes 2 (validField 15 (r.who.bind (·.slice))) ++ leBytes 2 (validField 15 (r.who.bind (·.context)))
    ++ leBytes 1 (validField 7 (r.who.map fun w => w.master + 8 * w.world)) ++ zeros 1
    ++ leBytes 4 (validField 31 (r.who.bind (·.pasid))) ++ leBytes 4 (validField 31 (r.who.map (·.shelf)))
    ++ leBytes 4 r.epoch.toNat ++ leBytes 8 ((r.who.map (·.addr)).getD 0) ++ leBytes 8 r.detail ++ leBytes 8 r.time
    ++ leBytes 4 r.hours ++ leBytes 4 r.boot ++ zeros 4

/-- A fault record as FLT_ANNALS_DATA shows it: 64 bytes, CRC last (11 Table 11-4). -/
def recordBytes (r : FaultRec) : List Byte := recordBody r ++ leBytes 4 (crc32 (recordBody r)).toNat

/-! ### Ignored writes (00 R11; 11 R358) -/

/-- Record an ignored write at a CTLPORT word offset. -/
def ignoreWrite (s : State) (off : Nat) : State :=
  { s with flt := { s.flt with ignoredWrite := true, ignoredOffset := off % 65536 } }

/-! ### Rungs (11 R342, R345, R346). Rungs are coded as FLT_STATUS.RUNG: 1 port, 2 HOST, 3 CORE, 4 warm recovery, 5 cold request -/

/-- FLT_ESC_CTRL fields (11 Table 11-11). -/
def escField (s : State) (lo w : Nat) : Nat := bits s.flt.escCtrl.toNat lo w

/-- FLT_HANG_CTRL fields (11 Table 11-12). -/
def hangField (s : State) (lo w : Nat) : Nat := bits s.flt.hangCtrl.toNat lo w

/-- When the timer of a reset that starts now expires (11 Table 11-7). -/
def rungDue (s : State) (rung : Nat) : Nat :=
  s.tm.ns
    + (if rung = 1 then 1000000 * escField s 3 6
       else if rung = 2 then 1000000 * hangField s 26 6
       else if rung = 3 then 1000000 * escField s 9 7
       else if rung = 4 then 1000000000 * escField s 16 4
       else 0)

/-- When a drain that starts now counts its writes lost (11 R343 step Q2). -/
def drainDue (s : State) : Nat := s.tm.ns + 1000000 * hangField s 22 4

/-- The repeat limit and window in ns of a rung (11 R345); rungs 2 and 5 never climb by repetition. -/
def repeatLimit (s : State) (rung : Nat) : Nat × Nat :=
  if rung = 1 then (escField s 20 4, 1000000000)
  else if rung = 3 then (escField s 24 4, 60000000000)
  else if rung = 4 then (escField s 28 4, 600000000000)
  else (0, 0)

/-- The rung above (11 Table 11-7): a port or HOST reset climbs to CORE. -/
def nextRung (rung : Nat) : Nat := if rung ≤ 2 then 3 else rung + 1

/-- The reset domains a rung resets (11 R356, Table 11-8). -/
def rungDomains (rung port : Nat) : List Nat :=
  if rung = 1 then [2 + port] else if rung = 2 then [1] else if rung = 3 then [0] else List.range 26

/-- The resets of a rung and port within the window before now (11 R345). -/
def recentResets (s : State) (rung port : Nat) : Nat :=
  let w := (repeatLimit s rung).2
  (s.flt.history.filter fun h => h.rung == rung && (rung != 1 || h.port == port) && decide (s.tm.ns < h.ns + w)).length

/-- Whether a reset goes beyond its limit within the window (11 R345). -/
def beyondLimit (s : State) (rung port : Nat) : Bool :=
  let l := (repeatLimit s rung).1
  l != 0 && decide (l < recentResets s rung port + 1)

/-- The rung that starts in place of the one asked for: it climbs while it repeats too often (11 R345), and to the top
where a domain's epoch is at its end (01 R39). -/
def climbTo (s : State) (port : Nat) : Nat → Nat → Nat
  | 0, rung => rung
  | n + 1, rung =>
    if rung < 5 ∧ (rungDomains rung port).any (fun d => epochOf s d == 0xFFFFFFFF#32) then 5
    else if beyondLimit s rung port then climbTo s port n (nextRung rung)
    else rung

/-- The rung in progress that covers the whole block, or 0. -/
def topRung (s : State) : Nat := (s.flt.running.map (·.rung)).foldl max 0

/-- Steps Q1 onward hold FABPORT and the host objects unit back (11 Table 11-8). -/
def quiescing (s : State) : Bool := decide (3 ≤ topRung s)

/-- Whether a reset of a rung and port is in progress. -/
def isRunning (s : State) (rung port : Nat) : Bool :=
  s.flt.running.any fun r => r.rung == rung && (rung != 1 || r.port == port)

/-- A merged request is counted (11 R346). -/
def countMerged (s : State) : State := { s with flt := { s.flt with merged := satAdd 8 s.flt.merged 1 } }

/-- The port resets asked for and not yet begun: at a CORE warm reset both proceed, the port's after CORE's (01 R40). -/
def portsAsked (s : State) : List (Nat × Nat) :=
  (s.flt.running.filter fun r => r.rung == 1 && r.phase == .requested).map fun r => (r.port, r.cls)

/-- Enter a rung: lower resets are abandoned (11 R346), the start is kept for R345, RECOVERY_COUNT rises at
Q1 of a warm recovery (11 Table 11-8), and rung 3 and above set the FAULT source (15 Table 15-5). -/
def enterRung (s : State) (rung port cls : Nat) : State :=
  let keep := if rung ≤ 2 then s.flt.running else []
  let s := if rung = 3 then { s with flt := { s.flt with portWait := s.flt.portWait ++ portsAsked s } } else s
  let r : Running := { rung := rung, port := port, phase := .requested, cls := cls, start := StartIn.plain, due := rungDue s rung }
  let s := { s with flt := { s.flt with
    running := keep ++ [r]
    history := s.flt.history ++ [{ rung := rung, port := port, ns := s.tm.ns }]
    recovery := if rung = 4 then s.flt.recovery + 1 else s.flt.recovery } }
  if 3 ≤ rung then raiseIrq s 8 else s

/-- Ask for a rung: merged, waiting, climbed or started as R345 and R346 give. Nothing starts once the cold request stands. -/
def startRung (s : State) (rung port cls : Nat) : State :=
  let top := topRung s
  if rung = 1 ∧ (top = 3 ∨ (top < 3 ∧ s.gen.released = true ∧ coreDown s = true)) then
    if s.flt.portWait.any fun x => x.1 == port then countMerged s else { s with flt := { s.flt with portWait := s.flt.portWait ++ [(port, cls)] } }
  else if 3 ≤ top ∧ rung ≤ top then countMerged s
  else if isRunning s rung port then countMerged s
  else
    let r := climbTo s port 4 rung
    if r ≠ rung ∧ 3 ≤ top ∧ r ≤ top then countMerged s
    else enterRung s r (if r = 1 then port else 0) cls

/-- A reset that has ended leaves the list. -/
def endRung (s : State) (rung port : Nat) : State :=
  { s with flt := { s.flt with running := s.flt.running.filter fun r => !(r.rung == rung && (rung != 1 || r.port == port)) } }

end Sys2Proof.Machine
end

