-- ==== Sys2Proof/Machine/Crypto.lean ====
section
/-!
DEFINITION. The cipher modes, the key derivation and the encodings the manual builds from the published primitives. A block, key or digest is
held with byte k of its byte string in bits [8k+7:8k] (00 R8, 03 R75, R83).
-/
namespace Sys2Proof.Machine

/-! ### Blocks -/

/-- The 16-byte block of a byte string, zero-extended. -/
def blkOf (b : List Byte) : BitVec 128 := BitVec.ofNat 128 (leNat b)

/-- The bytes of a block. -/
def blkBytes (x : BitVec 128) : List Byte := leBytes 16 x.toNat

/-- A block read as the standards' big-endian number, and back. -/
def revBlk (x : BitVec 128) : BitVec 128 := BitVec.ofNat 128 (leNat (blkBytes x).reverse)

/-- The blocks of a byte string, the last zero-padded. -/
def blksOf : Nat → List Byte → List (BitVec 128)
  | 0, _ => []
  | n + 1, b => blkOf (b.take 16) :: blksOf n (b.drop 16)

/-- The 256-bit key of a byte string. -/
def keyOf (b : List Byte) : BitVec 256 := BitVec.ofNat 256 (leNat b)

/-- Block j of a line (04 R124). -/
def lineBlk (l : Line) (j : Nat) : BitVec 128 := l.extractLsb' (128 * j) 128

/-- A line from its four blocks, block 0 lowest. -/
def lineOf (b0 b1 b2 b3 : BitVec 128) : Line := (b3 ++ b2) ++ (b1 ++ b0)

/-! ### XTS of one line (04 R124; IEEE 1619) -/

/-- Multiplication of a tweak by alpha: left shift of the little-endian value, reduced by 0x87. -/
def xtsMul (t : BitVec 128) : BitVec 128 := if t.getLsbD 127 then (t <<< 1) ^^^ 0x87#128 else t <<< 1

/-- One block of XTS encryption under key 1 and the running tweak. -/
def xtsEncBlk (k1 : BitVec 256) (t p : BitVec 128) : BitVec 128 := Config.aesEnc k1 (p ^^^ t) ^^^ t

/-- One block of XTS decryption. -/
def xtsDecBlk (k1 : BitVec 256) (t c : BitVec 128) : BitVec 128 := Config.aesDec k1 (c ^^^ t) ^^^ t

/-- XTS over a line with a block transformation. -/
def xtsLine (f : BitVec 256 → BitVec 128 → BitVec 128 → BitVec 128) (k : BitVec 512) (tweak : BitVec 128) (l : Line) : Line :=
  let k1 := k.extractLsb' 0 256
  let t0 := Config.aesEnc (k.extractLsb' 256 256) tweak
  let t1 := xtsMul t0
  let t2 := xtsMul t1
  let t3 := xtsMul t2
  lineOf (f k1 t0 (lineBlk l 0)) (f k1 t1 (lineBlk l 1)) (f k1 t2 (lineBlk l 2)) (f k1 t3 (lineBlk l 3))

/-- XTS encryption of a line: key 1 then key 2 in `k`. -/
def xtsEnc (k : BitVec 512) (tweak : BitVec 128) (l : Line) : Line := xtsLine xtsEncBlk k tweak l

/-- XTS decryption of a line. -/
def xtsDec (k : BitVec 512) (tweak : BitVec 128) (l : Line) : Line := xtsLine xtsDecBlk k tweak l

/-! ### CMAC (SP 800-38B, under 03 R82) -/

/-- Doubling in the big-endian field of CMAC. -/
def cmacDbl (x : BitVec 128) : BitVec 128 := if x.getLsbD 127 then (x <<< 1) ^^^ 0x87#128 else x <<< 1

/-- The CBC-MAC chain over whole blocks. -/
def cmacChain (k : BitVec 256) (x : BitVec 128) (bs : List (BitVec 128)) : BitVec 128 :=
  bs.foldl (fun a b => Config.aesEnc k (a ^^^ b)) x

/-- AES-CMAC over bytes. -/
def cmac (k : BitVec 256) (m : List Byte) : BitVec 128 :=
  let l := revBlk (Config.aesEnc k 0#128)
  let k1 := cmacDbl l
  let n := max 1 (ceilDiv m.length 16)
  let tail := m.drop (16 * (n - 1))
  let last := if tail.length = 16 then blkOf tail ^^^ revBlk k1
    else blkOf (tail ++ [0x80#8]) ^^^ revBlk (cmacDbl k1)
  Config.aesEnc k (cmacChain k 0#128 (blksOf (n - 1) m) ^^^ last)

/-! ### GCM (SP 800-38D) -/

/-- The field product of GHASH, most significant bit first, over `n` bits of `x`. -/
def ghashMul : Nat → BitVec 128 → BitVec 128 → BitVec 128 → BitVec 128
  | 0, _, _, z => z
  | n + 1, x, v, z =>
    let z' := if x.getLsbD n then z ^^^ v else z
    let v' := if v.getLsbD 0 then (v >>> 1) ^^^ (0xE1#128 <<< 120) else v >>> 1
    ghashMul n x v' z'

/-- GHASH taken on from an accumulator over blocks as big-endian numbers. -/
def ghashOn (h y : BitVec 128) (bs : List (BitVec 128)) : BitVec 128 :=
  bs.foldl (fun y b => ghashMul 128 (y ^^^ revBlk b) h 0#128) y

/-- GHASH over blocks. -/
def ghash (h : BitVec 128) (bs : List (BitVec 128)) : BitVec 128 := ghashOn h 0#128 bs

/-- The hash key of GCM. -/
def gcmHash (k : BitVec 256) : BitVec 128 := revBlk (Config.aesEnc k 0#128)

/-- The tag that closes a GCM message, its additional data and text hashed. -/
def gcmClose (k : BitVec 256) (iv : List Byte) (aadLen textLen : Nat) (acc : BitVec 128) : BitVec 128 :=
  revBlk (ghashOn (gcmHash k) acc [blkOf (beBytes 8 (8 * aadLen) ++ beBytes 8 (8 * textLen))]) ^^^ Config.aesEnc k (blkOf (iv ++ beBytes 4 1))

/-- The counter block i of GCM for a 12-byte IV. -/
def gcmCtr (iv : List Byte) (i : Nat) : BitVec 128 := blkOf (iv ++ beBytes 4 i)

/-- XOR of a byte string with the GCM keystream from counter `i` on. -/
def gcmXor (k : BitVec 256) (iv : List Byte) : Nat → Nat → List Byte → List Byte
  | 0, _, _ => []
  | n + 1, i, b =>
    List.zipWith (fun x y => x ^^^ y) (b.take 16) (blkBytes (Config.aesEnc k (gcmCtr iv i)))
      ++ gcmXor k iv n (i + 1) (b.drop 16)

/-- GCM encryption and decryption of the text: the same XOR. -/
def gcmCrypt (k : BitVec 256) (iv b : List Byte) : List Byte := gcmXor k iv (ceilDiv b.length 16) 2 b

/-- The GCM tag of a ciphertext with its additional data. -/
def gcmTag (k : BitVec 256) (iv aad c : List Byte) : BitVec 128 :=
  let h := revBlk (Config.aesEnc k 0#128)
  let len := blkOf (beBytes 8 (8 * aad.length) ++ beBytes 8 (8 * c.length))
  let g := ghash h (blksOf (ceilDiv aad.length 16) aad ++ blksOf (ceilDiv c.length 16) c ++ [len])
  revBlk g ^^^ Config.aesEnc k (gcmCtr iv 1)

/-! ### Digests and points -/

/-- SHA-384 as 48 bytes. -/
def shaBytes (m : List Byte) : List Byte := leBytes 48 (Config.sha384 m).toNat

/-- The first 32 bytes of SHA-384. -/
def sha256of (m : List Byte) : BitVec 256 := (Config.sha384 m).extractLsb' 0 256

/-- A 96-byte point or signature. -/
def b768 (b : List Byte) : BitVec 768 := BitVec.ofNat 768 (leNat b)

/-- The bytes of a point or signature. -/
def bytes96 (x : BitVec 768) : List Byte := leBytes 96 x.toNat

/-- The bytes of an ECDH x-coordinate. -/
def bytes48 (x : BitVec 384) : List Byte := leBytes 48 x.toNat

/-- The instance ID of an identity public key (03 R83). -/
def instanceOf (pub : BitVec 768) : Nat := (Config.sha384 (bytes96 pub)).toNat % 2 ^ 64

/-- The order of P-384 (FIPS 186-5). -/
def p384Order : Nat :=
  0xFFFFFFFFFFFFFFFFFFFFFFFFFFFFFFFFFFFFFFFFFFFFFFFFC7634D81F4372DDF581A0DB248B0A77AECEC196ACCC52973

/-- The scalar of a 448-bit derivation (03 R94), read in the byte order of FIPS 186-5 (log 16). -/
def scalarOf (c : List Byte) : BitVec 384 := BitVec.ofNat 384 (beNat c % (p384Order - 1) + 1)

/-! ### Derivation (03 R82, Tables 3-8, 3-9) -/

/-- The 44-byte fixed input of the KDF for one counter value (03 Table 3-8). -/
def kdfInput (h : KeyHandle) (rootClass i : Nat) : List Byte :=
  leBytes 1 i ++ leBytes 2 h.purpose ++ leBytes 1 h.volume ++ leBytes 1 rootClass ++ leBytes 4 h.generation
    ++ leBytes 1 1 ++ zeros 7 ++ zeros 1
    ++ leBytes 2 (h.tenant % 512) ++ leBytes 2 (h.folio % 4096) ++ leBytes 8 h.instId ++ leBytes 8 h.qualifier ++ zeros 4
    ++ leBytes 2 h.bits

/-- The concatenation of PRF(i), `n` of them from `i`. -/
def kdfBlocks (k : BitVec 256) (h : KeyHandle) (rc : Nat) : Nat → Nat → List Byte
  | 0, _ => []
  | n + 1, i => blkBytes (cmac k (kdfInput h rc i)) ++ kdfBlocks k h rc n (i + 1)

/-- The derived key as bytes: L bits of PRF(1), PRF(2), … (03 R82). -/
def kdf (k : BitVec 256) (h : KeyHandle) (rc : Nat) : List Byte :=
  (kdfBlocks k h rc (ceilDiv h.bits 128) 1).take (h.bits / 8)

/-- A derivation of the platform or tenant class from a root: no slot, VOLUME 0xFF (03 Tables 3-8, 3-10). -/
def rootHandle (purpose bits qualifier : Nat) : KeyHandle :=
  { slot := 0, half := 0, purpose := purpose, volume := 0xFF, bits := bits, tenant := 0, folio := 0, instId := 0,
    qualifier := qualifier, generation := 0 }

end Sys2Proof.Machine
end

