-- ==== Sys2Proof/Machine/Keys.lean ====
section
/-!
DEFINITION. Key services without their commands: roots, vault halves, derivation and its cache, shelfmark resolution K1 to K6, invocation
limits and random numbers (03).
-/
namespace Sys2Proof.Machine

/-! ### Roots (03 R74 to R76, R81) -/

/-- DEVICE_SERIAL of the fuse shadow (03 Table 3-6). -/
def serialOf (f : BitVec 8192) : Nat := (f.extractLsb' 1024 64).toNat

/-- BEDROCK_A. -/
def bedrockA (f : BitVec 8192) : BitVec 256 := f.extractLsb' 0 256

/-- BEDROCK_B. -/
def bedrockB (f : BitVec 8192) : BitVec 256 := f.extractLsb' 256 256

/-- MAKER_KEY_HASH. -/
def makerHash (f : BitVec 8192) : BitVec 384 := f.extractLsb' 512 384

/-- How many of `n` bits from bit `i` on are blown. -/
def countBits (f : BitVec 8192) (i : Nat) : Nat → Nat
  | 0 => 0
  | n + 1 => (if f.getLsbD i then 1 else 0) + countBits f (i + 1) n

/-- The blown count of CHR_FLOOR (02 R55). -/
def floorCount (f : BitVec 8192) : Nat := countBits f 896 128

/-- The ASCII bytes "SHEPOL48-SLATE-1". -/
def slateText : List Byte :=
  [0x53#8, 0x48#8, 0x45#8, 0x50#8, 0x4F#8, 0x4C#8, 0x34#8, 0x38#8, 0x2D#8, 0x53#8, 0x4C#8, 0x41#8, 0x54#8, 0x45#8, 0x2D#8, 0x31#8]

/-- The slate root of a serial (03 R81). -/
def slateRoot (serial : Nat) : BitVec 256 := sha256of (slateText ++ leBytes 8 serial)

/-- The bedrock root of the fuses: equal and nonzero copies (03 R76). -/
def bedrockOf (f : BitVec 8192) : Option (BitVec 256) :=
  if bedrockA f = bedrockB f ∧ bedrockA f ≠ 0#256 then some (bedrockA f) else none

/-- The class the platform derivations use now: 1 bedrock, 3 slate. -/
def platClass (s : State) : Nat := if s.key.slateOn then 3 else 1

/-- The class the tenant derivations use now: 2 geode, 3 slate. -/
def tenantClass (s : State) : Nat := if s.key.slateOn then 3 else 2

/-- The root of the platform class, where it is available (03 R76, R81). -/
def platRoot (s : State) : Option (BitVec 256) :=
  if s.key.slateOn then some (slateRoot (serialOf s.fuse.shadow)) else s.key.kill.bedrock

/-- The root of the tenant class, where it is available. -/
def tenantRoot (s : State) : Option (BitVec 256) :=
  if s.key.slateOn then some (slateRoot (serialOf s.fuse.shadow)) else s.key.kill.geode

/-- Whether the tenant class is available (03 Table 3-2 step K3). -/
def tenantAvail (s : State) : Bool := s.key.slateOn || (!s.key.geodeFail && s.key.kill.geode.isSome)

/-- A platform-class derivation (03 Table 3-10). -/
def platKey (s : State) (purpose bits qual : Nat) : Option (List Byte) :=
  (platRoot s).map fun r => kdf r (rootHandle purpose bits qual) (platClass s)

/-- A tenant-class root derivation: DEVICE_ID, DOMAIN_KEX, GEODE_CHECK. -/
def tenantRootKey (s : State) (purpose bits qual : Nat) : Option (List Byte) :=
  (tenantRoot s).map fun r => kdf r (rootHandle purpose bits qual) (tenantClass s)

/-- The device identity scalar (03 R94, DEVICE_ID). -/
def idScalar (s : State) : Option (BitVec 384) := (tenantRootKey s 0x0201 448 0).map scalarOf

/-- DOMAIN_ID of the GLOBAL section in effect (02 Table 2-4). -/
def domainId (s : State) : Nat := fld s.gen.glob 8 8

/-- The domain key-exchange scalar (DOMAIN_KEX). -/
def kexScalar (s : State) : Option (BitVec 384) := (tenantRootKey s 0x0202 448 (domainId s)).map scalarOf

/-- The instance ID, 0 before an identity exists (03 R83). -/
def instId (s : State) : Nat :=
  match s.key.idPub with
  | some p => instanceOf p
  | none => 0

/-! ### GLOBAL section and compatibility (02 Table 2-5, R63) -/

/-- The CONTROL word of the GLOBAL section in effect. -/
def globCtl (s : State) : Nat := fld s.gen.glob 0 4

/-- DEADTIME_US of the GLOBAL section in effect, in µs (02 Table 2-4). -/
def deadtimeUs (s : State) : Nat := fld s.gen.glob 4 4

/-- Whether forerunner compatibility is in effect (02 R63). -/
def forerunner (s : State) : Bool := s.gen.strap || bit (globCtl s) 0

/-! ### Vault halves (03 R87, R98) -/

/-- The mask of a half: AES-256 of (slot, half, mask epoch) under a vault-mask key, one block for each 128 bits. -/
def halfMask (k : BitVec 256) (slot half epoch : Nat) : BitVec 256 :=
  let b := fun j => BitVec.ofNat 128 (slot + 2 ^ 16 * half + 2 ^ 32 * epoch + 2 ^ 120 * j)
  Config.aesEnc k (b 1) ++ Config.aesEnc k (b 0)

/-- The vault-mask key with a number, while the kill bank holds it. -/
def maskKey (s : State) (no : Bool) : Option (BitVec 256) := if no then s.key.kill.mask1 else s.key.kill.mask0

/-- A slot, where it is not EMPTY. -/
def slotAt (s : State) (i : Nat) : Option Slot := tget s.key.slots i

/-- Replace or empty a slot. -/
def setSlot (s : State) (i : Nat) (v : Option Slot) : State := { s with key := { s.key with slots := tset s.key.slots i v } }

/-- The stored half of a slot. -/
def halfOf (v : Slot) (h : Nat) : Option Half := if h % 2 = 0 then v.half0 else v.half1

/-- Replace a half of a slot. -/
def withHalf (v : Slot) (h : Nat) (x : Option Half) : Slot := if h % 2 = 0 then { v with half0 := x } else { v with half1 := x }

/-- A half stored under the present mask key (03 R98). -/
def maskHalf (s : State) (slot half : Nat) (key : BitVec 256) : Option Half :=
  (maskKey s s.key.maskCur).map fun k =>
    { masked := key ^^^ halfMask k slot half s.key.maskEpoch, keyNo := s.key.maskCur, epoch := s.key.maskEpoch }

/-- The key of a half, while the kill bank still holds its mask key (03 R99). -/
def halfKey (s : State) (slot half : Nat) : Option (BitVec 256) :=
  (slotAt s slot).bind fun v => (halfOf v half).bind fun x =>
    (maskKey s x.keyNo).map fun k => x.masked ^^^ halfMask k slot half x.epoch

/-- CUR_HALF: always GEN_CUR mod 2 (03 Table 3-11). -/
def curHalf (v : Slot) : Nat := v.genCur % 2

/-- The generation of a half of a slot: the current one, or the previous where the other half is asked for. -/
def genOfHalf (v : Slot) (h : Nat) : Nat :=
  if h % 2 = curHalf v then v.genCur else if v.staged.isSome then v.genCur + 1 else v.genCur - 1

/-! ### Tenant map and slices (03 R89; 02 Table 2-7) -/

/-- The VALID slot of a tenant for a volume: DOMAIN for volumes 0 to 4, EPHEMERAL for 5 (03 R89). -/
def slotFor (s : State) (tenant vol : Nat) : Option Nat :=
  let kind := if vol = 5 then 3 else 1
  (s.key.slots.find? fun x => x.2.kind == kind && x.2.tenant == tenant).map (·.1)

/-- The slice a PASID maps to (02 Table 2-7 SLICES; 09 R278). -/
def sliceOfPasid (s : State) (pasid : Nat) : Option Nat :=
  (secBody s 4).bind fun b => (List.range (fld b 0 2)).find? fun i => bits (fld b (16 + 8 * i) 8) 0 20 == pasid

/-- The tenant of a slice. -/
def sliceTenant (s : State) (i : Nat) : Option Nat :=
  (secBody s 4).bind fun b => if i < fld b 0 2 then some (bits (fld b (16 + 8 * i) 8) 20 9) else none

/-- Fields of a shelfmark (00 Table 0-4). -/
def shTenant (sh : Nat) : Nat := bits sh 15 9
def shVolume (sh : Nat) : Nat := bits sh 12 3
def shFolio (sh : Nat) : Nat := bits sh 0 12

/-! ### Resolution (03 Table 3-2) -/

/-- Record the last key-services reason: a code of Table 3-4 (03 R73; 15 Table 15-7). -/
def keyReason (s : State) (c : Code) : State :=
  if 0x20 ≤ c.toNat ∧ c.toNat ≤ 0x2A then { s with key := { s.key with lastReason := c } } else s

/-- K2: a master bound to a slice names that slice's tenant. -/
def k2 (s : State) (w : Who) : Bool :=
  match w.slice with
  | some i => sliceTenant s i == some (shTenant w.shelf)
  | none => true

/-- Life-cycle bit of a 6-bit mask; IN_TRANSIT and HALT have none (13 R396). -/
def lcsBit (s : State) (m : BitVec 6) : Bool := decide (s.lcs.st < 6) && m.getLsbD s.lcs.st

/-- K4: root class and masks of the slot admitted the use. -/
def k4 (s : State) (v : Slot) (w : Who) (vol : Nat) : Bool :=
  v.rootClass == tenantClass s && v.masks.master.getLsbD w.master && v.masks.world.getLsbD w.world
    && lcsBit s v.masks.lcs && v.masks.vol.getLsbD vol && decide (w.master < 7)

/-- K1 to K4: the slot a request resolves to, or the first failing step's reason. -/
def resolve (s : State) (w : Who) (vols : List Nat) : Except Code Nat :=
  let vol := shVolume w.shelf
  if !vols.contains vol then .error Rsn.shelfVolume
  else if !k2 s w then .error Rsn.shelfTenant
  else if !tenantAvail s then .error Rsn.geodeFail
  else match slotFor s (shTenant w.shelf) vol with
    | none => .error Rsn.keyAbsent
    | some i =>
      match slotAt s i with
      | some v => if k4 s v w vol then .ok i else .error Rsn.keyRights
      | none => .error Rsn.keyAbsent

/-- K5 for a decryption: the half a generation bit names, where it is live. -/
def k5 (v : Slot) (parity : Bool) : Option Nat :=
  let h := if parity then 1 else 0
  if h = curHalf v ∨ v.prevLive then some h else none

/-- Invocation limit Lv of a volume (03 Table 3-16). MASK is not counted. -/
def volLimit (vol : Nat) : Nat :=
  if vol = 3 then 2 ^ 52 else if vol = 4 then 2 ^ 40 else 2 ^ 56

/-- The invocation counter of a half. -/
def cntOf (v : Slot) (h : Nat) : Nat := if h % 2 = 0 then v.cnt0 else v.cnt1

/-- K6: the half's counter is below its refusal point Lv - 2^24 (03 R97). -/
def k6 (v : Slot) (h vol : Nat) : Bool := decide (cntOf v h < volLimit vol - 2 ^ 24)

/-- The counts at which a half raises KEY_EXHAUSTED: Lv - Lv/16 of each volume its slot's masks admit, and of the one that encrypts (03 R97). -/
def volMarks (v : Slot) (vol : Nat) : List Nat :=
  (((List.range 8).filter fun i => v.masks.vol.getLsbD i || i == vol).map fun i => volLimit i - volLimit i / 16).dedup

/-- Count blocks encrypted under a half; reaching Lv - Lv/16 of a volume raises KEY_EXHAUSTED once (03 R97). -/
def countBlocks (s : State) (slot half vol n : Nat) : State :=
  match slotAt s slot with
  | none => s
  | some v =>
    let c := cntOf v half
    let v' := if half % 2 = 0 then { v with cnt0 := c + n } else { v with cnt1 := c + n }
    (volMarks v vol).foldl (fun s mark =>
      if c < mark ∧ mark ≤ c + n then record s Flc.keyExhausted 5 0 0 Rsn.keyExhausted none slot else s) (setSlot s slot (some v'))

/-- The half of a generation, where it is live: current, or previous under PREV_LIVE (03 K5, R93). -/
def liveHalf (s : State) (slot gen : Nat) : Option Nat :=
  (slotAt s slot).bind fun v =>
    if v.genCur = gen then some (curHalf v)
    else if v.prevLive ∧ v.genCur = gen + 1 then some (gen % 2)
    else none

/-! ### Derivations and the derived-key cache (03 R84 to R86) -/

/-- The tag of a derivation from a slot half (03 Table 3-10); `bound` says whether it names the instance. -/
def slotHandle (s : State) (slot half purpose vol bits folio qual : Nat) (bound : Bool) : KeyHandle :=
  let v := slotAt s slot
  { slot := slot, half := half, purpose := purpose, volume := vol, bits := bits,
    tenant := (v.map (·.tenant)).getD 0, folio := folio, instId := if bound then instId s else 0, qualifier := qual,
    generation := (v.map fun x => genOfHalf x half).getD 0 }

/-- The working key of a derivation, while its half can be read. -/
def derive (s : State) (h : KeyHandle) : Option (List Byte) :=
  (halfKey s h.slot h.half).map fun k => kdf k h (((slotAt s h.slot).map (·.rootClass)).getD 0)

/-- A number that tells two derivations apart, by which the cache's set and keystream are chosen. -/
def handleNum (h : KeyHandle) : Nat :=
  leNat (leBytes 2 h.slot ++ leBytes 1 h.half ++ leBytes 2 h.purpose ++ leBytes 1 h.volume ++ leBytes 2 h.bits
    ++ leBytes 2 h.tenant ++ leBytes 2 h.folio ++ leBytes 8 h.instId ++ leBytes 8 h.qualifier ++ leBytes 4 h.generation)

/-- The keystream over a cached key under the CORE scrambling key (03 R98). -/
def scrambleOf (k : BitVec 256) (h : KeyHandle) : BitVec 576 :=
  let m := cmac k (leBytes 32 (handleNum h))
  let b := fun j => Config.aesEnc k (m ^^^ BitVec.ofNat 128 j)
  ((b 4).extractLsb' 0 64 ++ b 3 ++ (b 2 ++ (b 1 ++ b 0)))

/-- Whether the cache holds a derivation. -/
def dkcHas (s : State) (h : KeyHandle) : Bool := s.key.dkc.any fun e => e.tag == h

/-- Keep at most 16 entries of one set, most recent first (03 R85). -/
def dkcTrim (set : Nat) : Nat → List DkEntry → List DkEntry
  | _, [] => []
  | n, e :: r =>
    if Config.dkcSet (handleNum e.tag) % 256 = set then
      match n with
      | 0 => dkcTrim set 0 r
      | k + 1 => e :: dkcTrim set k r
    else e :: dkcTrim set n r

/-- A working key as the CORE key stores hold it: XOR its keystream under the CORE scrambling key (03 R98). -/
def scrambled (s : State) (h : KeyHandle) : Option DkEntry :=
  match derive s h, s.key.kill.scramble with
  | some k, some sc => some { tag := h, stored := BitVec.ofNat 576 (leNat k) ^^^ scrambleOf sc h }
  | _, _ => none

/-- Put a derived key in the cache as its most recent entry (03 R85, R98). -/
def dkcPut (s : State) (h : KeyHandle) : State :=
  match scrambled s h with
  | some e =>
    let l := e :: s.key.dkc.filter fun x => x.tag != h
    { s with key := { s.key with dkc := dkcTrim (Config.dkcSet (handleNum h) % 256) 16 l } }
  | none => s

/-- A hit makes its entry the most recent of the cache. -/
def dkcTouch (s : State) (h : KeyHandle) : State :=
  match s.key.dkc.find? fun e => e.tag == h with
  | some e => { s with key := { s.key with dkc := e :: s.key.dkc.filter fun x => x.tag != h } }
  | none => s

/-- Queue a miss for a lane group: misses of one derivation merge, and 256 distinct ones wait; a request that finds no place stays at step K7 (03 R86). -/
def missAdd (s : State) (h : KeyHandle) (group : Nat) : State :=
  let q := s.key.missq
  if q.any fun m => m.1 == h then
    { s with key := { s.key with missq := q.map fun m => if m.1 = h ∧ !m.2.contains group then (m.1, m.2 ++ [group]) else m } }
  else if q.length < 256 then { s with key := { s.key with missq := q ++ [(h, [group])] } }
  else s

/-- Whether a lane group's buffer holds a key. -/
def ctxHas (s : State) (group : Nat) (h : KeyHandle) : Bool := (dget [] s.lane.ctx group).any fun e => e.tag == h

/-- A key placed in a lane group's buffer: 64 contexts, the most recent first, each scrambled (01 R25; 03 R98). -/
def ctxPut (s : State) (group : Nat) (h : KeyHandle) : State :=
  match scrambled s h with
  | some e =>
    let l := e :: (dget [] s.lane.ctx group).filter fun x => x.tag != h
    { s with lane := { s.lane with ctx := tput s.lane.ctx group (l.take 64) } }
  | none => s

/-- A key that an engine takes: a hit is the most recent of its set, a miss is derived and enters the cache within the command (03 R85, R86; log 146). -/
def keyUse (s : State) (h : KeyHandle) : State := if dkcHas s h then dkcTouch s h else dkcPut s h

/-- Drop every cached key, buffer context and queued derivation that came from a half (03 R95). -/
def dropKeysOf (s : State) (slot half : Nat) : State :=
  let hit := fun (h : KeyHandle) => h.slot == slot && h.half % 2 == half % 2
  { s with
    key := { s.key with dkc := s.key.dkc.filter (fun e => !hit e.tag), missq := s.key.missq.filter (fun m => !hit m.1) }
    lane := { s.lane with ctx := s.lane.ctx.map (fun g => (g.1, g.2.filter (fun e => !hit e.tag))) } }

/-- Zeroise one half of a slot (03 R95). -/
def zeroHalf (s : State) (slot half : Nat) : State :=
  let s := dropKeysOf s slot half
  match slotAt s slot with
  | some v => setSlot s slot (some (withHalf v half none))
  | none => s

/-- Empty a slot: both halves zeroised (03 R95). -/
def emptySlot (s : State) (slot : Nat) : State := setSlot (dropKeysOf (dropKeysOf s slot 0) slot 1) slot none

/-! ### Slots of the block itself -/

/-- A key placed in a slot as its current half, at a generation, with masks. -/
def fillSlot (s : State) (slot kind rc tenant gen : Nat) (m : Masks) (key : BitVec 256) : State :=
  let v : Slot :=
    { kind := kind, rootClass := rc, tenant := tenant, masks := m, genCur := gen, prevLive := false,
      staged := none, half0 := none, half1 := none, cnt0 := 0, cnt1 := 0 }
  setSlot s slot (some (withHalf v gen (maskHalf s slot (gen % 2) key)))

/-- A key placed in the half that is not current. -/
def stageHalf (s : State) (slot : Nat) (m : Masks) (key : BitVec 256) : State :=
  match slotAt s slot with
  | some v =>
    let h := (v.genCur + 1) % 2
    setSlot s slot (some { withHalf v h (maskHalf s slot h key) with
      staged := some m, cnt0 := if h = 0 then 0 else v.cnt0, cnt1 := if h = 1 then 0 else v.cnt1 })
  | none => s

/-- The staged half becomes current, the former one stays as previous (03 Table 3-12 ACTIVATE). -/
def activateHalf (s : State) (slot : Nat) : State :=
  match slotAt s slot with
  | some v =>
    setSlot s slot (some { v with genCur := v.genCur + 1, prevLive := true, masks := (v.staged).getD v.masks, staged := none })
  | none => s

/-- The previous half is zeroised and PREV_LIVE cleared. -/
def retireHalf (s : State) (slot : Nat) : State :=
  match slotAt s slot with
  | some v =>
    let s := zeroHalf s slot (v.genCur + 1)
    match slotAt s slot with
    | some v' => setSlot s slot (some { v' with prevLive := false })
    | none => s
  | none => s

/-- Masks that only the block itself uses. -/
def ownMasks : Masks := { lcs := 0#6, world := 0#4, master := 0#8, vol := 0#8 }

/-! ### Random numbers (03 R100, R101) -/

/-- Whether the DRBG is instantiated and random numbers are not refused. -/
def drbgLive (s : State) : Bool := s.key.drbgUp && !s.key.drbgFail && !s.key.tampered

/-- Whether a generate request has to wait for a seed now: the start-up tests repeat, and the DRBG is not up or its reseed is due (03 R100). -/
def drbgWaits (s : State) : Bool :=
  decide (0 < s.key.retries) && (!s.key.drbgUp || s.key.reseedDue) && !s.key.drbgFail && !s.key.tampered

/-- Whether the DRBG serves a generate request now. -/
def drbgServes (s : State) : Bool := drbgLive s && !drbgWaits s

/-- A generate request: a reseed that is due comes first, the count of R101 falls due at 2^20, and the random value is free (log 3). -/
def drbgTake (w : Nat) (s : State) : BitVec w × State :=
  let s := if s.key.reseedDue then { s with key := { s.key with drbgReqs := 0, reseedDue := false } } else s
  let n := s.key.drbgReqs + 1
  freshBits w { s with key := { s.key with drbgReqs := n, reseedDue := s.key.reseedDue || decide (2 ^ 20 ≤ n) } }

/-- The USER area key is drawn when USER is first written (13 R399). -/
def userKeyed (s : State) : State :=
  if s.flash.userKey.isSome then s
  else
    let (k, s) := freshBits 512 s
    emit { s with flash := { s.flash with userKey := some k } } (.flashOp "USER area key")

end Sys2Proof.Machine
end

