-- ==== Sys2Proof/Machine/Ctl.lean ====
section
/-!
DEFINITION. Which CTLPORT accesses the block admits, and how it answers (14 R438; 15 R452, R453; 02 R56). Offsets are byte offsets in the window.
-/
namespace Sys2Proof.Machine

/-- The identification registers (15 R453). -/
def isIdent (off : Nat) : Bool := decide (off < 0x1C)

/-- The block of a per-port ILE register: its EGRESS code and offset in the block (15 R462). -/
def ileBlock (off : Nat) : Option (Nat × Nat) :=
  if 0x4400 ≤ off ∧ off < 0x4400 + 0x40 * 20 then some ((off - 0x4400) / 0x40, off % 0x40) else none

/-- The status registers: names ending in _STATUS or _STATE, and the ATT_MBX_ registers (15 R453). -/
def isStatusReg (off : Nat) : Bool :=
  [0x20, 0x24, 0x54, 0x64, 0x80, 0xA4, 0x1000, 0x1004, 0x1008, 0x1028, 0x2000, 0x2004, 0x200C, 0x4000, 0x4004, 0x5008,
    0x500C, 0x5014, 0x6000, 0x6004, 0x8008, 0x800C, 0x8028, 0x10000, 0x11004, 0x11040, 0x11044, 0x14004, 0x14014].contains off
  || (decide (0x12000 ≤ off) && decide (off < 0x14000))
  || (match ileBlock off with | some (_, k) => decide (k < 8) | none => false)

/-- The domain whose reset holds a register: 0 CORE, 1 HOST, 2 AON or fixed (15 R452 and the group tables). -/
def regDomain (off : Nat) : Nat :=
  if off < 0x1000 then
    if off < 0x14 then 2
    else if [0x14, 0x80, 0x84].contains off then 1
    else if [0x18, 0x20, 0x24, 0x28, 0x2C, 0x54, 0x58, 0x5C].contains off then 2
    else 0
  else if off < 0x100C then 2
  else if off = 0x5018 then 2
  else if 0x8000 ≤ off ∧ off < 0x9000 then 1
  else if 0x10000 ≤ off ∧ off < 0x20000 then 2
  else 0

/-- What the block admits while UNCHARTERED (02 R56). -/
def unchartedOk (off : Nat) (write : Bool) : Bool :=
  (!write && (isIdent off || isStatusReg off))
  || (write && (off == 0x4C || off == 0x50 || (decide (0x20000 ≤ off) && decide (off < 0x30000))))
  || (decide (0x10000 ≤ off) && decide (off < 0x15000))

/-- Whether an access is refused now: 0 OKAY, 1 HOST_RESET, 2 DENIED (14 R438). -/
def ctlErr (s : State) (off : Nat) (write : Bool) : Nat :=
  if hostDown s then 1
  else if quiescing s && !(isIdent off || isStatusReg off) then 2
  else if s.gen.unchartered && !unchartedOk off write then 2
  else if regDomain off = 0 && coreDown s then 2
  else 0

/-- A CTLPORT write: answered with an error and without effect, or done and answered OKAY. Without power nothing answers. -/
def ctlWriteBy (s : State) (off : Nat) (f : State → State) : State :=
  if !s.pin.pwrok then s
  else
    let e := ctlErr s off true
    if e ≠ 0 then emit s (.ctlRsp 0#32 e) else emit (f s) (.ctlRsp 0#32 0)

end Sys2Proof.Machine
end

