-- ==== Sys2Proof/Machine/Lanes.lean ====
section
/-!
DEFINITION. The cipher lane pool: states, groups, beats and their checks, fencing, replacement and the lane commands (01 R18 to R32, R472; 11 R336 to R338).
-/
namespace Sys2Proof.Machine

/-! ### Lanes and groups -/

/-- A lane; one not listed is ABSENT. -/
def laneAt (s : State) (i : Nat) : Lane := dget {} s.lane.l i

/-- Replace a lane. -/
def setLane (s : State) (i : Nat) (v : Lane) : State := { s with lane := { s.lane with l := dput {} s.lane.l i v } }

/-- The group a lane serves: a port by its code of Table 10-8, 24 the common group. -/
def groupOf : LaneSt → Option Nat
  | .bound p => some p
  | .common => some 24
  | _ => none

/-- The lanes of a group, lowest number first. -/
def members (s : State) (g : Nat) : List Nat :=
  (List.range s.cfg.lanes).filter fun i => groupOf (laneAt s i).st == some g

/-- SPARE lanes whose latest self-test passed, lowest first (01 R26). -/
def goodSpares (s : State) : List Nat :=
  (List.range s.cfg.lanes).filter fun i => (laneAt s i).st == .spare && (laneAt s i).selfOk

/-- The chartered size of a group: BCE_MIN for the common group (01 R27; 15 Table 15-4). -/
def charteredSize (s : State) (g : Nat) : Nat := if g = 24 then s.lane.bceMin else dget 0 s.lane.size g

/-- The first group in port order, the common group last, that runs below its chartered size (01 R472). -/
def firstShort (s : State) : Option Nat :=
  if s.gen.unchartered || s.gen.charter.isNone then none
  else (List.range 25).find? fun g => decide ((members s g).length < charteredSize s g)

/-- The state of a lane in a group. -/
def inGroup (g : Nat) : LaneSt := if g = 24 then .common else .bound g

/-- The places of a group that wait for a replacement (01 R29, R30). -/
def vacancies (s : State) (g : Nat) : List Vacancy := s.lane.vacant.filter fun x => x.group == g

/-- Whether a port's group has no lane and waits for none: the port refuses its requests (01 R30). -/
def noLanes (s : State) (g : Nat) : Bool := (members s g).isEmpty && (vacancies s g).isEmpty

/-- The first `n` places of a group still wait; the others have been filled. -/
def keepVacant (s : State) (g n : Nat) : State :=
  let keep := (vacancies s g).take n
  { s with lane := { s.lane with vacant := s.lane.vacant.filter fun x => x.group != g || keep.contains x } }

/-- No more places of a port group wait than it has below its chartered size (01 R29, R472). -/
def trimVacant (s : State) (g : Nat) : State :=
  if g = 24 then s else keepVacant s g (charteredSize s g - (members s g).length)

/-- A lane that becomes SPARE: it joins the first short group, if any, and takes one of the places that wait there (01 R472). -/
def becomeSpare (s : State) (i : Nat) : State :=
  let v := { laneAt s i with st := .spare, fenceMark := false, driverHeld := false, testing := false, selfOk := true }
  let s := setLane s i v
  match firstShort s with
  | some g => trimVacant (setLane s i { v with st := inGroup g }) g
  | none => s

/-- Active lanes of a configuration of N lanes: N - ceil(N / 13) (01 R45). -/
def activeCount (n : Nat) : Nat := n - ceilDiv n 13

/-! ### Step C10 (01 R19, R20, R472) -/

/-- Whether a lane is in the standing list, by either lane class. -/
def laneStanding (s : State) (i : Nat) : Bool := standing s Flc.laneCheck 0 i || standing s Flc.laneSelftest 0 i

/-- A lane tested at C10: fenced lanes stay fenced, one that fails is fenced with LANE_SELFTEST, the others are SPARE. -/
def c10Test (bad : List Nat) (s : State) (i : Nat) : State :=
  let v := laneAt s i
  if v.fenceMark then setLane s i { v with st := .fenced, testing := false }
  else if bad.contains i then
    recordPlain (setLane s i { v with st := .fenced, fenceMark := true, selfOk := false, testing := false }) Flc.laneSelftest 0 i 3
  else setLane s i { v with st := .spare, selfOk := true, testing := false }

/-- Give the next lanes of a list to groups in order, each up to its size; what is left is COMMON. -/
def fillGroups (s : State) : List Nat → List Nat → State
  | [], ls => ls.foldl (fun s i => setLane s i { laneAt s i with st := .common }) s
  | g :: gs, ls =>
    let n := charteredSize s g
    fillGroups ((ls.take n).foldl (fun s i => setLane s i { laneAt s i with st := inGroup g }) s) gs (ls.drop n)

/-- Lane known-answer test on every present lane, then the active, SPARE and group lanes chosen afresh. While UNCHARTERED no
port has a group and every active lane is COMMON (01 R19, R472). -/
def laneStart (s : State) (bad : List Nat) : State :=
  let s := { s with lane := { s.lane with vacant := [], lent := [] } }
  let s := (List.range s.cfg.lanes).foldl (c10Test bad) s
  let healthy := (List.range s.cfg.lanes).filter fun i => (laneAt s i).st == .spare
  let active := healthy.take (activeCount s.cfg.lanes)
  fillGroups s (if s.gen.unchartered then [] else List.range 24) active

/-- Step C7: the lane fence list is rebuilt from the standing list (01 R20; 02 Table 2-11). -/
def rebuildFence (s : State) : State :=
  (List.range s.cfg.lanes).foldl (fun s i => setLane s i { laneAt s i with fenceMark := laneStanding s i }) s

/-- A group that shrinks at a recharter gives its highest-numbered lanes to the common group (01 R472). -/
def shrinkGroup (s : State) (g n : Nat) : State :=
  ((members s g).drop n).foldl (fun s i => setLane s i { laneAt s i with st := .common }) s

/-- A group that grows takes the lowest-numbered COMMON lanes (01 R472). -/
def growGroup (s : State) (g n : Nat) : State :=
  let need := n - (members s g).length
  ((members s 24).take need).foldl (fun s i => setLane s i { laneAt s i with st := inGroup g }) s

/-- The regrouping of step 6 of Table 2-9: only groups whose chartered size changes are touched (01 R472). -/
def regroup (s : State) (size : Tbl Nat) (bceMin : Nat) : State :=
  let changed := (List.range 24).filter fun g => dget 0 size g != dget 0 s.lane.size g
  let s := { s with lane := { s.lane with size := size, bceMin := bceMin } }
  let s := changed.foldl (fun s g => shrinkGroup s g (dget 0 size g)) s
  let s := changed.foldl (fun s g => growGroup s g (dget 0 size g)) s
  changed.foldl trimVacant s

/-! ### Fencing (11 R336, R338) -/

/-- A place joins those that wait: in the order of their fences, in ascending lane number where those are of one moment (01 R31; log 132). -/
def putVacant (v : Vacancy) : List Vacancy → List Vacancy
  | [] => [v]
  | x :: r => if v.at_ < x.at_ ∨ (v.at_ = x.at_ ∧ v.lane < x.lane) then v :: x :: r else x :: putVacant v r

/-- Steps 1 and 2 of R336: the lane is marked and FENCED, and its place waits for a replacement. -/
def fenceLane (s : State) (i : Nat) : State :=
  let v := laneAt s i
  let s := setLane s i { v with st := .fenced, fenceMark := true }
  match groupOf v.st with
  | some g => { s with lane := { s.lane with vacant := putVacant { lane := i, group := g, at_ := s.tm.ns } s.lane.vacant } }
  | none => s

/-- A lane whose compare failed: fenced, under test, with its LANE_CHECK record and verdict (11 R336). -/
def fenceFault (s : State) (i : Nat) (who : Option Who) (tag : Nat) : State :=
  let s := fenceLane s i
  let verdict := verdictOf s Flc.laneCheck 0 i
  let s := setLane s i { laneAt s i with testing := true, testByDriver := false, verdict := verdict }
  record s Flc.laneCheck 0 i 3 Rsn.laneCheck who tag

/-- The replacement of R29 for a vacant place of a group: the lowest good SPARE, unless its self-test fails now, else for a port group the
lowest COMMON lane (01 R29, R31). -/
def replacementFor (s : State) (g : Nat) (failing : List Nat) : Option Nat :=
  match (goodSpares s).head? with
  | some i => if !failing.contains i then some i else if g = 24 then none else (members s 24).head?
  | none => if g = 24 then none else (members s 24).head?

/-- Lanes whose self-test fails in the CCLK in which they would be chosen are fenced with LANE_SELFTEST (01 R26, R31). -/
def failSpares (s : State) (failing : List Nat) : State :=
  (failing.filter fun i => (laneAt s i).st == .spare).foldl
    (fun s i => recordPlain (setLane s i { laneAt s i with st := .fenced, fenceMark := true, selfOk := false }) Flc.laneSelftest 0 i 3) s

/-- The place whose turn it is: the first that waits, but for those of a group lent while its port's window is open (01 R31; 04 R151). -/
def nextVacant (s : State) : Option Vacancy := s.lane.vacant.find? fun x => !s.lane.lent.contains x.group

/-- R29 and R30 for the vacant place a fenced lane left, at its turn: the replacement joins, or a group left with no lane records
PORT_NO_LANES. A port group that has its chartered size again needs none. -/
def replaceLane (s : State) (i : Nat) (failing : List Nat) : State :=
  match nextVacant s with
  | none => s
  | some v =>
    if v.lane ≠ i then s
    else
      let g := v.group
      let s := { s with lane := { s.lane with vacant := s.lane.vacant.filter fun x => x != v } }
      if g < 24 ∧ charteredSize s g ≤ (members s g).length then s
      else
        let r := replacementFor s g failing
        let s := failSpares s failing
        match r with
        | some j => setLane s j { laneAt s j with st := inGroup g }
        | none =>
          if g < 24 && noLanes s g then
            record s Flc.portNoLanes 0 g 0 Rsn.noLanes none 0
          else s

/-! ### Beats (01 R21 to R25) -/

/-- The working pipeline's output for a beat under a key. For a keystream, `data` holds the four counter blocks. -/
def beatOut (op : CipherOp) (key : List Byte) (tweak : BitVec 128) (data : Line) : Line :=
  let k := BitVec.ofNat 512 (leNat key)
  match op with
  | .xtsEncrypt => xtsEnc k tweak data
  | .xtsDecrypt => xtsDec k tweak data
  | .keystream =>
    let e := fun j => Config.aesEnc (k.extractLsb' 0 256) (lineBlk data j)
    lineOf (e 0) (e 1) (e 2) (e 3)

/-- The lane that replays a beat (01 R23): another lane of the group, a COMMON lane for a port group, the lowest good SPARE, else
the failing lane itself. -/
def replayLane (s : State) (i g : Nat) : Nat :=
  match (members s g).filter (fun j => j != i) ++ (if g < 24 then members s 24 else []) ++ goodSpares s with
  | j :: _ => j
  | [] => i

/-- The requester of a request in flight at a group: a memory operation, an originated operation by its table entry, or a job (01 R23; log 144). -/
def reqWho (s : State) (g tag : Nat) : Option Who :=
  if g < 4 then (s.ime.ents.find? fun e => e.seq == tag).map (·.who)
  else if g < 24 then (tget s.ile.orig tag).map (·.who)
  else (s.bce.jobs.find? fun j => j.id == tag).map fun j =>
    { master := 4, world := j.world, agent := 0, pasid := none, slice := some j.slice, context := some j.context, shelf := j.shelf, addr := j.addr,
      tag := 0 }

/-- The request a beat belongs to will complete poisoned with a reason (01 R23). -/
def poisonReq (s : State) (g tag : Nat) (c : Code) : State :=
  if g < 4 then { s with ime := { s.ime with ents := s.ime.ents.map fun e => if e.seq = tag then { e with fail := c } else e } }
  else if g < 24 then { s with ile := { s.ile with orig := tmod s.ile.orig tag fun o => { o with fail := c } } }
  else { s with bce := { s.bce with jobs := s.bce.jobs.map fun j => if j.id = tag then { j with fail := c } else j } }

/-- The place of the next beat that a group releases of a request. -/
def nextBeat (s : State) (g req : Nat) : Nat :=
  ((s.lane.next.find? fun x => x.1 == g && x.2.1 == req).map (·.2.2)).getD 0

/-- Beats of a request that stand next are released, in address order (01 R24). -/
def releaseBeats (g req : Nat) : Nat → State → State
  | 0, s => s
  | f + 1, s =>
    let n := nextBeat s g req
    match s.lane.done.find? fun b => b.group == g && b.req == req && b.index == n with
    | none => s
    | some b =>
      let rest := s.lane.next.filter fun x => !(x.1 == g && x.2.1 == req)
      releaseBeats g req f (emit { s with lane := { s.lane with
        done := s.lane.done.filter (fun x => x != b), next := if b.last then rest else rest ++ [(g, req, n + 1)] } } (.lane b.lane b.data req))

/-- A beat is done: it leaves once every earlier beat of its request has left (01 R24). -/
def beatDone (s : State) (g lane : Nat) (b : Beat) (o : Line) : State :=
  let d : BeatDone := { group := g, req := b.reqTag, index := b.index, last := b.last, lane := lane, data := o }
  releaseBeats g b.reqTag (s.lane.done.length + 1) { s with lane := { s.lane with done := s.lane.done ++ [d] } }

/-- The lanes that serve the BCE: the common group's, and those of the groups lent while their ports' windows are open (01 R32). -/
def bceLanes (s : State) : List Nat := members s 24 ++ s.lane.lent.flatMap (members s)

/-- The lanes that serve a group's beats. -/
def serving (s : State) (g : Nat) : List Nat := if g = 24 then bceLanes s else members s g

/-- A request's beats pass the lanes of a group: its keys reach the group's buffer, a failing compare is replayed and its lane fenced, and where the replay
fails too the request ends poisoned (01 R22, R23, R25; 03 R85; log 144). -/
def lanePass (s : State) (g : Nat) (hs : List KeyHandle) (who : Option Who) (tag : Nat) : Bool × State :=
  let s := hs.foldl (fun s h => ctxPut (keyUse s h) g h) s
  match (serving s g).find? fun i => (tget s.lane.flaw i).isSome with
  | none => (true, s)
  | some i =>
    let twice := dget false s.lane.flaw i
    let j := replayLane s i g
    let s := fenceFault { s with lane := { s.lane with flaw := tdel s.lane.flaw i } } i who tag
    if !twice then (true, s) else (false, if j = i then s else fenceFault s j who tag)

/-- A beat through a lane: working and checking pipelines, compare, replay, release (01 R22, R23, R25; 11 R327). -/
def laneBeat (s : State) (i : Nat) (b : Beat) (mis mis2 : Bool) : State :=
  match groupOf (laneAt s i).st with
  | none => s
  | some g =>
    if s.key.tampered || coreDown s then s
    else if !(ctxHas s g b.key || dkcHas s b.key) then missAdd s b.key g
    else match derive s b.key with
      | none => s
      | some k =>
        let s := ctxPut (dkcTouch s b.key) g b.key
        let o := beatOut b.op k b.tweak b.data
        if !mis then beatDone s g i b o
        else
          let j := replayLane s i g
          let who := reqWho s g b.reqTag
          if !mis2 then fenceFault (beatDone s g j b o) i who b.reqTag
          else
            let s := { s with lane := { s.lane with
              done := s.lane.done.filter (fun x => !(x.group == g && x.req == b.reqTag))
              next := s.lane.next.filter (fun x => !(x.1 == g && x.2.1 == b.reqTag)) } }
            let s := fenceFault (poisonReq s g b.reqTag Rsn.laneCheck) i who b.reqTag
            if j = i then s else fenceFault s j who b.reqTag

/-- A post-fence test ends: SPARE only if it passed, the verdict was TRANSIENT and the driver does not hold the lane (11 R336,
R338); a failed test raises LANE_SELFTEST. -/
def fenceTest (s : State) (i : Nat) (pass : Bool) : State :=
  let v := laneAt s i
  if !v.testing then s
  else
    let s := setLane s i { v with testing := false, selfOk := pass }
    if !pass then recordPlain s Flc.laneSelftest 0 i 3
    else if v.testByDriver then
      if laneStanding s i then s else becomeSpare s i
    else if v.verdict = 1 && !v.driverHeld then becomeSpare s i
    else s

/-- A SPARE lane's periodic test (01 R26). -/
def spareTest (s : State) (i : Nat) (pass : Bool) : State :=
  let v := laneAt s i
  if v.st ≠ .spare then s
  else if pass then setLane s i { v with selfOk := true }
  else recordPlain (setLane s i { v with st := .fenced, fenceMark := true, selfOk := false }) Flc.laneSelftest 0 i 3

/-- A write to FLT_LANE_FENCE: fence and replace, no record, no test; a lane already FENCED is marked held (11 R338). -/
def driverFence (s : State) (w : Word) : State :=
  let i := bits w.toNat 0 8
  if s.cfg.lanes ≤ i then ignoreWrite s (0x10014 / 4)
  else
    let v := laneAt s i
    if v.st = .fenced then setLane s i { v with driverHeld := true }
    else
      let s := fenceLane s i
      setLane s i { laneAt s i with driverHeld := true }

/-- A write to FLT_LANE_UNFENCE: a driver-held lane that is FENCED and not in the standing list is tested (11 R338). -/
def driverUnfence (s : State) (w : Word) : State :=
  let i := bits w.toNat 0 8
  if s.cfg.lanes ≤ i then ignoreWrite s (0x10018 / 4)
  else
    let v := laneAt s i
    if v.st ≠ .fenced ∨ laneStanding s i then ignoreWrite s (0x10018 / 4)
    else if v.testing then setLane s i { v with driverHeld := false }
    else if v.driverHeld then setLane s i { v with driverHeld := false, testing := true, testByDriver := true }
    else s

/-- Lanes lent to the common group while a port's window is open (01 R32). -/
def lendLanes (s : State) (g : Nat) : State := { s with lane := { s.lane with lent := s.lane.lent ++ [g] } }

/-- Lent lanes return to their group (01 R32). -/
def returnLanes (s : State) (g : Nat) : State := { s with lane := { s.lane with lent := s.lane.lent.filter fun x => x != g } }

/-! ### The lane commands -/

/-- LANE_BEAT (01 R21 to R25). -/
def execLaneBeat (lane : Nat) (b : Beat) (miscompare replayMiscompare : Bool) (s : State) : Host.Outcome State Fault Refusal :=
  .next (laneBeat s lane b miscompare replayMiscompare)

/-- LANE_REPLACE (01 R29 to R31). -/
def execLaneReplace (lane : Nat) (failing : List Nat) (s : State) : Host.Outcome State Fault Refusal :=
  .next (replaceLane s lane failing)

/-- FENCE_TEST_DONE (11 R336, R338). -/
def execFenceTestDone (lane : Nat) (pass : Bool) (s : State) : Host.Outcome State Fault Refusal := .next (fenceTest s lane pass)

/-- SPARE_SELF_TEST (01 R26). -/
def execSpareSelfTest (lane : Nat) (pass : Bool) (s : State) : Host.Outcome State Fault Refusal := .next (spareTest s lane pass)

/-- DRIVER_LANE_FENCE (11 R338). -/
def execDriverLaneFence (value : Word) (s : State) : Host.Outcome State Fault Refusal := .next (ctlWriteBy s 0x10014 fun s => driverFence s value)

/-- DRIVER_LANE_UNFENCE (11 R338). -/
def execDriverLaneUnfence (value : Word) (s : State) : Host.Outcome State Fault Refusal := .next (ctlWriteBy s 0x10018 fun s => driverUnfence s value)

end Sys2Proof.Machine
end

