-- ==== Sys2Proof/Machine/FabOps.lean ====
section
/-!
DEFINITION. Fabric operations as values: responses, the queue of a port's virtual channels, near-memory atomics and service outcomes
(05 R168, R173, R178; 10 R322 to R326).
-/
namespace Sys2Proof.Machine

/-! ### Service outcomes and statistics (10 R322, R324, R326) -/

/-- The statistics of a port and class. -/
def statAt (s : State) (port cls : Nat) : QStat := dget {} s.qos.stats (16 * port + cls)

/-- Replace the statistics of a port and class. -/
def setStat (s : State) (port cls : Nat) (v : QStat) : State :=
  { s with qos := { s.qos with stats := dput {} s.qos.stats (16 * port + cls) v } }

/-- Count a completion at a port: REFUSED, LATE with its lateness, or SERVED (10 Table 10-8). -/
def countOutcome (s : State) (port cls : Nat) (refused : Bool) (deadline : Option Nat) : State :=
  let q := statAt s port cls
  let l := latenessOf s deadline
  setStat s port cls
    (if refused then { q with refused := satAdd 64 q.refused 1 }
     else if 0 < l then { q with late := satAdd 64 q.late 1, lateMax := max q.lateMax l }
     else { q with served := satAdd 64 q.served 1 })

/-- SERVICE code: 0 SERVED, 1 LATE, 2 REFUSED (10 R322). -/
def serviceOf (s : State) (refused : Bool) (deadline : Option Nat) : Nat :=
  if refused then 2 else if 0 < latenessOf s deadline then 1 else 0

/-- FAB_RSP_LATENESS: units of 10 ns, saturating at 0xFFFF; 0 unless LATE (10 R324). -/
def lateness16 (s : State) (refused : Bool) (deadline : Option Nat) : Nat :=
  if refused then 0 else min 0xFFFF (latenessOf s deadline / 10)

/-- The response beats of a FABPORT request (14 R427): the same RESULT, SERVICE, REASON and LATENESS on every beat. -/
def fabBeats (s : State) (ch : Nat) (tag : BitVec 16) (epoch : Word) (result : Nat) (reason : Code) (deadline : Option Nat)
    (data : List (Stored × Bool)) : List Out :=
  let refused := decide (result = 2)
  (List.range data.length).map fun i =>
    let d := data.getD i (0#576, false)
    .fabRsp ch tag epoch i (decide (i + 1 = data.length)) d.1 d.2 result (serviceOf s refused deadline)
      (if result = 0 then 0#8 else reason) (lateness16 s refused deadline)

/-! ### Ports of the ILE as values -/

/-- A link or D2D port's engine state. -/
def lportAt (s : State) (e : Nat) : LPort := dget {} s.ile.ports e

/-- Replace a link or D2D port's engine state. -/
def setLport (s : State) (e : Nat) (p : LPort) : State := { s with ile := { s.ile with ports := dput {} s.ile.ports e p } }

/-- Own member index, while LISTED: AON keeps both (12 R380). -/
def ownMember (s : State) : Option Nat := if s.att.listed then some s.att.member else none

/-- The route entry of a member (05 Table 5-11). -/
def routeOf (s : State) (m : Nat) : Word := dget 0#32 s.ile.routes (m % 16384)

/-- VALID, STAGE and EGRESS of a route entry. -/
def routeValid (w : Word) : Bool := w.getLsbD 31
def routeStage (w : Word) : Nat := bits w.toNat 29 2
def routeEgress (w : Word) : Nat := bits w.toNat 0 5

/-- The VC of a request of a class: 2 + ILE_VC_MAP[class] (05 R168). -/
def vcOfClass (s : State) (cls : Nat) : Nat := 2 + bits s.ile.vcMap.toNat (3 * cls) 3

/-- A response to an operation: TAG, EPOCH and ATTR copied, DEST from SRC and SRC from DEST, ADDRESS zero (05 R173). -/
def respOf (op : FabOp) (code : Nat) (data : List Byte) : FabOp :=
  { op := code, flagged := false, fetch := false, last := false, shape := 0, ttl := 7, tag := op.tag, address := 0,
    shelf := op.shelf, cls := op.cls, world := op.world, deadline := op.deadline, epoch := op.epoch, dest := op.src,
    src := op.dest, data := data }

/-- The ageing time in ns of a request that enters a queue now (10 R314, R325). -/
def ageNs (s : State) : Nat := 1000 * bits s.qos.ctrl.toNat 16 10

/-- An operation waits for a VC of a port; `pad` is the length its frame is sized for. An operation of the origination table keeps its place in the
order of issue, another takes the next (05 R169, R176, R189). -/
def txPut (s : State) (e vc : Nat) (op : FabOp) (deadline : Option Nat) (orig : Option Nat) (pad : Nat) : State :=
  let p := lportAt s e
  let seq := ((orig.bind (tget s.ile.orig)).map (·.seq)).getD s.ile.nextMsg
  let t : TxOp :=
    { vc := vc, op := op, shape := op.shape, deadline := deadline, entered := s.tm.ns, aged := false, orig := orig, pad := pad, seq := seq,
      age := ageNs s }
  let s := if orig.isSome then s else { s with ile := { s.ile with nextMsg := s.ile.nextMsg + 1 } }
  setLport s e { p with txq := p.txq ++ [t] }

/-- The port a response leaves by: the route to its DEST, else the port its request came in on. -/
def respEgress (s : State) (dest inPort : Nat) : Nat :=
  let w := routeOf s dest
  if routeValid w && decide (routeEgress w < 20) then routeEgress w else inPort

/-- Answer an operation that came in on a port: a response on VC0 with what remains of its local deadline (05 R168, R173; 10 R310). -/
def answerOp (s : State) (op : FabOp) (inPort code : Nat) (data : List Byte) (deadline : Option Nat) : State :=
  let r := respOf op code data
  txPut s (respEgress s r.dest inPort) 0 r deadline none data.length

/-- RESP_ERROR with a reason: 16 bytes, the code first (05 Table 5-10). -/
def answerError (s : State) (op : FabOp) (inPort : Nat) (c : Code) (deadline : Option Nat) : State :=
  answerOp s op inPort 0x12 (c :: zeros 15) deadline

/-! ### Near-memory atomics (05 R178) -/

/-- AOPs 0, 2, 3 and 11 use 4 bytes, the others 8. -/
def aopWidth (aop : Nat) : Nat := if aop = 0 ∨ aop = 2 ∨ aop = 3 ∨ aop = 11 then 4 else 8

/-- Whether AOP and OFFSET are supported: a defined AOP, OFFSET aligned to the operand and inside the line (05 R178). -/
def atomicOk (d : List Byte) : Bool :=
  let aop := fld d 0 1
  let off := fld d 1 1
  decide (aop ≤ 11) && off % aopWidth aop == 0 && decide (off + aopWidth aop ≤ 64)

/-- Whether the reserved parts of ATOMIC data are zero (05 R178; 00 R12). -/
def atomicFormOk (d : List Byte) : Bool :=
  zeroBytes (slice d 2 14) && (aopWidth (fld d 0 1) == 8 || (zeroBytes (slice d 0x14 4) && zeroBytes (slice d 0x1C 4)))

/-- A 32-bit value read as signed. -/
def signed32 (v : Nat) : Int := if v < 2 ^ 31 then v else (v : Int) - 2 ^ 32

end Sys2Proof.Machine
end

