-- ==== Sys2Proof/Machine/Budget.lean ====
section
/-!
DEFINITION. Budget counters and rank at the ports (10 R311 to R315, R325, R326), and the windows that stop a memory port (04 R150).
-/
namespace Sys2Proof.Machine

/-! ### Budgets (10 R311, R325) -/

/-- The position of a present port in the port order of 02 R49. -/
def portOrder (s : State) (q : Nat) : Nat := ((List.range q).filter (portPresent s)).length

/-- The budget of a class on a port, in 1/1024: 0 without a QOS section. -/
def budget (s : State) (q cls : Nat) : Nat :=
  match secBody s 5 with
  | some b => fld b (32 * portOrder s q + 2 * cls) 2
  | none => 0

/-- Lanes now in a port's group, lent ones included (10 R311). -/
def groupLanes (s : State) (q : Nat) : Nat := (members s q).length

/-- The refill of a class counter in one CCLK. -/
def refill (s : State) (q cls : Nat) : Nat := groupLanes s q * budget s q cls

/-- The ceiling of a class counter: WINDOW_LOG2 CCLK of refill. -/
def ceiling (s : State) (q cls : Nat) : Nat := refill s q cls * 2 ^ bits s.qos.ctrl.toNat 8 4

/-- The counter of a class on a port. -/
def creditAt (s : State) (q cls : Nat) : Nat := dget 0 s.qos.credit (16 * q + cls)

/-- Set a class counter. -/
def setCredit (s : State) (q cls v : Nat) : State := { s with qos := { s.qos with credit := dput 0 s.qos.credit (16 * q + cls) v } }

/-- One CCLK of refills on a port, each up to its ceiling. -/
def refillPort (s : State) (q : Nat) : State :=
  (List.range 16).foldl (fun s c => setCredit s q c (min (ceiling s q c) (creditAt s q c + refill s q c))) s

/-- The counters of a port start at their ceilings (10 R311 Start). -/
def startCredits (s : State) (q : Nat) : State :=
  let s := (List.range 16).foldl (fun s c => setCredit s q c (ceiling s q c)) s
  { s with qos := { s.qos with carry := tdel s.qos.carry q } }

/-- Charge a request selected at a port: tier 0 within budget or aged, else tier 1 (10 R313, R314, R326). -/
def chargePort (s : State) (q cls beats : Nat) (aged : Bool) : State :=
  let c := creditAt s q cls
  let st := statAt s q cls
  if 1024 ≤ c ∨ aged then
    let s := setCredit s q cls (c - 1024 * beats)
    setStat s q cls { st with tier0 := satAdd 64 st.tier0 beats, agedN := if c < 1024 then satAdd 64 st.agedN 1 else st.agedN }
  else setStat s q cls { st with tier1 := satAdd 64 st.tier1 beats }

/-! ### Rank (10 R314, R315) -/

/-- The key of R314: tier, deadline presence, deadline, entry, class, tag. -/
def rankKey (s : State) (q cls : Nat) (aged : Bool) (deadline : Option Nat) (entered tag : Nat) : List Nat :=
  [if aged || decide (1024 ≤ creditAt s q cls) then 0 else 1, if deadline.isSome then 0 else 1, deadline.getD 0, entered, cls, tag]

/-- Whether a key goes before another. -/
def keyLt : List Nat → List Nat → Bool
  | [], _ => false
  | _, [] => false
  | a :: as, b :: bs => decide (a < b) || (decide (a = b) && keyLt as bs)

/-- The first of a list under a key. -/
def bestBy {α : Type} (k : α → List Nat) : List α → Option α
  | [] => none
  | a :: r => match bestBy k r with
    | some b => if keyLt (k b) (k a) then some b else some a
    | none => some a

/-- A calibration request or window stops a memory port's issue (04 R150, R151). -/
def memCalStops (s : State) (p : Nat) : Bool := s.ime.cals.any fun c => c.port == p

end Sys2Proof.Machine
end

