-- ==== Sys2Proof/Machine/Ime.lean ====
section
/-!
DEFINITION. The inline memory engine's catalogue, request checks, line cipher and tags, and counter trees (04 R110 to R131, R147 to R149).
-/
namespace Sys2Proof.Machine

/-! ### Carve-outs and the catalogue (04 R110, R113) -/

/-- Fields of the TABLES section in use (02 Table 2-7); 0 while UNCHARTERED. -/
def tabField (s : State) (off n : Nat) : Nat :=
  match secBody s 3 with
  | some b => fld b off n
  | none => 0
def catBase (s : State) : Nat := tabField s 0 8
def catBytes (s : State) : Nat := tabField s 8 8
def treeBase (s : State) : Nat := tabField s 0x10 8
def treeBytes (s : State) : Nat := tabField s 0x18 8
def catEntries (s : State) : Nat := tabField s 0x20 4

/-- Whether an address lies in a carve-out (04 Table 4-6 M1, R149). -/
def inCarve (s : State) (a : Nat) : Bool :=
  (decide (catBase s ≤ a) && decide (a < catBase s + catBytes s))
    || (decide (treeBase s ≤ a) && decide (a < treeBase s + treeBytes s))

/-- The catalogue index of a shelfmark: (tenant << 12) | folio (04 R110). -/
def regionIx (shelf : Nat) : Nat := shTenant shelf * 4096 + shFolio shelf

/-- The live entry at an index. -/
def regionAt (s : State) (ix : Nat) : Option Region :=
  if ix < catEntries s then (tget s.ime.cat ix).filter fun r => r.state != 0 else none

/-- Replace an entry in the verified catalogue. -/
def setRegion (s : State) (ix : Nat) (r : Region) : State := { s with ime := { s.ime with cat := tput s.ime.cat ix r } }

/-- REGION_GEN: FORMAT_EPOCH above, creations since formatting below (04 Table 4-2). -/
def regionGen (s : State) (r : Region) : Nat := s.ime.formatEpoch % 65536 * 65536 + r.creations % 65536

/-- The index that stands for the catalogue itself among regions. -/
def catIx : Nat := 2 ^ 21

/-- The catalogue as a region in ANCHOR form (04 R111): TENANT 0, FOLIO 0, tree at offset 0, root store entry 0; STATE, SWEEP_PTR and RENEW of its
renewal (R134). -/
def catRegion (s : State) : Region :=
  { state := s.ime.catSt, base := catBase s, size := catBytes s, mode := 3, init := false, volume := 0, verify := 1, compress := false,
    rawRead := false, rawWrite := false, shape := 0, renew := s.ime.catRenew, lcs := 0#6, world := 0#4, rd := 0#8, wr := 0#8,
    creations := 0, baseGen := 0, sweepPtr := s.ime.catPtr, treeOff := 0, rootIx := 0, release := 0, snap := 0, snapPtr := 0 }

/-- An entry nothing was created in since formatting: FREE, its other fields zero. -/
def freeRegion : Region :=
  { state := 0, base := 0, size := 0, mode := 0, init := false, volume := 0, verify := 0, compress := false,
    rawRead := false, rawWrite := false, shape := 0, renew := false, lcs := 0#6, world := 0#4, rd := 0#8, wr := 0#8,
    creations := 0, baseGen := 0, sweepPtr := 0, treeOff := 0, rootIx := 0, release := 0, snap := 0, snapPtr := 0 }

/-- The region at an index, the catalogue included. -/
def anyRegion (s : State) (ix : Nat) : Option Region := if ix = catIx then some (catRegion s) else regionAt s ix

/-- The vault slot of a region's keys: PLATFORM slot 2 for the catalogue (04 R111), else by tenant and volume (03 R89). -/
def regionSlot (s : State) (ix : Nat) (r : Region) : Option Nat :=
  if ix = catIx then some 2 else slotFor s (ix / 4096) r.volume

/-- Record the last IME reason (15 Table 15-7). -/
def imeReason (s : State) (c : Code) : State :=
  if 0x30 ≤ c.toNat ∧ c.toNat ≤ 0x39 then { s with ime := { s.ime with lastReason := c } }
  else if 0x20 ≤ c.toNat ∧ c.toNat ≤ 0x2A then keyReason s c
  else s

/-! ### Request checks (04 Table 4-6) -/

/-- Whether an operation reads, for M5: both rights for WRITE_PARTIAL and CWRITE. -/
def needsRd : MemKind → Bool
  | .write | .rawWrite | .ownWrite => false
  | _ => true

/-- Whether an operation writes, for M5. -/
def needsWr : MemKind → Bool
  | .write | .partial_ | .rawWrite | .cwrite | .ownWrite | .resident | .cwHead => true
  | _ => false

/-- Raw opcodes use no key (04 R148). -/
def isRaw : MemKind → Bool
  | .rawRead | .rawWrite => true
  | _ => false

/-- M5: master, world and life-cycle bits of the entry's RIGHTS. -/
def m5 (s : State) (r : Region) (w : Who) (k : MemKind) : Bool :=
  (!needsRd k || r.rd.getLsbD w.master) && (!needsWr k || r.wr.getLsbD w.master)
    && r.world.getLsbD w.world && lcsBit s r.lcs && decide (w.master < 7)

/-- M6: the opcode against CONTROL and the rights of masters (04 R144, R148; 12 R386 for P0 regions). -/
def m6 (s : State) (r : Region) (w : Who) (k : MemKind) : Bool :=
  (match k with
   | .rawRead => r.rawRead
   | .rawWrite => r.rawWrite && (w.master == 4 || (w.master == 2 && w.world == 3))
   | .cread | .cwrite => r.compress && r.mode != 0
   | _ => true)
  && (r.mode != 0 || bit (globCtl s) 2)

/-- How an engine makes an access: as any request; as a job already open, whose region's RIGHTS and RELEASE were read at its opening (07 R242); or as the
walk of a cut, which is such a job and reads what a page held at GO (08 R266). -/
inductive Acc where
  | live
  | job
  | walk
  deriving DecidableEq, Repr

/-- M1 to M6 in order on the entry a shelfmark names: the region, or the first failing step's reason. A region that DESTROY has closed is FREE to every
new request (04 R118). -/
def mStepsBy (acc : Acc) (s : State) (w : Who) (k : MemKind) : Except Code (Nat × Region) :=
  let ix := regionIx w.shelf
  if inCarve s w.addr then .error Rsn.carveOut
  else if !s.ime.formatted ∨ (s.ime.dying.any fun d => d.1 == ix) then .error Rsn.regionAbsent
  else
    match regionAt s ix with
    | none => .error Rsn.regionAbsent
    | some r =>
      if shVolume w.shelf ≠ r.volume then .error Rsn.shelfVolume
      else if !(decide (r.base ≤ w.addr) && decide (w.addr < r.base + r.size)) then .error Rsn.outOfRegion
      else if acc = .live ∧ !m5 s r w k then .error Rsn.regionRights
      else if !m6 s r w k then .error Rsn.opDenied
      else .ok (ix, r)

/-- M1 to M6 of a request. -/
def mSteps (s : State) (w : Who) (k : MemKind) : Except Code (Nat × Region) := mStepsBy .live s w k

/-- The whole of the request checks: an M step's failure takes precedence; P0 and raw opcodes take only K2 of the K steps; an
encryption also passes K6 (04 R119). -/
def memChecksBy (acc : Acc) (s : State) (w : Who) (k : MemKind) : Except Code (Nat × Region) :=
  match mStepsBy acc s w k with
  | .error c => .error c
  | .ok (ix, r) =>
    if r.mode = 0 ∨ isRaw k then
      if k2 s w then .ok (ix, r) else .error Rsn.shelfTenant
    else match resolve s w [0, 1, 5] with
      | .error c => .error c
      | .ok i =>
        match slotAt s i with
        | none => .error Rsn.keyAbsent
        | some v => if needsWr k && !k6 v (curHalf v) r.volume then .error Rsn.keyExhausted else .ok (ix, r)

/-- The checks of a request. -/
def memChecks (s : State) (w : Who) (k : MemKind) : Except Code (Nat × Region) := memChecksBy .live s w k

/-! ### Line keys, tweaks and tags (04 R124 to R126, R129) -/

/-- Whether a volume's keys name the instance (03 Table 3-1). -/
def volBound (vol : Nat) : Bool := vol != 1

/-- The derivation of a region's key of a purpose. -/
def regionHandle (s : State) (ix : Nat) (r : Region) (slot half purpose bits : Nat) : KeyHandle :=
  slotHandle s slot half purpose r.volume bits (if ix = catIx then 0 else ix % 4096) 0 (volBound r.volume)

/-- The working keys a line of a region needs under a half: MEM_DATA, and MEM_TAG in P2 and P3, and MEM_TREE in P3. -/
def lineHandles (s : State) (ix : Nat) (r : Region) (slot half : Nat) : List KeyHandle :=
  if r.mode = 0 then []
  else if r.mode = 1 then [regionHandle s ix r slot half 0x0301 512]
  else if r.mode = 2 then [regionHandle s ix r slot half 0x0301 512, regionHandle s ix r slot half 0x0302 256]
  else [regionHandle s ix r slot half 0x0301 256, regionHandle s ix r slot half 0x0302 256,
        regionHandle s ix r slot half 0x0303 256]

/-- The XTS tweak of a line: line number [45:0], REGION_GEN [95:64] (04 R124). -/
def xtsTweak (line gen : Nat) : BitVec 128 := BitVec.ofNat 128 (line % 2 ^ 46 + gen % 2 ^ 32 * 2 ^ 64)

/-- D_j of the line tag (04 R125). -/
def tagD (line gen j parity mode : Nat) : BitVec 128 :=
  blkOf (leBytes 8 line ++ leBytes 4 gen ++ leBytes 1 j ++ leBytes 1 parity ++ leBytes 1 mode ++ zeros 1)

/-- The 56-bit tag of four ciphertext blocks: `e` holds bytes 0 to 8 of E, `end_` its byte 15 (04 R125, R129). -/
def lineTag (kt : BitVec 256) (line gen parity mode : Nat) (e : List Byte) (end_ : Nat) (c : Line) : BitVec 56 :=
  let x := fun j => Config.aesEnc kt (lineBlk c j ^^^ tagD line gen j parity mode)
  let t := Config.aesEnc kt (x 0 ^^^ x 1 ^^^ x 2 ^^^ x 3 ^^^ blkOf (e ++ zeros 6 ++ leBytes 1 end_))
  t.extractLsb' 0 56

/-- The counter block CB_j of a P3 line (04 R126). -/
def ctrBlk (major minor j line : Nat) : BitVec 128 :=
  blkOf (leBytes 8 major ++ leBytes 1 (minor % 128) ++ leBytes 1 j ++ leBytes 6 (line % 2 ^ 46))

/-- P3 encryption and decryption: XOR with the keystream of the counter blocks (04 R126). -/
def ctrCrypt (kd : BitVec 256) (major minor line : Nat) (l : Line) : Line :=
  let k := fun j => Config.aesEnc kd (ctrBlk major minor j line)
  l ^^^ lineOf (k 0) (k 1) (k 2) (k 3)

/-- A line with its sideband: tag [55:0], parity [56], minor [63:57] (04 Table 4-9). -/
def withSide (c : Line) (tag : BitVec 56) (parity : Bool) (minor : Nat) : Stored :=
  BitVec.ofNat 7 minor ++ (BitVec.ofBool parity ++ (tag ++ c))

/-- The data, tag and generation parity of a stored line. -/
def storedData (d : Stored) : Line := d.extractLsb' 0 512
def storedTag (d : Stored) : BitVec 56 := d.extractLsb' 512 56
def storedParity (d : Stored) : Bool := d.getLsbD 568

/-- The value of E's first 9 bytes: major and minor in P3, zero in P2. -/
def tagE (r : Region) (major minor : Nat) : List Byte :=
  if r.mode = 3 then leBytes 8 major ++ leBytes 1 minor else zeros 9

/-- A line as stored: encrypted and tagged under a half at counters, in the region's mode (04 R121, R122). -/
def sealLine (s : State) (ix : Nat) (r : Region) (slot half line major minor : Nat) (p : Line) : Option Stored :=
  if r.mode = 0 then some (withSide p 0#56 false 0)
  else
    let g := regionGen s r
    let par := half % 2
    (derive s (regionHandle s ix r slot half 0x0301 (if r.mode = 3 then 256 else 512))).bind fun kd =>
      let c := if r.mode = 3 then ctrCrypt (keyOf kd) major minor line p
        else xtsEnc (BitVec.ofNat 512 (leNat kd)) (xtsTweak line g) p
      if r.mode = 1 then some (withSide c 0#56 (par == 1) 0)
      else (derive s (regionHandle s ix r slot half 0x0302 256)).map fun kt =>
        withSide c (lineTag (keyOf kt) line g par r.mode (tagE r major minor) 0xFF c) (par == 1) (if r.mode = 3 then minor else 0)

/-- A stored line opened: its plaintext, and whether its tag verified; or KEY_GEN_STALE where its half is not live (04 R124 to R126;
03 K5), or KEY_REVOKED where the half is gone. -/
def openLine (s : State) (ix : Nat) (r : Region) (slot line major minor : Nat) (d : Stored) : Except Code (Line × Bool) :=
  if r.mode = 0 then .ok (storedData d, true)
  else match slotAt s slot with
    | none => .error Rsn.keyAbsent
    | some v =>
      match k5 v (storedParity d) with
      | none => .error Rsn.keyGenStale
      | some half =>
        let g := regionGen s r
        let c := storedData d
        match derive s (regionHandle s ix r slot half 0x0301 (if r.mode = 3 then 256 else 512)) with
        | none => .error Rsn.keyRevoked
        | some kd =>
          let p := if r.mode = 3 then ctrCrypt (keyOf kd) major minor line c
            else xtsDec (BitVec.ofNat 512 (leNat kd)) (xtsTweak line g) c
          if r.mode = 1 then .ok (p, true)
          else match derive s (regionHandle s ix r slot half 0x0302 256) with
            | none => .error Rsn.keyRevoked
            | some kt =>
              .ok (p, lineTag (keyOf kt) line g half r.mode (tagE r major minor) 0xFF c == storedTag d)

/-! ### Counter trees (04 R127 to R131) -/

/-- The line counts of a tree's levels, level 0 first: levels go on until one has at most 8 lines (04 R127). -/
def treeCounts : Nat → Nat → List Nat
  | 0, _ => []
  | f + 1, n => n :: (if n ≤ 8 then [] else treeCounts f (ceilDiv n 8))

/-- Pages of a region. -/
def pagesOf (r : Region) : Nat := r.size / 4096

/-- The levels of a region's tree. -/
def treeLevels (r : Region) : List Nat := treeCounts 10 (pagesOf r)

/-- The bytes of a region's tree (04 R127). -/
def treeSize (r : Region) : Nat := 64 * (treeLevels r).sum

/-- The line number of a tree line. -/
def treeLine (s : State) (r : Region) (level i : Nat) : Nat :=
  (treeBase s + r.treeOff) / 64 + ((treeLevels r).take level).sum + i

/-- The counter line of a page; one not listed is as CREATE built it: major REGION_GEN << 32, minors 0, parity of BASE_GEN (04 R127). -/
def ctrOf (s : State) (ix : Nat) (r : Region) (page : Nat) : CtrLine :=
  (tget (dget [] s.ime.ctr ix) page).getD { major := regionGen s r * 2 ^ 32, minors := [], parity := r.baseGen % 2 == 1 }

/-- Replace the counter line of a page. -/
def setCtr (s : State) (ix page : Nat) (c : CtrLine) : State :=
  { s with ime := { s.ime with ctr := tput s.ime.ctr ix (tput (dget [] s.ime.ctr ix) page c) } }

/-- The parent's counter for a tree line: in the root store for the top level (04 R128), else in its node. -/
def parentCnt (s : State) (ix : Nat) (r : Region) (level i : Nat) : Nat :=
  if level + 1 = (treeLevels r).length then dget 0 (((tget s.ime.roots r.rootIx).map (·.cnt)).getD []) i
  else dget 0 (dget [] s.ime.node ix) (level * 2 ^ 40 + i)

/-- Increment the parent's counter for a tree line. -/
def bumpParent (s : State) (ix : Nat) (r : Region) (level i : Nat) : State :=
  let v := parentCnt s ix r level i + 1
  if level + 1 = (treeLevels r).length then
    { s with ime := { s.ime with roots := tmod s.ime.roots r.rootIx fun x => { x with cnt := tput x.cnt i v } } }
  else { s with ime := { s.ime with node := tput s.ime.node ix (tput (dget [] s.ime.node ix) (level * 2 ^ 40 + i) v) } }

/-- The 56 bytes of the minors of a counter line. -/
def minorBytes (c : CtrLine) : List Byte :=
  leBytes 56 ((List.range 64).foldl (fun a m => a + dget 0 c.minors m * 2 ^ (7 * m)) 0)

/-- The 64 bytes of a tree line (04 Table 4-10). -/
def treeBody (s : State) (ix : Nat) (r : Region) (level i : Nat) : Line :=
  if level = 0 then
    let c := ctrOf s ix r i
    bytesLine (leBytes 8 c.major ++ minorBytes c)
  else bytesLine ((List.range 8).flatMap fun k => leBytes 8 (parentCnt s ix r (level - 1) (8 * i + k)))

/-- A tree line as stored, with its tag under the MEM_TREE key of its parity (04 R129). -/
def sealTree (s : State) (ix : Nat) (r : Region) (level i : Nat) : Option Stored :=
  (regionSlot s ix r).bind fun slot => (slotAt s slot).bind fun v =>
    let half := if level = 0 then b2n (ctrOf s ix r i).parity else curHalf v
    let c := treeBody s ix r level i
    (derive s (regionHandle s ix r slot half 0x0303 256)).map fun k =>
      withSide c (lineTag (keyOf k) (treeLine s r level i) (regionGen s r) half (0x10 + level)
        (leBytes 8 (parentCnt s ix r level i) ++ zeros 1) 0xFE c) (half == 1) 0

/-! ### Memory operations: ports and the block's own writes -/

/-- The memory port of a line: the interleave is the package's own (log 8). -/
def memPort (s : State) (line : Nat) : Nat := Config.memPortOf line % max 1 s.cfg.memPorts

/-- The requester of the block's own traffic. -/
def ownWho (line : Nat) : Who :=
  { master := 6, world := 0, agent := 0, pasid := none, slice := none, context := none, shelf := 0, addr := line * 64, tag := 0 }

/-- The generation that an encryption for a region resolves at step K5 (03 R93). -/
def regionGenCur (s : State) (ix : Nat) (r : Region) : Nat :=
  (((regionSlot s ix r).bind (slotAt s)).map (·.genCur)).getD 0

/-- A memory operation with nothing set beyond what it names. -/
def newEnt (s : State) (src : Src) (k : MemKind) (w : Who) (ix : Nat) (r : Region) (cls : Nat) (deadline : Option Nat) : MemEnt :=
  { seq := s.ime.seq, port := memPort s (w.addr / 64), src := src, kind := k, phase := .lineWait, line := w.addr / 64, region := ix,
    reg := r,
    who := w, cls := cls, deadline := deadline, entered := s.tm.ns, aged := false, plain := 0#512, mask := 0#64,
    stored := 0#576, tag := 0, lineIx := 0, n := 0, lines := 1, answered := false, gen := regionGenCur s ix r, answers := [],
    fetches := [], mism := 0, major := 0, minor := 0, fail := 0#8, cutOk := false, age := ageNs s, due := 0 }

/-- Put a memory operation in its port's queue, last in acceptance order. -/
def pushEnt (s : State) (e : MemEnt) : State :=
  { s with ime := { s.ime with ents := s.ime.ents ++ [e], seq := s.ime.seq + 1 } }

/-- Replace a memory operation. -/
def setEnt (s : State) (e : MemEnt) : State :=
  { s with ime := { s.ime with ents := s.ime.ents.map fun x => if x.seq = e.seq then e else x } }

/-- A memory operation leaves its queue. -/
def dropEnt (s : State) (seq : Nat) : State :=
  { s with ime := { s.ime with ents := s.ime.ents.filter fun x => x.seq != seq } }

/-- A new operation takes the place just ahead of another. -/
def insertBefore (s : State) (seq : Nat) (e : MemEnt) : State :=
  let l := s.ime.ents
  { s with ime := { s.ime with
    ents := (l.takeWhile fun x => x.seq != seq) ++ e :: (l.dropWhile fun x => x.seq != seq), seq := s.ime.seq + 1 } }

/-- Whether a phase is one in which an operation has not yet taken its place on its line. -/
def holdPhase : MemPhase → Bool
  | .keyWait | .pageHeld | .cutHeld | .lineWait => true
  | _ => false

/-- One of the IME's own writes takes its place: ahead of what still waits to take a place on its line, else last (04 R108, R132; 08 R268). -/
def pushPast (s : State) (e : MemEnt) : State :=
  match s.ime.ents.find? fun x => x.line == e.line && holdPhase x.phase with
  | some x => insertBefore s x.seq e
  | none => pushEnt s e

/-- One of the block's own line writes, its 72 bytes as given (04 R107). -/
def pushOwn (s : State) (line : Nat) (d : Stored) (cls : Nat) : State :=
  pushEnt s { newEnt s .own .ownWrite (ownWho line) catIx (catRegion s) cls none with stored := d, phase := .writeReady, answered := true }

/-- The latest write queued for a line, which every later read of it sees (04 R108). -/
def lastWrite (s : State) (line : Nat) : Option MemEnt :=
  (s.ime.ents.filter fun x => x.line == line && (x.phase == .writeReady || x.phase == .writeOut)).getLast?

/-! ### The block's own reads (04 R107, R131; 14 Table 14-7; 10 Table 10-1) -/

/-- The MEM_CMD_TAGs outstanding on a port. -/
def usedTags (s : State) (p : Nat) : List Nat :=
  s.ime.ents.flatMap fun e =>
    (if e.port = p ∧ (e.phase = .readOut ∨ e.phase = .writeOut) then [e.tag] else [])
      ++ (e.fetches.filter fun x => x.1 == p).map (·.2)

/-- The MEM_CMD_TAGs not outstanding on a port, smallest first (14 Table 14-7). -/
def freeTags (s : State) (p : Nat) : List Nat :=
  let used := usedTags s p
  (List.range 2048).filter fun t => !used.contains t

/-- The ports and tags of reads issued together: on each port the smallest tags not outstanding. -/
def fetchTags (s : State) (lines : List Nat) : List (Nat × Nat) :=
  (List.range lines.length).map fun k =>
    let p := memPort s (lines.getD k 0)
    (p, (freeTags s p).getD (((lines.take k).filter fun l => memPort s l == p).length) 0)

/-- The block's own reads leave at MEMPORT, each charged as one beat to the class of what caused it. -/
def ownReads (s : State) (lines : List Nat) (cls : Nat) : State :=
  (lines.zip (fetchTags s lines)).foldl (fun t x =>
    chargePort (emit t (.memCmd x.2.1 false x.1 x.2.2 (epochOf s (domMem x.2.1)) cls 0#576)) x.2.1 cls 1 false) s

/-- What memory answers to a write: the reads of the catalogue first, then those of the tree (04 R114, R131). -/
def catThenTree (cat tree : MemIn) : MemIn := ⟨cat.lines ++ tree.lines⟩

/-- The next line memory answers; a data line the command does not bring is as one the controller reports uncorrectable (log 7). -/
def takeLine (m : MemIn) : MemAnswer × MemIn :=
  match m.lines with
  | a :: r => (a, { m with lines := r })
  | [] => ({ data := 0#576, poison := true }, m)

/-! ### The counter cache (04 R129 to R131) -/

/-- Write a tree line to memory. -/
def writeTree (s : State) (ix : Nat) (r : Region) (level i cls : Nat) : State :=
  match sealTree s ix r level i with
  | some d => pushOwn s (treeLine s r level i) d cls
  | none => s

/-- Whether a tree line is in the counter cache. -/
def treeCached (s : State) (ix level i : Nat) : Bool := s.ime.cached.contains (ix, level, i)

/-- Whether the counter line of a page is in the counter cache. -/
def ctrCached (s : State) (ix page : Nat) : Bool := treeCached s ix 0 page

/-- Increment the counters above a tree line up to the root store (04 R130). -/
def bumpPath (s : State) (ix : Nat) (r : Region) (i : Nat) : State :=
  (List.range (treeLevels r).length).foldl (fun s k => bumpParent s ix r k (i / 8 ^ k)) s

/-- The levels above a page's counter line. -/
def upperLevels (r : Region) (page : Nat) : List (Nat × Nat) :=
  (List.range ((treeLevels r).length - 1)).map fun k => (k + 1, page / 8 ^ (k + 1))

/-- A counter line written with a new tag: the nodes above it, fetched where the cache lacks them, are written through with their counters advanced
(04 R130; log 9). -/
def writeCtr (s : State) (ix : Nat) (r : Region) (page cls : Nat) : State :=
  let up := upperLevels r page
  let s := ownReads s (((up.filter fun x => !treeCached s ix x.1 x.2).map fun x => treeLine s r x.1 x.2).filter fun l => (lastWrite s l).isNone) cls
  let s := bumpPath s ix r page
  let s := up.foldl (fun s x => writeTree s ix r x.1 x.2 cls) s
  writeTree { s with ime := { s.ime with dirty := s.ime.dirty.filter fun x => !(x.1 == ix && x.2.1 == page) } } ix r 0 page cls

/-- Class of sweeps and of counter write-back (15 Table 15-6 IME_SHELVE_CTRL). -/
def shelveClass (s : State) : Nat := bits s.ime.shelveCtrl.toNat 8 4

/-- Sets of 16 lines of the counter cache (01 Table 1-9). -/
def ctrSets (s : State) : Nat := max 1 (2 ^ s.cfg.ctrLog2 / 64 / 16)

/-- The set of a cached tree line, by its line number (log 147). -/
def ctrSet (s : State) (x : Nat × Nat × Nat) : Option Nat :=
  (anyRegion s x.1).map fun r => treeLine s r x.2.1 x.2.2 % ctrSets s

/-- A line leaves the counter cache: a dirty counter line is written back (04 R130). -/
def evictTree (s : State) (x : Nat × Nat × Nat) : State :=
  if x.2.1 = 0 ∧ (s.ime.dirty.any fun d => d.1 == x.1 && d.2.1 == x.2.2) then
    match anyRegion s x.1 with
    | some r => writeCtr s x.1 r x.2.2 (shelveClass s)
    | none => s
  else s

/-- A tree line is used: it is the most recent of the cache, and the least recently used of its 16 leaves where it is a 17th (04 R130). -/
def touchTree (s : State) (x : Nat × Nat × Nat) : State :=
  let l := x :: s.ime.cached.filter fun y => y != x
  let out := (l.filter fun y => ctrSet s y == ctrSet s x).drop 16
  out.foldl evictTree { s with ime := { s.ime with cached := l.filter fun y => !out.contains y } }

/-- A counter line is used. -/
def touchCtr (s : State) (ix page : Nat) : State := touchTree s (ix, 0, page)

/-- A counter line changes in the cache and is dirty: what memory still holds is kept for a flush that fails (04 R130, R134). -/
def dirtyCtr (s : State) (ix : Nat) (r : Region) (page : Nat) (c : CtrLine) : State :=
  let old := ctrOf s ix r page
  let s := if s.ime.dirty.any fun x => x.1 == ix && x.2.1 == page then s
    else { s with ime := { s.ime with dirty := s.ime.dirty ++ [(ix, page, old)] } }
  touchCtr (setCtr s ix page c) ix page

/-- The tree lines of a page that the cache lacks: from its counter line up to the lowest cached ancestor (04 R131). -/
def missingPath (s : State) (ix : Nat) : Nat → Nat → Nat → List (Nat × Nat)
  | 0, _, _ => []
  | n + 1, k, i => if treeCached s ix k i then [] else (k, i) :: missingPath s ix n (k + 1) (i / 8)

/-- Those of a page of a region. -/
def missingOf (s : State) (ix : Nat) (r : Region) (page : Nat) : List (Nat × Nat) := missingPath s ix (treeLevels r).length 0 page

/-- The reads of missing tree lines that go to memory: the others are answered from a queued write. -/
def treeReads (s : State) (r : Region) (l : List (Nat × Nat)) : List Nat :=
  (l.map fun x => treeLine s r x.1 x.2).filter fun n => (lastWrite s n).isNone

/-- Whether a fetched tree line verifies: its tag under the MEM_TREE key of its parity and its parent's counter (04 R129). -/
def treeGood (s : State) (ix : Nat) (r : Region) (level i : Nat) (a : MemAnswer) : Bool :=
  !a.poison && (((regionSlot s ix r).bind fun slot => (slotAt s slot).bind fun v => (k5 v (storedParity a.data)).bind fun half =>
    (derive s (regionHandle s ix r slot half 0x0303 256)).map fun k =>
      lineTag (keyOf k) (treeLine s r level i) (regionGen s r) half (0x10 + level) (leBytes 8 (parentCnt s ix r level i) ++ zeros 1) 0xFE
        (storedData a.data) == storedTag a.data).getD false)

/-- Whether the fetched lines of a path verify. A line no answer is brought for is as the block last wrote it (log 9). -/
def pathGood (s : State) (ix : Nat) (r : Region) : List (Nat × Nat) → MemIn → Bool × MemIn
  | [], m => (true, m)
  | x :: l, m =>
    let (ok, m) := if (lastWrite s (treeLine s r x.1 x.2)).isSome then (true, m)
      else match m.lines with
        | [] => (true, m)
        | a :: rest => (treeGood s ix r x.1 x.2 a, { m with lines := rest })
    let (ok', m) := pathGood s ix r l m
    (ok && ok', m)

/-- The missing tree lines of a page arrive: they enter the cache where they all verify, the counter line as the most recent (04 R130, R131). -/
def pathArrived (s : State) (ix : Nat) (r : Region) (page : Nat) (m : MemIn) : Bool × State × MemIn :=
  let l := missingOf s ix r page
  let (ok, m) := pathGood s ix r l m
  if ok then (true, touchCtr (l.reverse.foldl (fun s x => touchTree s (ix, x.1, x.2)) s) ix page, m) else (false, s, m)

/-- The counter line of a page is used: its missing tree lines are read and verified. -/
def fetchPath (s : State) (ix : Nat) (r : Region) (page cls : Nat) (m : MemIn) : Bool × State × MemIn :=
  pathArrived (ownReads s (treeReads s r (missingOf s ix r page)) cls) ix r page m

/-! ### The catalogue written through (04 R114) -/

/-- The CONTROL word of an entry (04 Table 4-3). -/
def regionCtl (r : Region) : Nat :=
  r.mode + 128 * b2n r.init + 2 ^ 8 * r.volume + 2 ^ 11 * r.verify + 2 ^ 13 * r.state + 2 ^ 15 * b2n r.compress
    + 2 ^ 16 * b2n r.rawRead + 2 ^ 17 * b2n r.rawWrite + 2 ^ 18 * r.shape + 2 ^ 20 * b2n r.renew

/-- The RIGHTS word of an entry (04 Table 4-2). -/
def regionRightsWord (r : Region) : Nat :=
  2 ^ 26 * r.lcs.toNat + 2 ^ 22 * r.world.toNat + 2 ^ 14 * r.rd.toNat + 2 ^ 6 * r.wr.toNat

/-- The 64 bytes of a catalogue entry (04 Table 4-2). -/
def regionBytes (s : State) (r : Region) : List Byte :=
  leBytes 8 r.base ++ leBytes 8 r.size ++ leBytes 4 (regionCtl r) ++ leBytes 4 (regionRightsWord r)
    ++ leBytes 4 (regionGen s r) ++ leBytes 4 r.baseGen ++ leBytes 8 r.sweepPtr ++ leBytes 8 r.treeOff
    ++ leBytes 2 r.rootIx ++ leBytes 2 r.release ++ leBytes 4 r.snap ++ leBytes 8 r.snapPtr

/-- The line of a catalogue entry. -/
def catLine (s : State) (ix : Nat) : Nat := catBase s / 64 + ix

/-- The entry at an index as the catalogue holds it. -/
def entryAt (s : State) (ix : Nat) : Region := (tget s.ime.cat ix).getD freeRegion

/-- Encrypt and queue one line of the catalogue at its counters; its blocks are counted (03 R97). -/
def sealCatLine (s : State) (ix : Nat) (r : Region) : State :=
  let cr := catRegion s
  let c := ctrOf s catIx cr (ix / 64)
  let half := ((slotAt s 2).map curHalf).getD 0
  let minor := dget 0 c.minors (ix % 64)
  let (ok, s) := lanePass s (memPort s (catLine s ix)) (lineHandles s catIx cr 2 half) none 0
  match sealLine s catIx cr 2 half (catLine s ix) c.major minor (bytesLine (regionBytes s r)) with
  | some d =>
    if !ok then s
    else pushPast (countBlocks s 2 half 0 4) { newEnt s .own .ownWrite (ownWho (catLine s ix)) catIx cr 0 none with
      stored := d, phase := .writeReady, answered := true, major := c.major, minor := minor }
  | none => s

/-- Sets of 16 entries of the catalogue cache (01 Table 1-9). -/
def catSets (s : State) : Nat := max 1 (2 ^ s.cfg.catLog2 / 16)

/-- An entry of the catalogue is used: it is the most recent of the cache, and the least recently used of its 16 leaves where it is a 17th
(04 R114; log 147). -/
def touchCat (s : State) (ix : Nat) : State :=
  let l := ix :: s.ime.catCache.filter fun y => y != ix
  let out := (l.filter fun y => y % catSets s == ix % catSets s).drop 16
  { s with ime := { s.ime with catCache := l.filter fun y => !out.contains y } }

/-- A page of the catalogue is re-encrypted under the next major count: its 64 lines read and written anew, its counter line written through
(04 R132, R133; log 9). -/
def catReencrypt (s : State) (page : Nat) : State :=
  let cr := catRegion s
  let c := ctrOf s catIx cr page
  let ixs := (List.range 64).map fun i => 64 * page + i
  let s := ownReads s ((ixs.map (catLine s)).filter fun l => (lastWrite s l).isNone) 0
  let s := setCtr s catIx page { c with major := c.major + 1, minors := [] }
  let s := ixs.foldl (fun s i => sealCatLine s i (entryAt s i)) s
  let s := { s with ime := { s.ime with renewed :=
    if s.ime.catRenew && !s.ime.renewed.contains (catIx, page) then s.ime.renewed ++ [(catIx, page)] else s.ime.renewed } }
  if (c.major + 1) % 2 ^ 32 = 0xF0000000 then record s Flc.keyExhausted 1 0 0 Rsn.keyExhausted none 2 else s

/-- Whether a write to a catalogue entry finds the major count of its page exhausted (04 R133). -/
def catEnded (s : State) (ix : Nat) : Bool :=
  let c := ctrOf s catIx (catRegion s) (ix / 64)
  c.major % 2 ^ 32 == 0xFFFFFFFF && decide (127 ≤ dget 0 c.minors (ix % 64))

/-- An entry reaches memory and the catalogue tree before the command that changed it completes (04 R114): a full minor counter or a pending renewal
re-encrypts its page of entries first, then its minor counter advances (R126, R132, R134); at the last major count the line stays as it is (R133). -/
def catWrite (s : State) (ix : Nat) (r : Region) : State :=
  let cr := catRegion s
  let page := ix / 64
  if catEnded s ix then imeReason s Rsn.counterEnd
  else
    let s := (fetchPath s catIx cr page 0 { lines := [] }).2.1
    let due := s.ime.catRenew && !s.ime.renewed.contains (catIx, page)
    let s := if due ∨ 127 ≤ dget 0 (ctrOf s catIx cr page).minors (ix % 64) then catReencrypt s page else s
    let c := ctrOf s catIx cr page
    let s := setCtr s catIx page { c with minors := tput c.minors (ix % 64) (dget 0 c.minors (ix % 64) + 1) }
    touchCat (writeCtr (sealCatLine (setRegion s ix r) ix r) catIx cr page 0) ix

/-! ### The catalogue read (04 R114; 11 R353) -/

/-- The verdict of a catalogue line that memory answered, under its counters: 0 where it verifies. -/
def catVerdict (s : State) (ix : Nat) (a : MemAnswer) : Code :=
  let cr := catRegion s
  let c := ctrOf s catIx cr (ix / 64)
  if a.poison then Rsn.memPoison
  else match openLine s catIx cr 2 (catLine s ix) c.major (dget 0 c.minors (ix % 64)) a.data with
    | .error e => e
    | .ok (_, ok) => if ok then 0#8 else Rsn.sealFail

/-- The entry a request needs: in the catalogue cache, or its line and the tree lines that it lacks are read and verified; a failing line gives its
reason. -/
def catLook (s : State) (ix cls : Nat) (m : MemIn) : Code × State × MemIn :=
  if catEntries s ≤ ix ∨ !s.ime.formatted then (0#8, s, m)
  else if s.ime.catCache.contains ix then (0#8, touchCat s ix, m)
  else
    let cr := catRegion s
    let (ok, s, m) := fetchPath s catIx cr (ix / 64) cls m
    if (lastWrite s (catLine s ix)).isSome then ((if ok then 0#8 else Rsn.treeFail), (if ok then touchCat s ix else s), m)
    else
      let s := ownReads s [catLine s ix] cls
      let (pass, s) := lanePass s (memPort s (catLine s ix)) ((slotAt s 2).elim [] fun v => lineHandles s catIx cr 2 (curHalf v)) none 0
      let (c, m) := match m.lines with
        | [] => (0#8, m)
        | a :: rest => (catVerdict s ix a, { m with lines := rest })
      let c := if !ok then Rsn.treeFail else if !pass then Rsn.laneCheck else c
      (c, if c = 0#8 then touchCat s ix else s, m)

/-- A request's checks, with the entry it needs read first where M1 passes (04 Table 4-6, R114). -/
def memGateBy (acc : Acc) (s : State) (w : Who) (k : MemKind) (cls : Nat) (m : MemIn) : Except Code (Nat × Region) × State × MemIn :=
  if inCarve s w.addr then (.error Rsn.carveOut, s, m)
  else
    let (c, s, m) := catLook s (regionIx w.shelf) cls m
    if c ≠ 0#8 then (.error c, if c = Rsn.treeFail then record s Flc.treeFail 1 0 4 c (some w) w.tag else s, m)
    else (memChecksBy acc s w k, s, m)

/-- The same for a request. -/
def memGate (s : State) (w : Who) (k : MemKind) (cls : Nat) (m : MemIn) : Except Code (Nat × Region) × State × MemIn := memGateBy .live s w k cls m

/-! ### Formatting (04 R112, R127) -/

/-- A tree is built: every line of it tagged, written to memory (04 R127). -/
def writeWholeTree (s : State) (ix : Nat) (r : Region) : State :=
  (List.range (treeLevels r).length).foldl (fun s k =>
    (List.range ((treeLevels r).getD k 0)).foldl (fun s i => writeTree s ix r k i 0) s) s

/-- Catalogue formatting: FORMAT_EPOCH advances where flash takes it, every entry is written FREE with its minor counter at 0 (log 148), and the tree is
built anew. -/
def formatCat (s : State) (flashOk : Bool) : State :=
  let e := s.flash.formatEpoch
  let exhausted := e == 0xFFFF
  let stored := !exhausted && flashOk
  let s := if stored then { s with flash := { s.flash with formatEpoch := e + 1 } } else s
  let s := if !exhausted && !flashOk then flashFail s else s
  let fe := if stored then e + 1 else e
  let s := { s with ime := { s.ime with
    formatEpoch := fe, cat := [], ctr := [], node := [], cached := [], catCache := [], dirty := [], sweeps := [], pageHeld := [],
    catSt := 1, catPtr := 0, catRenew := false, dying := [],
    copyAhead := [], cow := [], renewed := [], roots := [(0, { owner := catIx, cnt := [] })] } }
  let s := (List.range (catEntries s)).foldl (fun s i => sealCatLine s i freeRegion) s
  let s := writeWholeTree s catIx (catRegion s)
  { s with ime := { s.ime with formatted := true, formatDue := false, createLimit := if stored then 0 else if exhausted then 2 else 1 } }

end Sys2Proof.Machine
end

