-- ==== Sys2Proof/Machine/ImePath.lean ====
section
/-!
DEFINITION. The course of a memory operation through the IME: holds, line order, sealing, opening, merging, atomics and completion
(04 R106 to R109, R119, R130 to R138, R144 to R148; 05 R178 to R180; 08 R261, R266; 14 R422 to R431).
-/
namespace Sys2Proof.Machine

/-! ### Near-memory atomics on a line (05 R178) -/

/-- The new operand of an atomic. `x` is the old value, `y` OPERAND, `z` COMPARE. -/
def aopApply (aop x y z : Nat) : Nat :=
  if aop = 0 then (x + y) % 2 ^ 32
  else if aop = 1 then (x + y) % 2 ^ 64
  else if aop = 2 then (if signed32 y < signed32 x then y else x)
  else if aop = 3 then (if signed32 x < signed32 y then y else x)
  else if aop = 4 then min x y
  else if aop = 5 then max x y
  else if aop = 6 then (BitVec.ofNat 64 x &&& BitVec.ofNat 64 y).toNat
  else if aop = 7 then (BitVec.ofNat 64 x ||| BitVec.ofNat 64 y).toNat
  else if aop = 8 then (BitVec.ofNat 64 x ^^^ BitVec.ofNat 64 y).toNat
  else if aop = 9 then y
  else if aop = 10 then (if x = z then y else x)
  else (fadd32 (BitVec.ofNat 32 x) (BitVec.ofNat 32 y)).toNat

/-- An atomic applied to a line: the old value and the new line. -/
def atomicOn (d : List Byte) (l : Line) : Nat × Line :=
  let aop := fld d 0 1
  let off := fld d 1 1
  let w := aopWidth aop
  let b := lineBytes l
  let old := fld b off w
  let v := aopApply aop old (fld d 0x10 w) (fld d 0x18 w)
  (old, bytesLine (b.take off ++ leBytes w v ++ b.drop (off + w)))

/-! ### Entries and their requesters -/

/-- The requester of a FABPORT request: master ID, its slice and the context live there (14 R424; 09 R278). -/
def whoOf (s : State) (q : FabReq) : Who :=
  let m := q.mid.toNat
  let pv := bit m 5
  let sl := if pv then sliceOfPasid s (bits m 6 20) else none
  { master := bits m 0 3, world := bits m 3 2, agent := bits m 26 6, pasid := if pv then some (bits m 6 20) else none, slice := sl,
    context := sl.bind fun i => (tget s.hob.slices i).bind (·.live), shelf := q.shelf.toNat, addr := q.addr.toNat, tag := q.tag.toNat }

/-- The region an operation was accepted under: the live entry while it is the same creation, else the entry as it was (04 R118). -/
def entRegion (s : State) (e : MemEnt) : Region :=
  match anyRegion s e.region with
  | some r => if r.creations = e.reg.creations then r else e.reg
  | none => e.reg

/-- The page of a region a line lies in. -/
def pageOf (r : Region) (line : Nat) : Nat := (line * 64 - r.base) / 4096

/-- The index of a line in its page. -/
def lineInPage (r : Region) (line : Nat) : Nat := (line * 64 - r.base) / 64 % 64

/-- The counters a line stands under now: zero outside P3 (04 R125, R126). -/
def ctrNow (s : State) (ix : Nat) (r : Region) (line : Nat) : Nat × Nat :=
  if r.mode = 3 then
    let c := ctrOf s ix r (pageOf r line)
    (c.major, dget 0 c.minors (lineInPage r line))
  else (0, 0)

/-- Operations ahead of one in its port's acceptance order, on the same line (04 R108). -/
def earlierOnLine (s : State) (e : MemEnt) : List MemEnt :=
  (s.ime.ents.takeWhile fun x => x.seq != e.seq).filter fun x => x.line == e.line

/-- Whether an operation still has to read before its line is known. -/
def unmerged (e : MemEnt) : Bool :=
  (e.kind == .partial_ || e.kind == .resident || e.kind == .cwHead) && (e.phase == .ready || e.phase == .readOut || e.phase == .openWait)

/-- An operation waits behind an earlier one on its line (04 R108; 10 R315). -/
def lineBlocked (s : State) (e : MemEnt) : Bool := (earlierOnLine s e).any fun x => holdPhase x.phase || unmerged x

/-- The latest queued write ahead of an operation on its line (04 R108, R151). -/
def queuedWrite (s : State) (e : MemEnt) : Option MemEnt :=
  ((earlierOnLine s e).filter fun x => x.phase == .writeReady || x.phase == .writeOut).getLast?

/-- The entry with a number. -/
def entAt (s : State) (seq : Nat) : Option MemEnt := s.ime.ents.find? fun e => e.seq == seq

/-! ### Completion -/

/-- What the debug path captures of a completed access (14 Table 14-16 FABDBG); a result whose TAP was reset is discarded (R449). -/
def dbgDone (s : State) (result : Nat) (poison : Bool) (c : Code) (d : Stored) : State :=
  let v : BitVec 704 := BitVec.ofNat 704 (result + 4 * b2n poison + 16 * c.toNat + d.toNat * 2 ^ 128)
  if s.dbg.fabDiscard then { s with dbg := { s.dbg with fabPending := false, fabDiscard := false } }
  else { s with dbg := { s.dbg with fabPending := false, fab := v } }

/-- The answer to a remote operation: its response, or RESP_ERROR with the reason (05 R173, R180). -/
def remoteDone (s : State) (op : FabOp) (port : Nat) (c : Code) (data : List Byte) (deadline : Option Nat) : State :=
  if c ≠ 0#8 then answerError s op port c deadline
  else if op.op = 1 then answerOp s op port 0x10 data deadline
  else if op.op = 4 ∧ op.fetch then answerOp s op port 0x10 (data.take 8 ++ zeros 8) deadline
  else answerOp s op port 0x11 [] deadline

/-- Complete a memory operation to whoever asked. `refused` says which of FAILED and REFUSED a nonzero reason means (14 Table 14-2). -/
def finishMem (s : State) (src : Src) (port cls : Nat) (deadline : Option Nat) (c : Code) (refused : Bool)
    (data : List (Stored × Bool)) : State :=
  let ref := refused && c != 0#8
  let res := if c = 0#8 then 0 else if ref then 2 else 1
  let s := imeReason s c
  match src with
  | .fab ch tag ep => emits (countOutcome s port cls ref deadline) (fabBeats s ch tag ep res c deadline data)
  | .dbg =>
    let d := data.headD (0#576, false)
    dbgDone s res d.2 c d.1
  | .remote op p => remoteDone (countOutcome s port cls ref deadline) op p c ((leBytes 72 (data.headD (0#576, false)).1.toNat).take 64) deadline
  | .own => s

/-- Complete an entry's request with a reason and leave the queue. -/
def refuseEnt (s : State) (e : MemEnt) (c : Code) (refused poison : Bool) : State :=
  finishMem (dropEnt s e.seq) e.src e.port e.cls e.deadline c refused [(0#576, poison)]

/-- A fault that a failing line records: SEAL_FAIL, TREE_FAIL or MEM_POISON, with the requester (04 R137; 11 Table 11-3). -/
def lineFault (s : State) (e : MemEnt) (c : Code) : State :=
  let cl := if c = Rsn.treeFail then Flc.treeFail else if c = Rsn.memPoison then Flc.memPoison else Flc.sealFail
  record s cl 1 0 4 c (some e.who) e.who.tag

/-! ### Compressed blocks (04 R144 to R146) -/

/-- The first nonzero reason among lines [0, n). -/
def firstFail (got : Tbl (Line × Code)) : Nat → Nat → Code
  | 0, _ => 0#8
  | n + 1, i =>
    let c := ((tget got i).map (·.2)).getD 0#8
    if c ≠ 0#8 then c else firstFail got n (i + 1)

/-- How many pad lines of a block failed. -/
def padFails (b : Blk) : Nat := ((List.range b.s).filter fun i => b.n ≤ i && (((tget b.got i).map (·.2)).getD 0#8) != 0#8).length

/-- A CREAD completes: its header against n, then its n lines (04 R144, R146). -/
def finishCread (s : State) (b : Blk) : State :=
  let s := { s with ime := { s.ime with padFails := s.ime.padFails + padFails b } }
  let l := fun i => (tget b.got i).getD (0#512, 0#8)
  let hdr := bits (l 0).1.toNat 0 4
  if (l 0).2 = 0#8 ∧ hdr + 1 ≠ b.n then
    finishMem s b.src b.port b.cls b.deadline Rsn.compMismatch false (List.replicate b.n (0#576, true))
  else
    finishMem s b.src b.port b.cls b.deadline (firstFail b.got b.n 0) false
      ((List.range b.n).map fun i => if (l i).2 = 0#8 then (withSide (l i).1 0#56 false 0, false) else (0#576, true))

/-- A line of a block is done; the block completes with its last (04 R146). -/
def blkLine (s : State) (id ix : Nat) (p : Line) (c : Code) : State :=
  match s.ime.blks.find? fun b => b.id == id with
  | none => s
  | some b =>
    let b := { b with got := tput b.got ix (p, c) }
    if b.got.length < b.s then
      { s with ime := { s.ime with blks := s.ime.blks.map fun x => if x.id = id then b else x } }
    else
      let s := { s with ime := { s.ime with blks := s.ime.blks.filter fun x => x.id != id } }
      if b.write then finishMem s b.src b.port b.cls b.deadline (firstFail b.got b.s 0) true [(0#576, false)]
      else finishCread s b

/-! ### Copy before write (08 R266, R267) -/

/-- The COW buffer page takes a line, or its failure. -/
def cowLine (s : State) (ix page i : Nat) (p : Line) (c : Code) : State :=
  { s with ime := { s.ime with cow := s.ime.cow.map fun x =>
    if x.region = ix ∧ x.page = page then
      { x with lines := tput x.lines i p, fail := if x.fail = 0#8 then c else x.fail } else x } }

/-! ### The atomic unit (05 R179) -/

/-- A resident line. -/
def residentAt (s : State) (line : Nat) : Option Resident := s.ile.resident.find? fun r => r.line == line

/-- Replace the resident line, as the most recently used. -/
def putResident (s : State) (r : Resident) : State :=
  { s with ile := { s.ile with resident := (s.ile.resident.filter fun x => x.line != r.line) ++ [r] } }

/-- A resident line leaves the unit. -/
def dropResident (s : State) (line : Nat) : State :=
  { s with ile := { s.ile with resident := s.ile.resident.filter fun x => x.line != line } }

/-- Apply a remote atomic to a resident line and answer it. -/
def applyAtomic (s : State) (e : MemEnt) (r : Resident) : State :=
  match e.src with
  | .remote op _ =>
    let (old, l) := atomicOn op.data r.data
    let s := putResident (dropEnt s e.seq) { r with data := l, dirty := true }
    finishMem s e.src e.port e.cls e.deadline 0#8 false [(BitVec.ofNat 576 old, false)]
  | _ => dropEnt s e.seq

/-! ### Sealing a write -/

/-- A sealed operation waits for MEMPORT; what was not answered yet is answered now (04 R109). -/
def sealed (s : State) (e : MemEnt) (d : Stored) (major minor : Nat) : State :=
  let s := setEnt s { e with stored := d, phase := .writeReady, major := major, minor := minor, answered := true }
  if e.answered then s
  else if e.kind = .cwrite then blkLine s e.n e.lineIx e.plain 0#8
  else finishMem s e.src e.port e.cls e.deadline 0#8 false [(0#576, false)]

/-- A CWRITE ends before any line of it is written: its entries leave, and it completes with a reason (04 R137). -/
def blkFail (s : State) (id : Nat) (c : Code) (refused : Bool) : State :=
  match s.ime.blks.find? fun b => b.id == id with
  | none => s
  | some b =>
    let s := { s with ime := { s.ime with
      blks := s.ime.blks.filter (fun x => x.id != id)
      ents := s.ime.ents.filter (fun e => !((e.kind == .cwrite || e.kind == .cwHead) && e.n == id)) } }
    finishMem s b.src b.port b.cls b.deadline c refused [(0#576, false)]

/-- A write that cannot be done ends with a reason; a line of a CWRITE tells its block, and one that has completed already only leaves. -/
def endWrite (s : State) (e : MemEnt) (c : Code) (refused poison : Bool) : State :=
  if e.kind = .cwrite then blkLine (imeReason (dropEnt s e.seq) c) e.n e.lineIx 0#512 c
  else if e.kind = .cwHead then blkFail s e.n c refused
  else if e.answered then imeReason (dropEnt s e.seq) c
  else refuseEnt s e c refused poison

/-- A write that cannot be done: REFUSED with a reason. -/
def unsealed (s : State) (e : MemEnt) (c : Code) : State := endWrite s e c true false

/-- Whether a page of a region waits for its renewal (04 R134). -/
def renewDue (s : State) (ix : Nat) (r : Region) (page : Nat) : Bool :=
  r.renew && !s.ime.renewed.contains (ix, page)

/-- An operation waits on a page under re-encryption. -/
def holdOnPage (s : State) (e : MemEnt) (page : Nat) : State :=
  let s := if s.ime.pageHeld.contains (e.region, page) then s
    else { s with ime := { s.ime with pageHeld := s.ime.pageHeld ++ [(e.region, page)] } }
  setEnt s { e with phase := .pageHeld }

/-- A line passes its lanes and is encrypted and tagged under a half at counters; a beat that failed twice poisons it (01 R17, R23; 04 R121 to R126). -/
def sealOut (s : State) (e : MemEnt) (r : Region) (slot half major minor : Nat) : State :=
  let (ok, s) := lanePass s e.port (lineHandles s e.region r slot half) (some e.who) e.who.tag
  if !ok then endWrite s e Rsn.laneCheck false true
  else if e.fail ≠ 0#8 then endWrite s e e.fail false true
  else match sealLine s e.region r slot half e.line major minor e.plain with
    | some d => sealed (countBlocks s slot half r.volume 4) e d major minor
    | none => unsealed s e Rsn.keyRevoked

/-- Encrypt a P3 line: its minor counter advances first; a full one, another generation or a pending renewal re-encrypts the page
(04 R126, R132 to R134). `half` is the one resolved at step K5 (03 R93). -/
def sealP3 (s : State) (e : MemEnt) (r : Region) (slot half : Nat) (v : Slot) : State :=
  let pg := pageOf r e.line
  let m := lineInPage r e.line
  if e.fail = Rsn.treeFail then unsealed (lineFault s e e.fail) e e.fail
  else if s.ime.pageHeld.contains (e.region, pg) then setEnt s { e with phase := .pageHeld }
  else
    let (ok, s, _) := fetchPath s e.region r pg e.cls { lines := e.answers }
    let c := ctrOf s e.region r pg
    let h := if c.parity = (half == 1) then half else curHalf v
    let n := dget 0 c.minors m
    if !ok then unsealed (lineFault s e Rsn.treeFail) e Rsn.treeFail
    else if c.parity ≠ (h == 1) ∨ renewDue s e.region r pg then holdOnPage s e pg
    else if c.ended then unsealed s e Rsn.counterEnd
    else if 127 ≤ n then
      if c.major % 2 ^ 32 = 0xFFFFFFFF then unsealed (dirtyCtr s e.region r pg { c with ended := true }) e Rsn.counterEnd
      else holdOnPage s e pg
    else sealOut (dirtyCtr s e.region r pg { c with minors := tput c.minors m (n + 1) }) e r slot h c.major (n + 1)

/-- Encrypt and tag a full line under the half it resolved at step K5, in its region's mode (04 R121 to R126, R141; 03 R93). -/
def sealEnt (s : State) (e : MemEnt) : State :=
  let r := entRegion s e
  if r.mode = 0 then sealed s e (withSide e.plain 0#56 false 0) 0 0
  else match (regionSlot s e.region r).bind fun slot => (slotAt s slot).bind fun v => (liveHalf s slot e.gen).map fun h => (slot, v, h) with
    | none => unsealed s e Rsn.keyRevoked
    | some (slot, v, half) => if r.mode = 3 then sealP3 s e r slot half v else sealOut s e r slot half 0 0

/-- A resident line is written back: its entry takes the place given, then is sealed (05 R179; 04 R106). -/
def writeBack (s : State) (r : Resident) (before : Option Nat) : State :=
  let s := dropResident s r.line
  if !r.dirty then s
  else match anyRegion s r.region with
    | none => s
    | some reg =>
      let e := { newEnt s .own .ownWrite (ownWho r.line) r.region reg 0 none with plain := r.data, mask := BitVec.allOnes 64, answered := true }
      sealEnt (match before with | some q => insertBefore s q e | none => pushPast s e) e

/-- A line becomes resident; the least recently used leaves beyond 32 (05 R179). -/
def loadResident (s : State) (r : Resident) : State :=
  let s := putResident s r
  if s.ile.resident.length ≤ 32 then s
  else match s.ile.resident with
    | x :: _ => writeBack s x none
    | [] => s

/-! ### Opening a read -/

/-- What opening a stored line gives: its plaintext, the reason it fails with (0: none), and whether that verdict may come late. -/
structure Opened where
  plain : Line
  code : Code
  late : Bool
  deriving DecidableEq, Repr

/-- Open the line an operation read, whose counter line is known: controller poison, an earlier failure, its generation, its tag, and the IME's own checks
(04 R131, R136, R137; 03 K5; 11 Table 11-1). -/
def openEnt (s : State) (e : MemEnt) (d : Stored) (poison : Bool) : Opened :=
  let r := entRegion s e
  if poison then { plain := 0#512, code := Rsn.memPoison, late := false }
  else if e.fail ≠ 0#8 then { plain := 0#512, code := e.fail, late := false }
  else if r.mode = 0 then { plain := storedData d, code := 0#8, late := false }
  else match regionSlot s e.region r with
    | none => { plain := 0#512, code := Rsn.keyRevoked, late := false }
    | some slot =>
      match openLine s e.region r slot e.line e.major e.minor d with
      | .error c => { plain := 0#512, code := c, late := false }
      | .ok (p, ok) =>
        if 2 ≤ e.mism ∧ 2 ≤ r.mode then { plain := p, code := Rsn.tagCheck, late := true }
        else if !ok then { plain := p, code := Rsn.sealFail, late := true }
        else { plain := p, code := 0#8, late := false }

/-- The working keys that open a stored line: those of the half its parity names. -/
def openHandles (s : State) (ix : Nat) (r : Region) (d : Stored) : List KeyHandle :=
  if r.mode = 0 then []
  else match (regionSlot s ix r).bind fun slot => (slotAt s slot).bind fun v => (k5 v (storedParity d)).map fun h => (slot, h) with
    | some (slot, h) => lineHandles s ix r slot h
    | none => []

/-- A read released: STRICT at its verdict, FORWARD ahead of a failing tag with a late poison; what leaves the die waits for the verdict
(04 R136; 05 R180). -/
def releaseRead (s : State) (e : MemEnt) (o : Opened) : State :=
  let r := entRegion s e
  let s := dropEnt s e.seq
  if o.code = 0#8 then finishMem s e.src e.port e.cls e.deadline 0#8 false [(withSide o.plain 0#56 false 0, false)]
  else
    let fwd := match e.src with
      | .fab _ _ _ => r.verify == 2 && o.late
      | _ => false
    if fwd then
      let s := finishMem s e.src e.port e.cls e.deadline 0#8 false [(withSide o.plain 0#56 false 0, false)]
      match e.src with
      | .fab ch tag _ => emit (imeReason s o.code) (.fabLpsn ch tag o.code)
      | _ => s
    else finishMem s e.src e.port e.cls e.deadline o.code false [(0#576, true)]

/-- Whether a line is a pad line of a CREAD: its failure is counted, not reported (04 R146). -/
def isPad (s : State) (e : MemEnt) : Bool := e.kind == .cread && s.ime.blks.any fun b => b.id == e.n && decide (b.n ≤ e.lineIx)

/-- What an operation does once its line is known: release, merge and seal, gather, load, check, or copy. -/
def lineKnown (s : State) (e : MemEnt) (o : Opened) : State :=
  let s := if o.code = Rsn.treeFail ∧ !isPad s e then lineFault s e o.code else s
  let r := entRegion s e
  let again := fun (s : State) => if o.code = Rsn.treeFail then s else lineFault s e o.code
  match e.kind with
  | .read => releaseRead s e o
  | .cread =>
    let s := dropEnt s e.seq
    if o.code = 0#8 then blkLine s e.n e.lineIx o.plain 0#8 else blkLine s e.n e.lineIx 0#512 o.code
  | .partial_ =>
    if o.code ≠ 0#8 then refuseEnt (again s) e o.code false false
    else
      let e := { e with plain := mergeLine e.mask o.plain e.plain, kind := .ownWrite, phase := .lineWait }
      sealEnt (setEnt s e) e
  | .cwHead =>
    if o.code ≠ 0#8 then blkFail (again s) e.n o.code false
    else
      let e := { e with kind := .cwrite, phase := .lineWait }
      sealEnt (setEnt { s with ime := { s.ime with blks := s.ime.blks.map fun b => if b.id = e.n then { b with checked := true } else b } } e) e
  | .resident =>
    if o.code ≠ 0#8 then refuseEnt (again s) e o.code false false
    else
      let v : Resident := { line := e.line, data := o.plain, region := e.region, dirty := false }
      applyAtomic (loadResident s v) e v
  | .copyRead => cowLine (dropEnt s e.seq) e.region (pageOf r e.line) e.lineIx o.plain o.code
  | _ => dropEnt s e.seq

/-- A raw read completes with the 72 bytes as stored (04 R148). -/
def rawKnown (s : State) (e : MemEnt) (d : Stored) (poison : Bool) : State :=
  let s := dropEnt s e.seq
  if poison then finishMem s e.src e.port e.cls e.deadline Rsn.memPoison false [(0#576, true)]
  else if e.fail ≠ 0#8 then finishMem s e.src e.port e.cls e.deadline e.fail false [(0#576, true)]
  else finishMem s e.src e.port e.cls e.deadline 0#8 false [(d, false)]

/-- The tag-unit check of an answered read: one mismatch is recomputed, a second fails the request (11 Table 11-1). -/
def tagUnit (s : State) (e : MemEnt) (mism : Nat) : State :=
  if mism = 0 ∨ (entRegion s e).mode < 2 ∨ e.kind = .rawRead then s
  else if mism = 1 then record s Flc.tagCheck 1 e.port 2 0#8 (some e.who) e.who.tag
  else record s Flc.tagCheck 1 e.port 4 Rsn.tagCheck (some e.who) e.who.tag

/-- The misses of an operation are queued for the lane group of its port. -/
def queueMisses (s : State) (e : MemEnt) (hs : List KeyHandle) : State := hs.foldl (fun s h => missAdd s h e.port) s

/-- The line of an operation has arrived and its counter line is known: it waits for keys that the cache lacks, passes its lanes, and is opened (03 R86;
01 R17, R23). -/
def openWhen (s : State) (e : MemEnt) : State :=
  let r := entRegion s e
  let hs := if e.fail = 0#8 then openHandles s e.region r e.stored else []
  let miss := hs.filter fun h => (derive s h).isSome && !dkcHas s h
  if !miss.isEmpty then setEnt (queueMisses s e miss) { e with phase := .openWait }
  else
    let (ok, s) := if hs.isEmpty then (true, s) else lanePass s e.port hs (some e.who) e.who.tag
    let e := if ok then e else { e with fail := Rsn.laneCheck }
    lineKnown s e (openEnt s e e.stored false)

/-- The line of a reading operation has arrived (04 R131, R136); `m` answers the tree reads issued with it. -/
def readArrived (s : State) (e : MemEnt) (d : Stored) (poison : Bool) (m : MemIn) (mism : Nat) : State :=
  if e.kind = .rawRead then rawKnown s e d poison
  else
    let s := tagUnit s e mism
    let r := entRegion s e
    let pg := pageOf r e.line
    let e' := { e with fetches := [], stored := d, mism := mism }
    if poison then lineKnown s e' (openEnt s e' d true)
    else if r.mode ≠ 3 then openWhen s e'
    else
      let (ok, s, _) := if e.fetches.isEmpty then fetchPath s e.region r pg e.cls m else pathArrived s e.region r pg m
      openWhen s (if ok ∨ e.fail ≠ 0#8 then e' else { e' with fail := Rsn.treeFail })

/-- A reading operation takes its place: answered from a queued write on its line, or ready for MEMPORT under the counters of now
(04 R108, R126). -/
def readPlace (s : State) (e : MemEnt) : State :=
  match queuedWrite s e with
  | some w =>
    if e.kind = .rawRead then rawKnown s e w.stored false
    else openWhen s { e with major := w.major, minor := w.minor, stored := w.stored }
  | none =>
    let c := ctrNow s e.region (entRegion s e) e.line
    setEnt s { e with phase := .ready, major := c.1, minor := c.2 }

/-! ### Holds of a cut (08 R261, R266) -/

/-- Whether a kind of operation changes plaintext for a master: what a cut holds, copies for or refuses. -/
def cutWrites : MemKind → Bool
  | .write | .partial_ | .cwrite | .rawWrite | .resident | .cwHead => true
  | _ => false

/-- STATE of a SNAP word (08 Table 8-6). -/
def snapState (r : Region) : Nat := bits r.snap 30 2

/-- Whether an operation arrived from another member. -/
def isRemote (e : MemEnt) : Bool :=
  match e.src with
  | .remote _ _ => true
  | _ => false

/-- What a cut does with a write: 0 go on, 1 hold, 2 refuse, 3 copy the page first. -/
def cutVerdict (s : State) (e : MemEnt) (r : Region) : Nat :=
  if e.cutOk ∨ !cutWrites e.kind then 0
  else
    let pg := pageOf r e.line
    if snapState r = 1 then (if isRemote e then 0 else 1)
    else if snapState r = 3 then 2
    else if snapState r = 2 then
      if pg < r.snapPtr ∨ s.ime.copyAhead.contains (e.region, pg) then 0
      else if 16384 ≤ s.ime.copyAhead.length ∨ 256 ≤ s.ime.cow.length then 1
      else 3
    else 0

/-- Whether a line lies in a page of a region. -/
def onPage (r : Region) (page line : Nat) : Bool := decide (r.base ≤ line * 64) && decide (line * 64 < r.base + r.size) && pageOf r line == page

/-- Whether the page of a write can be copied now: no re-encryption holds it, and nothing accepted earlier on it is still unknown (08 R266, R268). -/
def copyReady (s : State) (e : MemEnt) (r : Region) : Bool :=
  let pg := pageOf r e.line
  !s.ime.pageHeld.contains (e.region, pg)
    && !((s.ime.ents.takeWhile fun x => x.seq != e.seq).any fun x => onPage r pg x.line && (unmerged x || (holdPhase x.phase && x.cutOk)))

/-- A write waits behind one that waits to copy the same page first, and so does every request to that page (08 R266). -/
def behindHeld (s : State) (e : MemEnt) (r : Region) : Bool :=
  snapState r == 2 && (s.ime.ents.takeWhile fun x => x.seq != e.seq).any fun x =>
    x.phase == .cutHeld && x.region == e.region && pageOf r x.line == pageOf r e.line

/-- The 64 copy reads of a page take their places ahead of the write that causes them, in its class and deadline, after what the atomic unit holds of
the page is written back (08 R266; 10 Table 10-1; 05 R179). -/
def copyPage (s : State) (e : MemEnt) (r : Region) : State :=
  let pg := pageOf r e.line
  let cut := bits r.snap 28 2
  let s := (s.ile.resident.filter fun x => onPage r pg x.line).foldl (fun s x => writeBack s x (some e.seq)) s
  let s := { s with
    ime := { s.ime with copyAhead := s.ime.copyAhead ++ [(e.region, pg)],
                        cow := s.ime.cow ++ [{ region := e.region, page := pg, lines := [], fail := 0#8 }] }
    bce := { s.bce with cuts := tmod s.bce.cuts cut fun c => { c with copied := c.copied + 1 } } }
  (List.range 64).foldl (fun s i =>
    let line := r.base / 64 + 64 * pg + i
    let c := { newEnt s .own .copyRead (ownWho line) e.region r e.cls e.deadline with lineIx := i, cutOk := true }
    readPlace (insertBefore s e.seq c) c) s

/-- A remote write passes the local writes that a cut holds on its line: it belongs to the stratum (08 R261). -/
def passHeld (s : State) (e : MemEnt) (r : Region) : State :=
  if isRemote e && cutWrites e.kind && snapState r == 1 then
    match (earlierOnLine s e).find? fun x => x.phase == .cutHeld with
    | some x => insertBefore (dropEnt s e.seq) x.seq e
    | none => s
  else s

/-! ### Keys of an operation (03 K7, R86) -/

/-- The working keys an operation needs at step K7, under the half it resolved; none where it needs no key. -/
def entHandles (s : State) (e : MemEnt) : List KeyHandle :=
  let r := entRegion s e
  if isRaw e.kind || e.region = catIx then []
  else match regionSlot s e.region r with
    | some slot => (liveHalf s slot e.gen).elim [] fun h => lineHandles s e.region r slot h
    | none => []

/-- Whether the key of an operation is gone: its slot, its half, or the key in it (03 R95). -/
def keyGone (s : State) (e : MemEnt) : Bool :=
  let r := entRegion s e
  !isRaw e.kind && e.region != catIx && r.mode != 0 && ((entHandles s e).isEmpty || (entHandles s e).any fun h => (derive s h).isNone)

/-- An operation that waited for its key ends REFUSED with a reason (03 R95). -/
def noKey (s : State) (e : MemEnt) (c : Code) : State :=
  if e.kind = .cread then blkLine (dropEnt s e.seq) e.n e.lineIx 0#512 c else endWrite s e c true false

/-! ### One operation as far as it goes -/

/-- What an operation does once nothing holds it. -/
def place (s : State) (e : MemEnt) : State :=
  match e.kind with
  | .write | .cwrite | .ownWrite => sealEnt s e
  | .rawWrite =>
    let c := ctrNow s e.region (entRegion s e) e.line
    sealed s e e.stored c.1 c.2
  | .resident =>
    match residentAt s e.line with
    | some v => applyAtomic s e v
    | none => readPlace s e
  | _ => readPlace s e

/-- A WRITE or RAW_WRITE that waits only for its place is accepted and completes now, its counters being sure to serve it (04 R109). -/
def answerNow (s : State) (e : MemEnt) (r : Region) : State × MemEnt :=
  let pg := pageOf r e.line
  let sure := e.kind == .rawWrite || (e.kind == .write
    && (r.mode != 3 || (ctrCached s e.region pg && decide ((ctrOf s e.region r pg).major % 2 ^ 32 < 0xFFFFFFFF))))
  if e.answered || !sure then (s, e)
  else
    let e := { e with answered := true, cutOk := true }
    (setEnt (finishMem s e.src e.port e.cls e.deadline 0#8 false [(0#576, false)]) e, e)

/-- An accepted operation waits in a phase. -/
def waitIn (s : State) (e : MemEnt) (r : Region) (p : MemPhase) : State :=
  let x := answerNow s e r
  setEnt x.1 { x.2 with phase := p }

/-- Whether a line of a CWRITE waits for the check of the block's header line (04 R137). -/
def headPending (s : State) (e : MemEnt) : Bool := e.kind == .cwrite && s.ime.blks.any fun b => b.id == e.n && !b.checked

/-- Take an operation past its holds, in the order: keys, a cut, its line, the atomic unit, its page. -/
def advance (s : State) (seq : Nat) : State :=
  match entAt s seq with
  | none => s
  | some e =>
    if e.phase = .openWait then openWhen s e
    else if !holdPhase e.phase then s
    else if keyGone s e then noKey s e Rsn.keyRevoked
    else
      let miss := (entHandles s e).filter fun h => !dkcHas s h
      if !miss.isEmpty then setEnt (queueMisses s e miss) { e with phase := .keyWait }
      else
        let r := entRegion s e
        let s := passHeld s e r
        let v := cutVerdict s e r
        if v = 1 then setEnt s { e with phase := .cutHeld }
        else if v = 2 then unsealed s e Str.stratumFrozen
        else if behindHeld s e r || (v == 3 && !copyReady s e r) then setEnt s { e with phase := .lineWait }
        else if lineBlocked s e || headPending s e then (if v = 0 then waitIn s e r .lineWait else setEnt s { e with phase := .lineWait })
        else
          let s := match residentAt s e.line with
            | some v => if e.kind = .resident then s else writeBack s v (some e.seq)
            | none => s
          let s := if v = 3 then copyPage s e r else s
          let e := { e with cutOk := true }
          let s := setEnt s e
          if r.mode = 3 ∧ s.ime.pageHeld.contains (e.region, pageOf r e.line) then waitIn s e r .pageHeld
          else if lineBlocked s e then waitIn s e r .lineWait
          else place s e

/-- Take every held operation as far as it goes, in acceptance order (04 R108, R132). -/
def settle (s : State) : State := (s.ime.ents.map (·.seq)).foldl advance s

/-- Accept an operation: last in its port's queue, then as far as it goes. -/
def accept (s : State) (e : MemEnt) : State := advance (pushEnt s e) e.seq

/-! ### Room in the port queues (04 R107; 10 R318) -/

/-- Whether an entry is one of the IME's own: catalogue and tree lines, sweeps, page re-encryption and copy reads (04 R107). -/
def isOwn (e : MemEnt) : Bool :=
  match e.src with
  | .own => e.kind == .ownWrite || e.kind == .copyRead
  | _ => false

/-- Read entries an operation holds. -/
def readCost : MemKind → Nat
  | .read | .partial_ | .rawRead | .cread | .resident => 1
  | _ => 0

/-- Write entries an operation holds. -/
def writeCost : MemKind → Nat
  | .write | .partial_ | .rawWrite | .cwrite | .resident | .ownWrite | .cwHead => 1
  | _ => 0

/-- Entries held on a port, all classes or one. -/
def entsHeld (s : State) (port : Nat) (cls : Option Nat) (cost : MemKind → Nat) : Nat :=
  (s.ime.ents.map fun e =>
    if e.port = port ∧ !isOwn e ∧ (cls.isNone ∨ cls = some e.cls) then cost e.kind else 0).sum

/-- The share of a class-limited queue one class may hold (10 Table 10-7 CLASS_LIMIT). -/
def classShare (s : State) (n : Nat) : Nat :=
  let l := bits s.qos.ctrl.toNat 5 3
  if l = 0 then n else n * l / 8

/-- Whether a port's queue takes `n` more entries of a class. -/
def roomFor (s : State) (port cls n cap : Nat) (cost : MemKind → Nat) : Bool :=
  decide (n = 0) || (decide (entsHeld s port none cost + n ≤ cap) && decide (entsHeld s port (some cls) cost + n ≤ classShare s cap))

/-- Whether the memory port takes an operation's entries: 1024 for reads, 512 for writes. -/
def portRoom (s : State) (port cls reads writes : Nat) : Bool :=
  roomFor s port cls reads 1024 readCost && roomFor s port cls writes 512 writeCost

/-- Operations held by a cut on a port (08 R261). -/
def cutHeldCount (s : State) (port : Nat) : Nat := (s.ime.ents.filter fun e => e.port == port && e.phase == .cutHeld).length

/-! ### FABPORT acceptance (14 R424 to R427; 02 R56; 09 R278; 13 R407; 10 R318, R321) -/

/-- FABPORT takes no beat: no power, before READY, in a CORE reset or a quiesce, or with ACLK lost (14 R420; 11 Table 11-8; 01 R36). -/
def fabClosed (s : State) : Bool :=
  !s.pin.pwrok || !s.gen.ready || coreDown s || quiescing s || s.dom.aclkLost || s.dom.aclkWait

/-- Whether a DEBUG master or TEST world may pass: debug enabled with the MASTER scope (13 R407). -/
def debugPass (s : State) (w : Who) : Bool :=
  !(w.master == 2 || w.world == 3) || (s.lcs.debug && bit s.lcs.scope 1)

/-- The checks that precede an opcode's own: the first failing one's reason. -/
def fabGate (s : State) (q : FabReq) (w : Who) (aligned : Bool) : Option Code :=
  if q.epoch ≠ epochOf s 0 then some Rsn.resetAbort
  else if !aligned then some Rsn.opDenied
  else if s.key.tampered then some Rsn.tampered
  else if s.gen.unchartered then some Rsn.unchartered
  else if 2 < w.master then some Rsn.keyRights
  else if w.pasid.isSome ∧ w.slice.isNone then some Hc.sliceAbsent
  else if w.slice.any (fun i => (tget s.hob.slices i).any (·.resetting)) then some Hc.sliceResetting
  else if !debugPass s w then some Lc.debugLocked
  else none

/-- Keep a code of Table 9-13 as HOB_STATUS.LAST_REASON (09 R307; 15 Table 15-12). -/
def hobReason (s : State) (c : Code) : State :=
  if 0x80 ≤ c.toNat ∧ c.toNat ≤ 0x91 then { s with hob := { s.hob with lastReason := c } } else s

/-- A refused FABPORT request: every beat its opcode returns, with the outcome REFUSED (14 R427). -/
def fabRefuse (s : State) (q : FabReq) (port : Option Nat) (c : Code) (beats : Nat) : State :=
  let s := hobReason (imeReason s c) c
  let s := match port with
    | some p => countOutcome s p q.cls.toNat true none
    | none => s
  emits s (fabBeats s q.ch q.tag q.epoch 2 c (deadlineOf s q.budget) (List.replicate beats (0#576, false)))

/-- Whether a memory port is stopped for a recharter (02 Table 2-9 step 2; 10 Table 10-5). -/
def portStopped (s : State) (p : Nat) : Bool := (s.gen.funcStop ||| s.gen.funcState ||| s.gen.funcHeld).getLsbD p

/-- S of Table 4-13 for a region's SHAPE. -/
def blkLines (shape n : Nat) : Nat :=
  if shape = 2 then 16
  else if shape = 1 then (if n ≤ 2 then 2 else if n ≤ 4 then 4 else if n ≤ 8 then 8 else 16)
  else n

/-- The next line of the filler keystream (04 R146). -/
def padLine (s : State) : Line × State :=
  (Config.padFill (s.ime.padSeed.getD 0#256) s.ime.padUsed, { s with ime := { s.ime with padUsed := s.ime.padUsed + 1 } })

/-- The entries an accepted memory request makes: one, or S for a compressed block, the header line of a CWRITE read and checked first (04 R106, R137,
R145, R146). -/
def fabEntries (s : State) (src : Src) (k : MemKind) (w : Who) (ix : Nat) (r : Region) (cls : Nat) (deadline : Option Nat)
    (n : Nat) (mask : BitVec 64) (data : List Stored) (m : MemIn) : State :=
  let port := memPort s (w.addr / 64)
  if k = .cread ∨ k = .cwrite then
    let S := blkLines r.shape n
    let id := s.ime.seq + 1
    let b : Blk := { id := id, src := src, who := w, write := k == .cwrite, n := n, s := S, region := ix, deadline := deadline,
                     cls := cls, port := port, got := [], checked := k != .cwrite }
    let s := { s with ime := { s.ime with blks := s.ime.blks ++ [b] } }
    (List.range S).foldl (fun s i =>
      let (f, s) := if k = .cwrite ∧ n ≤ i then padLine s else (storedData (data.getD i 0#576), s)
      accept s { newEnt s src (if k = .cwrite ∧ i = 0 then .cwHead else k) { w with addr := w.addr + 64 * i } ix r cls deadline with
        port := port, plain := f, lineIx := i, n := id, lines := S, answers := if i = 0 then m.lines else [] }) s
  else
    let d := data.headD 0#576
    accept s { newEnt s src k w ix r cls deadline with
      port := port, plain := storedData d, mask := mask, stored := d, answers := m.lines }

/-- Whether a port's hold queue has no place for a write that a cut would hold (08 R261, R266). -/
def holdFull (s : State) (src : Src) (k : MemKind) (w : Who) (ix : Nat) (r : Region) (port : Nat) : Bool :=
  let e := newEnt s src k w ix r 0 none
  cutWrites k && (cutVerdict s e r == 1 || behindHeld s e r) && decide (256 ≤ cutHeldCount s port)

/-- A memory request at FABPORT: taken and answered, refused, or not taken at all while FABPORT is held back. Room is judged before the catalogue
entry is looked up, for the S lines of the entry as it stands: a request refused QUEUE_FULL causes no traffic (10 R318). -/
def fabMem (s : State) (q : FabReq) (k : MemKind) (m : MemIn) : State :=
  let w := whoOf s q
  let n := q.count.toNat + 1
  let compressed := k == .cread || k == .cwrite
  let beats := if k = .cread then n else 1
  let port := memPort s (w.addr / 64)
  let cls := q.cls.toNat
  let src : Src := .fab q.ch q.tag q.epoch
  let S := blkLines (((regionAt s (regionIx w.shelf)).map (·.shape)).getD 0) n
  let reads := if k = .cread then S else readCost k
  let writes := if k = .cwrite then S else writeCost k
  if fabClosed s then s
  else match fabGate s q w (decide (w.addr % (if compressed then 1024 else 64) = 0)) with
  | some c => fabRefuse s q (some port) c beats
  | none =>
    if portStopped s port then fabRefuse s q (some port) Rsn.portStopped beats
    else if noLanes s port then fabRefuse s q (some port) Rsn.noLanes beats
    else if !portRoom s port cls reads writes then fabRefuse s q (some port) Rsn.queueFull beats
    else match memGate s w k cls m with
    | (.error c, s, _) => fabRefuse s q (some port) c beats
    | (.ok (ix, r), s, m) =>
      if k = .cwrite ∧ bits ((q.data.headD 0#576)).toNat 0 4 + 1 ≠ n then fabRefuse s q (some port) Rsn.compMismatch beats
      else if holdFull s src k w ix r port then s
      else settle (fabEntries s src k w ix r cls (deadlineOf s q.budget) n q.mask q.data m)

/-! ### Room advertised at FABPORT (10 R320; 14 R429) -/

/-- A word of bits 16p + k. -/
def roomBits (f : Nat → Nat → Bool) : BitVec 64 :=
  BitVec.ofNat 64 ((List.range 64).foldl (fun a i => a + b2n (f (i / 16) (i % 16)) * 2 ^ i) 0)

/-- FAB_ROOM_RD: whether a class may take 64 more read entries on a memory port. -/
def fabRoomRd (s : State) : BitVec 64 := roomBits fun p k => memPresent s p && roomFor s p k 64 1024 readCost

/-- FAB_ROOM_WR: whether a class may take 64 more write entries on a memory port. -/
def fabRoomWr (s : State) : BitVec 64 := roomBits fun p k => memPresent s p && roomFor s p k 64 512 writeCost

end Sys2Proof.Machine
end

