-- ==== Sys2Proof/Machine/Operands.lean ====
section
/-!
DEFINITION. Operands and outputs in die memory: the reads and writes that a command of the block makes through the IME (15 R454; 06 R198; 07 R228;
08 R258; 09 R286). What memory answers to a read comes with the command (log 7).
-/
namespace Sys2Proof.Machine

/-- The requester of an internal access: master class, world, and the slice and context it acts for. -/
def engWho (master world : Nat) (slice context : Option Nat) (shelf addr : Nat) : Who :=
  { master := master, world := world, agent := 0, pasid := none, slice := slice, context := context, shelf := shelf, addr := addr,
    tag := 0 }

/-- The requester of a command's own operands: class CONTROL, world FIRMWARE, no slice (15 R454; log 17). -/
def ctlWho (shelf addr : Nat) : Who := engWho 6 0 none none (shelf % 2 ^ 24) (addr % 2 ^ 52)

/-- Whether a write that waits on a line is one that a later read sees: all but those that a STOP cut will refuse, and for the cut's own walk those it
holds (04 R108; 08 R261, R262, R266). -/
def visible (s : State) (acc : Acc) (r : Region) (e : MemEnt) : Bool :=
  e.cutOk || e.phase != .cutHeld
    || (acc != .walk && !(snapState r == 1 && ((tget s.bce.cuts (bits r.snap 28 2)).any fun c => fld c.desc 2 1 == 1)))

/-- A line as a waiting write will leave it. -/
def afterWrite (l : Line) (e : MemEnt) : Line :=
  match e.kind with
  | .write | .cwrite | .cwHead => e.plain
  | .partial_ => mergeLine e.mask l e.plain
  | .resident => match e.src with
    | .remote op _ => (atomicOn op.data l).2
    | _ => l
  | _ => l

/-- The writes that wait ahead of a read on its line and that it sees, in order (04 R108). -/
def waitingWrites (s : State) (acc : Acc) (e : MemEnt) (r : Region) : List MemEnt :=
  (earlierOnLine s e).filter fun x => cutWrites x.kind && (holdPhase x.phase || unmerged x) && visible s acc r x

/-- Whether a write replaces the whole line. -/
def wholeLine (e : MemEnt) : Bool := e.kind == .write || e.kind == .cwrite || e.kind == .cwHead

/-- The line a read takes from memory, or from a write queued there, opened: its tree lines, its lanes, its verdict (04 R108, R131, R136; 01 R17). -/
def readStored (s : State) (e : MemEnt) (r : Region) (m : MemIn) : Opened × State × MemIn :=
  let opened := fun (s : State) (e : MemEnt) (a : MemAnswer) (m : MemIn) =>
    let hs := if a.poison || e.fail != 0#8 then [] else openHandles s e.region r a.data
    let (pass, s) := if hs.isEmpty then (true, s) else lanePass s e.port hs (some e.who) e.who.tag
    (openEnt s (if pass then e else { e with fail := Rsn.laneCheck }) a.data a.poison, s, m)
  match queuedWrite s e with
  | some q => opened s { e with major := q.major, minor := q.minor } { data := q.stored, poison := false } m
  | none =>
    let (ok, s, m) := if r.mode = 3 then fetchPath s e.region r (pageOf r e.line) e.cls m else (true, s, m)
    let c := ctrNow s e.region r e.line
    let (a, m) := takeLine m
    opened (ownReads s [e.line] e.cls) { e with major := c.1, minor := c.2, fail := if ok then 0#8 else Rsn.treeFail } a m

/-- Read the line a requester names: the checks of 04 Table 4-6, a resident line or what waits on the line first (04 R108), then memory, under STRICT. -/
def readLine (s : State) (w : Who) (cls : Nat) (acc : Acc) (m : MemIn) : Except Code Line × State × MemIn :=
  match memGateBy acc s w .read cls m with
  | (.error c, s, m) => (.error c, imeReason s c, m)
  | (.ok (ix, r), s, m) =>
    match residentAt s (w.addr / 64) with
    | some v => (.ok v.data, s, m)
    | none =>
      let e := newEnt s .own .read w ix r cls none
      let l := waitingWrites s acc e r
      if l.any wholeLine then (.ok (l.foldl afterWrite 0#512), s, m)
      else
        let (o, s, m) := readStored s e r m
        let s := if o.code = Rsn.treeFail then lineFault s e o.code else s
        if o.code = 0#8 then (.ok (l.foldl afterWrite o.plain), s, m) else (.error o.code, imeReason s o.code, m)

/-- Read `n` lines from a line on; stop at the first that fails. -/
def readLines (s : State) (w : Who) (cls : Nat) (acc : Acc) (m : MemIn) : Nat → Nat → Except Code (List Byte) × State × MemIn
  | 0, _ => (.ok [], s, m)
  | n + 1, line =>
    match readLine s { w with addr := line * 64 } cls acc m with
    | (.error c, s, m) => (.error c, s, m)
    | (.ok l, s, m) =>
      match readLines s w cls acc m n (line + 1) with
      | (.ok b, s, m) => (.ok (lineBytes l ++ b), s, m)
      | x => x

/-- The lines that `len` bytes from an address touch. -/
def linesOf (addr len : Nat) : Nat := if len = 0 then 0 else (addr + len - 1) / 64 - addr / 64 + 1

/-- Read bytes as a requester, in a service class. -/
def readBytesBy (acc : Acc) (s : State) (w : Who) (cls len : Nat) (m : MemIn) : Except Code (List Byte) × State × MemIn :=
  match readLines s w cls acc m (linesOf w.addr len) (w.addr / 64) with
  | (.ok b, s, m) => (.ok (slice b (w.addr % 64) len), s, m)
  | x => x

/-- Read bytes as a request does. -/
def readBytes (s : State) (w : Who) (cls len : Nat) (m : MemIn) : Except Code (List Byte) × State × MemIn := readBytesBy .live s w cls len m

/-- Why a full-line write could not be sealed now: a frozen region or an exhausted page (08 R262; 04 R133). -/
def writeBar (s : State) (ix : Nat) (r : Region) (line : Nat) : Code :=
  let c := ctrOf s ix r (pageOf r line)
  if snapState r = 3 then Str.stratumFrozen
  else if r.mode = 3 ∧ (c.ended ∨ (c.major % 2 ^ 32 = 0xFFFFFFFF ∧ 127 ≤ dget 0 c.minors (lineInPage r line))) then Rsn.counterEnd
  else 0#8

/-- Write a full line as a requester; it takes its place in its port's queue (04 R108). -/
def writeLine (acc : Acc) (s : State) (w : Who) (l : Line) (cls : Nat) (m : MemIn) : Except Code Unit × State × MemIn :=
  match memGateBy acc s w .write cls m with
  | (.error c, s, m) => (.error c, imeReason s c, m)
  | (.ok (ix, r), s, m) =>
    let e := newEnt s .own .write w ix r cls none
    let (ok, s, m) := if r.mode = 3 then fetchPath s ix r (pageOf r (w.addr / 64)) cls m else (true, s, m)
    let bar := if ok then writeBar s ix r (w.addr / 64) else Rsn.treeFail
    if bar ≠ 0#8 then (.error bar, imeReason (if ok then s else lineFault s e bar) bar, m)
    else (.ok (), accept s { e with plain := l, answered := true }, m)

/-- Write bytes line by line: a part of a line is merged with what the line holds (04 R137). -/
def writeLinesFrom (acc : Acc) (s : State) (w : Who) (cls : Nat) : Nat → Nat → List Byte → MemIn → Except Code Unit × State × MemIn
  | 0, _, _, m => (.ok (), s, m)
  | n + 1, addr, b, m =>
    let off := addr % 64
    let part := b.take (64 - off)
    let w' := { w with addr := addr - off }
    let next := addr - off + 64
    let (old, s, m) :=
      if part.length = 64 then ((.ok 0#512 : Except Code Line), s, m) else readLine s w' cls acc m
    match old with
    | .error c => (.error c, s, m)
    | .ok l =>
      let ob := lineBytes l
      match writeLine acc s w' (bytesLine (ob.take off ++ part ++ ob.drop (off + part.length))) cls m with
      | (.error c, s, m) => (.error c, s, m)
      | (.ok (), s, m) => writeLinesFrom acc s w cls n next (b.drop (64 - off)) m

/-- Write bytes as a requester. -/
def writeBytesBy (acc : Acc) (s : State) (w : Who) (b : List Byte) (cls : Nat) (m : MemIn) : Except Code Unit × State × MemIn :=
  writeLinesFrom acc s w cls (linesOf w.addr b.length) w.addr b m

/-- Write bytes as a request does. -/
def writeBytes (s : State) (w : Who) (b : List Byte) (cls : Nat) (m : MemIn) : Except Code Unit × State × MemIn := writeBytesBy .live s w b cls m

/-- Whether a requester may access `len` bytes of one region: the checks at both ends (04 Table 4-6), and the region. -/
def admits (s : State) (w : Who) (len : Nat) (k : MemKind) : Except Code (Nat × Region) :=
  match memChecks s { w with addr := w.addr / 64 * 64 } k with
  | .error c => .error c
  | .ok (ix, r) =>
    if len = 0 then .ok (ix, r)
    else match memChecks s { w with addr := (w.addr + len - 1) / 64 * 64 } k with
      | .error c => .error c
      | .ok _ => .ok (ix, r)

/-- The same with the region's entry read first (04 R114). -/
def admitted (s : State) (w : Who) (len : Nat) (k : MemKind) (cls : Nat) (m : MemIn) : Except Code (Nat × Region) × State × MemIn :=
  match memGate s { w with addr := w.addr / 64 * 64 } k cls m with
  | (.error c, s, m) => (.error c, s, m)
  | (.ok _, s, m) => (admits s w len k, s, m)

/-- The class of a host command in flight: what reads its descriptor (10 Table 10-1). -/
def flightCls (s : State) (fl : Nat) : Nat := ((tget s.hob.flight fl).map fun f => fld f.record 2 1).getD 0

/-- Read a command's operands with class CONTROL (15 R454). -/
def ctlRead (s : State) (shelf addr len : Nat) (m : MemIn) : Except Code (List Byte) × State × MemIn :=
  readBytes s (ctlWho shelf addr) 0 len m

/-- Write a command's output with class CONTROL. -/
def ctlWrite (s : State) (shelf addr : Nat) (b : List Byte) (m : MemIn) : Except Code Unit × State × MemIn :=
  writeBytes s (ctlWho shelf addr) b 0 m

end Sys2Proof.Machine
end

