-- ==== Sys2Proof/Machine/Fabric.lean ====
section
/-!
DEFINITION. The memory-semantic fabric at its source and its target: origination, held and flagged operations, messages, the target ingress queue
and the end of an originated operation (05 R168, R172 to R187; 08 R261; 10 R318, R319).
-/
namespace Sys2Proof.Machine

/-! ### Shaping of a VC (05 R189, R190; 15 Table 15-9) -/

/-- The shaping registers a port's VCs use: as committed, else their reset value under SHAPING_DEFAULT. -/
def shapeOf (s : State) (e : Nat) : ShapeRegs :=
  ((lportAt s e).shape).getD
    { mode := BitVec.ofNat 64 (0xB6DB6D0000 + 0x5555 * bits (globCtl s) 8 2), cad := 0#64 }

/-- The mode of a VC of a port: 0 OPEN, 1 BUCKETED, 2 CONSTANT. -/
def vcMode (s : State) (e vc : Nat) : Nat := bits (shapeOf s e).mode.toNat (2 * vc) 2

/-- MSG_MAX of a VC of a port. -/
def vcMsgMax (s : State) (e vc : Nat) : Nat := 2 ^ (11 + bits (shapeOf s e).mode.toNat (16 + 3 * vc) 3)

/-- CADENCE of a VC of a port. -/
def vcCadence (s : State) (e vc : Nat) : Nat := bits (shapeOf s e).cad.toNat (8 * vc) 8

/-- The mode of a message: its SHAPE where that is nonzero, else the mode of VC1 (05 R189). -/
def msgMode (s : State) (e shape : Nat) : Nat := if shape = 0 then vcMode s e 1 else shape - 1

/-- The length a message is sent with (05 Table 5-14). -/
def msgLength (s : State) (e shape n : Nat) : Nat :=
  let mx := vcMsgMax s e 1
  let m := msgMode s e shape
  if m = 2 then mx
  else if m = 1 then (if n ≤ mx / 8 then mx / 8 else if n ≤ mx / 4 then mx / 4 else if n ≤ mx / 2 then mx / 2 else mx)
  else n

/-- The longest segment: 448 bytes, or 208 under forerunner limits (05 Table 5-10). -/
def segMax (s : State) : Nat := if forerunner s then 208 else 448

/-! ### Origination (05 R175, R176, R185) -/

/-- An operation of this instance, before its TAG and EPOCH are set: TTL 7, SRC the own member index. -/
def mkOp (s : State) (op : Nat) (flagged fetch last : Bool) (shape address shelf cls world dest : Nat) (data : List Byte) : FabOp :=
  { op := op, flagged := flagged, fetch := fetch, last := last, shape := shape, ttl := 7, tag := 0, address := address,
    shelf := shelf, cls := cls, world := world, deadline := 0xFFFFFFFF#32, epoch := 0#32, dest := dest,
    src := (ownMember s).getD 0, data := data }

/-- The switch stages to a member: what its route entry says, and always 0 by a D2D port (05 Tables 5-8, 5-11). -/
def stageTo (w : Word) : Nat := if 16 ≤ routeEgress w then 0 else routeStage w

/-- Why an operation cannot be sent to a member: NO_ROUTE for the own index or an invalid entry, FAR_TARGET beyond one stage. -/
def routeCode (s : State) (dest : Nat) (far : Bool) : Code :=
  let w := routeOf s dest
  if some dest = ownMember s ∨ !routeValid w ∨ 20 ≤ routeEgress w then Rsn.noRoute
  else if far ∧ stageTo w = 2 then Rsn.farTarget
  else 0#8

/-- Whether the table has room for `n` more entries of a class (10 R318; classes count the entries they hold). -/
def origRoom (s : State) (cls n : Nat) : Bool :=
  decide (s.ile.orig.length + n ≤ 4096)
    && decide ((s.ile.orig.filter fun o => o.2.op.cls == cls).length + n ≤ classShare s 4096)

/-- FAB_ROOM_ORG: whether a class may take 64 more origination entries (10 R320; 14 R429). -/
def fabRoomOrg (s : State) : BitVec 16 :=
  BitVec.ofNat 16 ((List.range 16).foldl (fun a k => a + b2n (origRoom s k 64) * 2 ^ k) 0)

/-- STORE, STORE_PARTIAL and ATOMIC. -/
def isStoreOp (op : Nat) : Bool := op == 2 || op == 3 || op == 4

/-- The master ID and DEST of an operation from FABPORT. -/
def fabKey (src : OrigSrc) (dest : Nat) : Option (Word × Nat) :=
  match src with
  | .fab _ _ _ mid => some (mid, dest)
  | _ => none

/-- A flagged store is held while an earlier store of its master to its DEST on another VC is unacknowledged (05 R176). -/
def flagHeld (s : State) (src : OrigSrc) (op : FabOp) (vc seq : Nat) : Bool :=
  op.flagged && s.ile.orig.any fun o =>
    isStoreOp o.2.op.op && decide (o.2.vc ≠ vc) && (fabKey o.2.src o.2.op.dest == fabKey src op.dest)
      && (fabKey src op.dest).isSome && decide (o.2.seq < seq)

/-- Take a table entry and, unless it is held, give the operation to its VC (05 R169, R185). -/
def originate (s : State) (src : OrigSrc) (op : FabOp) (vc : Nat) (who : Who) (deadline : Option Nat) (posted : Bool)
    (msg : Option Nat) (pad : Nat) : State :=
  match freeIndex s.ile.orig 0 4096 with
  | none => s
  | some ix =>
    let e := routeEgress (routeOf s op.dest)
    let op := { op with tag := ix + 4096 * (dget 0 s.ile.issue ix % 2 ^ 20), epoch := epochOf s (domLnk e) }
    let seq := s.ile.nextMsg
    let held := flagHeld s src op vc seq
    let o : Orig := { src := src, op := op, vc := vc, egress := e, who := who, deadline := deadline, accepted := s.tm.ns,
                      posted := posted, held := held, nacks := 0, resend := false, msg := msg, seq := seq, pad := pad }
    let s := { s with ile := { s.ile with orig := tput s.ile.orig ix o, nextMsg := seq + 1 } }
    if held then s else txPut s e vc op deadline (some ix) pad

/-- Table entries in their order of issue. -/
def byIssue (l : Tbl Orig) : Tbl Orig := l.mergeSort fun a b => decide (a.2.seq ≤ b.2.seq)

/-- Held flagged stores go on, in their order of issue, once nothing ahead of them is unacknowledged (05 R176). -/
def releaseFlagged (s : State) : State :=
  (byIssue s.ile.orig).foldl (fun s x =>
    match tget s.ile.orig x.1 with
    | some o =>
      if o.held && !flagHeld { s with ile := { s.ile with orig := tdel s.ile.orig x.1 } } o.src o.op o.vc o.seq then
        txPut { s with ile := { s.ile with orig := tput s.ile.orig x.1 { o with held := false } } } o.egress o.vc o.op
          o.deadline (some x.1) o.pad
      else s
    | none => s) s

/-- Whether a cut holds outgoing writes now: until GO, and under STOP until DONE (08 R261, Table 8-8 C8, C11). -/
def holdsOutgoing (s : State) : Bool :=
  s.bce.cuts.any fun c => !c.2.restore && (c.2.step == .flush || c.2.step == .waitGo || fld c.2.desc 2 1 == 1)

/-- Originate a FABPORT operation; a posted one completes now (05 R177). -/
def originateFab (s : State) (h : HeldOut) : State :=
  let vc := vcOfClass s h.op.cls
  let e := routeEgress (routeOf s h.op.dest)
  let s := originate s h.src h.op vc h.who h.deadline h.posted none h.op.data.length
  if h.posted then
    match h.src with
    | .fab ch tag ep _ =>
      emits (countOutcome s (qpOfLnk e) h.op.cls false h.deadline) (fabBeats s ch tag ep 0 0#8 h.deadline [(0#576, false)])
    | _ => s
  else s

/-- Outgoing writes that a cut held go on in arrival order, as the table has room (08 R261, R265). -/
def releaseOutgoing (s : State) : State :=
  if holdsOutgoing s then s
  else s.ile.heldOut.foldl (fun s h =>
    if s.ile.heldOut.head? = some h ∧ origRoom s h.op.cls 1 then
      originateFab { s with ile := { s.ile with heldOut := s.ile.heldOut.drop 1 } } h
    else s) s

/-- Whether an operation needs FADD32, which FABRIC 1 does not have (05 R158). -/
def needsFadd (op : Nat) (data : List Byte) : Bool := op == 4 && fld data 0 1 == 11

/-- A fabric opcode at FABPORT (14 R424 to R427; 05 R175 to R178; 08 R261). -/
def fabOut (s : State) (q : FabReq) (op : Nat) (flagged fetch : Bool) (data : List Byte) : State :=
  let w := whoOf s q
  let dest := q.dest.toNat
  let cls := q.cls.toNat
  let e := routeEgress (routeOf s dest)
  if fabClosed s then s
  else match fabGate s q w (decide (w.addr % 64 = 0)) with
  | some c => fabRefuse s q none c 1
  | none =>
    let rc := routeCode s dest true
    if rc ≠ 0#8 then fabRefuse { s with ile := { s.ile with lastReason := rc } } q none rc 1
    else if portStopped s (qpOfLnk e) then fabRefuse s q (some (qpOfLnk e)) Rsn.portStopped 1
    else if noLanes s (qpOfLnk e) then fabRefuse s q (some (qpOfLnk e)) Rsn.noLanes 1
    else if needsFadd op data ∧ (lportAt s e).fabVer = 1 then
      fabRefuse { s with ile := { s.ile with lastReason := Rsn.opUnsupported } } q (some (qpOfLnk e)) Rsn.opUnsupported 1
    else
      let posted := isStoreOp op && !flagged && !fetch
      let h : HeldOut := { src := .fab q.ch q.tag q.epoch q.mid, who := w, deadline := deadlineOf s q.budget, posted := posted,
                           op := mkOp s op flagged fetch false 0 w.addr w.shelf cls w.world dest data }
      if isStoreOp op && (holdsOutgoing s || !s.ile.heldOut.isEmpty) then
        (if 256 ≤ s.ile.heldOut.length then s else { s with ile := { s.ile with heldOut := s.ile.heldOut ++ [h] } })
      else if !origRoom s cls 1 then fabRefuse s q (some 24) Rsn.queueFull 1
      else originateFab s h

/-! ### Messages (05 R184) -/

/-- Why a message cannot be sent: its route, its shape or its length (05 R175, R184, R189, R190). -/
def sendCode (s : State) (dest shape len : Nat) : Code :=
  let rc := routeCode s dest false
  let e := routeEgress (routeOf s dest)
  if rc ≠ 0#8 then rc
  else if forerunner s ∧ shape = 2 then Rsn.shapeDenied
  else if 65536 < len ∨ (0 < msgMode s e shape ∧ vcMsgMax s e 1 < len) then Rsn.msgTooLong
  else 0#8

/-- Segments of a message: (offset, true bytes, length its frame is sized for, last). -/
def segments (seg total : Nat) (b : List Byte) : Nat → Nat → List (Nat × List Byte × Nat × Bool)
  | 0, _ => []
  | n + 1, off =>
    let len := min seg (total - off)
    (off, slice b off len, len, decide (n = 0)) :: segments seg total b n (off + len)

/-- How many segments a message takes. -/
def segCount (s : State) (p : PendingSend) : Nat :=
  max 1 (ceilDiv (msgLength s (routeEgress (routeOf s p.dest)) p.shape p.bytes.length) (segMax s))

/-- Send a message: its segments in order on VC1, each with its own table entry. -/
def sendNow (s : State) (p : PendingSend) : State :=
  let e := routeEgress (routeOf s p.dest)
  let total := msgLength s e p.shape p.bytes.length
  let id := s.ile.nextMsg
  let s := { s with ile := { s.ile with nextMsg := id + 1 } }
  (segments (segMax s) total p.bytes (segCount s p) 0).foldl (fun s (g : Nat × List Byte × Nat × Bool) =>
    let op := mkOp s 5 false false g.2.2.2 p.shape (p.queue + 2 ^ 16 * (p.message % 65536) + 2 ^ 32 * g.1) p.who.shelf p.cls
      p.who.world p.dest g.2.1
    originate s p.src op 1 p.who p.deadline false (some id) g.2.2.1) s

/-- Internal messages go on, in order, while the table has room (10 R319). -/
def pumpSends (s : State) : State :=
  s.ile.sendq.foldl (fun s p =>
    match s.ile.sendq with
    | q :: r => if q = p ∧ s.ile.orig.length + segCount s p ≤ 4096 then sendNow { s with ile := { s.ile with sendq := r } } p else s
    | [] => s) s

/-- Give a message of an internal master to the ILE; it waits for entries and is never refused (10 R319). -/
def queueSend (s : State) (p : PendingSend) : State :=
  pumpSends { s with ile := { s.ile with sendq := s.ile.sendq ++ [p] } }

/-! ### The end of an originated operation (05 R177, R185 to R187; Table 5-13) -/

/-- A table entry is freed; its issue count advances at reuse. -/
def freeOrig (s : State) (ix : Nat) : State :=
  { s with ile := { s.ile with orig := tdel s.ile.orig ix, issue := tput s.ile.issue ix (dget 0 s.ile.issue ix + 1) } }

/-- Every entry of a message is freed together (05 R184). -/
def freeMessage (s : State) (msg : Nat) : State :=
  (s.ile.orig.filter fun o => o.2.msg == some msg).foldl (fun s o => freeOrig s o.1) s

/-- Fault record of a posted or flagged store that ended in error (05 R177, R186; 11 Table 11-3). -/
def storeFault (s : State) (o : Orig) (c : Code) : State := record s Flc.storeFault 2 0 4 c (some o.who) o.who.tag

/-- The answer of a completed operation at FABPORT (05 R177, Table 5-13; 11 R357). A loss is told by the next flagged store issued after the lost
one, whatever that store's own end. -/
def origFab (s : State) (o : Orig) (ch : Nat) (tag : BitVec 16) (ep mid : Word) (c : Code) (data : List Byte) : State :=
  let port := qpOfLnk o.egress
  let s := if c = 0#8 then s else if c = Hc.sliceReset then hobReason s c else { s with ile := { s.ile with lastReason := c } }
  if o.posted then
    (if c = 0#8 then s
     else storeFault { s with ile := { s.ile with lost := s.ile.lost ++ [(mid, o.op.dest, o.seq)] } } o c)
  else
    let told := fun (x : Word × Nat × Nat) => o.op.flagged && x.1 == mid && x.2.1 == o.op.dest && decide (x.2.2 < o.seq)
    let lost := s.ile.lost.any told
    let s := { s with ile := { s.ile with lost := s.ile.lost.filter fun x => !told x } }
    let c' := if lost ∨ (c = 0#8 ∧ o.op.flagged ∧ s.ile.postedLost) then Rsn.storeLost else c
    let reads := o.op.op == 1 || o.op.fetch
    let ones : Stored := if o.op.op = 1 then BitVec.ofNat 576 (2 ^ 512 - 1) else BitVec.ofNat 576 (2 ^ 64 - 1)
    let d : Stored × Bool :=
      if c' = 0#8 then (BitVec.ofNat 576 (leNat (if o.op.op = 1 then data.take 64 else data.take 8)), false)
      else if reads then ((if c' = Rsn.deadTarget ∨ c' = Hc.sliceReset then ones else 0#576), true) else (0#576, false)
    let s := if c = Rsn.deadTarget then storeFault s o c else s
    emits (countOutcome s port o.op.cls false o.deadline)
      (fabBeats s ch tag ep (if c' = 0#8 then 0 else 1) c' o.deadline [if reads then d else (0#576, false)])

/-! ### In-flight host commands (09 R288, R289) -/

/-- An engine reports the end of a host command; COMMAND_COMPLETE does the rest. A command that a HOST reset has orphaned is counted down
and its completion dropped under the old epoch (09 R305; 01 R39). -/
def endFlight (s : State) (fl result : Nat) (c : Code) (detail : List Byte) : State :=
  match tget s.hob.flight fl with
  | some f =>
    hobReason { s with hob := { s.hob with flight := tput s.hob.flight fl { f with stage := .ended, result := result, reason := c, detail := detail } } } c
  | none => countDrop { s with hob := { s.hob with orphans := s.hob.orphans - 1 } } 1

/-! ### The target (05 R180 to R183) -/

/-- LEN an operation is to carry (05 Table 5-10). -/
def lenOk (s : State) (op : FabOp) : Bool :=
  let n := op.data.length
  if op.op = 1 then n == 0
  else if op.op = 2 then n == 64
  else if op.op = 3 then n == 72
  else if op.op = 4 then n == 32
  else if op.op = 5 then decide (n ≤ segMax s)
  else if op.op = 0x10 then n == 64 || n == 16
  else if op.op = 0x11 ∨ op.op = 0x13 then n == 0
  else if op.op = 0x12 then n == 16
  else false

/-- The memory operation an arriving fabric operation makes at the IME. -/
def remoteKind (op : FabOp) : MemKind :=
  if op.op = 1 then .read else if op.op = 2 then .write else if op.op = 3 then .partial_ else .resident

/-- Whether an operation that arrived on a port is one the target supports (05 R158, R178, Table 5-10). -/
def remoteOk (s : State) (e : Nat) (op : FabOp) : Bool :=
  lenOk s op && decide (op.address % 64 = 0) && decide (op.address < 2 ^ 52)
    && (op.op != 4 || (atomicOk op.data && atomicFormOk op.data && !(needsFadd op.op op.data && (lportAt s e).fabVer == 1)))

/-- Issue one ingress entry to the IME as REMOTE, where its order and the port's entries allow; none while it has to wait
(05 R176, R180, R181; 10 R319). -/
def issueRemote (s : State) (g : Ingress) (ahead : List Ingress) : Option State :=
  let op := g.op
  if ahead.any fun a => decide (a.op.address / 64 = op.address / 64) || (op.flagged && a.op.src == op.src && a.vc == g.vc) then none
  else if !remoteOk s g.port op then some (answerError s op g.port Rsn.opUnsupported g.deadline)
  else
    let w := engWho 5 op.world none none op.shelf op.address
    let w := { w with agent := op.src, tag := op.tag }
    let k := remoteKind op
    match memGate s w k op.cls { lines := g.answers } with
    | (.error c, s, _) => some (answerError (imeReason s c) op g.port c g.deadline)
    | (.ok (ix, r), s, m) =>
      let port := memPort s (op.address / 64)
      if !portRoom s port op.cls (readCost k) (writeCost k) || holdFull s (.remote op g.port) k w ix r port then none
      else
        let data := if op.op = 3 then op.data.drop 8 else op.data
        some (settle (accept s { newEnt s (.remote op g.port) k w ix r op.cls g.deadline with
          plain := bytesLine data, mask := BitVec.ofNat 64 (if op.op = 3 then fld op.data 0 8 else 0), answers := m.lines }))

/-- Whether a port holds credits of request VCs back (05 R182). -/
def holdsCredit (s : State) (e : Nat) : Bool := (lportAt s e).held.any fun x => x.2 != 0

/-- Return one held credit: the ports take turns, lowest number first (05 R182). -/
def returnCredit (s : State) : State :=
  match (List.range 20).find? fun i => holdsCredit s ((s.ile.creditNext + i) % 20) with
  | none => s
  | some i =>
    let e := (s.ile.creditNext + i) % 20
    let p := lportAt s e
    match (List.range 8).find? fun v => dget 0 p.held v != 0 with
    | none => s
    | some v =>
      let s := setLport s e { p with held := dput 0 p.held v (dget 0 p.held v - 1), freed := dput 0 p.freed v (dget 0 p.freed v + 1) }
      { s with ile := { s.ile with creditNext := (e + 1) % 20 } }

/-- Credits held back in all. -/
def heldCredits (s : State) : Nat := (s.ile.ports.map fun p => (p.2.held.map (·.2)).sum).sum

/-- What leaving the ingress queue returns: one held credit for each entry that left, and all of them once it is below 1536 entries. -/
def returnCredits (s : State) (left : Nat) : State :=
  (List.range (if s.ile.ingress.length < 1536 then heldCredits s else left)).foldl (fun s _ => returnCredit s) s

/-- The entries of the ingress queue that go on, in arrival order. -/
def ingressPass (s : State) : State :=
  s.ile.ingress.foldl (fun s g =>
    let ahead := s.ile.ingress.takeWhile fun x => x != g
    match issueRemote s g ahead with
    | some s' => { s' with ile := { s'.ile with ingress := s'.ile.ingress.filter fun x => x != g } }
    | none => s) s

/-- Drain the ingress queue as far as it goes, in arrival order (05 R181, R182). -/
def drainIngress (s : State) : State :=
  let t := ingressPass s
  returnCredits t (s.ile.ingress.length - t.ile.ingress.length)

/-! ### The end of DESTROY (04 R118; 09 R298) -/

/-- The driver's region command ends with its code, and the REGION source rises (15 Table 15-5). -/
def regionEnd (s : State) (c : Code) : State :=
  raiseIrq { s with ime := { s.ime with cmdBusy := false, cmdCode := c, cmdWait := none } } 3

/-- Whether every request that a region closed by DESTROY had accepted is complete. -/
def regionIdle (s : State) (ix : Nat) : Bool :=
  !(s.ime.ents.any fun e => e.region == ix && e.phase != .writeReady && e.phase != .writeOut)
    && !(s.ime.blks.any fun b => b.region == ix) && !(s.ile.resident.any fun r => r.region == ix)

/-- What the IME keeps of a region goes: its root store entry, sweep, counters and what the counter cache holds of it. -/
def clearRegion (s : State) (ix : Nat) (r : Region) : State :=
  { s with ime := { s.ime with
    sweeps := s.ime.sweeps.filter (fun w => w.region != ix)
    renewed := s.ime.renewed.filter (fun x => x.1 != ix)
    dirty := s.ime.dirty.filter (fun x => x.1 != ix)
    cached := s.ime.cached.filter (fun x => x.1 != ix)
    pageHeld := s.ime.pageHeld.filter (fun x => x.1 != ix)
    ctr := tdel s.ime.ctr ix
    node := tdel s.ime.node ix
    roots := if r.mode = 3 then tdel s.ime.roots r.rootIx else s.ime.roots
    dying := s.ime.dying.filter (fun x => x.1 != ix) } }

/-- A closed region is FREE and keeps its REGION_GEN; the objects that waited for it are FREE, and the driver's command ends. -/
def closeRegion (s : State) (ix : Nat) (drv : Bool) : State :=
  let fin := fun (s : State) (c : Code) => if drv then regionEnd s c else s
  let open_ : State := { s with ime := { s.ime with dying := s.ime.dying.filter fun x => x.1 != ix } }
  match regionAt s ix with
  | none => fin open_ Rc.done
  | some r =>
    if catEnded s ix then fin open_ Rsn.counterEnd
    else
      let s := catWrite (clearRegion s ix r) ix { freeRegion with creations := r.creations }
      let gone := (s.hob.objs.filter fun o => o.2.cat == ix && o.2.state == 2 && o.2.refs == 0).map (·.1)
      fin { s with hob := { s.hob with objs := s.hob.objs.filter fun o => !gone.contains o.1 } } Rc.done

/-- Every closed region that is idle ends. -/
def finishDying (s : State) : State := s.ime.dying.foldl (fun s d => if regionIdle s d.1 then closeRegion s d.1 d.2 else s) s

/-- What follows whenever a memory operation has moved: held operations, waiting remote operations, regions that DESTROY has closed. -/
def afterMem (s : State) : State := finishDying (settle (drainIngress (settle s)))

/-! ### The fabric opcodes -/

/-- The first beat's line as bytes. -/
def reqBytes (q : FabReq) : List Byte := lineBytes (storedData (q.data.headD 0#576))

/-- FAB_LOAD (05 R175; 14 Table 14-5). -/
def execFabLoad (q : FabReq) (s : State) : Host.Outcome State Fault Refusal := .next (fabOut s q 1 false false [])

/-- FAB_STORE (05 R177). -/
def execFabStore (q : FabReq) (s : State) : Host.Outcome State Fault Refusal := .next (fabOut s q 2 false false (reqBytes q))

/-- FAB_STORE_PARTIAL (05 R177): the byte mask, then the line. -/
def execFabStorePartial (q : FabReq) (s : State) : Host.Outcome State Fault Refusal :=
  .next (fabOut s q 3 false false (leBytes 8 q.mask.toNat ++ reqBytes q))

/-- FAB_STORE_FLAGGED (05 R176). -/
def execFabStoreFlagged (q : FabReq) (s : State) : Host.Outcome State Fault Refusal := .next (fabOut s q 2 true false (reqBytes q))

/-- FAB_STORE_PARTIAL_FLAGGED (05 R176). -/
def execFabStorePartialFlagged (q : FabReq) (s : State) : Host.Outcome State Fault Refusal :=
  .next (fabOut s q 3 true false (leBytes 8 q.mask.toNat ++ reqBytes q))

/-- FAB_ATOMIC (05 R178): the first 32 bytes of the beat. -/
def execFabAtomic (q : FabReq) (s : State) : Host.Outcome State Fault Refusal := .next (fabOut s q 4 false false ((reqBytes q).take 32))

/-- FAB_ATOMIC_FETCH (05 R178). -/
def execFabAtomicFetch (q : FabReq) (s : State) : Host.Outcome State Fault Refusal := .next (fabOut s q 4 false true ((reqBytes q).take 32))

/-- FAB_RESERVED_OP: one beat, REFUSED with OP_DENIED, but a stale epoch first (14 R425, R426). -/
def execFabReservedOp (q : FabReq) (s : State) : Host.Outcome State Fault Refusal :=
  .next (if fabClosed s then s else fabRefuse s q none (if q.epoch ≠ epochOf s 0 then Rsn.resetAbort else Rsn.opDenied) 1)

end Sys2Proof.Machine
end

