-- ==== Sys2Proof/Machine/Port.lean ====
section
/-!
DEFINITION. Service at the ports: budget counters, rank, the selection of a memory port, and the commands of FABPORT and MEMPORT that move lines
(10 R311 to R316, R326; 14 R430 to R434; 04 R150 to R152).
-/
namespace Sys2Proof.Machine

/-! ### Memory ports -/

/-- Whether `x` waits for `e`: behind it on its line, or on the page it re-encrypts or copies (04 R108, R132; 08 R266; 10 R315). -/
def waitsFor (s : State) (e x : MemEnt) : Bool :=
  x.seq != e.seq
    && ((x.line == e.line && (holdPhase x.phase || x.phase == .ready || x.phase == .writeReady) && (earlierOnLine s x).any fun y => y.seq == e.seq)
      || (isOwn e && x.line / 64 == e.line / 64 && (x.phase == .pageHeld || (e.kind == .copyRead && x.phase == .lineWait))))

/-- The rank of a memory operation: its own, or that of an operation that waits for it, whichever is better (10 R315). -/
def entKey (s : State) (e : MemEnt) : List Nat :=
  let k := fun (x : MemEnt) => rankKey s e.port x.cls x.aged x.deadline x.entered x.who.tag
  ((s.ime.ents.filter (waitsFor s e)).map k).foldl (fun a b => if keyLt b a then b else a) (k e)

/-- Whether one of the IME's own operations holds one of the port's 64 entries for them (04 R107); others need none of these. -/
def ownTurn (s : State) (e : MemEnt) : Bool :=
  !isOwn e || ((s.ime.ents.filter fun x => isOwn x && x.port == e.port && !holdPhase x.phase).take 64).any fun x => x.seq == e.seq

/-- Whether an operation may be issued now: ready, first of those with a place on its line, its line not being opened (04 R107, R108). -/
def issuable (s : State) (e : MemEnt) : Bool :=
  (e.phase == .ready || e.phase == .writeReady) && ((earlierOnLine s e).all fun x => holdPhase x.phase || x.phase == .openWait) && ownTurn s e

/-- Beats charged at issue (10 Table 10-2): a merge's write is charged with its read, an atomic's load with its write-back. -/
def entBeats (e : MemEnt) : Nat :=
  if e.kind = .partial_ then 2
  else if e.kind = .resident ∨ e.kind = .cwHead then 0
  else if e.kind = .ownWrite then (if e.src = .own then (if e.mask = BitVec.allOnes 64 then 2 else 1) else 0)
  else 1

/-- Whether a memory port issues commands now (14 R431 to R434). -/
def memIssues (s : State) (p : Nat) : Bool :=
  s.pin.pwrok && memPresent s p && (memPin s p).trained && (memPin s p).init && !(memPin s p).srReq && !(domAt s (domMem p)).inReset
    && !coreDown s && !memCalStops s p

/-- Issue one operation at MEMPORT, its watchdog started (11 R339); a P3 read brings the reads of the tree lines that the cache lacks, all together (04 R131). -/
def issueEnt (s : State) (e : MemEnt) (tag : Nat) : State :=
  let w := e.phase == .writeReady
  let r := entRegion s e
  let due := s.tm.ns + 10000 * hangField s 0 8
  let s := setEnt s { e with phase := if w then .writeOut else .readOut, tag := tag, due := due }
  let s := emit s (.memCmd e.port w e.line tag (epochOf s (domMem e.port)) e.cls (if w then e.stored else 0#576))
  if w || isRaw e.kind || r.mode != 3 then s
  else
    let l := treeReads s r (missingOf s e.region r (pageOf r e.line))
    setEnt (ownReads s l e.cls) { e with phase := .readOut, tag := tag, due := due, fetches := fetchTags s l }

/-- The beats of the CCLK that are left after what the previous one spilled over. -/
def takeCarry (s : State) (q n : Nat) : Nat × State :=
  let c := dget 0 s.qos.carry q
  (n - c, { s with qos := { s.qos with carry := dput 0 s.qos.carry q (c - n) } })

/-- Keep what a charge leaves for the next CCLK. -/
def spill (s : State) (q n : Nat) : State := { s with qos := { s.qos with carry := dput 0 s.qos.carry q n } }

/-- Select and issue in rank order while beats are left (10 R313). -/
def selectMem (p : Nat) : Nat → Nat → State → State
  | 0, _, s => s
  | f + 1, left, s =>
    if left = 0 then s
    else match bestBy (entKey s) (s.ime.ents.filter fun e => e.port == p && issuable s e), (freeTags s p).head? with
      | some e, some t =>
        let b := entBeats e
        let s := issueEnt (chargePort s p e.cls b e.aged) e t
        if left < b then spill s p (b - left) else selectMem p f (left - b) s
      | _, _ => s

/-- One CCLK of RATE, in 64ths of the port group's capacity, is free for sweeps (04 R140). -/
def refillShelve (s : State) (p : Nat) : State :=
  let owed := dget 0 s.ime.shelveDebt p - groupLanes s p * bits s.ime.shelveCtrl.toNat 0 7
  { s with ime := { s.ime with shelveDebt := dput 0 s.ime.shelveDebt p owed } }

/-- One CCLK of a memory port. -/
def memSelect (s : State) (p : Nat) : State :=
  let s := refillShelve (refillPort s p) p
  if !memIssues s p then s
  else
    let (left, s) := takeCarry s p (groupLanes s p)
    selectMem p s.ime.ents.length left s

/-! ### FABPORT memory commands -/

/-- FAB_READ (04 R119; 14 R424 to R427). -/
def execFabRead (q : FabReq) (m : MemIn) (s : State) : Host.Outcome State Fault Refusal := .next (fabMem s q .read m)

/-- FAB_WRITE (04 R109). -/
def execFabWrite (q : FabReq) (cat tree : MemIn) (s : State) : Host.Outcome State Fault Refusal := .next (fabMem s q .write (catThenTree cat tree))

/-- FAB_WRITE_PARTIAL (04 R137). -/
def execFabWritePartial (q : FabReq) (m : MemIn) (s : State) : Host.Outcome State Fault Refusal := .next (fabMem s q .partial_ m)

/-- FAB_CREAD (04 R144 to R146). -/
def execFabCread (q : FabReq) (m : MemIn) (s : State) : Host.Outcome State Fault Refusal := .next (fabMem s q .cread m)

/-- FAB_CWRITE (04 R137, R144 to R146). -/
def execFabCwrite (q : FabReq) (m : MemIn) (s : State) : Host.Outcome State Fault Refusal := .next (fabMem s q .cwrite m)

/-- FAB_RAW_READ (04 R148). -/
def execFabRawRead (q : FabReq) (m : MemIn) (s : State) : Host.Outcome State Fault Refusal := .next (fabMem s q .rawRead m)

/-- FAB_RAW_WRITE (04 R148). -/
def execFabRawWrite (q : FabReq) (m : MemIn) (s : State) : Host.Outcome State Fault Refusal := .next (fabMem s q .rawWrite m)

/-! ### Answers of the controllers (14 R431; 01 R39) -/

/-- Whether a memory port takes answers now. -/
def memTakes (s : State) (p : Nat) : Bool := s.pin.pwrok && memPresent s p && (memPin s p).trained && !coreDown s

/-- MEM_READ_DATA: a stale epoch is dropped and counted; else the read it answers goes on. -/
def memRead (s : State) (p tag : Nat) (ep : Word) (a : MemAnswer) (m : MemIn) (mism : Nat) : State :=
  if !memTakes s p then s
  else if ep ≠ epochOf s (domMem p) then countDrop s (domMem p)
  else match s.ime.ents.find? fun e => e.port == p && e.phase == .readOut && e.tag == tag with
    | some e => afterMem (readArrived s e a.data a.poison m mism)
    | none => s

/-- MEM_WRITE_ACK: the write is done and leaves its queue. -/
def memAck (s : State) (p tag : Nat) (ep : Word) : State :=
  if !memTakes s p then s
  else if ep ≠ epochOf s (domMem p) then countDrop s (domMem p)
  else match s.ime.ents.find? fun e => e.port == p && e.phase == .writeOut && e.tag == tag with
    | some e => afterMem (dropEnt s e.seq)
    | none => s

/-- MEM_READ_DATA (14 R431; 04 R131, R136). -/
def execMemReadData (port tag : Nat) (epoch : Word) (a : MemAnswer) (m : MemIn) (tagMismatches : Nat) (s : State) :
    Host.Outcome State Fault Refusal := .next (memRead s port tag epoch a m tagMismatches)

/-- MEM_WRITE_ACK (14 R431). -/
def execMemWriteAck (port tag : Nat) (epoch : Word) (s : State) : Host.Outcome State Fault Refusal := .next (memAck s port tag epoch)

/-- MEM_TRAINED rises: the port is released, its counters start at their ceilings, and a port reset of it is complete (14 R432, R434;
11 Table 11-7; 10 R311). -/
def memTrain (s : State) (p : Nat) : State :=
  let v := memPin s p
  if !s.pin.pwrok || !memPresent s p || !v.init || v.trained || v.srReq then s
  else
    let s := setMemPin s p { v with trained := true, calSeenLow := !v.calReq }
    endRung (startCredits s p) 1 p

/-- MEM_TRAINED (14 R432). -/
def execMemTrained (port : Nat) (s : State) : Host.Outcome State Fault Refusal := .next (memTrain s port)

/-! ### Calibration windows of memory ports (04 R150 to R152; 14 R434) -/

/-- A request for a window joins in the order of arrival, the lowest port first of those of one moment (04 R150; log 132). -/
def putCal (w : CalWin) : List CalWin → List CalWin
  | [] => [w]
  | x :: r => if x.open_ = false ∧ (w.at_ < x.at_ ∨ (w.at_ = x.at_ ∧ w.port < x.port)) then w :: x :: r else x :: putCal w r

/-- LIMIT_US of IME_CAL_CTRL, in nanoseconds (15 Table 15-6). -/
def memCalLimit (s : State) : Nat := 1000 * bits s.ime.calCtrl.toNat 16 7

/-- MEM_CAL_REQ rises: a new request joins in arrival order. -/
def calRequest (s : State) (p : Nat) : State :=
  let v := memPin s p
  if !s.pin.pwrok || !memPresent s p || v.calReq then s
  else
    let s := setMemPin s p { v with calReq := true }
    if v.calSeenLow then { s with ime := { s.ime with cals := putCal { port := p, open_ := false, at_ := s.tm.ns, limit := memCalLimit s } s.ime.cals } } else s

/-- The window at the front of the requests is granted: none other open, nothing outstanding, no redistribution, service allowed. -/
def calGrant (s : State) (p : Nat) : State :=
  let v := memPin s p
  let busy := s.ime.ents.any fun e => e.port == p && (e.phase == .readOut || e.phase == .writeOut) || e.fetches.any fun x => x.1 == p
  if s.ime.cals.any (·.open_) || (s.ime.cals.head?.map (·.port)) != some p || busy || !s.lane.vacant.isEmpty || !v.trained
      || !v.init || v.srReq || coreDown s then s
  else
    let s := setMemPin s p { v with calGnt := true }
    lendLanes { s with ime := { s.ime with cals := s.ime.cals.map fun c => if c.port = p then { c with open_ := true, at_ := s.tm.ns } else c } } p

/-- MEM_CAL_REQ falls: the window ends, the lanes return, issue resumes. -/
def calEnd (s : State) (p : Nat) : State :=
  let v := memPin s p
  if !s.pin.pwrok || !v.calReq then s
  else
    let s := setMemPin s p { v with calReq := false, calGnt := false, calSeenLow := true }
    returnLanes { s with ime := { s.ime with cals := s.ime.cals.filter fun c => c.port != p } } p

/-- A window that is open after LIMIT_US: CAL_OVERRUN, and the port reset (04 R152). -/
def calOverrun (s : State) (p : Nat) : State :=
  if s.ime.cals.any fun c => c.port == p && c.open_ && decide (c.at_ + c.limit ≤ s.tm.ns) then startRung (recordPlain s Flc.calOverrun 1 p 5) 1 p Flc.calOverrun else s

/-- MEM_CAL_REQUEST (04 R150). -/
def execMemCalRequest (port : Nat) (s : State) : Host.Outcome State Fault Refusal := .next (calRequest s port)

/-- MEM_CAL_GRANT (04 R150, R151). -/
def execMemCalGrant (port : Nat) (s : State) : Host.Outcome State Fault Refusal := .next (calGrant s port)

/-- MEM_CAL_END (14 R434). -/
def execMemCalEnd (port : Nat) (s : State) : Host.Outcome State Fault Refusal := .next (calEnd s port)

/-- MEM_CAL_OVERRUN (04 R152). -/
def execMemCalOverrun (port : Nat) (s : State) : Host.Outcome State Fault Refusal := .next (calOverrun s port)

end Sys2Proof.Machine
end

