-- ==== Sys2Proof/Machine/Region.lean ====
section
/-!
DEFINITION. Region commands, page re-encryption and the sweeps of the IME (04 R112 to R118, R127, R132 to R134, R139 to R143; 07 R241; 08 R259).
-/
namespace Sys2Proof.Machine

/-! ### The command record (04 Tables 4-2, 4-3; 07 Table 7-6) -/

/-- Whether a release policy code is one Table 7-6 defines. -/
def releaseOk (v : Nat) : Bool :=
  let p := bits v 14 2
  bits v 6 4 == 0 && (p == 3 || bits v 10 4 == 0) && (2 ≤ p || bits v 0 6 == 0)

/-- Reserved bits, reserved encodings and the fields that the IME sets (04 Table 4-5 BAD_RECORD). -/
def recordForm (b : List Byte) : Bool :=
  let c := fld b 0x10 4
  let rt := fld b 0x14 4
  let mode := bits c 0 2
  let vol := bits c 8 3
  bits (fld b 0 8) 52 12 == 0 && bits c 2 5 == 0 && bits c 13 2 == 0 && bits c 20 12 == 0
    && [0, 1, 5].contains vol && bits c 11 2 != 3
    && bits rt 0 6 == 0 && !bit rt 13 && !bit rt 21
    && zeroBytes (slice b 0x18 16) && zeroBytes (slice b 0x30 2) && zeroBytes (slice b 0x34 12)
    && releaseOk (fld b 0x32 2)
    && (mode == 3 || fld b 0x28 8 == 0)
    && !(bits c 11 2 == 2 && mode != 2) && !(mode == 3 && vol == 1) && !(mode == 0 && bit c 15)

/-- The region a record describes, its default fields resolved with the values in effect (04 R113, R117), in an entry that was `old`. -/
def recordRegion (s : State) (old : Region) (b : List Byte) : Region :=
  let c := fld b 0x10 4
  let rt := fld b 0x14 4
  let mode := bits c 0 2
  let v := bits c 11 2
  { state := 1, base := fld b 0 8, size := fld b 8 8, mode := mode, init := bit c 7, volume := bits c 8 3,
    verify := if v = 0 then (if bit (globCtl s) 6 ∧ mode = 2 then 2 else 1) else v, compress := bit c 15,
    rawRead := bit c 16, rawWrite := bit c 17, shape := if bits c 18 2 = 3 then bits (globCtl s) 8 2 else bits c 18 2, renew := false,
    lcs := BitVec.ofNat 6 (bits rt 26 6), world := BitVec.ofNat 4 (bits rt 22 4), rd := BitVec.ofNat 8 (bits rt 14 8),
    wr := BitVec.ofNat 8 (bits rt 6 8), creations := old.creations + 1, baseGen := 0, sweepPtr := 0, treeOff := fld b 0x28 8,
    rootIx := 0, release := fld b 0x32 2, snap := 0, snapPtr := 0 }

/-- Whether byte ranges share a byte. -/
def rangesMeet (a n b m : Nat) : Bool := decide (a < b + m) && decide (b < a + n)

/-- Whether a region meets a live region of its tenant, or its tree meets the catalogue's or a live P3 region's (04 Table 4-5 OVERLAP,
R127). -/
def regionMeets (s : State) (ix : Nat) (r : Region) : Bool :=
  let live := s.ime.cat.filter fun x => x.2.state != 0
  (live.any fun x => x.1 / 4096 == ix / 4096 && rangesMeet r.base r.size x.2.base x.2.size)
    || (r.mode == 3 && (rangesMeet r.treeOff (treeSize r) 0 (treeSize (catRegion s))
      || live.any fun x => x.2.mode == 3 && rangesMeet r.treeOff (treeSize r) x.2.treeOff (treeSize x.2)))

/-- The free root store entry with the lowest number (04 R128). -/
def freeRoot (s : State) : Option Nat := freeIndex s.ime.roots 0 256

/-- The checks of CREATE in the order of Table 4-5, after BAD_RECORD. -/
def createChecks (s : State) (ix : Nat) (old r : Region) : Code :=
  if catEntries s ≤ ix then Rc.regionAbsent
  else if old.state ≠ 0 then Rc.inUse
  else if r.size = 0 then Rc.zeroSize
  else if r.base % 4096 ≠ 0 ∨ r.size % 4096 ≠ 0 ∨ r.treeOff % 4096 ≠ 0 then Rc.alignment
  else if (if r.mode = 3 then 2 ^ 36 else 2 ^ 40) < r.size ∨ (r.mode = 3 ∧ treeBytes s < r.treeOff + treeSize r) ∨ 0xFFFF ≤ old.creations then
    Rc.limit
  else if rangesMeet r.base r.size (catBase s) (catBytes s) ∨ rangesMeet r.base r.size (treeBase s) (treeBytes s) then Rc.carveOut
  else if regionMeets s ix r then Rc.overlap
  else if !bit (globCtl s) (2 + r.mode) ∨ (forerunner s ∧ (r.mode = 3 ∨ r.verify = 2 ∨ r.shape = 1)) then Rc.modeNotPermitted
  else if r.mode = 3 ∧ (freeRoot s).isNone then Rc.rootsFull
  else if r.mode ≠ 0 ∧ (slotFor s (ix / 4096) r.volume).isNone then Rc.keyAbsent
  else if r.mode ≠ 0 ∧ s.ime.createLimit = 1 then Rc.storeFailed
  else if r.mode ≠ 0 ∧ s.ime.createLimit = 2 then Rc.formatExhausted
  else Rc.done

/-- The counter tree of a new P3 region, its root store entry taken (04 R127, R128). -/
def buildTree (s : State) (ix : Nat) (r : Region) : State :=
  writeWholeTree { s with ime := { s.ime with ctr := tdel s.ime.ctr ix, node := tdel s.ime.node ix,
                                              roots := tput s.ime.roots r.rootIx { owner := ix, cnt := [] } } } ix r

/-- INIT: every line is written with zero plaintext, as one of the IME's own writes (04 R117 step 5). -/
def initLines (s : State) (ix : Nat) (r : Region) : State :=
  (List.range (r.size / 64)).foldl (fun s i =>
    let line := r.base / 64 + i
    accept s { newEnt s .own .ownWrite (ownWho line) ix r (bits s.qos.ctrl.toNat 0 4) none with answered := true }) s

/-- CREATE of the region a record describes: its result, and the state (04 R116, R117). An entry whose line fails verification answers
REGION_ABSENT (11 R353), and one whose page is exhausted COUNTER_END (04 R133). -/
def regionCreate (s : State) (ix : Nat) (b : List Byte) (m : MemIn) : Code × State :=
  if !recordForm b then (Rc.badRecord, s)
  else
    let (v, s, _) := catLook s ix 0 m
    let old := entryAt s ix
    let r := recordRegion s old b
    let c := if v = 0#8 then createChecks s ix old r else Rc.regionAbsent
    if c ≠ Rc.done then (c, s)
    else if catEnded s ix then (Rsn.counterEnd, s)
    else
      let gen := if r.mode = 0 then 0 else (((slotFor s (ix / 4096) r.volume).bind (slotAt s)).map (·.genCur)).getD 0
      let r : Region := { r with baseGen := gen, rootIx := if r.mode = 3 then (freeRoot s).getD 0 else 0 }
      let s := if r.mode = 3 then buildTree s ix r else s
      let s := if r.init then initLines s ix r else s
      (Rc.done, catWrite s ix r)

/-- The entry of a DESTROY or SET_RIGHTS: its line read and verified, or the code that ends the command (04 Table 4-5, R118, R133; 11 R353). -/
def liveEntry (s : State) (ix : Nat) (m : MemIn) : Except Code Region × State × MemIn :=
  let (v, s, m) := catLook s ix 0 m
  if v ≠ 0#8 ∨ (s.ime.dying.any fun d => d.1 == ix) then (.error Rc.regionAbsent, s, m)
  else match regionAt s ix with
    | none => (.error Rc.regionAbsent, s, m)
    | some r => (if catEnded s ix then .error Rsn.counterEnd else .ok r, s, m)

/-- DESTROY: its result, and the state. Where DONE, the region takes no request from now on, and it ends once those accepted earlier are complete
(`finishDying`); `drv`: the driver's command, which is BUSY till then (04 R118; 08 R259). -/
def regionDestroy (s : State) (ix : Nat) (drv : Bool) (m : MemIn) : Code × State × MemIn :=
  match liveEntry s ix m with
  | (.error c, s, m) => (c, s, m)
  | (.ok r, s, m) =>
    if snapState r ≠ 0 then (Rc.busy, s, m)
    else
      let s := (s.ile.resident.filter fun x => x.region == ix).foldl (fun s x => writeBack s x none) s
      (Rc.done, { s with ime := { s.ime with dying := s.ime.dying ++ [(ix, drv)], cmdBusy := s.ime.cmdBusy || drv } }, m)

/-- SET_RIGHTS: RIGHTS and RELEASE of the record replace the entry's (04 Table 4-4). -/
def regionRights (s : State) (ix : Nat) (b : List Byte) (m : MemIn) : Code × State :=
  if !recordForm b then (Rc.badRecord, s)
  else match liveEntry s ix m with
    | (.error c, s, _) => (c, s)
    | (.ok r, s, _) =>
      let n := recordRegion s r b
      (Rc.done, catWrite s ix { r with lcs := n.lcs, world := n.world, rd := n.rd, wr := n.wr, release := n.release })

/-! ### Region commands of the driver (04 R112, R115; 15 R460) -/

/-- Run a region command: OP 1 CREATE, 2 DESTROY, 3 SET_RIGHTS, any other BAD_RECORD; a refused or poisoned record read ends it with the
read's reason (15 R454). -/
def regionRun (s : State) (op ix : Nat) (m : MemIn) : Code × State :=
  if op = 2 then
    let (c, s, _) := regionDestroy s ix true m
    (c, s)
  else if op = 1 ∨ op = 3 then
    match ctlRead s s.ime.cmdShelf.toNat s.ime.cmdAddr.toNat 64 m with
    | (.error c, s, _) => (c, s)
    | (.ok b, s, m) => if op = 1 then regionCreate s ix b m else regionRights s ix b m
  else (Rc.badRecord, s)

/-- A region command of the driver runs: a DESTROY that is taken ends with its region, any other command now. -/
def regionDo (s : State) (op ix : Nat) (m : MemIn) : State :=
  let (c, s) := regionRun s op ix m
  afterMem (if op = 2 ∧ c = Rc.done then s else regionEnd s c)

/-- A write of IME_REGION_CMD: ignored while BUSY; it waits until the catalogue is formatted (04 R112). -/
def regionCmd (s : State) (op ix : Nat) (m : MemIn) : State :=
  if s.ime.cmdBusy then ignoreWrite s (0x2008 / 4)
  else
    let s := { s with ime := { s.ime with cmdOp := op, cmdIndex := ix } }
    if !s.ime.formatted then { s with ime := { s.ime with cmdBusy := true, cmdWait := some (op, ix) } }
    else regionDo s op ix m

/-- The commands that waited for formatting run: a record under a shelfmark finds every entry FREE (04 R112). -/
def regionWaited (s : State) : State :=
  match s.ime.cmdWait with
  | none => s
  | some (op, ix) => regionDo { s with ime := { s.ime with cmdWait := none } } op ix { lines := [] }

/-- CATALOGUE_FORMAT: once all memory ports have trained and slot 2 is filled (04 R112). -/
def catalogueFormat (s : State) (flashOk : Bool) : State :=
  if !s.ime.formatDue || (slotAt s 2).isNone || coreDown s || !((memPortsOf s).all fun p => (memPin s p).trained) then s
  else regionWaited (formatCat s flashOk)

/-! ### Page re-encryption (04 R132, R133) -/

/-- Whether any line of a page is still on its way to being known. -/
def pageBusy (s : State) (ix : Nat) (r : Region) (page : Nat) : Bool :=
  s.ime.ents.any fun e => e.region == ix && pageOf r e.line == page && unmerged e

/-- Read a line for the IME's own use: a queued write, else what memory answers. -/
def ownLine (s : State) (line : Nat) (m : MemIn) : MemAnswer × Option (Nat × Nat) × MemIn :=
  match lastWrite s line with
  | some w => ({ data := w.stored, poison := false }, some (w.major, w.minor), m)
  | none => let (a, m) := takeLine m; (a, none, m)

/-- Open a line for the IME's own use at counters: its plaintext, or the reason it fails. -/
def ownOpen (s : State) (ix : Nat) (r : Region) (slot line : Nat) (cs : Nat × Nat) (a : MemAnswer) : Except Code Line :=
  if a.poison then .error Rsn.memPoison
  else match openLine s ix r slot line cs.1 cs.2 a.data with
    | .error c => .error c
    | .ok (p, ok) => if ok then .ok p else .error Rsn.sealFail

/-- A fault record of a line the IME itself found failing (04 R132, R141). -/
def ownFault (s : State) (ix line : Nat) (c : Code) : State :=
  let cl := if c = Rsn.treeFail then Flc.treeFail else if c = Rsn.memPoison then Flc.memPoison else Flc.sealFail
  record s cl 1 0 4 c (some { ownWho line with shelf := ix / 4096 * 2 ^ 15 + ix % 4096 }) 0

/-- The held accesses of a page go on (04 R132 step 7). -/
def releasePage (s : State) (ix page : Nat) : State :=
  afterMem { s with ime := { s.ime with pageHeld := s.ime.pageHeld.filter (fun x => x != (ix, page)) } }

/-- Mark a page renewed (04 R134). -/
def markRenewed (s : State) (ix : Nat) (r : Region) (page : Nat) : State :=
  if r.renew && !s.ime.renewed.contains (ix, page) then { s with ime := { s.ime with renewed := s.ime.renewed ++ [(ix, page)] } } else s

/-- The lines of a page that a read of the whole page takes from memory. -/
def pageReads (s : State) (first : Nat) : List Nat := ((List.range 64).map (first + ·)).filter fun l => (lastWrite s l).isNone

/-- Beats of a sweep that RATE has to make room for (04 R140). -/
def payShelve (s : State) (on : Bool) (lines : List Nat) : State :=
  if !on then s
  else { s with ime := { s.ime with shelveDebt := lines.foldl (fun d l => dput 0 d (memPort s l) (dget 0 d (memPort s l) + 64)) s.ime.shelveDebt } }

/-- Reads of the IME's own, those of a sweep paced by RATE. -/
def shelveReads (s : State) (lines : List Nat) (cls : Nat) (paced : Bool) : State := payShelve (ownReads s lines cls) paced lines

/-- The working keys of a page's lines under two halves. -/
def pageHandles (s : State) (ix : Nat) (r : Region) (slot h h' : Nat) : List KeyHandle :=
  lineHandles s ix r slot h ++ (if h = h' then [] else lineHandles s ix r slot h')

/-- The lines of a page pass the lanes of their ports (01 R17, R23). -/
def passLines (s : State) (lines : List Nat) (hs : List KeyHandle) : Bool × State :=
  ((lines.map (memPort s)).dedup).foldl (fun a p => let x := lanePass a.2 p hs none 0; (a.1 && x.1, x.2)) (true, s)

/-- The 64 lines of a page in order as they read, each opened under its own counters and generation; and the answers that are left. -/
def readPage (s : State) (ix : Nat) (r : Region) (slot : Nat) (c : CtrLine) (first : Nat) :
    Nat → Nat → MemIn → List (Nat × Except Code Line) × MemIn
  | 0, _, m => ([], m)
  | n + 1, i, m =>
    let (a, q, m) := ownLine s (first + i) m
    let x := (i, ownOpen s ix r slot (first + i) (q.getD (c.major, dget 0 c.minors i)) a)
    let (l, m) := readPage s ix r slot c first n (i + 1) m
    (x :: l, m)

/-- Re-encrypt one line of a page under its new counters, ahead of what waits on it; a failing line stays as it is, counted and recorded. -/
def rewriteLine (ix : Nat) (r : Region) (slot half major first cls : Nat) (acc : State × List Nat) (x : Nat × Except Code Line) :
    State × List Nat :=
  let (s, failed) := acc
  match x.2 with
  | .error c => (ownFault s ix (first + x.1) c, failed ++ [first + x.1])
  | .ok p =>
    match sealLine s ix r slot half (first + x.1) major 0 p with
    | some d =>
      (pushPast s { newEnt s .own .ownWrite (ownWho (first + x.1)) ix r cls none with
        stored := d, phase := .writeReady, answered := true, major := major, minor := 0, cutOk := true }, failed)
    | none => (s, failed ++ [first + x.1])

/-- Page re-encryption, its counter line known: steps 1 to 6 of R132, and the lines that failed; none where a beat fails twice, and the page is taken
again (log 144). At the last major count nothing is re-encrypted and writes of the page are refused from then on (R133). `paced`: by a sweep. -/
def reencrypt (s : State) (ix : Nat) (r : Region) (page slot : Nat) (v : Slot) (cls : Nat) (paced : Bool) (m : MemIn) :
    Option (List Nat) × State × MemIn :=
  let c := ctrOf s ix r page
  let half := curHalf v
  let change := c.parity != (half == 1)
  if !change ∧ c.major % 2 ^ 32 = 0xFFFFFFFF then (some [], dirtyCtr s ix r page { c with ended := true }, m)
  else
    let major := if change then regionGen s r * 2 ^ 32 else c.major + 1
    let first := r.base / 64 + 64 * page
    let all := (List.range 64).map (first + ·)
    let (ls, rest) := readPage s ix r slot c first 64 0 m
    let s := shelveReads s (pageReads s first) cls paced
    let (ok, s) := passLines s all (pageHandles s ix r slot (b2n c.parity) half)
    if !ok then (none, s, rest)
    else
      let (s, failed) := ls.foldl (rewriteLine ix r slot half major first cls) (s, [])
      let s := payShelve s paced (all.filter fun l => !failed.contains l)
      let s := countBlocks s slot half r.volume (4 * (64 - failed.length))
      let s := setCtr s ix page { major := major, minors := [], parity := half == 1, ended := false }
      let s := writeCtr (touchCtr s ix page) ix r page cls
      let s := if !change ∧ major % 2 ^ 32 = 0xF0000000 then record s Flc.keyExhausted 1 0 0 Rsn.keyExhausted
          (some { ownWho first with shelf := ix / 4096 * 2 ^ 15 + ix % 4096 }) slot else s
      (some failed, s, rest)

/-- Whether a calibration window stops the service of a page's lines (04 R151). -/
def pageStopped (s : State) (first : Nat) : Bool := (List.range 64).any fun i => memCalStops s (memPort s (first + i))

/-- The accesses that a page holds end as ones whose tree line failed (04 R131). -/
def failPage (s : State) (ix : Nat) (r : Region) (page : Nat) : State :=
  { s with ime := { s.ime with ents := s.ime.ents.map fun e =>
    if e.phase = .pageHeld ∧ e.region = ix ∧ pageOf r e.line = page then { e with fail := Rsn.treeFail } else e } }

/-- PAGE_REENCRYPT: a page that holds accesses is re-encrypted once its lines are known, and the accesses go on; a counter line that fails
refuses them (04 R131, R132). -/
def pageReencrypt (s : State) (ix page : Nat) (m : MemIn) : State :=
  let held := s.ime.ents.find? fun e => e.phase == .pageHeld && e.region == ix && pageOf e.reg e.line == page
  match (anyRegion s ix).or (held.map (·.reg)) with
  | none => releasePage s ix page
  | some r =>
    if !s.ime.pageHeld.contains (ix, page) || coreDown s || pageBusy s ix r page || pageStopped s (r.base / 64 + 64 * page) then s
    else match (regionSlot s ix r).bind fun i => (slotAt s i).map fun v => (i, v) with
      | none => releasePage s ix page
      | some (slot, v) =>
        if (halfKey s slot (curHalf v)).isNone then releasePage s ix page
        else
          let cls := ((s.ime.ents.find? fun e => e.phase == .pageHeld && e.region == ix && pageOf r e.line == page).map (·.cls)).getD 0
          let (ok, s, m) := fetchPath s ix r page cls m
          if !ok then releasePage (failPage s ix r page) ix page
          else match reencrypt s ix r page slot v cls false m with
            | (none, s, _) => s
            | (some _, s, _) => releasePage (markRenewed s ix r page) ix page

/-! ### Sweeps (04 R139 to R143) -/

/-- PREV_USERS of a slot: its P1 to P3 regions below GEN_CUR while PREV_LIVE is set (04 R139). -/
def prevUsers (s : State) (slot : Nat) : Nat :=
  match slotAt s slot with
  | none => 0
  | some v =>
    if !v.prevLive then 0
    else (s.ime.cat.filter fun x => x.2.state != 0 && x.2.mode != 0 && decide (x.2.baseGen < v.genCur)
      && (regionSlot s x.1 x.2 == some slot)).length

/-- ACTIVATE of a DOMAIN slot: re-shelving begins in every live P1 to P3 region of the tenant with VOLUME 0 or 1 (04 R140). -/
def startShelving (s : State) (tenant : Nat) : State :=
  (s.ime.cat.filter fun x => x.2.state != 0 && x.2.mode != 0 && x.1 / 4096 == tenant && decide (x.2.volume ≤ 1)).foldl (fun s x =>
    match regionAt s x.1 with
    | some r => catWrite { s with ime := { s.ime with sweeps := s.ime.sweeps.filter (fun w => w.region != x.1) } } x.1
        { r with state := 2, sweepPtr := 0 }
    | none => s) s

/-- Regions that wait for a sweep, in index order; the catalogue's own goes first (04 R134, R140; log 149). -/
def sweepWaiting (s : State) : List Nat :=
  let waits := fun (ix st : Nat) => (st == 2 || st == 3) && !(s.ime.sweeps.any fun w => w.region == ix)
  (if waits catIx s.ime.catSt then [catIx] else []) ++ (s.ime.cat.filter fun x => waits x.1 x.2.state).map (·.1)

/-- The sweep of a region, started where it is the next and fewer than 8 run; it goes on from the recorded SWEEP_PTR, and its counts start anew
(04 R140, R143; log 150). -/
def sweepOf (s : State) (ix : Nat) (r : Region) : Option Sweep :=
  match s.ime.sweeps.find? fun w => w.region == ix with
  | some w => some w
  | none =>
    if s.ime.sweeps.length < 8 ∧ (sweepWaiting s).head? = some ix then
      some { region := ix, renew := r.renew, ptr := if r.state = 3 then 0 else r.sweepPtr, skipped := 0, failed := [],
             verifying := r.state == 3 }
    else none

/-- Keep a sweep's progress. -/
def putSweep (s : State) (w : Sweep) : State :=
  { s with ime := { s.ime with sweeps := (s.ime.sweeps.filter fun x => x.region != w.region) ++ [w] } }

/-- A line added to FAILED once, with its fault (04 R141, R142). -/
def failLine (s : State) (w : Sweep) (ix line : Nat) (c : Code) : State × Sweep :=
  (ownFault s ix line c, if w.failed.contains line then w else { w with failed := w.failed ++ [line] })

/-- One line of a P1 or P2 sweep: skipped at the current parity, failed, or re-encrypted under the current half. -/
def sweepLine (s : State) (w : Sweep) (ix : Nat) (r : Region) (slot : Nat) (v : Slot) (m : MemIn) : State × Sweep × MemIn :=
  let line := r.base / 64 + w.ptr
  let cls := shelveClass s
  let (a, _, m) := ownLine s line m
  let s := shelveReads s ([line].filter fun l => (lastWrite s l).isNone) cls true
  let half := curHalf v
  let next := fun (w : Sweep) => { w with ptr := w.ptr + 1 }
  if !w.verifying && !a.poison && storedParity a.data == (half == 1) then (s, next { w with skipped := w.skipped + 1 }, m)
  else
    let (ok, s) := lanePass s (memPort s line) (pageHandles s ix r slot (b2n (storedParity a.data)) half) none 0
    if !ok then (s, w, m)
    else match ownOpen s ix r slot line (0, 0) a with
    | .error c => let (s, w) := failLine s w ix line c; (s, next w, m)
    | .ok p =>
      if storedParity a.data = (half == 1) then (s, next w, m)
      else match sealLine s ix r slot half line 0 0 p with
        | none => let (s, w) := failLine s w ix line Rsn.keyRevoked; (s, next w, m)
        | some d =>
          let s := pushPast s { newEnt s .own .ownWrite (ownWho line) ix r cls none with
            stored := d, phase := .writeReady, answered := true, cutOk := true }
          (payShelve (countBlocks s slot half r.volume 4) true [line], next w, m)

/-- The tree lines that the verify pass takes with a page: its counter line, and the nodes that begin there (04 R142). -/
def treeAt (r : Region) (page : Nat) : List (Nat × Nat) :=
  ((List.range (treeLevels r).length).filter fun k => page % 8 ^ k == 0).map fun k => (k, page / 8 ^ k)

/-- Check one tree line in the verify pass, as it is in memory: a failing one is added to FAILED once, one that verifies at the old parity is tagged anew
in place (04 R142). A line no answer is brought for is as the block last wrote it (log 9). -/
def verifyTree (ix : Nat) (r : Region) (half : Nat) (acc : State × Sweep × MemIn) (x : Nat × Nat) : State × Sweep × MemIn :=
  let (s, w, m) := acc
  let line := treeLine s r x.1 x.2
  let retag := fun (s : State) => if x.1 = 0 then s else payShelve (writeTree s ix r x.1 x.2 (shelveClass s)) true [line]
  match lastWrite s line with
  | some q => (if storedParity q.stored = (half == 1) then s else retag s, w, m)
  | none =>
    let s := shelveReads s [line] (shelveClass s) true
    match m.lines with
    | [] => (touchTree (retag s) (ix, x.1, x.2), w, m)
    | a :: rest =>
      if !treeGood s ix r x.1 x.2 a then let (s, w) := failLine s w ix line Rsn.treeFail; (s, w, { m with lines := rest })
      else
        let s := if storedParity a.data = (half == 1) then s else retag s
        (if treeCached s ix x.1 x.2 then s else touchTree s (ix, x.1, x.2), w, { m with lines := rest })

/-- Check the 64 lines of a page in the verify pass. -/
def verifyPage (s : State) (w : Sweep) (ix : Nat) (r : Region) (slot page : Nat) (m : MemIn) : State × Sweep × MemIn :=
  let first := r.base / 64 + 64 * page
  let c := ctrOf s ix r page
  let (ls, rest) := readPage s ix r slot c first 64 0 m
  let s := shelveReads s (pageReads s first) (shelveClass s) true
  let (ok, s) := passLines s ((List.range 64).map (first + ·)) (pageHandles s ix r slot (b2n c.parity) (b2n c.parity))
  if !ok then (s, w, rest)
  else
    let (s, w) := ls.foldl (fun (acc : State × Sweep) x =>
      match x.2 with
      | .error e => failLine acc.1 acc.2 ix (first + x.1) e
      | .ok _ => acc) (s, w)
    (s, { w with ptr := w.ptr + 64 }, rest)

/-- One page of a P3 sweep: skipped, failed with its tree line, re-encrypted, or checked. -/
def sweepPage (s : State) (w : Sweep) (ix : Nat) (r : Region) (slot : Nat) (v : Slot) (m : MemIn) : State × Sweep × MemIn :=
  let page := w.ptr / 64
  let first := r.base / 64 + 64 * page
  let next := fun (w : Sweep) => { w with ptr := w.ptr + 64 }
  let (s, w, m) := if w.verifying then (treeAt r page).foldl (verifyTree ix r (curHalf v)) (s, w, m) else (s, w, m)
  let lost := (missingOf s ix r page).any fun x => w.failed.contains (treeLine s r x.1 x.2)
  let (ok, s, m) := if lost then (false, s, m) else fetchPath s ix r page (shelveClass s) m
  if !ok then
    let (s, w) := (List.range 64).foldl (fun (acc : State × Sweep) i => failLine acc.1 acc.2 ix (first + i) Rsn.treeFail) (s, w)
    (s, next w, m)
  else
    let current := (ctrOf s ix r page).parity == (curHalf v == 1)
    if current && !renewDue s ix r page then
      (if w.verifying then verifyPage s w ix r slot page m else (s, next { w with skipped := w.skipped + 64 }, m))
    else match reencrypt s ix r page slot v (shelveClass s) true m with
      | (none, s, m) => (s, w, m)
      | (some failed, s, m) =>
        let w := { w with failed := w.failed ++ failed.filter fun l => !w.failed.contains l }
        (releasePage (markRenewed s ix r page) ix page, next w, m)

/-- One line or page of a sweep, whichever pass it is in. -/
def sweepOne (s : State) (w : Sweep) (ix : Nat) (r : Region) (m : MemIn) : State × Sweep × MemIn :=
  match (regionSlot s ix r).bind fun i => (slotAt s i).map fun v => (i, v) with
  | none => let (s, w) := failLine s w ix (r.base / 64 + w.ptr) Rsn.keyRevoked; (s, { w with ptr := w.ptr + 1 }, m)
  | some (slot, v) => if r.mode = 3 then sweepPage s w ix r slot v m else sweepLine s w ix r slot v m

/-- Whether the line or page a sweep stands at may be taken now: service of its port, no window, the rate kept, nothing unknown on it
(04 R140, R143, R151). -/
def sweepReady (s : State) (w : Sweep) (r : Region) : Bool :=
  let line := r.base / 64 + w.ptr
  !coreDown s && !(if r.mode = 3 then pageStopped s line else memCalStops s (memPort s line)) && dget 0 s.ime.shelveDebt (memPort s line) == 0
    && decide (w.ptr < r.size / 64)
    && !(s.ime.ents.any fun e => e.region == w.region && unmerged e && (e.line == line || (r.mode == 3 && pageOf r e.line == w.ptr / 64)))

/-- What a sweep changes of its region's entry: STATE, SWEEP_PTR, and at its end BASE_GEN and RENEW; the catalogue's own are the IME's (04 R134, R141). -/
def sweepEntry (s : State) (ix : Nat) (r : Region) : State :=
  if ix = catIx then { s with ime := { s.ime with catSt := r.state, catPtr := r.sweepPtr, catRenew := r.renew } } else catWrite s ix r

/-- Keep a sweep's place: SWEEP_PTR reaches the catalogue every 4096 lines, and at the end of the region the state becomes VERIFYING
(04 R141, R142). -/
def sweepKept (s : State) (w : Sweep) (ix : Nat) : State :=
  match anyRegion s ix with
  | none => s
  | some r =>
    if w.verifying then putSweep s w
    else if r.size / 64 ≤ w.ptr then
      sweepEntry (putSweep s { w with ptr := 0, verifying := true }) ix { r with state := 3, sweepPtr := w.ptr }
    else if w.ptr % 4096 = 0 then sweepEntry (putSweep s w) ix { r with sweepPtr := w.ptr }
    else putSweep s w

/-- SWEEP_STEP: the next line or page of a region's sweep. -/
def sweepStep (s : State) (ix : Nat) (m : MemIn) : State :=
  match anyRegion s ix with
  | none => s
  | some r =>
    match sweepOf s ix r with
    | none => s
    | some w =>
      if !sweepReady s w r then s
      else
        let (s, w, _) := sweepOne s w ix r m
        afterMem (sweepKept s w ix)

/-- What is left of a verify pass, as far as it may go now. -/
def verifyRest (ix : Nat) (r : Region) : Nat → State → Sweep → MemIn → State × Sweep
  | 0, s, w, _ => (s, w)
  | n + 1, s, w, m =>
    if !sweepReady s w r then (s, w)
    else
      let (s, w, m) := sweepOne s w ix r m
      verifyRest ix r n s w m

/-- Pages whose counter line still stands as CREATE built it keep its generation when BASE_GEN changes (04 R127). -/
def keepBase (s : State) (ix : Nat) (r : Region) : State :=
  if r.mode ≠ 3 then s
  else ((List.range (pagesOf r)).filter fun p => (tget (dget [] s.ime.ctr ix) p).isNone).foldl (fun s p => setCtr s ix p (ctrOf s ix r p)) s

/-- SWEEP_VERIFY_DONE: what is left of the pass, then BASE_GEN = GEN_CUR and SETTLED; a renewal is over (04 R134, R142). -/
def sweepVerifyDone (s : State) (ix : Nat) (m : MemIn) : State :=
  match anyRegion s ix with
  | none => s
  | some r =>
    match sweepOf s ix r with
    | none => s
    | some w =>
      if !w.verifying then s
      else
        let (s, w) := verifyRest ix r (r.size / 64) s w m
        if w.ptr < r.size / 64 then afterMem (putSweep s w)
        else
          let gen := (((regionSlot s ix r).bind (slotAt s)).map (·.genCur)).getD r.baseGen
          let r := (anyRegion s ix).getD r
          let s := if gen = r.baseGen then s else keepBase s ix r
          let s := { s with ime := { s.ime with sweeps := s.ime.sweeps.filter (fun x => x.region != ix),
                                                renewed := s.ime.renewed.filter (fun x => x.1 != ix) } }
          afterMem (sweepEntry s ix { r with state := 1, baseGen := gen, renew := false })

/-! ### The commands -/

/-- CREATE (04 R115 to R117). -/
def execCreate (index : BitVec 21) (m : MemIn) (s : State) : Host.Outcome State Fault Refusal :=
  .next (ctlWriteBy s 0x2008 fun s => regionCmd s 1 index.toNat m)

/-- DESTROY (04 R118). -/
def execDestroy (r : RegionNamed) (s : State) : Host.Outcome State Fault Refusal :=
  .next (ctlWriteBy s 0x2008 fun s => regionCmd s 2 r.index.toNat r.m)

/-- SET_RIGHTS (04 R115). -/
def execSetRights (index : BitVec 21) (m : MemIn) (s : State) : Host.Outcome State Fault Refusal :=
  .next (ctlWriteBy s 0x2008 fun s => regionCmd s 3 index.toNat m)

/-- PAGE_REENCRYPT (04 R132). -/
def execPageReencrypt (index page : Nat) (m : MemIn) (s : State) : Host.Outcome State Fault Refusal := .next (pageReencrypt s index page m)

/-- SWEEP_STEP (04 R141). -/
def execSweepStep (index : Nat) (m : MemIn) (s : State) : Host.Outcome State Fault Refusal := .next (sweepStep s index m)

/-- SWEEP_VERIFY_DONE (04 R142). -/
def execSweepVerifyDone (index : Nat) (m : MemIn) (s : State) : Host.Outcome State Fault Refusal := .next (sweepVerifyDone s index m)

end Sys2Proof.Machine
end

