-- ==== Sys2Proof/Machine/KeyOps.lean ====
section
/-!
DEFINITION. Key services' own work: geode regeneration and enrolment, the entropy source and the DRBG, the block's own slots, derivations and
the mask refresh (03 R77 to R80, R86, R98 to R101, R111; 12 R363).
-/
namespace Sys2Proof.Machine

/-! ### The PUF and its helper record (03 R77 to R80) -/

/-- Bytes 0x000 to 0xA1F of a helper record (03 Table 3-7). -/
def helperBody (h : Helper) : List Byte :=
  leBytes 4 0x47555046 ++ leBytes 2 1 ++ zeros 2 ++ leBytes 8 h.serial ++ leBytes 8 h.kcv.toNat
    ++ leBytes 2560 h.offset.toNat ++ zeros 8

/-- The record's MAC under the HELPER_MAC key. -/
def helperMac (s : State) (h : Helper) : Option (BitVec 128) := (platKey s 0x0104 256 0).map fun k => cmac (keyOf k) (helperBody h)

/-- The key check value of a geode root (03 Table 3-7 KCV). -/
def geodeKcv (root : BitVec 256) : BitVec 64 :=
  (Config.aesEnc (keyOf (kdf root (rootHandle 0x0203 256 0) 2)) 0#128).extractLsb' 0 64

/-- The majority of the 5 bits of group `k` (03 R78 step 3). -/
def majority5 (x : BitVec 20460) (k : Nat) : Bool := decide (3 ≤ countFive x (5 * k) 5)
where
  /-- Set bits among `n` from bit `i` on. -/
  countFive (x : BitVec 20460) (i : Nat) : Nat → Nat
    | 0 => 0
    | n + 1 => b2n (x.getLsbD i) + countFive x (i + 1) n

/-- Codeword `j` of the array bits after the offset (03 R78 steps 2 to 4). -/
def codeword (x : BitVec 20460) (j : Nat) : BitVec 1023 :=
  BitVec.ofNat 1023 ((List.range 1023).foldl (fun a k => a + b2n (majority5 x (1023 * j + k)) * 2 ^ k) 0)

/-- The 2052 message bits of the four codewords, or none where one is not decodable. DESIGN CHOICE (log 151): codeword 0 lowest, each codeword's first bit
lowest; the spec does not order them. -/
def pufMessage (x : BitVec 20460) : Option (BitVec 2052) :=
  match Config.bchDecode (codeword x 0), Config.bchDecode (codeword x 1), Config.bchDecode (codeword x 2), Config.bchDecode (codeword x 3) with
  | some a, some b, some c, some d => some (d ++ c ++ b ++ a)
  | _, _, _, _ => none

/-- The geode root of a message: SHA-384 over 0x47 and its 257 bytes (03 R78 steps 5, 6). -/
def geodeOf (m : BitVec 2052) : BitVec 256 := sha256of (0x47#8 :: leBytes 257 m.toNat)

/-- The code bits of a message, each repeated 5 times (03 R80 step 2). -/
def repeatedCode (m : BitVec 2052) : BitVec 20460 :=
  let cw := fun j => Config.bchEncode (m.extractLsb' (513 * j) 513)
  BitVec.ofNat 20460 ((List.range 4092).foldl (fun a k => a + b2n ((cw (k / 1023)).getLsbD (k % 1023)) * (31 * 2 ^ (5 * k))) 0)

/-- Regeneration from a record: the root, or the cause of R79. -/
def regenFrom (s : State) (h : Helper) (puf : BitVec 20460) : Except Nat (BitVec 256) :=
  if helperMac s h ≠ some h.mac ∨ h.serial ≠ serialOf s.fuse.shadow then .error 2
  else match pufMessage (puf ^^^ h.offset) with
    | none => .error 3
    | some m => if geodeKcv (geodeOf m) = h.kcv then .ok (geodeOf m) else .error 4

/-- Whether the block enrols where it finds no record (03 R80). -/
def enrols (s : State) : Bool :=
  (s.lcs.st == 1 || s.lcs.st == 2) && (platRoot s).isSome && !s.key.drbgFail

/-- Enrolment: the record is made from a draw and used once flash holds it (03 R80). -/
def enrol (s : State) (puf : BitVec 20460) (flashOk : Bool) : Except Nat (BitVec 256) × State :=
  let (m, s) := freshBits 2052 s
  let root := geodeOf m
  let h : Helper := { serial := serialOf s.fuse.shadow, kcv := geodeKcv root, mac := 0#128, offset := puf ^^^ repeatedCode m }
  let h := { h with mac := (helperMac s h).getD 0#128 }
  let s := emit { s with key := { s.key with enrolled := true } } (.flashOp "helper record")
  if flashOk then (.ok root, userKeyed { s with flash := { s.flash with helper := some h } }) else (.error 5, flashFail s)

/-- Step C6 ends with a root or a cause; the array is zero from here on (03 R78, R79; 02 R67). -/
def geodeEnd (s : State) (r : Except Nat (BitVec 256)) : State :=
  let s := { s with gen := { s.gen with c6Done := true }, key := { s.key with pufRead := true } }
  match r with
  | .ok root => { s with key := { s.key with kill := { s.key.kill with geode := some root }, geodeFail := false, geodeCause := 0 } }
  | .error c =>
    recordPlain { s with key := { s.key with geodeFail := true, geodeCause := c }, gen := { s.gen with startGeode := true } }
      Flc.rootFail 5 1 0

/-- GEODE_REGENERATE: step C6 of a cold start. It does not run while the slate root stands in (13 Table 13-2), nor under TAMPERED (03
R105); an enrolment waits while entropy tests repeat (03 R100). -/
def geodeRegenerate (s : State) (puf : BitVec 20460) (flashOk : Bool) : State :=
  if !s.gen.released || s.gen.c6Done || s.key.pufRead || coreDown s then s
  else if s.key.slateOn || s.key.tampered then { s with gen := { s.gen with c6Done := true } }
  else match s.flash.helper with
    | some h => geodeEnd s (regenFrom s h puf)
    | none =>
      if !enrols s then geodeEnd s (.error 1)
      else if 0 < s.key.retries then s
      else
        let (r, s) := enrol s puf flashOk
        geodeEnd s r

/-! ### The block's own slots (03 R87, R111; 12 R363) -/

/-- A scalar kept in a slot of the block: low 256 bits in half 0, the rest in half 1. -/
def fillScalar (s : State) (slot kind : Nat) (d : BitVec 384) : State :=
  let v : Slot :=
    { kind := kind, rootClass := tenantClass s, tenant := 0, masks := ownMasks, genCur := 0, prevLive := false, staged := none,
      half0 := maskHalf s slot 0 (d.extractLsb' 0 256), half1 := maskHalf s slot 1 ((d.extractLsb' 256 128).zeroExtend 256),
      cnt0 := 0, cnt1 := 0 }
  setSlot s slot (some v)

/-- The scalar a slot of the block holds, while its halves can be read. -/
def slotScalar (s : State) (slot : Nat) : Option (BitVec 384) :=
  match halfKey s slot 0, halfKey s slot 1 with
  | some a, some b => some (b.extractLsb' 0 128 ++ a)
  | _, _ => none

/-- The device identity, while slot 0 is VALID (12 R363). -/
def identity (s : State) : Option (BitVec 384) := slotScalar s 0

/-- Slots 0 and 1 written from the tenant root: IDENTITY, and KEX where DOMAIN_ID is not 0 (12 R363). -/
def writeIdentity (s : State) : State :=
  match idScalar s with
  | none => { setSlot (setSlot s 0 none) 1 none with key := { (setSlot (setSlot s 0 none) 1 none).key with idPub := none, kexPub := none } }
  | some d =>
    let s := fillScalar s 0 5 d
    let s := { s with key := { s.key with idPub := some (Config.pubOf d), kexPub := none } }
    match kexScalar s with
    | none => setSlot s 1 none
    | some k =>
      if domainId s = 0 then setSlot s 1 none
      else
        let s := fillScalar s 1 6 k
        { s with key := { s.key with kexPub := some (Config.pubOf k) } }

/-- Slot 2 filled from the DRBG where it is EMPTY; the catalogue is then to be formatted (04 R111, R112). -/
def fillCatalogueKey (s : State) : State :=
  if (slotAt s 2).isSome || !drbgServes s then s
  else
    let (k, s) := drbgTake 256 s
    let s := fillSlot s 2 7 (platClass s) 0 0 ownMasks k
    { s with ime := { s.ime with formatDue := true, formatted := false } }

/-! ### Entropy and the DRBG (03 R100, R101) -/

/-- The kill bank's missing random keys: a vault-mask key, and the CORE scrambling key (03 R98, R99). They are drawn even where DRBG_FAIL
stands (log 66). -/
def fillBank (s : State) : State :=
  let s :=
    if (maskKey s s.key.maskCur).isSome then s
    else
      let (k, s) := freshBits 256 s
      { s with key := { s.key with
        kill := if s.key.maskCur then { s.key.kill with mask1 := some k } else { s.key.kill with mask0 := some k } } }
  if s.key.kill.scramble.isSome then s
  else
    let (k, s) := freshBits 256 s
    { s with key := { s.key with kill := { s.key.kill with scramble := some k } } }

/-- The keystream that fills pad lines is seeded anew at each start, where the DRBG serves (04 R146; log 145). -/
def seedPads (s : State) : State :=
  if !drbgServes s then s
  else
    let (k, s) := drbgTake 256 s
    { s with ime := { s.ime with padSeed := some k, padUsed := 0 } }

/-- Step C12: the DRBG starts from a seed, unless the entropy source has failed; the block's slots follow. -/
def instantiate (s : State) : State :=
  let s := { s with key := { s.key with drbgUp := !s.key.drbgFail, drbgReqs := 0, reseedDue := false,
                                        seedWait := s.key.seedWait - bits s.key.seedWait 0 1 },
                    gen := { s.gen with c12Done := true, startDrbg := s.key.drbgFail } }
  seedPads (fillCatalogueKey (writeIdentity (fillBank s)))

/-- The reseed of R101. -/
def reseed (s : State) : State :=
  { s with key := { s.key with drbgReqs := 0, reseedDue := false, seedWait := putBits s.key.seedWait 1 1 0 } }

/-- DRBG_RESEED: a reseed that has fallen due; it waits while the start-up tests repeat. -/
def drbgReseed (s : State) : State :=
  if !drbgLive s || !s.key.reseedDue then s
  else if 0 < s.key.retries then { s with key := { s.key with seedWait := putBits s.key.seedWait 1 1 1 } }
  else reseed s

/-- ENTROPY_TEST_FAIL: up to three repeats of the start-up tests begin. -/
def entropyTestFail (s : State) : State :=
  if !s.gen.released || s.key.drbgFail || 0 < s.key.retries || s.key.tampered then s else { s with key := { s.key with retries := 3 } }

/-- DRBG_FAIL is reported from now to the next block warm recovery or cold start (03 R100; 11 Table 11-3 ROOT_FAIL). -/
def drbgFailNow (s : State) : State :=
  recordPlain { s with key := { s.key with drbgFail := true, retries := 0 } } Flc.rootFail 5 2 0

/-! ### Derivations and masks (03 R86, R98) -/

/-- KEY_DERIVATION_DONE: the oldest miss reaches the cache and the buffer of every group that asked for it, and what waited goes on. -/
def keyDerivationDone (s : State) : State :=
  match s.key.missq with
  | [] => s
  | (h, g) :: r =>
    if coreDown s then s
    else
      let s := { s with key := { s.key with missq := r } }
      match derive s h with
      | some _ => afterMem (g.foldl (fun s x => ctxPut s x h) (dkcPut s h))
      | none => afterMem s

/-- A half under the present mask key. -/
def remaskHalf (s : State) (old : State) (i h : Nat) : Option Half := (halfKey old i h).bind (maskHalf s i h)

/-- VAULT_MASK_REFRESH: a new key under a new mask epoch, every half re-masked; deferred while random numbers are refused or have to wait for a seed
(03 R98, R101). -/
def maskRefresh (s : State) : State :=
  if !s.gen.released || s.key.tampered then s
  else if !drbgServes s then { s with key := { s.key with seedWait := putBits s.key.seedWait 2 1 1 } }
  else
    let (k, s) := drbgTake 256 { s with key := { s.key with seedWait := putBits s.key.seedWait 2 1 0 } }
    let no := !s.key.maskCur
    let n := { s with key := { s.key with
      maskCur := no, maskEpoch := s.key.maskEpoch + 1,
      kill := if no then { s.key.kill with mask1 := some k } else { s.key.kill with mask0 := some k } } }
    { n with key := { n.key with slots := n.key.slots.map (fun x =>
        (x.1, { x.2 with half0 := remaskHalf n s x.1 0, half1 := remaskHalf n s x.1 1 })) } }

/-! ### The commands -/

/-- GEODE_REGENERATE (03 R78, R80). -/
def execGeodeRegenerate (puf : BitVec 20460) (flashOk : Bool) (s : State) : Host.Outcome State Fault Refusal := .next (geodeRegenerate s puf flashOk)

/-- KEY_DERIVATION_DONE (03 R86). -/
def execKeyDerivationDone (s : State) : Host.Outcome State Fault Refusal := .next (keyDerivationDone s)

/-- VAULT_MASK_REFRESH (03 R98). -/
def execVaultMaskRefresh (s : State) : Host.Outcome State Fault Refusal := .next (maskRefresh s)

/-- ENTROPY_TEST_FAIL (03 R100). -/
def execEntropyTestFail (s : State) : Host.Outcome State Fault Refusal := .next (entropyTestFail s)

end Sys2Proof.Machine
end

