-- ==== Sys2Proof/Machine/LinkTx.lean ====
section
/-!
DEFINITION. Link and D2D ports, sending side: session keys, sealed frames, virtual channels, bring-up messages, rekeys, failures and windows
(05 R153 to R171, R188, R189; 10 R312, R313; 14 R436).
-/
namespace Sys2Proof.Machine

/-! ### Offers (02 R59, Table 2-6) -/

/-- OFFER_MASK of an interface in the charter in use (02 R50). -/
def offerMask (s : State) (code : Nat) : Nat :=
  match secBody s 9 with
  | some b => ((List.range 8).map fun i => if fld b (4 * i) 1 = code then fld b (4 * i + 2) 2 else 0).sum
  | none => 0

/-- Versions of an interface the block implements natively (02 Table 2-6), bit n for version n. -/
def nativeMask (code : Nat) : Nat :=
  if code = 1 ∨ code = 7 then 8 else if code = 5 then 2 else if 2 ≤ code ∧ code ≤ 6 then 4 else 0

/-- Versions only forerunner compatibility adds. -/
def foreMask (code : Nat) : Nat :=
  if code = 1 ∨ code = 7 then 4 else if code = 5 then 0 else if 2 ≤ code ∧ code ≤ 6 then 2 else 0

/-- The bits two masks share. -/
def maskAnd (a b : Nat) : Nat := (BitVec.ofNat 16 a &&& BitVec.ofNat 16 b).toNat

/-- The effective offer of an interface under a setting of compatibility (02 R59). -/
def effOffer (offer code : Nat) (fore : Bool) : Nat := maskAnd offer (nativeMask code + if fore then foreMask code else 0)

/-- The effective offer now; 0 while UNCHARTERED. -/
def offerNow (s : State) (code : Nat) : Nat := effOffer (offerMask s code) code (forerunner s)

/-- The highest version in a mask. -/
def topVersion (m : Nat) : Nat := ((List.range 16).reverse.find? fun i => bit m i).getD 0

/-! ### Ports -/

/-- Interface code of a port: 1 LINK, 2 D2D. -/
def portKind (e : Nat) : Nat := if e < 16 then 1 else 2

/-- The number of a port among its kind. -/
def portNo (e : Nat) : Nat := if e < 16 then e else e - 16

/-- The SESSION slot of a port (05 R154). -/
def sessSlot (e : Nat) : Nat := 16 + e

/-- Whether this instance is side A of a port's session (05 R156). -/
def sideA (s : State) (e : Nat) : Bool := decide (instId s < (lportAt s e).peerInst)

/-- Enter a port state; a change sets the PORT source, and HELLO completes a port reset (15 Table 15-5; 11 Table 11-7). -/
def setPortSt (s : State) (e : Nat) (st : PortSt) : State :=
  let p := lportAt s e
  if p.st = st then s
  else
    let s := raiseIrq (setLport s e { p with st := st }) 9
    if st = .hello then endRung s 1 (qpOfLnk e) else s

/-- Whether a port carries sealed frames of every type now. -/
def portOpen (s : State) (e : Nat) : Bool := (lportAt s e).st == .open_ || (lportAt s e).st == .rekeying

/-- What a port loses with its session: keys, sequences, replay, credits, the messages of a bring-up (01 Table 1-8). -/
def clearSession (s : State) (e : Nat) : State :=
  let p := lportAt s e
  let s := emptySlot s (sessSlot e)
  setLport s e { ({} : LPort) with
    st := p.st, resume := p.resume, fail := p.fail, resetAsked := p.resetAsked, rekeyCtrl := p.rekeyCtrl, txq := p.txq, shape := p.shape, shadow := p.shadow }

/-- A port's calibration window, or its request for one, ends: the grant falls and the lanes return (05 R188; 14 R434). -/
def endLinkCal (s : State) (e : Nat) : State :=
  if s.ile.cals.any fun c => c.port == e then
    let v := lnkPin s e
    let s := setLnkPin s e { v with calGnt := false, calSeenLow := !v.calReq }
    returnLanes { s with ile := { s.ile with cals := s.ile.cals.filter fun c => c.port != e } } (qpOfLnk e)
  else s

/-- Whether a port holds in FAILED: only a reset written to ILE_PORT_CTRL.RESET, a block warm recovery or a cold start takes it out (05 R159). -/
def failHeld (s : State) (e : Nat) : Bool :=
  let p := lportAt s e
  p.st == .failed && decide (1 ≤ p.fail) && decide (p.fail ≤ 6) && !p.resetAsked

/-- The link side of a port falls: DOWN, session and window gone (05 R155, R188; 14 R436). -/
def portDown (s : State) (e : Nat) : State := setPortSt (clearSession (endLinkCal s e) e) e .down

/-- A bring-up fails: the codes of Table 5-4 hold the port in FAILED, or drop it to DOWN for a retry (05 R159). -/
def bringupFail (s : State) (e code : Nat) : State :=
  let s := clearSession (endLinkCal s e) e
  let s := setLport s e { lportAt s e with fail := code, stepAt := s.tm.ns }
  let s := recordPlain s Flc.linkBringup 2 (qpOfLnk e) 0
  if 7 ≤ code then setPortSt s e .down
  else setPortSt (setLnkPin s e { lnkPin s e with en := false }) e .failed

/-- An open port fails: FAIL, its fault record, and the port reset (05 R165 to R167, R188). -/
def linkFail (s : State) (e code cls : Nat) : State :=
  let s := endLinkCal s e
  let s := setLport s e { lportAt s e with fail := code }
  let s := record s cls 2 (qpOfLnk e) 5 0#8 none 0
  let s := setPortSt (setLnkPin s e { lnkPin s e with en := false }) e .failed
  startRung s 1 (qpOfLnk e) cls

/-! ### Session keys (05 R161) -/

/-- QUALIFIER of the session derivation. -/
def sessQualifier (s : State) (e session : Nat) : Nat :=
  let a := if sideA s e then portNo e else (lportAt s e).peerPort
  let b := if sideA s e then (lportAt s e).peerPort else portNo e
  portKind e + 2 ^ 8 * a + 2 ^ 16 * b + 2 ^ 32 * session

/-- The derivation of a port's session keys from a half (03 Table 3-10). -/
def sessHandle (s : State) (e half session : Nat) : KeyHandle :=
  { slot := sessSlot e, half := half, purpose := 0x0400 + portKind e, volume := 0xFF, bits := 576, tenant := 0, folio := 0, instId := 0,
    qualifier := sessQualifier s e session, generation := 0 }

/-- Half and session number in use in a direction: during a rekey a direction that has switched uses the staged half (05 Table 5-7). -/
def sessUse (s : State) (e : Nat) (tx : Bool) : Nat × Nat :=
  let p := lportAt s e
  let cur := ((slotAt s (sessSlot e)).map curHalf).getD 0
  let moved := match p.rekey with
    | some r => if tx then r.txDone else r.rxDone
    | none => false
  if moved then ((cur + 1) % 2, p.session + 1) else (cur, p.session)

/-- GCM key and 4-byte salt of a direction. -/
def sessKey (s : State) (e : Nat) (tx : Bool) : Option (BitVec 256 × List Byte) :=
  let (half, session) := sessUse s e tx
  let ab := sideA s e == tx
  (derive s (sessHandle s e half session)).map fun k =>
    if ab then (keyOf (k.take 32), slice k 64 4) else (keyOf (slice k 32 32), slice k 68 4)

/-! ### Frames (05 R162 to R165) -/

/-- The 16 bytes of an outer header (05 Table 5-5). -/
def outerBytes (f : Frame) : List Byte :=
  f.version :: f.kind :: (leBytes 2 f.payloadLen.toNat ++ leBytes 4 f.session.toNat ++ leBytes 8 f.sequence.toNat)

/-- The IV of a frame (05 R164). -/
def frameIv (salt : List Byte) (seq : Nat) : List Byte := salt ++ beBytes 8 seq

/-- The largest payload: 512 bytes, or 256 under forerunner limits. -/
def payloadMax (s : State) : Nat := if forerunner s then 256 else 512

/-- The payload length for content of a size, in a shaping mode (05 Table 5-14). -/
def payloadLen (s : State) (mode n : Nat) : Nat :=
  let m := 16 + n
  if mode = 2 then payloadMax s
  else if mode = 1 then (if m ≤ 64 then 64 else if m ≤ 128 then 128 else if m ≤ 256 then 256 else 512)
  else roundUp m 16

/-- The CREDITS field: what was freed since the previous frame (05 Table 5-6). -/
def creditField (p : LPort) : Nat := ((List.range 8).map fun v => min 4095 (dget 0 p.freed v) * 2 ^ (12 * v)).sum

/-- The inner header (05 Table 5-6). -/
def innerBytes (ftype vc n credits : Nat) : List Byte := leBytes 1 ftype ++ leBytes 1 vc ++ leBytes 2 n ++ leBytes 12 credits

/-- The sequence H beyond which no DATA or IDLE frame goes (05 R166). -/
def seqLimit (p : LPort) : Nat := 2 ^ (p.thresh + 1)

/-- A frame's bytes pass the lanes of the port's group under its session keys (01 R17, R23). -/
def formPass (s : State) (e : Nat) (tx : Bool) (who : Option Who) (tag : Nat) : Bool × State :=
  let u := sessUse s e tx
  lanePass s (qpOfLnk e) [sessHandle s e u.1 u.2] who tag

/-- Seal and send a frame at the next sequence; it is kept for replay (05 R163 to R166). A frame without an operation that fails its lanes twice is
formed again (01 R23; log 144). -/
def sendSealed (s : State) (e ftype vc : Nat) (content : List Byte) (size : Nat) : State :=
  let s := if ftype = 0 then s else (formPass s e true none 0).2
  let p := lportAt s e
  let lim := if ftype ≤ 1 then seqLimit p else seqLimit p + 16
  if lim ≤ p.txSeq then s
  else match sessKey s e true with
    | none => s
    | some (k, salt) =>
      let pl := padTo size (innerBytes ftype vc content.length (creditField p) ++ content)
      let iv := frameIv salt p.txSeq
      let c := gcmCrypt k iv pl
      let f : Frame := { version := BitVec.ofNat 8 p.portVer, kind := 0#8, payloadLen := BitVec.ofNat 16 size,
                         session := BitVec.ofNat 32 (sessUse s e true).2, sequence := BitVec.ofNat 64 p.txSeq, payload := c, tag := 0#128 }
      let f := { f with tag := gcmTag k iv (outerBytes f) c }
      let kept := p.replay ++ [(p.txSeq, f)]
      emit (setLport s e { p with txSeq := p.txSeq + 1, freed := [],
                                  replay := kept.drop (kept.length - if e < 16 then 128 else 256) }) (.frame e f)

/-- Send a frame that no VC shapes: NAK, KEY_CONFIRM, REKEY, REKEY_DONE, or an IDLE that returns credits. -/
def sendPlain (s : State) (e ftype : Nat) (content : List Byte) : State := sendSealed s e ftype 0 content (payloadLen s 0 content.length)

/-- RK6: both directions have switched; THRESH_LOG2 is taken anew (05 R167; 15 R463). -/
def finishRekey (s : State) (e : Nat) : State :=
  let p := lportAt s e
  match p.rekey with
  | some r =>
    if r.txDone && r.rxDone then
      let s := retireHalf (activateHalf s (sessSlot e)) (sessSlot e)
      setPortSt (setLport s e { p with
        session := p.session + 1, thash := r.hash, rekey := none, overdue := false, thresh := bits p.rekeyCtrl.toNat 0 6 }) e .open_
    else s
  | none => s

/-- Whether a calibration window keeps an open port from forming frames: from its request until its end (05 R188). -/
def linkHeld (s : State) (e : Nat) : Bool := portOpen s e && s.ile.cals.any fun c => c.port == e

/-- The content of a NAK (2), which names the expected sequence, of a REKEY (4) and of a REKEY_DONE (5) of a port. -/
def ctlContent (p : LPort) (t : Nat) : List Byte :=
  if t = 2 then leBytes 8 p.rxSeq else if t = 4 then ((p.rekey.map fun r => bytes96 r.pub).getD []) else []

/-- After REKEY_DONE the sending direction uses the new session, from sequence 0, and a NAK counts anew (05 R165, Table 5-7 RK4). -/
def switchTx (s : State) (e : Nat) : State :=
  let p := lportAt s e
  finishRekey (setLport s e { p with
    txSeq := 0, nakSeq := 0, nakCount := 0, rekey := p.rekey.map fun r => { r with priv := none, txDone := true } }) e

/-- Send a NAK, REKEY or REKEY_DONE; a calibration window makes it wait (05 R165, R167, R188). -/
def sendCtl (s : State) (e t : Nat) : State :=
  let p := lportAt s e
  if linkHeld s e then setLport s e { p with ctlq := if p.ctlq.contains t then p.ctlq else p.ctlq ++ [t] }
  else
    let s := sendPlain s e t (ctlContent p t)
    if t = 5 then switchTx s e else s

/-- What a calibration window held goes: NAK first, then REKEY or REKEY_DONE (05 R169). -/
def drainCtl (s : State) (e : Nat) : State :=
  let q := (lportAt s e).ctlq
  [2, 4, 5].foldl (fun s t => if q.contains t then sendCtl s e t else s) (setLport s e { lportAt s e with ctlq := [] })

/-- NAK that names the expected sequence (05 R165). -/
def sendNak (s : State) (e : Nat) : State := sendCtl s e 2

/-! ### Operations on the wire (05 R172) -/

/-- FLAGS of an operation. -/
def opFlags (op : FabOp) : Nat := b2n op.flagged + 2 * b2n op.fetch + 4 * b2n op.last + 8 * op.shape + 32 * op.ttl

/-- An operation as sent: its header with what remains of its deadline, and its data padded to 16 (05 Table 5-9; 10 R310). -/
def opBytes (s : State) (t : TxOp) : List Byte :=
  let op := t.op
  let attr := op.shelf % 2 ^ 24 + 2 ^ 24 * op.cls + 2 ^ 28 * op.world
  leBytes 1 op.op ++ leBytes 1 (opFlags op) ++ leBytes 2 op.data.length ++ leBytes 4 op.tag ++ leBytes 8 op.address ++ leBytes 4 attr
    ++ leBytes 4 (budgetOf s t.deadline).toNat ++ leBytes 4 op.epoch.toNat ++ leBytes 2 op.dest ++ leBytes 2 op.src
    ++ padTo (roundUp op.data.length 16) op.data

/-- Beats an operation is charged (10 Table 10-2). -/
def opBeats (op : FabOp) : Nat := ceilDiv (32 + roundUp op.data.length 16) 64

/-- The shaping mode of an operation: a SEND's own, else its VC's (05 R189). -/
def txMode (s : State) (e : Nat) (t : TxOp) : Nat := if t.op.op = 5 ∧ t.shape ≠ 0 then t.shape - 1 else vcMode s e t.vc

/-- The payload its frame is sized for. -/
def txPayload (s : State) (e : Nat) (t : TxOp) : Nat := payloadLen s (txMode s e t) (32 + roundUp (max t.pad t.op.data.length) 16)

/-- An operation whose beat failed its lanes twice is withheld and ends with LANE_CHECK: an own one by its table entry, one that passes through by an
answer to its originator, a response as RESP_ERROR (01 R23; 05 Table 5-10; log 144). -/
def failTx (s : State) (e : Nat) (t : TxOp) : State :=
  let p := lportAt s e
  let s := setLport s e { p with txq := p.txq.erase t }
  match t.orig with
  | some ix => { s with ile := { s.ile with orig := tmod s.ile.orig ix fun o => { o with fail := Rsn.laneCheck } } }
  | none =>
    if t.op.op < 0x10 then answerError s t.op e Rsn.laneCheck t.deadline
    else setLport s e { lportAt s e with txq := (lportAt s e).txq ++ [{ t with op := { t.op with op := 0x12, data := Rsn.laneCheck :: zeros 15 }, pad := 16 }] }

/-- Send one operation in a DATA frame of its VC, with a credit (05 R163, R170; 01 R17). -/
def sendOp (s : State) (e : Nat) (t : TxOp) : State :=
  let (ok, s) := formPass s e true (t.orig.bind fun ix => (tget s.ile.orig ix).map (·.who)) (t.orig.getD t.op.tag)
  if !ok then failTx s e t
  else
    let p := lportAt s e
    let s := setLport s e { p with txq := p.txq.erase t, used := tput p.used t.vc (dget 0 p.used t.vc + 1) }
    sendSealed s e 0 t.vc (opBytes s t) (txPayload s e t)

/-! ### Selection at a link or D2D port (05 R169; 10 R313) -/

/-- The weight of a VC: the VCHAN record of a link port, 32 otherwise (05 Table 5-8). -/
def vcWeight (s : State) (e vc : Nat) : Nat :=
  if e < 16 then (match secBody s 6 with | some b => fld b (8 * e + vc) 1 | none => 32) else 32

/-- Whether a VC of a port may send an operation now, outside a cadence. -/
def vcMaySend (s : State) (e vc : Nat) : Bool :=
  let p := lportAt s e
  decide (dget 0 p.used vc < 64) && p.txq.any fun t => t.vc == vc

/-- Whether a VC sends at its cadence only. -/
def vcPaced (s : State) (e vc : Nat) : Bool := vcMode s e vc == 2 && decide (0 < vcCadence s e vc)

/-- Whether a port forms DATA frames now. -/
def linkIssues (s : State) (e : Nat) : Bool :=
  s.pin.pwrok && portOpen s e && !coreDown s && !(domAt s (domLnk e)).inReset && decide ((lportAt s e).txSeq < seqLimit (lportAt s e))
    && !(s.ile.cals.any fun c => c.port == e)

/-- Whether an earlier operation of the same originator to the same target waits on the same VC: those two leave in order (05 R176, R184). -/
def txBehind (l : List TxOp) (t : TxOp) : Bool :=
  decide (t.op.op < 0x10) && l.any fun u =>
    decide (u.op.op < 0x10) && u.vc == t.vc && u.op.src == t.op.src && u.op.dest == t.op.dest && decide (u.seq < t.seq)

/-- The operation of a VC with the best rank, of those that none of their own flow precedes (05 R176; 10 R314). -/
def bestTx (s : State) (e vc : Nat) : Option TxOp :=
  let q := qpOfLnk e
  let l := (lportAt s e).txq.filter fun t => t.vc == vc
  bestBy (fun t => rankKey s q t.op.cls t.aged t.deadline t.entered t.op.tag) (l.filter fun t => !txBehind l t)

/-- The round robin's place: the VC being visited, and whether it has had its quantum of this round (kept beside the deficits). -/
def drrAt (p : LPort) : Nat × Bool := (dget 0 p.deficit 8, dget 0 p.deficit 9 == 1)

/-- Move the round robin's place. -/
def drrTo (s : State) (e vc : Nat) (had : Bool) : State :=
  let p := lportAt s e
  setLport s e { p with deficit := tput (tput p.deficit 8 vc) 9 (b2n had) }

/-- Set a VC's deficit. -/
def setDeficit (s : State) (e vc v : Nat) : State :=
  let p := lportAt s e
  setLport s e { p with deficit := tput p.deficit vc v }

/-- Deficit round robin over the VCs while beats are left. -/
def selectLink (e : Nat) : Nat → Nat → State → State
  | 0, _, s => s
  | f + 1, left, s =>
    let q := qpOfLnk e
    let can := fun v => vcMaySend s e v && !vcPaced s e v
    if left = 0 ∨ !(List.range 8).any can ∨ !linkIssues s e then s
    else
      let (v, had) := drrAt (lportAt s e)
      if !can v then
        let s := if (lportAt s e).txq.any fun t => t.vc == v then s else setDeficit s e v 0
        selectLink e f left (drrTo s e ((v + 1) % 8) false)
      else
        let d := dget 0 (lportAt s e).deficit v + if had then 0 else vcWeight s e v * 64
        match bestTx s e v with
        | none => s
        | some t =>
          let size := 32 + txPayload s e t
          if d < size then selectLink e f left (drrTo (setDeficit s e v d) e ((v + 1) % 8) false)
          else
            let s := drrTo (setDeficit s e v (d - size)) e v true
            let b := opBeats t.op
            let s := sendOp (chargePort s q t.op.cls b t.aged) e t
            if left < b then spill s q (b - left) else selectLink e f (left - b) s

/-- One CCLK of a link or D2D port. -/
def linkSelect (s : State) (e : Nat) : State :=
  let q := qpOfLnk e
  let s := refillPort s q
  if !linkIssues s e then s
  else
    let (left, s) := takeCarry s q (groupLanes s q)
    selectLink e (80 * ((lportAt s e).txq.length + 1)) left s

/-- The selection of one CCLK of a present port, by its code of Table 10-8 (10 R313). -/
def portSelect (s : State) (q : Nat) : State :=
  if !portPresent s q || !s.pin.pwrok || coreDown s then s
  else if q < 4 then memSelect s q else linkSelect s (q - 4)

/-- REQUEST_AGED: a memory operation by its number, or an operation by its place in a port's queue, ranks in tier 0 once it
has waited AGE_US, as set when it entered (10 R314, R325). -/
def requestAged (s : State) (q i : Nat) : State :=
  if q < 4 then
    { s with ime := { s.ime with ents := s.ime.ents.map fun e => if e.port = q ∧ e.seq = i ∧ e.entered + e.age ≤ s.tm.ns then { e with aged := true } else e } }
  else
    let e := q - 4
    let p := lportAt s e
    match p.txq[i]? with
    | some t => if t.entered + t.age ≤ s.tm.ns then setLport s e { p with txq := p.txq.set i { t with aged := true } } else s
    | none => s

/-- CADENCE_TICK: a CONSTANT VC with a cadence sends its next operation, or a full-size IDLE frame where it has none (05 R189). -/
def cadenceTick (s : State) (e vc : Nat) : State :=
  if !linkIssues s e || !vcPaced s e vc || 8 ≤ vc then s
  else match (if vcMaySend s e vc then bestTx s e vc else none) with
    | some t => sendOp (chargePort s (qpOfLnk e) t.op.cls (opBeats t.op) t.aged) e t
    | none => sendSealed s e 1 0 [] (payloadMax s)

/-- CREDIT_IDLE_TIMER: credits to report and no frame to carry them (05 R170). -/
def creditIdle (s : State) (e : Nat) : State :=
  if linkIssues s e && (lportAt s e).freed.any (fun x => x.2 != 0) then sendPlain s e 1 [] else s

/-! ### Bring-up, sending side (05 R156 to R159) -/

/-- Send a bring-up message (05 R157, R162). -/
def sendBringup (s : State) (e : Nat) (m : List Byte) : State :=
  emit s (.frame e { version := 0#8, kind := 1#8, payloadLen := BitVec.ofNat 16 m.length, session := 0#32, sequence := 0#64,
                     payload := m, tag := 0#128 })

/-- Keep a message of the bring-up, which begins its next step: 0 own and 1 peer HELLO, 2 and 3 IDENTITY, 4 and 5 KEY_SHARE. -/
def keepMsg (s : State) (e i : Nat) (m : List Byte) : State :=
  let p := lportAt s e
  setLport s e { p with msgs := tput p.msgs i m, stepAt := s.tm.ns }

/-- A message of the bring-up, empty where there is none. -/
def msgAt (s : State) (e i : Nat) : List Byte := dget [] (lportAt s e).msgs i

/-- Own HELLO (05 Table 5-3). -/
def helloBytes (s : State) (e : Nat) (nonce : BitVec 256) : List Byte :=
  leBytes 1 1 ++ leBytes 1 0 ++ leBytes 2 (s.att.member % 2 ^ 14) ++ leBytes 1 (portNo e) ++ leBytes 1 (portKind e) ++ zeros 2
    ++ leBytes 8 (instId s) ++ leBytes 8 (domainId s) ++ leBytes 2 (offerNow s (portKind e)) ++ leBytes 2 (offerNow s 3) ++ zeros 4
    ++ leBytes 32 nonce.toNat

/-- Whether a port is released and may come up: LNK_EN driven, out of reset, the link up, not TAMPERED. -/
def mayBringUp (s : State) (e : Nat) : Bool :=
  s.pin.pwrok && lnkPresent s e && (lnkPin s e).en && (lnkPin s e).up && !coreDown s && !(domAt s (domLnk e)).inReset && !s.key.tampered

/-- Steps L1 and L2: HELLO with a fresh nonce; without random numbers the port stays DOWN until the DRBG serves. -/
def startHello (s : State) (e : Nat) : State :=
  if !mayBringUp s e || (lportAt s e).st != .down then s
  else if !drbgServes s then setLport s e { lportAt s e with helloDue := true }
  else
    let (n, s) := drbgTake 256 s
    let m := helloBytes s e n
    sendBringup (keepMsg (setPortSt (clearSession s e) e .hello) e 0 m) e m

/-- A port released at step C11, or from its reset: LNK_EN rises (14 R436). -/
def releaseLink (s : State) (e : Nat) : State := setLnkPin s e { lnkPin s e with en := true }

/-- LINK_UP: the PHY reports the link up (05 Table 5-2 L1). -/
def linkUp (s : State) (e : Nat) : State :=
  if !s.pin.pwrok || !lnkPresent s e || !(lnkPin s e).en then s
  else startHello (setLnkPin s e { lnkPin s e with up := true }) e

/-- LINK_DOWN: the PHY reports the link down. -/
def linkDown (s : State) (e : Nat) : State :=
  if !s.pin.pwrok || !lnkPresent s e then s
  else
    let s := setLnkPin s e { lnkPin s e with up := false }
    if (lportAt s e).st = .failed then endLinkCal s e else portDown s e

/-- BRINGUP_TIMEOUT: a step passed 10 ms (05 R156, R159). -/
def bringupTimeout (s : State) (e : Nat) : State :=
  let p := lportAt s e
  if (p.st = .hello ∨ p.st = .keying) ∧ p.stepAt + 10000000 ≤ s.tm.ns then bringupFail s e 8 else s

/-- BRINGUP_RETRY: 100 ms after a timeout or a malformed message (05 R159). -/
def bringupRetry (s : State) (e : Nat) : State :=
  let p := lportAt s e
  if (p.fail = 8 ∨ p.fail = 9) ∧ p.stepAt + 100000000 ≤ s.tm.ns then startHello s e else s

/-! ### Rekeys (05 R166, R167) -/

/-- RK1: an ephemeral pair is drawn and REKEY sent, once random numbers are served. Session 0xFFFF_FFFF resets the port instead. -/
def startRekey (s : State) (e : Nat) : State :=
  let p := lportAt s e
  if p.st ≠ .open_ ∨ p.rekey.isSome ∨ coreDown s then s
  else if p.session = 0xFFFFFFFF then startRung s 1 (qpOfLnk e) Flc.linkFault
  else if !drbgServes s then setLport s e { p with rekeyDue := true }
  else
    let (d, s) := drbgTake 384 s
    let s := setLport s e { lportAt s e with
      rekeyDue := false
      rekey := some { priv := some d, pub := Config.pubOf d, peer := none, hash := 0#384, txDone := false, rxDone := false, since := s.tm.ns } }
    sendCtl (setPortSt s e .rekeying) e 4

/-- The next sequence of either direction. -/
def portSeq (p : LPort) : Nat := max p.txSeq p.rxSeq

/-- REKEY_THRESHOLD: the next sequence has reached T. -/
def rekeyThreshold (s : State) (e : Nat) : State :=
  if 2 ^ (lportAt s e).thresh ≤ portSeq (lportAt s e) then startRekey s e else s

/-- REKEY_OVERDUE: 3T/2 without the rekey done; KEY_EXHAUSTED once. -/
def rekeyOverdue (s : State) (e : Nat) : State :=
  let p := lportAt s e
  if !portOpen s e || p.overdue || portSeq p < 3 * 2 ^ p.thresh / 2 then s
  else record (setLport s e { p with overdue := true }) Flc.keyExhausted 2 (qpOfLnk e) 0 Rsn.keyExhausted none (sessSlot e)

/-- SEQ_EXHAUSTED: H + 16 reached (05 R166). -/
def seqExhausted (s : State) (e : Nat) : State :=
  let p := lportAt s e
  if portOpen s e && decide (seqLimit p + 16 ≤ portSeq p) then linkFail s e 12 Flc.linkFault else s

/-- REKEY_TIMEOUT: 100 ms without RK6. -/
def rekeyTimeout (s : State) (e : Nat) : State :=
  if (lportAt s e).rekey.any fun r => decide (r.since + 100000000 ≤ s.tm.ns) then linkFail s e 13 Flc.linkFault else s

/-! ### Calibration windows (05 R188; 14 R434, R436) -/

/-- LIMIT_US of ILE_CAL_CTRL in nanoseconds (05 R188; 15 Table 15-8). -/
def lnkCalLimit (s : State) : Nat := 1000 * bits s.ile.calCtrl.toNat 0 7

/-- LNK_CAL_REQ rises: frame formation stops; requests wait in arrival order. -/
def lnkCalRequest (s : State) (e : Nat) : State :=
  let v := lnkPin s e
  if !s.pin.pwrok || !lnkPresent s e || v.calReq then s
  else
    let s := setLnkPin s e { v with calReq := true }
    if v.calSeenLow then { s with ile := { s.ile with cals := putCal { port := e, open_ := false, at_ := s.tm.ns, limit := lnkCalLimit s } s.ile.cals } } else s

/-- Whether the peer has acknowledged the frames sent: every credit is back, or no NAK has come for 2 µs since the request (05 R188). -/
def linkQuiet (s : State) (e : Nat) : Bool :=
  let p := lportAt s e
  p.used.all (fun x => x.2 == 0) || s.ile.cals.any fun c => c.port == e && decide (max c.at_ p.nakAt + 2000 ≤ s.tm.ns)

/-- The window of the oldest waiting request is granted while fewer than 4 are open, once the frames sent are acknowledged; the port enters
RETRAIN. -/
def lnkCalGrant (s : State) (e : Nat) : State :=
  let p := lportAt s e
  if 4 ≤ (s.ile.cals.filter (·.open_)).length || ((s.ile.cals.find? fun c => !c.open_).map (·.port)) != some e || !portOpen s e
      || coreDown s || !linkQuiet s e then s
  else
    let s := setLport s e { p with resume := p.st }
    let s := setPortSt (setLnkPin s e { lnkPin s e with calGnt := true }) e .retrain
    lendLanes { s with ile := { s.ile with cals := s.ile.cals.map fun c => if c.port = e then { c with open_ := true, at_ := s.tm.ns } else c } } (qpOfLnk e)

/-- LNK_CAL_REQ falls: the lanes return, and frames resume at the next sequence with those the window held. -/
def lnkCalEnd (s : State) (e : Nat) : State :=
  let v := lnkPin s e
  if !s.pin.pwrok || !v.calReq then s
  else
    let s := setLnkPin s e { v with calReq := false, calGnt := false, calSeenLow := true }
    let s := returnLanes { s with ile := { s.ile with cals := s.ile.cals.filter fun c => c.port != e } } (qpOfLnk e)
    drainCtl (if (lportAt s e).st = .retrain then setPortSt s e (lportAt s e).resume else s) e

/-- LNK_CAL_OVERRUN: a window still open after LIMIT_US; the port fails and is reset. -/
def lnkCalOverrun (s : State) (e : Nat) : State :=
  if s.ile.cals.any fun c => c.port == e && c.open_ && decide (c.at_ + c.limit ≤ s.tm.ns) then linkFail s e 14 Flc.calOverrun else s

/-! ### Routes (05 R174) -/

/-- ILE_ROUTE_DATA: STAGE 3 and EGRESS 20 and above are reserved encodings; the field keeps its value (00 R11). -/
def routeWrite (s : State) (v : Word) : State :=
  let ix := bits s.ile.routeAddr.toNat 0 14
  let old := (routeOf s ix).toNat
  let w := v.toNat
  let st := bits w 29 2
  let eg := bits w 0 5
  let s := if st = 3 ∨ 20 ≤ eg then ignoreWrite s (0x4014 / 4) else s
  let n := 2 ^ 31 * bits w 31 1 + 2 ^ 29 * (if st = 3 then bits old 29 2 else st) + (if 20 ≤ eg then bits old 0 5 else eg)
  { s with ile := { s.ile with routes := dput 0#32 s.ile.routes ix (BitVec.ofNat 32 n) } }

/-! ### Resends (05 R183) -/

/-- RETRY_RESEND: the operations refused for a DEST and VC go again, in their original order. -/
def retryResend (s : State) (dest vc : Nat) : State :=
  let l := s.ile.orig.filter fun o => o.2.resend && o.2.op.dest == dest && o.2.vc == vc
  (byIssue l).foldl (fun s o =>
    txPut { s with ile := { s.ile with orig := tput s.ile.orig o.1 { o.2 with resend := false } } } o.2.egress o.2.vc o.2.op o.2.deadline
      (some o.1) o.2.pad) s

/-- ATOMIC_LINE_IDLE: a resident line untouched for 1024 CCLK is written back (05 R179). -/
def atomicLineIdle (s : State) (line : Nat) : State :=
  match residentAt s line with
  | some r => afterMem (writeBack s r none)
  | none => s

/-! ### The commands -/

/-- REQUEST_AGED (10 R314). -/
def execRequestAged (port seq : Nat) (s : State) : Host.Outcome State Fault Refusal := .next (requestAged s port seq)

/-- LINK_UP (05 R156). -/
def execLinkUp (port : Nat) (s : State) : Host.Outcome State Fault Refusal := .next (linkUp s port)

/-- LINK_DOWN (05 R155). -/
def execLinkDown (port : Nat) (s : State) : Host.Outcome State Fault Refusal := .next (linkDown s port)

/-- BRINGUP_TIMEOUT (05 R159). -/
def execBringupTimeout (port : Nat) (s : State) : Host.Outcome State Fault Refusal := .next (bringupTimeout s port)

/-- BRINGUP_RETRY (05 R159). -/
def execBringupRetry (port : Nat) (s : State) : Host.Outcome State Fault Refusal := .next (bringupRetry s port)

/-- REKEY_THRESHOLD (05 R166). -/
def execRekeyThreshold (port : Nat) (s : State) : Host.Outcome State Fault Refusal := .next (rekeyThreshold s port)

/-- REKEY_OVERDUE (05 R166). -/
def execRekeyOverdue (port : Nat) (s : State) : Host.Outcome State Fault Refusal := .next (rekeyOverdue s port)

/-- SEQ_EXHAUSTED (05 R166). -/
def execSeqExhausted (port : Nat) (s : State) : Host.Outcome State Fault Refusal := .next (seqExhausted s port)

/-- REKEY_TIMEOUT (05 R167). -/
def execRekeyTimeout (port : Nat) (s : State) : Host.Outcome State Fault Refusal := .next (rekeyTimeout s port)

/-- REKEY_NOW (05 R167; 15 Table 15-9). -/
def execRekeyNow (port : Nat) (s : State) : Host.Outcome State Fault Refusal :=
  .next (ctlWriteBy s (0x440C + 0x40 * port) fun s => if lnkPresent s port then startRekey s port else s)

/-- CREDIT_IDLE_TIMER (05 R170). -/
def execCreditIdleTimer (port : Nat) (s : State) : Host.Outcome State Fault Refusal := .next (creditIdle s port)

/-- CADENCE_TICK (05 R189). -/
def execCadenceTick (port vc : Nat) (s : State) : Host.Outcome State Fault Refusal := .next (cadenceTick s port vc)

/-- RETRY_RESEND (05 R183). -/
def execRetryResend (dest vc : Nat) (s : State) : Host.Outcome State Fault Refusal := .next (retryResend s dest vc)

/-- ATOMIC_LINE_IDLE (05 R179). -/
def execAtomicLineIdle (line : Nat) (s : State) : Host.Outcome State Fault Refusal := .next (atomicLineIdle s line)

/-- ROUTE_WRITE (05 R174). -/
def execRouteWrite (value : Word) (s : State) : Host.Outcome State Fault Refusal := .next (ctlWriteBy s 0x4014 fun s => routeWrite s value)

/-- LNK_CAL_REQUEST (05 R188). -/
def execLnkCalRequest (port : Nat) (s : State) : Host.Outcome State Fault Refusal := .next (lnkCalRequest s port)

/-- LNK_CAL_GRANT (05 R188). -/
def execLnkCalGrant (port : Nat) (s : State) : Host.Outcome State Fault Refusal := .next (lnkCalGrant s port)

/-- LNK_CAL_END (05 R188). -/
def execLnkCalEnd (port : Nat) (s : State) : Host.Outcome State Fault Refusal := .next (lnkCalEnd s port)

/-- LNK_CAL_OVERRUN (05 R188). -/
def execLnkCalOverrun (port : Nat) (s : State) : Host.Outcome State Fault Refusal := .next (lnkCalOverrun s port)

end Sys2Proof.Machine
end

