-- ==== Sys2Proof/Machine/SreDesc.lean ====
section
/-!
DEFINITION. Collective descriptors, schedules, chunks and the arithmetic of a reduction, as values (06 R194 to R207, R215 to R219).
-/
namespace Sys2Proof.Machine

/-! ### Descriptor fields (06 Table 6-3) -/

def cdOp (d : List Byte) : Nat := fld d 0x01 1
def cdAlgo (d : List Byte) : Nat := fld d 0x02 1
def cdDtype (d : List Byte) : Nat := fld d 0x04 1
def cdRedop (d : List Byte) : Nat := fld d 0x05 1
def cdMode (d : List Byte) : Nat := fld d 0x06 1
def cdFlags (d : List Byte) : Nat := fld d 0x07 1
def cdGroup (d : List Byte) : Nat := fld d 0x08 4
def cdEpoch (d : List Byte) : Nat := fld d 0x0C 4
def cdColl (d : List Byte) : Nat := fld d 0x10 4
def cdSize (d : List Byte) : Nat := fld d 0x14 2
def cdRank (d : List Byte) : Nat := fld d 0x16 2
def cdCount (d : List Byte) : Nat := fld d 0x18 8
def cdStep (d : List Byte) : Nat := fld d 0x20 8
def cdSrc (d : List Byte) : Nat := fld d 0x28 8
def cdDst (d : List Byte) : Nat := fld d 0x30 8
def cdIndex (d : List Byte) : Nat := fld d 0x38 8
def cdTable (d : List Byte) : Nat := fld d 0x40 8
def cdSrcShelf (d : List Byte) : Nat := fld d 0x48 4
def cdDstShelf (d : List Byte) : Nat := fld d 0x4C 4
def cdGroupShelf (d : List Byte) : Nat := fld d 0x50 4
def cdRedShelf (d : List Byte) : Nat := fld d 0x54 4
def cdScale (d : List Byte) : Nat := fld d 0x58 4
def cdBlock (d : List Byte) : Nat := fld d 0x5C 2
def cdChunkLog (d : List Byte) : Nat := fld d 0x5E 1
def cdFrac (d : List Byte) : Nat := fld d 0x5F 1
def cdOwners (d : List Byte) : Nat := fld d 0x60 1
def cdClass (d : List Byte) : Nat := fld d 0x61 1
def cdTimeout (d : List Byte) : Nat := fld d 0x62 2
def cdPairGen (d : List Byte) : Nat := fld d 0x64 4
def cdPair (d : List Byte) (o : Nat) : Nat := fld d (0x70 + 2 * o) 2

/-- SPARSE and MASKED collectives. -/
def cdSparse (d : List Byte) : Bool := cdMode d == 1
def cdMasked (d : List Byte) : Bool := cdMode d == 2

/-- A collective with COUNT 0 is a barrier (06 R204). -/
def cdBarrier (d : List Byte) : Bool := cdCount d == 0

/-- OUT_FP32. -/
def cdOutFp (d : List Byte) : Bool := bit (cdFlags d) 0

/-- SHAPE of the collective's messages. -/
def cdShape (d : List Byte) : Nat := bits (cdFlags d) 2 2

/-- Bytes of an element of a format (06 Table 6-1). -/
def dtypeSize (t : Nat) : Nat := if t = 0 ∨ t = 5 then 4 else if t ≤ 2 then 2 else 1

/-- Bytes of an output element (06 R196, R219). -/
def cdOutSize (d : List Byte) : Nat := if cdOutFp d || cdMasked d then 4 else dtypeSize (cdDtype d)

/-- Elements of a unit: a block when SPARSE, else one element. -/
def cdUnit (d : List Byte) : Nat := if cdSparse d then cdBlock d else 1

/-- Units a collective covers: blocks when SPARSE, else elements (06 R202). -/
def cdUnits (d : List Byte) : Nat := if cdSparse d then ceilDiv (cdCount d) (max 1 (cdBlock d)) else cdCount d

/-- First element of a unit, and the elements units [start, start + n) cover: the last block may be short (06 R200). -/
def unitElem (d : List Byte) (start : Nat) : Nat := min (cdCount d) (start * cdUnit d)
def unitElems (d : List Byte) (start n : Nat) : Nat := unitElem d (start + n) - unitElem d start

/-! ### Descriptor conditions (06 R199, Table 6-4) -/

/-- Reserved bits and encodings, and values outside their ranges. -/
def cdFormOk (d : List Byte) : Bool :=
  fld d 0 1 == 1 && decide (1 ≤ cdOp d ∧ cdOp d ≤ 3) && decide (cdAlgo d ≤ 1) && decide (cdDtype d ≤ 5) && decide (cdRedop d ≤ 2)
    && decide (cdMode d ≤ 2) && decide (cdFlags d < 16) && decide (1 ≤ cdSize d ∧ cdSize d ≤ 16384) && decide (cdClass d < 16)
    && decide (cdTimeout d ≤ 60000) && decide (cdSrcShelf d < 2 ^ 24) && decide (cdDstShelf d < 2 ^ 24)
    && decide (cdGroupShelf d < 2 ^ 24) && decide (cdRedShelf d < 2 ^ 24) && zeroBytes (slice d 0x68 8)

/-- OP with ALGO, FANIN, CHUNK_LOG2, RANK, COUNT and SCALE. -/
def cdShapeOk (d : List Byte) : Bool :=
  !(cdOp d == 2 && cdAlgo d == 1) && !(cdOp d == 3 && cdAlgo d == 0)
    && (if cdAlgo d = 1 then decide (2 ≤ fld d 3 1 ∧ fld d 3 1 ≤ 16) else fld d 3 1 == 0)
    && decide (12 ≤ cdChunkLog d ∧ cdChunkLog d ≤ 15) && decide (cdRank d < cdSize d) && decide (cdCount d ≤ 2 ^ 36)
    && (cdScale d == 0x3F800000 || !(cdRedop d != 0 || (cdDtype d == 5 && !cdMasked d)))

/-- The SPARSE and non-SPARSE rows. -/
def cdSparseOk (d : List Byte) : Bool :=
  if cdSparse d then
    cdRedop d == 0 && ([16, 32, 64, 128, 256, 512, 1024, 2048, 4096].contains (cdBlock d)) && decide (cdBlock d * 4 ≤ 2 ^ cdChunkLog d)
  else cdBlock d == 0 && cdIndex d == 0

/-- The MASKED and non-MASKED rows. -/
def cdMaskedOk (d : List Byte) : Bool :=
  if cdMasked d then
    cdRedop d == 0 && cdDtype d != 3 && cdDtype d != 4 && cdOwners d == cdSize d && decide (2 ≤ cdOwners d ∧ cdOwners d ≤ 16)
      && decide (cdFrac d ≤ 30) && (cdDtype d != 5 || cdFrac d == 0)
      && (List.range 16).all fun o => (cdPair d o == 0) == (o == cdRank d || decide (cdOwners d ≤ o))
  else cdFrac d == 0 && cdOwners d == 0 && cdPairGen d == 0 && zeroBytes (slice d 0x70 32)

/-- Whether two byte ranges share a byte. -/
def bytesMeet (a n b m : Nat) : Bool := decide (0 < n) && decide (0 < m) && decide (a < b + m) && decide (b < a + n)

/-- Segment `i` of `n` over `u` units (06 R202): first unit and length. -/
def segUnits (u n i : Nat) : Nat × Nat := (i * u / n, (i + 1) * u / n - i * u / n)

/-- Bytes this member writes at DST (06 R200). -/
def cdDstBytes (d : List Byte) : Nat :=
  if cdBarrier d || (cdOp d == 3 && cdRank d != 0) then 0
  else if cdOp d = 2 then
    let g := segUnits (cdUnits d) (cdSize d) (cdRank d)
    unitElems d g.1 g.2 * cdOutSize d
  else cdCount d * cdOutSize d

/-- DST against SRC and INDEX (06 R200). The input of a SPARSE collective counts at its full length. -/
def cdOverlapOk (d : List Byte) : Bool :=
  let src := cdCount d * dtypeSize (cdDtype d)
  let n := cdDstBytes d
  let ix := if cdSparse d then ceilDiv (cdUnits d) 8 else 0
  (!bytesMeet (cdDst d) n (cdSrc d) src && !bytesMeet (cdDst d) n (cdIndex d) ix)
    || (cdMode d == 0 && cdDst d == cdSrc d && cdOutSize d == dtypeSize (cdDtype d))

/-- S1's verdict on a descriptor (06 R199). Where both refusals apply, BAD_DESCRIPTOR is the answer (log 138). -/
def cdCheck (fore : Bool) (d : List Byte) : Code :=
  if !(decide (d.length = 144) && cdFormOk d && cdShapeOk d && cdSparseOk d && cdMaskedOk d && shVolume (cdRedShelf d) == 2
      && shFolio (cdRedShelf d) == 0 && cdOverlapOk d) then Sc.badDescriptor
  else if fore && (cdDtype d == 3 || cdDtype d == 4 || cdMasked d) then Sc.featureDenied
  else 0#8

/-- The four class digests, SHAPE first (06 R201). -/
def cdDigests (d table : List Byte) : List Byte :=
  let h := fun (b : List Byte) => (shaBytes b).take 8
  h (0x01#8 :: (slice d 0x01 3 ++ slice d 0x06 1 ++ slice d 0x18 8 ++ slice d 0x5C 3))
    ++ h (0x02#8 :: (slice d 0x04 2 ++ leBytes 1 (cdFlags d % 2) ++ slice d 0x58 4 ++ slice d 0x5F 1))
    ++ h (0x03#8 :: (slice d 0x08 8 ++ slice d 0x14 2 ++ shaBytes table))
    ++ h (0x04#8 :: (leBytes 2 (shTenant (cdRedShelf d)) ++ slice d 0x20 8 ++ slice d 0x60 1 ++ slice d 0x64 4))

/-- CLASS_MASK: a bit for each digest that differs. -/
def digestDiff (a b : List Byte) : Nat :=
  ((List.range 4).map fun i => if slice a (8 * i) 8 = slice b (8 * i) 8 then 0 else 2 ^ i).sum

/-! ### Schedules (06 R202 to R204) -/

/-- Whether the collective runs as a tree: by ALGO, or as a barrier. -/
def cdTree (d : List Byte) : Bool := cdBarrier d || cdAlgo d == 1

/-- The fan-in of its tree. -/
def cdFan (d : List Byte) : Nat := if cdBarrier d then 16 else fld d 3 1

/-- Parent of a rank in a tree. -/
def treeParent (d : List Byte) (r : Nat) : Option Nat := if r = 0 then none else some ((r - 1) / max 1 (cdFan d))

/-- Children of a rank in a tree. -/
def treeChildren (d : List Byte) (r : Nat) : List Nat :=
  ((List.range (cdFan d)).map fun i => r * cdFan d + 1 + i).filter fun c => decide (c < cdSize d)

/-- Whether results are sent on: an ALLREDUCE, or a barrier. -/
def cdGather (d : List Byte) : Bool := cdOp d == 1 || cdBarrier d

/-- The ranks this member receives chunks from. -/
def inRanks (d : List Byte) (r : Nat) : List Nat :=
  if cdTree d then treeChildren d r ++ (if cdGather d then (treeParent d r).toList else [])
  else if cdSize d ≤ 1 then [] else [(r + cdSize d - 1) % cdSize d]

/-- The ranks this member sends chunks to. -/
def outRanks (d : List Byte) (r : Nat) : List Nat :=
  if cdTree d then (treeParent d r).toList ++ (if cdGather d then treeChildren d r else [])
  else if cdSize d ≤ 1 then [] else [(r + 1) % cdSize d]

/-- Schedule neighbours of a rank, for ABORTs (06 R221). -/
def neighbours (d : List Byte) (r : Nat) : List Nat :=
  if cdTree d then (treeParent d r).toList ++ treeChildren d r
  else if cdSize d ≤ 1 then []
  else [(r + cdSize d - 1) % cdSize d, (r + 1) % cdSize d].dedup

/-- Units of a chunk: of partials, or of results (06 R207). -/
def chunkUnits (d : List Byte) (result : Bool) : Nat :=
  if cdSparse d then 2 ^ cdChunkLog d / (max 1 (cdBlock d) * 4) else 2 ^ cdChunkLog d / (if result then cdOutSize d else 4)

/-- The chunks of a segment: first unit and length of each; one empty chunk where it has no unit (06 R207). -/
def chunksOf (start n per : Nat) : List (Nat × Nat) :=
  if n = 0 then [(start, 0)]
  else (List.range (ceilDiv n (max 1 per))).map fun i => (start + i * per, min per (n - i * per))

/-- A scheduled chunk: its hop, whether it is a result, its first unit and its length. -/
structure ChunkId where
  hop : Nat
  result : Bool
  start : Nat
  count : Nat
  deriving DecidableEq, Repr

/-- The chunks of one hop of a segment. -/
def hopChunks (d : List Byte) (hop : Nat) (result : Bool) (g : Nat × Nat) : List ChunkId :=
  (chunksOf g.1 g.2 (chunkUnits d result)).map fun c => { hop := hop, result := result, start := c.1, count := c.2 }

/-- The chunks of an edge, in the order of EDGE_SEQ (06 R202, R203, R205). -/
def edgeChunks (d : List Byte) (src dst : Nat) : List ChunkId :=
  let u := cdUnits d
  let n := cdSize d
  if cdTree d then
    (if treeParent d src = some dst then hopChunks d 0 false (0, u) else hopChunks d 1 true (0, u))
  else
    (List.range (n - 1)).flatMap (fun h => hopChunks d h false (segUnits u n ((src + 2 * n - h - 1) % n)))
      ++ (if cdOp d = 1 then (List.range (n - 1)).flatMap (fun k => hopChunks d (n - 1 + k) true (segUnits u n ((src + n - k) % n))) else [])

/-! ### Elements (06 R195, R196, R217 to R219) -/

/-- The format of a floating-point DTYPE. -/
def dtypeFmt (t : Nat) : FpFmt :=
  if t = 0 then fp32 else if t = 1 then bf16 else if t = 2 then fp16 else if t = 3 then fpE4m3 else fpE5m2

/-- An input element as its accumulator word. -/
def elemIn (t raw : Nat) : Word :=
  if t = 5 ∨ t = 0 then BitVec.ofNat 32 raw else BitVec.ofNat 32 (fpEnc fp32 (fpDec (dtypeFmt t) raw)).1

/-- Two accumulator words combined (06 R195). -/
def combine (d : List Byte) (x y : Word) : Word :=
  if cdMasked d then x + y
  else if cdDtype d = 5 then
    (if cdRedop d = 0 then x + y
     else if (decide (x.toInt < y.toInt)) == (cdRedop d == 1) then y else x)
  else if cdRedop d = 0 then fadd32 x y
  else fmax32 (cdRedop d == 1) x y

/-- A signed word as a floating-point value times 2^-F. -/
def signedVal (w : Word) (frac : Nat) : FpVal := .fin (w.toInt < 0) w.toInt.natAbs (2000 - frac)

/-- The word of a floating-point output: its bits, whether it is NaN or infinite, whether a finite value passed the range. -/
def fpOut (f : FpFmt) (v : FpVal) : Nat × Bool × Bool :=
  let e := fpEnc f v
  (e.1, (match fpDec f e.1 with | .fin _ _ _ => false | _ => true), e.2)

/-- A fully reduced word as its output element (06 R195 SCALE, R196, R219). -/
def elemOut (d : List Byte) (w : Word) : Nat × Bool × Bool :=
  if cdMasked d then
    (if cdOutFp d then
      let o := fpOut fp32 (fpProd (signedVal w (cdFrac d)) (fpDec fp32 (cdScale d)))
      (o.1, o.2.1, false)
     else (w.toNat, false, false))
  else if cdDtype d = 5 then
    (if cdOutFp d then
      let o := fpOut fp32 (signedVal w 0)
      (o.1, false, false)
     else (w.toNat, false, false))
  else
    let y := fmul32 w (BitVec.ofNat 32 (cdScale d))
    let f := if cdOutFp d then fp32 else dtypeFmt (cdDtype d)
    let o := fpOut f (fpDec fp32 y.toNat)
    (o.1, o.2.1, if f = fp32 then false else o.2.2)

/-- floor(v + u) for v = ± m × 2^(e - 2000) and u = n / 2^24. -/
def fixFloor (neg : Bool) (m e n : Nat) : Int :=
  let sm : Int := if neg then -(m : Int) else m
  if 2000 ≤ e then sm * 2 ^ (e - 2000)
  else (sm * 2 ^ 24 + (n : Int) * 2 ^ (2000 - e)) / 2 ^ (2024 - e)

/-- An input element in fixed point: q, whether it was a NaN, whether it saturated (06 R217). -/
def toFixed (frac n : Nat) : FpVal → Word × Bool × Bool
  | .nan => (0#32, true, false)
  | .inf neg => (if neg then 0x80000000#32 else 0x7FFFFFFF#32, false, true)
  | .fin neg m e =>
    let x := e + frac
    let sm : Int := if neg then -(m : Int) else m
    let num : Int := if 2000 ≤ x then sm * 2 ^ (x - 2000) else sm
    let den : Int := if 2000 ≤ x then 1 else 2 ^ (2000 - x)
    if num < -(2 ^ 31) * den then (0x80000000#32, false, true)
    else if (2 ^ 31 - 1) * den < num then (0x7FFFFFFF#32, false, true)
    else (BitVec.ofInt 32 (fixFloor neg m x n), false, false)

/-- Word `i` of a 16-byte block, little-endian. -/
def blkWord (b : BitVec 128) (i : Nat) : Word := b.extractLsb' (32 * (i % 4)) 32

/-- Keystream word `e` under a key: counter block COLL_ID, zero, k (06 R218); the rounding seed uses COLL_ID 0 (log 3). -/
def maskWord (k : BitVec 256) (coll e : Nat) : Word := blkWord (Config.aesEnc k (blkOf (leBytes 8 coll ++ leBytes 8 (e / 4)))) e

/-- The sum of the mask words of an element, each with its sign (06 R218). `ks` holds the other owners' ranks and keys. -/
def maskSum (rank coll e : Nat) (ks : List (Nat × BitVec 256)) : Word :=
  ks.foldl (fun a k => if rank < k.1 then a + maskWord k.2 coll e else a - maskWord k.2 coll e) 0#32

/-! ### Chunk data (06 R207, R215) -/

/-- Words packed at a width, little-endian. -/
def packWords (w : Nat) (l : List Nat) : List Byte := l.flatMap fun x => leBytes w x

/-- Bytes as values of a width. -/
def unpackWords (w : Nat) : Nat → List Byte → List Nat
  | 0, _ => []
  | n + 1, b => leNat (b.take w) :: unpackWords w n (b.drop w)

/-- Bits packed into bytes, bit 0 first, over a number of bytes. -/
def packBits (n : Nat) (l : List Bool) : List Byte :=
  (List.range n).map fun i => BitVec.ofNat 8 ((List.range 8).map fun j => if l.getD (8 * i + j) false then 2 ^ j else 0).sum

/-- Bit `i` of packed bits. -/
def bitAt (b : List Byte) (i : Nat) : Bool := (b.getD (i / 8) 0#8).getLsbD (i % 8)

/-- Bytes of the bitmap of a sparse chunk. -/
def mapBytes (d : List Byte) : Nat := roundUp (ceilDiv (chunkUnits d false) 8) 16

/-- The data of a chunk: its elements, or its bitmap and present blocks. -/
def chunkData (d : List Byte) (w start count : Nat) (vals : List Nat) (present : List Bool) : List Byte :=
  if !cdSparse d then packWords w vals
  else if count = 0 then []
  else
    packBits (mapBytes d) present
      ++ (List.range count).flatMap fun i =>
        if present.getD i false then
          packWords w ((vals.drop (unitElem d (start + i) - unitElem d start)).take (unitElems d (start + i) 1))
        else []

/-- Unpack the blocks of a sparse chunk, an absent one as zero. -/
def spreadBlocks (d : List Byte) (w start : Nat) : Nat → Nat → List Byte → List Byte → List Nat
  | 0, _, _, _ => []
  | n + 1, i, map, b =>
    let k := unitElems d (start + i) 1
    if bitAt map i then unpackWords w k b ++ spreadBlocks d w start n (i + 1) map (b.drop (k * w))
    else List.replicate k 0 ++ spreadBlocks d w start n (i + 1) map b

/-- The elements and presence bits of a chunk's data, or none where length or bitmap are wrong (06 R215). -/
def readChunk (d : List Byte) (w start count : Nat) (b : List Byte) : Option (List Nat × List Bool) :=
  if !cdSparse d then
    if b.length = unitElems d start count * w then some (unpackWords w (unitElems d start count) b, []) else none
  else if count = 0 then (if b.isEmpty then some ([], []) else none)
  else
    let map := b.take (mapBytes d)
    let body := b.drop (mapBytes d)
    let here := (List.range count).map (bitAt map)
    let need := ((List.range count).map fun i => if bitAt map i then unitElems d (start + i) 1 * w else 0).sum
    if b.length < mapBytes d ∨ ((List.range (8 * mapBytes d)).any fun i => decide (count ≤ i) && bitAt map i) ∨ body.length ≠ need then none
    else some (spreadBlocks d w start count 0 map body, here)

end Sys2Proof.Machine
end

