-- ==== Sys2Proof/Machine/Sre.lean ====
section
/-!
DEFINITION. The secure reduction engine: contexts, chunks on the wire, credits, early arrivals, aborts and its commands (06 R205 to R227).
-/
namespace Sys2Proof.Machine

/-! ### Contexts -/

/-- The rank of this member in a context. -/
def Coll.me (c : Coll) : Nat := cdRank c.desc

/-- The name of a context's group: GROUP_ID below, GROUP_EPOCH above (06 R211). -/
def Coll.gkey (c : Coll) : Nat := cdGroup c.desc + 2 ^ 32 * cdEpoch c.desc

/-- The open context of a group and collective. -/
def findColl (s : State) (gkey coll : Nat) : Option (Nat × Coll) :=
  s.sre.colls.find? fun x => x.2.gkey == gkey && cdColl x.2.desc == coll

/-- Change a context, where it is still open. -/
def modColl (s : State) (ix : Nat) (f : Coll → Coll) : State := { s with sre := { s.sre with colls := tmod s.sre.colls ix f } }

/-- The last reason of the SRE (06 R220). -/
def sreReason (s : State) (c : Code) : State := if c = 0#8 then s else { s with sre := { s.sre with lastReason := c } }

/-- The requester of a collective's own accesses: master SRE, with the world and slice of its command (06 R198). -/
def collWho (c : Coll) (shelf addr : Nat) : Who := engWho 3 c.world (some c.slice) (some c.context) shelf addr

/-- The member index of a rank in a context; 0 for a rank the group table does not have (log 141). -/
def memberOf (c : Coll) (rank : Nat) : Nat := c.members.getD rank 0

/-- The values of Table 6-9 as the 32 bytes of DETAIL (09 Table 9-7). -/
def collDetail (mask detector offender rank nonfinite overflow : Nat) : List Byte :=
  padTo 32 (leBytes 1 mask ++ zeros 1 ++ leBytes 2 detector ++ leBytes 2 offender ++ leBytes 2 rank ++ leBytes 4 (nonfinite % 2 ^ 32)
    ++ leBytes 4 (overflow % 2 ^ 32))

/-! ### Sealing (06 R205, R206) -/

/-- The derivation of a group's REDUCE key from a half (03 Table 3-10). -/
def reduceHandle (s : State) (c : Coll) (half : Nat) : KeyHandle :=
  slotHandle s c.slot half 0x0311 2 256 0 (cdGroup c.desc + 2 ^ 32 * cdEpoch c.desc) false

/-- The GCM input of a message: key, IV and additional data (06 R206). -/
def chunkIv (h : List Byte) : List Byte := slice h 0x10 4 ++ slice h 0x02 4 ++ slice h 0x14 4

/-- The 80-byte header of a message (06 Table 6-6). -/
def chunkHeader (c : Coll) (msg flags dst hop seq start count len : Nat) : List Byte :=
  leBytes 1 msg ++ leBytes 1 flags ++ leBytes 2 c.me ++ leBytes 2 dst ++ leBytes 2 hop ++ slice c.desc 0x08 12 ++ leBytes 4 seq
    ++ leBytes 8 start ++ leBytes 4 count ++ leBytes 4 len ++ c.digests ++ leBytes 4 c.gen ++ leBytes 2 c.timeoutMs ++ zeros 2

/-- A message passes the lanes of the port by which a rank is reached, under the REDUCE key of a half (01 R17, R23; 06 R206). -/
def chunkPass (s : State) (c : Coll) (half rank : Nat) : Bool × State :=
  lanePass s (qpOfLnk (routeEgress (routeOf s (memberOf c rank)))) [reduceHandle s c half] (some (collWho c (cdRedShelf c.desc) 0))
    (cdGroup c.desc + 2 ^ 32 * cdColl c.desc)

/-- Seal a message under the half the context resolved to (K5), its blocks counted; or why it cannot be sealed (K6; 03 R95; 01 R23). -/
def sealChunk (s : State) (c : Coll) (h data : List Byte) : Except Code (List Byte) × State :=
  match liveHalf s c.slot c.gen, slotAt s c.slot with
  | some half, some v =>
    if !k6 v half 2 then (.error Rsn.keyExhausted, s)
    else match derive s (reduceHandle s c half) with
      | none => (.error Rsn.keyRevoked, s)
      | some k =>
        let (ok, s) := chunkPass s c half (fld h 4 2)
        let ct := gcmCrypt (keyOf k) (chunkIv h) data
        if !ok then (.error Rsn.laneCheck, s)
        else (.ok (h ++ ct ++ blkBytes (gcmTag (keyOf k) (chunkIv h) h ct)), countBlocks s c.slot half 2 (ceilDiv data.length 16 + 1))
  | _, _ => (.error Rsn.keyRevoked, s)

/-- Open a message: KEY_GEN_STALE where its generation is not live, CHUNK_AUTH where its tag fails. -/
def openChunk (s : State) (c : Coll) (b : List Byte) : Except Code (List Byte) :=
  let h := b.take 80
  let ct := (b.drop 80).take (b.length - 96)
  match liveHalf s c.slot (fld b 0x48 4) with
  | none => .error Rsn.keyGenStale
  | some half => match derive s (reduceHandle s c half) with
    | none => .error Rsn.keyRevoked
    | some k =>
      if blkBytes (gcmTag (keyOf k) (chunkIv h) h ct) = b.drop (b.length - 16) then .ok (gcmCrypt (keyOf k) (chunkIv h) ct)
      else .error Sc.chunkAuth

/-! ### Ending a collective (06 R210, R221, R223) -/

/-- The message that carries a sealed message of the SRE to a member's queue 0xFFFF (06 R205). -/
def sreSendOf (c : Coll) (src : OrigSrc) (rank : Nat) (b : List Byte) : PendingSend :=
  { src := src, queue := 0xFFFF, message := fld b 0x14 2, dest := memberOf c rank, cls := cdClass c.desc, shape := cdShape c.desc,
    who := collWho c (cdRedShelf c.desc) 0, deadline := c.deadline, bytes := b }

/-- The abort record (06 R221). -/
def abortRecord (reason : Code) (mask detector offender rank : Nat) : List Byte :=
  leBytes 1 reason.toNat ++ leBytes 1 mask ++ leBytes 2 detector ++ leBytes 2 offender ++ leBytes 2 rank ++ zeros 8

/-- One ABORT to each schedule neighbour, where it can still be sealed and sent (06 R221). -/
def sendAborts (s : State) (c : Coll) (rec : List Byte) : State :=
  (neighbours c.desc c.me).foldl (fun s r =>
    match sealChunk s c (chunkHeader c 3 0 r 0 0xFFFFFFFF 0 0 16) rec with
    | (.ok b, s) =>
      if sendCode s (memberOf c r) (cdShape c.desc) b.length = 0#8 then queueSend s (sreSendOf c .none_ r b) else s
    | (.error _, s) => s) s

/-- The context leaves the table; its command ends, and a code of key services is its latest reason too (03 R73). -/
def closeColl (s : State) (ix : Nat) (c : Coll) (result : Nat) (reason : Code) (detail : List Byte) : State :=
  sreReason (keyReason (endFlight { s with sre := { s.sre with colls := tdel s.sre.colls ix } } c.flight result reason detail) reason) reason

/-- An open collective aborts: ABORTs with the record, and ABORTED with its values. -/
def abortColl (s : State) (ix : Nat) (reason : Code) (mask offRank : Nat) : State :=
  match tget s.sre.colls ix with
  | none => s
  | some c =>
    let det := memberOf c c.me
    let off := memberOf c offRank
    let s := sendAborts s c (abortRecord reason mask det off offRank)
    closeColl s ix c 1 reason (collDetail mask det off offRank c.nonfinite c.overflow)

/-- A peer's ABORT: PEER_ABORT with the record it carries, sent on once (06 R221). -/
def peerAbort (s : State) (ix : Nat) (rec : List Byte) : State :=
  match tget s.sre.colls ix with
  | none => s
  | some c =>
    let s := sendAborts s c rec
    closeColl s ix c 1 Sc.peerAbort (collDetail (fld rec 1 1) (fld rec 2 2) (fld rec 4 2) (fld rec 6 2) c.nonfinite c.overflow)

/-- Whether CHECK_DUAL applies to a collective: the GLOBAL section's CHECK_MODE, or its descriptor (06 R227). -/
def checkDual (s : State) (c : Coll) : Bool := bit (globCtl s) 7 || bit (cdFlags c.desc) 1

/-- A check of a collective context fails: the work is done again, and a second failure aborts it with CHECK_FAIL (06 R226, R227). -/
def collCheck (s : State) (ix cls loc : Nat) (twice : Bool) : State :=
  match tget s.sre.colls ix with
  | none => s
  | some c =>
    let s := checkRecord s cls 3 loc 4 Sc.checkFail (some (collWho c (cdRedShelf c.desc) 0)) (cdGroup c.desc + 2 ^ 32 * cdColl c.desc) twice
    if twice then abortColl s ix Sc.checkFail 0 c.me else s

/-- The checks over `n` elements that the datapath combines or converts, before anything of them leaves the SRE (06 R226, R227). -/
def sreWork (s : State) (ix n : Nat) : State :=
  match s.sre.flaw, tget s.sre.colls ix with
  | some (dual, twice), some c =>
    if n = 0 then s
    else collCheck { s with sre := { s.sre with flaw := none } } ix (if dual && checkDual s c then Flc.sreDual else Flc.sreResidue) 0 twice
  | _, _ => s

/-- DONE once nothing is owed either way (06 R223). -/
def finishColl (s : State) (ix : Nat) : State :=
  match tget s.sre.colls ix with
  | none => s
  | some c =>
    if c.owedIn = 0 ∧ c.owedOut = 0 then closeColl s ix c 0 0#8 (collDetail 0 0 0 0 c.nonfinite c.overflow) else s

/-! ### Sending (06 R205, R213) -/

/-- Give one sealed message to the ILE and keep it until it is acknowledged; a SEND that cannot go aborts the collective (06 R224). -/
def sreSend (s : State) (ix rank : Nat) (chunk : Bool) (b : List Byte) : State :=
  match tget s.sre.colls ix with
  | none => s
  | some c =>
    let code := sendCode s (memberOf c rank) (cdShape c.desc) b.length
    if code ≠ 0#8 then abortColl s ix code 0 rank
    else
      let u : Unacked := { id := c.nextMsg, rank := rank, chunk := chunk, bytes := b, due := none }
      let s := modColl s ix fun c => { c with unacked := c.unacked ++ [u], nextMsg := c.nextMsg + 1 }
      queueSend s (sreSendOf c (.sre c.gkey (cdColl c.desc) c.nextMsg) rank b)

/-- Whether an EDGE_SEQ may be sent: 0 before the first CREDIT, else up to LIMIT. -/
def mayPass (limit : Option Nat) (seq : Nat) : Bool :=
  match limit with
  | none => seq == 0
  | some l => decide (seq ≤ l)

/-- Send the sealed chunks that an out-edge's LIMIT lets pass, in order. -/
def pumpEdge (s : State) (ix rank : Nat) : State :=
  match tget s.sre.colls ix with
  | none => s
  | some c => match c.outs.find? fun o => o.rank == rank with
    | none => s
    | some o =>
      let go := o.waiting.filter fun w => mayPass o.limit w.1
      let s := modColl s ix fun c => { c with outs := c.outs.map fun x =>
        if x.rank = rank then { x with waiting := x.waiting.filter fun w => !mayPass o.limit w.1 } else x }
      go.foldl (fun s w => sreSend s ix rank true w.2) s

/-- Form, seal and queue the next chunk of an out-edge. -/
def putChunk (s : State) (ix rank : Nat) (k : ChunkId) (data : List Byte) : State :=
  match tget s.sre.colls ix with
  | none => s
  | some c => match c.outs.find? fun o => o.rank == rank with
    | none => s
    | some o =>
      let flags := b2n (cdSparse c.desc) + 2 * b2n k.result
      match sealChunk s c (chunkHeader c 1 flags rank k.hop o.next k.start k.count data.length) data with
      | (.error e, s) => abortColl s ix e 0 c.me
      | (.ok b, s) =>
        let s := modColl s ix fun c => { c with outs := c.outs.map fun x =>
          if x.rank = rank then { x with next := o.next + 1, waiting := tput x.waiting o.next b } else x }
        pumpEdge s ix rank

/-- Send a CREDIT on an in-edge with a LIMIT (06 R213). -/
def sendCredit (s : State) (ix rank limit : Nat) : State :=
  match tget s.sre.colls ix with
  | none => s
  | some c =>
    match sealChunk s c (chunkHeader c 2 0 rank 0 (2 ^ 31 + limit) 0 0 0) [] with
    | (.error e, s) => abortColl s ix e 0 c.me
    | (.ok b, s) =>
      let s := modColl s ix fun c => { c with ins := c.ins.map fun x => if x.rank = rank then { x with limit := limit, since := 0 } else x }
      sreSend s ix rank false b

/-- WINDOW as committed; a context keeps the one it opened with (06 R213; 15 R464). -/
def sreWindow (s : State) : Nat := bits s.sre.ctrl.toNat 0 5

/-- The bytes of the chunk store (06 R213). -/
def storeCap (s : State) : Nat := 4096 * 2 ^ s.cfg.sreLog2

/-- The chunk store every open edge may come to need. -/
def storeNeed (s : State) : Nat :=
  (s.sre.colls.map fun x => (x.2.ins.map fun e => (e.limit + 1 - e.next) * 2 ^ cdChunkLog x.2.desc).sum).sum

/-- Raise the LIMIT of one edge where half a window has been consumed and the store has room. -/
def raiseEdge (s : State) (ix rank : Nat) : State :=
  match tget s.sre.colls ix with
  | none => s
  | some c => match c.ins.find? fun e => e.rank == rank with
    | none => s
    | some e =>
      let w := c.window
      let limit := e.next - 1 + w
      if e.since < max 1 (w / 2) ∨ limit ≤ e.limit ∨ storeCap s < storeNeed s + (limit - e.limit) * 2 ^ cdChunkLog c.desc then s
      else sendCredit s ix rank limit

/-- Raise every LIMIT that may now be raised. -/
def raiseAll (s : State) : State :=
  (s.sre.colls.flatMap fun x => x.2.ins.map fun e => (x.1, e.rank)).foldl (fun s x => raiseEdge s x.1 x.2) s

/-! ### Reducing (06 R202, R203, R215) -/

/-- This member's own elements of a range of units. -/
def ownPart (c : Coll) (start n : Nat) : List Word × List Bool :=
  ((c.own.drop (unitElem c.desc start)).take (unitElems c.desc start n), (c.present.drop start).take n)

/-- Two partials of a range combined. -/
def joinPart (d : List Byte) (a b : List Word × List Bool) : List Word × List Bool :=
  (List.zipWith (combine d) a.1 b.1, List.zipWith (fun x y => x || y) a.2 b.2)

/-- The chunk of a hop that starts at a unit, as an out-edge's schedule has it. -/
def outChunk (c : Coll) (rank hop start : Nat) : Option ChunkId :=
  (edgeChunks c.desc c.me rank).find? fun k => k.hop == hop && k.start == start

/-- Send a partial on to a rank. -/
def sendPartial (s : State) (ix rank hop start : Nat) (p : List Word × List Bool) : State :=
  match tget s.sre.colls ix with
  | none => s
  | some c => match outChunk c rank hop start with
    | none => s
    | some k => putChunk s ix rank k (chunkData c.desc 4 k.start k.count (p.1.map (·.toNat)) p.2)

/-- Write result elements at DST (06 R200): REDUCE_SCATTER has this member's own segment only. -/
def writeResult (s : State) (ix start : Nat) (vals : List Nat) (m : MemIn) : State × MemIn :=
  match tget s.sre.colls ix with
  | none => (s, m)
  | some c =>
    let d := c.desc
    let base := if cdOp d = 2 then unitElem d (segUnits (cdUnits d) (cdSize d) c.me).1 else 0
    if vals.isEmpty ∨ (cdOp d = 3 ∧ c.me ≠ 0) then (s, m)
    else
      let addr := cdDst d + (unitElem d start - base) * cdOutSize d
      match writeBytes s (collWho c (cdDstShelf d) addr) (packWords (cdOutSize d) vals) (cdClass d) m with
      | (.error e, s, m) => (abortColl s ix e 0 c.me, m)
      | (.ok (), s, m) => (s, m)

/-- The key under which finished units wait for their result chunk. -/
def doneKey (start : Nat) : Nat := 2 ^ 40 + start

/-- Send a result chunk to every rank that takes results from here, once all its units are finished. -/
def flushResult (s : State) (ix : Nat) (hop : Nat) (k : Nat × Nat) : State :=
  match tget s.sre.colls ix with
  | none => s
  | some c =>
    let parts := c.acc.filter fun a => decide (doneKey k.1 ≤ a.1) && decide (a.1 < doneKey (k.1 + max 1 k.2))
    if parts.isEmpty ∨ (parts.map fun a => a.2.1).sum ≠ k.2 then s
    else
      let vals := parts.flatMap fun a => a.2.2.1.map (·.toNat)
      let pres := parts.flatMap fun a => a.2.2.2
      let s := modColl s ix fun c => { c with acc := c.acc.filter fun a => !parts.any fun p => p.1 == a.1 }
      let dests := (outRanks c.desc c.me).filter fun r => !(cdTree c.desc && treeParent c.desc c.me == some r)
      dests.foldl (fun s r => putChunk s ix r { hop := hop, result := true, start := k.1, count := k.2 }
        (chunkData c.desc (cdOutSize c.desc) k.1 k.2 vals pres)) s

/-- The output elements of fully reduced units; an absent block of a sparse collective is zero (06 R195, R196, R200). -/
def partOut (d : List Byte) (start n : Nat) (p : List Word × List Bool) : List (Nat × Bool × Bool) :=
  if cdSparse d then
    List.zipWith (fun w here => if here then elemOut d w else (0, false, false)) p.1
      ((List.range n).flatMap fun i => List.replicate (unitElems d (start + i) 1) (p.2.getD i false))
  else p.1.map (elemOut d)

/-- Units fully reduced here: SCALE, conversion and counts, the write, and the result chunks they complete (06 R195, R196, R202). -/
def finishPart (s : State) (ix start n : Nat) (p : List Word × List Bool) (m : MemIn) : State × MemIn :=
  let s := sreWork s ix p.1.length
  match tget s.sre.colls ix with
  | none => (s, m)
  | some c =>
    let d := c.desc
    let o := partOut d start n p
    let vals := o.map (·.1)
    let s := modColl s ix fun c => { c with
      nonfinite := c.nonfinite + (o.filter (·.2.1)).length, overflow := c.overflow + (o.filter (·.2.2)).length
      acc := if cdGather d then tput c.acc (doneKey start) (n, vals.map (BitVec.ofNat 32), p.2) else c.acc }
    let (s, m) := writeResult s ix start vals m
    if !cdGather d then (s, m)
    else
      let g := if cdTree d then (0, cdUnits d) else segUnits (cdUnits d) (cdSize d) c.me
      ((chunksOf g.1 g.2 (chunkUnits d true)).foldl (fun s k => flushResult s ix (if cdTree d then 1 else cdSize d - 1) k) s, m)

/-- A partial of this member's tree range with all its children added: to the parent, or finished at the root (06 R203). -/
def treeUp (s : State) (ix start n : Nat) (p : List Word × List Bool) (m : MemIn) : State × MemIn :=
  match tget s.sre.colls ix with
  | none => (s, m)
  | some c => match treeParent c.desc c.me with
    | some r => (sendPartial s ix r 0 start p, m)
    | none => finishPart s ix start n p m

/-- Consume a chunk of partials (06 R202, R203). -/
def takePartial (s : State) (ix : Nat) (k : ChunkId) (p : List Word × List Bool) (m : MemIn) : State × MemIn :=
  let s := sreWork s ix p.1.length
  match tget s.sre.colls ix with
  | none => (s, m)
  | some c =>
    let d := c.desc
    if cdTree d then
      let a := (tget c.acc k.start).getD (0, (ownPart c k.start k.count).1, (ownPart c k.start k.count).2)
      let q := joinPart d p (a.2.1, a.2.2)
      if a.1 + 1 = (treeChildren d c.me).length then
        treeUp (modColl s ix fun c => { c with acc := tdel c.acc k.start }) ix k.start k.count q m
      else (modColl s ix fun c => { c with acc := tput c.acc k.start (a.1 + 1, q.1, q.2) }, m)
    else
      let q := joinPart d p (ownPart c k.start k.count)
      if k.hop + 2 < cdSize d then (sendPartial s ix ((c.me + 1) % cdSize d) (k.hop + 1) k.start q, m)
      else finishPart s ix k.start k.count q m

/-- Consume a chunk of results: write it, and forward it as it is (06 R202, R203). -/
def takeResult (s : State) (ix : Nat) (k : ChunkId) (vals : List Nat) (data : List Byte) (m : MemIn) : State × MemIn :=
  match tget s.sre.colls ix with
  | none => (s, m)
  | some c =>
    let d := c.desc
    let (s, m) := writeResult s ix k.start vals m
    if cdTree d then
      ((treeChildren d c.me).foldl (fun s r => putChunk s ix r k data) s, m)
    else if k.hop + 1 < 2 * (cdSize d - 1) then (putChunk s ix ((c.me + 1) % cdSize d) { k with hop := k.hop + 1 } data, m)
    else (s, m)

/-- Consume one opened chunk on an in-edge (06 R213). -/
def consume (s : State) (ix rank : Nat) (k : ChunkId) (data : List Byte) (m : MemIn) : State × MemIn :=
  match tget s.sre.colls ix with
  | none => (s, m)
  | some c =>
    match readChunk c.desc (if k.result then cdOutSize c.desc else 4) k.start k.count data with
    | none => (abortColl s ix Sc.chunkMalformed 0 rank, m)
    | some (vals, pres) =>
      let s := modColl s ix fun c => { c with
        owedIn := c.owedIn - 1
        ins := c.ins.map fun e => if e.rank = rank then { e with next := e.next + 1, since := e.since + 1, at_ := s.tm.ns } else e }
      if k.result then takeResult s ix k vals data m
      else takePartial s ix k (vals.map (BitVec.ofNat 32), pres) m

/-- Consume what the chunk store holds on an in-edge, in EDGE_SEQ order, each CREDIT in its turn (06 R213, R214). -/
def consumeHeld (ix rank : Nat) : Nat → State → MemIn → State × MemIn
  | 0, s, m => (s, m)
  | f + 1, s, m =>
    match tget s.sre.colls ix with
    | none => (s, m)
    | some c => match c.ins.find? fun e => e.rank == rank with
      | none => (s, m)
      | some e => match tget e.held e.next, (edgeChunks c.desc rank c.me)[e.next]? with
        | some b, some k =>
          let s := modColl s ix fun c => { c with ins := c.ins.map fun x => if x.rank = rank then { x with held := tdel x.held e.next } else x }
          match openChunk s c b with
          | .error x => (abortColl s ix x 0 rank, m)
          | .ok data =>
            let (s, m) := consume s ix rank k data m
            consumeHeld ix rank f (raiseEdge s ix rank) m
        | _, _ => (s, m)

/-! ### Arrival (06 R211 to R214) -/

/-- R211 step 1 on the header of a message for a context: reserved fields and encodings, ranks, and an edge of the schedule. CREDIT and ABORT carry
zero in FLAGS, ELEM_START and ELEM_COUNT (log 140). -/
def headerOk (c : Coll) (b : List Byte) : Bool :=
  let msg := fld b 0 1
  let src := fld b 2 2
  let seq := fld b 0x14 4
  let len := fld b 0x24 4
  decide (96 ≤ b.length) && decide (b.length = 96 + len) && decide (1 ≤ msg ∧ msg ≤ 3) && decide (fld b 1 1 < 4) && zeroBytes (slice b 0x4E 2)
    && decide (src < cdSize c.desc) && fld b 4 2 == c.me
    && (if msg = 1 then decide (seq < 2 ^ 31) && (inRanks c.desc c.me).contains src
        else fld b 1 1 == 0 && fld b 6 2 == 0 && fld b 0x18 8 == 0 && fld b 0x20 4 == 0
          && (if msg = 2 then decide (2 ^ 31 ≤ seq) && len == 0 && (outRanks c.desc c.me).contains src
              else seq == 0xFFFFFFFF && len == 16 && (neighbours c.desc c.me).contains src))

/-- The in-edge a message of a rank uses. -/
def inEdgeOf (c : Coll) (src : Nat) : Option InEdge := c.ins.find? fun e => e.rank == src

/-- The part of a header that the schedule and the credits fix: of DATA its HOP, FLAGS, range and LIMIT (06 R205, R207, R214). -/
def scheduleOk (c : Coll) (b : List Byte) : Bool :=
  let src := fld b 2 2
  let seq := fld b 0x14 4
  fld b 0 1 != 1
    || ((match (edgeChunks c.desc src c.me)[seq]? with
         | some k => fld b 6 2 == k.hop && fld b 0x18 8 == k.start && fld b 0x20 4 == k.count
             && fld b 1 1 == b2n (cdSparse c.desc) + 2 * b2n k.result
         | none => false)
        && (inEdgeOf c src).any fun e => decide (seq ≤ e.limit))

/-- The checks of a message for a context, in the order of R211: its plaintext, or the reason with its CLASS_MASK. -/
def msgVerdict (s : State) (c : Coll) (b : List Byte) : Except (Code × Nat) (List Byte) :=
  let diff := digestDiff c.digests (slice b 0x28 32)
  if !headerOk c b then .error (Sc.chunkMalformed, 0)
  else if diff ≠ 0 then .error (Sc.descMismatch, diff)
  else match openChunk s c b with
    | .error e => .error (e, 0)
    | .ok data => if scheduleOk c b && (fld b 0 1 != 3 || zeroBytes (data.drop 8)) then .ok data else .error (Sc.chunkMalformed, 0)

/-- A DATA chunk already consumed, or held, is discarded (06 R214). -/
def msgSpent (c : Coll) (b : List Byte) : Bool :=
  fld b 0 1 == 1 && (inEdgeOf c (fld b 2 2)).any fun e => decide (fld b 0x14 4 < e.next) || (tget e.held (fld b 0x14 4)).isSome

/-- A message that has passed its checks is kept: a chunk in the chunk store, the LIMIT of a CREDIT at its out-edge (06 R213, R214). -/
def keepMessage (s : State) (ix : Nat) (b : List Byte) : State :=
  let src := fld b 2 2
  let seq := fld b 0x14 4
  if fld b 0 1 = 1 then modColl s ix fun c => { c with ins := c.ins.map fun x => if x.rank = src then { x with held := tput x.held seq b } else x }
  else if fld b 0 1 = 2 then
    let raise := fun (x : OutEdge) => if x.limit.all fun l => decide (l < seq - 2 ^ 31) then { x with limit := some (seq - 2 ^ 31) } else x
    modColl s ix fun c => { c with outs := c.outs.map fun x => if x.rank = src then raise x else x }
  else s

/-- A message that matches an open context (06 R211, R213, R214, R221). -/
def collMessage (s : State) (ix : Nat) (c : Coll) (b : List Byte) (m : MemIn) : State × MemIn :=
  let src := fld b 2 2
  let (ok, s) := match liveHalf s c.slot (fld b 0x48 4) with
    | some half => if msgSpent c b then (true, s) else chunkPass s c half src
    | none => (true, s)
  if msgSpent c b then (s, m)
  else if !ok then (abortColl s ix Rsn.laneCheck 0 src, m)
  else match msgVerdict s c b with
    | .error (e, mask) => (abortColl s ix e mask src, m)
    | .ok data =>
      let s := keepMessage s ix b
      if fld b 0 1 = 1 then consumeHeld ix src 65 s m
      else if fld b 0 1 = 2 then (pumpEdge s ix src, m)
      else (peerAbort s ix data, m)

/-- The group table's entry of a group (06 R208). -/
def groupEnt (s : State) (g : Nat) : Option (Nat × GroupEnt) := s.sre.groups.find? fun x => x.2.group == g

/-- 1 KiB units of the early-arrival buffer in use (06 R212). -/
def eabUnits (l : List EabMsg) : Nat := ((l.filter fun e => !e.lost).map fun e => ceilDiv e.bytes.length 1024).sum

/-- Whether an early message is a CREDIT on the same edge as another. -/
def sameCredit (a b : List Byte) : Bool := fld a 0 1 == 2 && fld b 0 1 == 2 && slice a 2 4 == slice b 2 4 && slice a 8 12 == slice b 8 12

/-- A message for queue 0xFFFF: to its context, to the early-arrival buffer, or late; none where the buffer has no room, and the target
answers NACK_RETRY (06 R211, R212). -/
def sreMessage (s : State) (src : Nat) (b : List Byte) (m : MemIn) : Option (State × MemIn) :=
  match findColl s (fld b 8 4 + 2 ^ 32 * fld b 0x0C 4) (fld b 0x10 4) with
  | some (ix, c) =>
    let (s, m) := collMessage s ix c b m
    some (raiseAll (finishColl s ix), m)
  | none =>
    let early := decide (96 ≤ b.length) && (match groupEnt s (fld b 8 4) with
      | none => true
      | some (_, g) => decide (g.epoch < fld b 0x0C 4) || decide (g.last < fld b 0x10 4))
    if !early then some ({ s with sre := { s.sre with lateMsgs := satAdd 32 s.sre.lateMsgs 1 } }, m)
    else
      let l := s.sre.eab.filter fun e => !sameCredit e.bytes b
      let hold := 1000000 * max (bits s.sre.eabCtrl.toNat 0 16) (fld b 0x4C 2)
      if 2 ^ s.cfg.eabLog2 / 1024 < eabUnits l + ceilDiv b.length 1024 then none
      else some ({ s with sre := { s.sre with eab := l ++ [{ src := src, until_ := s.tm.ns + hold, bytes := b }] } }, m)

/-- A SEND of the SRE has ended (06 R223, R224). -/
def sreSent (s : State) (gkey coll id : Nat) (code : Code) : State :=
  match findColl s gkey coll with
  | none => s
  | some (ix, c) => match c.unacked.find? fun u => u.id == id with
    | none => s
    | some u =>
      if code = 0#8 then
        finishColl (modColl s ix fun c => { c with
          unacked := c.unacked.filter fun x => x.id != id, owedOut := if u.chunk then c.owedOut - 1 else c.owedOut }) ix
      else if code = Rsn.deadTarget then
        modColl s ix fun c => { c with unacked := c.unacked.map fun x => if x.id = id then { x with due := some (s.tm.ns + 16000) } else x }
      else raiseAll (abortColl s ix code 0 u.rank)

/-! ### Opening a context (06 R209, R210, Table 6-7) -/

/-- S2: the group table after a descriptor, or why it is refused (06 R209). -/
def groupCheck (s : State) (d : List Byte) : Except Code State :=
  let g : GroupEnt := { group := cdGroup d, epoch := cdEpoch d, last := cdColl d }
  let put := fun i => { s with sre := { s.sre with groups := tput s.sre.groups i g } }
  match groupEnt s (cdGroup d) with
  | some (i, g) =>
    if g.epoch < cdEpoch d ∨ (g.epoch = cdEpoch d ∧ g.last < cdColl d) then .ok (put i) else .error Sc.groupOrder
  | none =>
    if cdEpoch d < s.sre.floor then .error Sc.groupOrder
    else match freeIndex s.sre.groups 0 1024 with
      | none => .error Sc.groupTableFull
      | some i => .ok (put i)

/-- A PAIR slot resolved as volume 6, under the half of generation PAIR_GEN (06 S3; 03 Table 3-2). -/
def pairHalf (s : State) (w : Who) (d : List Byte) (slot : Nat) : Except Code Nat :=
  match slotAt s slot with
  | none => .error Rsn.keyAbsent
  | some v =>
    if v.kind ≠ 2 ∨ v.tenant ≠ shTenant (cdRedShelf d) then .error Rsn.keyAbsent
    else if !k4 s v w 6 then .error Rsn.keyRights
    else match liveHalf s slot (cdPairGen d) with
      | some h => .ok h
      | none => .error Rsn.keyGenStale

/-- The pairs of a MASKED collective: rank, slot and half of each other owner, or the first failing one's reason. -/
def pairHalves (s : State) (w : Who) (d : List Byte) : List Nat → Except Code (List (Nat × Nat × Nat))
  | [] => .ok []
  | o :: r =>
    match pairHalf s w d (cdPair d o) with
    | .error e => .error e
    | .ok h => match pairHalves s w d r with
      | .error e => .error e
      | .ok l => .ok ((o, cdPair d o, h) :: l)

/-- The other owners of a MASKED collective that is no barrier (06 R204, R218). -/
def otherOwners (d : List Byte) : List Nat :=
  if cdMasked d && !cdBarrier d then (List.range (cdOwners d)).filter fun o => o != cdRank d else []

/-- S3: the slot and half of RED_SHELF and the pairs. -/
def collKeys (s : State) (l : Launch) (d : List Byte) : Except Code (Nat × Nat × Nat × List (Nat × Nat × Nat)) :=
  let w := engWho 3 l.world (some l.slice) (some l.context) (cdRedShelf d) 0
  match resolve s w [2] with
  | .error e => .error e
  | .ok slot => match slotAt s slot with
    | none => .error Rsn.keyAbsent
    | some v =>
      if !k6 v (curHalf v) 2 then .error Rsn.keyExhausted
      else match pairHalves s w d (otherOwners d) with
        | .error e => .error e
        | .ok p => .ok (slot, curHalf v, v.genCur, p)

/-- The members a group table names, where S4 accepts it. -/
def groupMembers (s : State) (d table : List Byte) : Option (List Nat) :=
  let l := unpackWords 2 (cdSize d) table
  if l.all (fun x => decide (x < 16384)) && l[cdRank d]? == ownMember s && (ownMember s).isSome && decide l.Nodup then some l else none

/-- The mask keys of the other owners (06 R218). -/
def maskKeys (s : State) (d : List Byte) (p : List (Nat × Nat × Nat)) : List (Nat × BitVec 256) :=
  p.map fun x => (x.1, keyOf ((derive s (slotHandle s x.2.1 x.2.2 0x0312 6 256 0 (cdStep d) false)).getD []))

/-- The masked contributions of the input values, with the counts of NaNs and saturations (06 R217, R218). -/
def maskedOwn (d : List Byte) (seed : BitVec 256) (ks : List (Nat × BitVec 256)) : Nat → List Nat → List Word × Nat × Nat
  | _, [] => ([], 0, 0)
  | e, x :: r =>
    let q := if cdDtype d = 5 then (BitVec.ofNat 32 x, false, false)
      else toFixed (cdFrac d) ((maskWord seed 0 e).toNat % 2 ^ 24) (fpDec (dtypeFmt (cdDtype d)) x)
    let t := maskedOwn d seed ks (e + 1) r
    ((q.1 + maskSum (cdRank d) (cdColl d) e ks) :: t.1, t.2.1 + b2n q.2.1, t.2.2 + b2n q.2.2)

/-- The blocks of a packed sparse input, absent ones as zero (06 R200). -/
def sparseOwn (d : List Byte) (map data : List Byte) : List Nat := spreadBlocks d (dtypeSize (cdDtype d)) 0 (cdUnits d) 0 map data

/-- This member's contribution, read through the IME: words, presence bits and counts, or the reason a read fails. -/
def readOwn (s : State) (c : Coll) (ks : List (Nat × BitVec 256)) (m : MemIn) :
    Except Code (List Word × List Bool × Nat × Nat) × State × MemIn :=
  let d := c.desc
  let w := fun a => collWho c (cdSrcShelf d) a
  let size := dtypeSize (cdDtype d)
  if cdBarrier d then (.ok ([], [], 0, 0), s, m)
  else if cdSparse d then
    match readBytes s (w (cdIndex d)) (cdClass d) (ceilDiv (cdUnits d) 8) m with
    | (.error e, s, m) => (.error e, s, m)
    | (.ok map, s, m) =>
      let here := (List.range (cdUnits d)).map (bitAt map)
      let n := ((List.range (cdUnits d)).map fun i => if bitAt map i then unitElems d i 1 else 0).sum
      match readBytes s (w (cdSrc d)) (cdClass d) (n * size) m with
      | (.error e, s, m) => (.error e, s, m)
      | (.ok b, s, m) => (.ok ((sparseOwn d map b).map (elemIn (cdDtype d)), here, 0, 0), s, m)
  else
    match readBytes s (w (cdSrc d)) (cdClass d) (cdCount d * size) m with
    | (.error e, s, m) => (.error e, s, m)
    | (.ok b, s, m) =>
      let v := unpackWords size (cdCount d) b
      if cdMasked d then
        let r := maskedOwn d c.seed ks 0 v
        (.ok (r.1, [], r.2.1, r.2.2), s, m)
      else (.ok (v.map (elemIn (cdDtype d)), [], 0, 0), s, m)

/-- What a context sends of its own accord: the partials of hop 0, or its whole result where it is alone (06 R202 to R204). -/
def startColl (s : State) (ix : Nat) (m : MemIn) : State × MemIn :=
  match tget s.sre.colls ix with
  | none => (s, m)
  | some c =>
    let d := c.desc
    if cdSize d = 1 then finishPart s ix 0 (cdUnits d) (ownPart c 0 (cdUnits d)) m
    else if cdTree d then
      (if (treeChildren d c.me).isEmpty then
        ((chunksOf 0 (cdUnits d) (chunkUnits d false)).foldl (fun s k =>
          sendPartial s ix ((treeParent d c.me).getD 0) 0 k.1 (ownPart c k.1 k.2)) s, m)
       else (s, m))
    else
      let g := segUnits (cdUnits d) (cdSize d) ((c.me + cdSize d - 1) % cdSize d)
      ((chunksOf g.1 g.2 (chunkUnits d false)).foldl (fun s k =>
        sendPartial s ix ((c.me + 1) % cdSize d) 0 k.1 (ownPart c k.1 k.2)) s, m)

/-- The place of a reason in the order of R222; CHUNK_MALFORMED, which the order does not name, goes as the first check of R211 (log 142). -/
def causeRank (c : Code) : Nat :=
  if c = Rsn.tampered then 0 else if c = Sc.checkFail then 1 else if c = Sc.chunkMalformed then 2 else if c = Sc.descMismatch then 3
  else if c = Sc.chunkAuth then 4 else if 0x20 ≤ c.toNat ∧ c.toNat ≤ 0x2A then 5 else if c = Sc.peerAbort then 7
  else if c = Sc.cancelled then 8 else if c = Sc.collTimeout then 9 else 6

/-- What a claimed message ends the context with, if anything: reason, CLASS_MASK, rank, and the record of an ABORT. -/
def earlyCause (s : State) (c : Coll) (b : List Byte) : Option (Code × Nat × Nat × List Byte) :=
  match msgVerdict s c b with
  | .error (e, mask) => some (e, mask, fld b 2 2, [])
  | .ok data => if fld b 0 1 = 3 then some (Sc.peerAbort, 0, fld b 2 2, data) else none

/-- S6: the early messages of a context are claimed and matched; of the causes they bring the first in the order of R222 aborts it, else
what they carry is kept. -/
def claimEarly (s : State) (ix : Nat) (c : Coll) : State :=
  let mine := fun (e : EabMsg) => fld e.bytes 8 4 + 2 ^ 32 * fld e.bytes 0x0C 4 == c.gkey && fld e.bytes 0x10 4 == cdColl c.desc
  let l := s.sre.eab.filter mine
  let s := { s with sre := { s.sre with eab := s.sre.eab.filter fun e => !mine e } }
  match bestBy (fun x => [causeRank x.1]) ((l.filter fun e => !e.lost).filterMap fun e => earlyCause s c e.bytes) with
  | some (e, mask, rank, rec) => if e = Sc.peerAbort then peerAbort s ix rec else abortColl s ix e mask rank
  | none =>
    if l.any fun e => e.lost then abortColl s ix Rsn.arrayError 0 c.me else l.foldl (fun s e => keepMessage s ix e.bytes) s

/-- S7: a CREDIT of WINDOW - 1 on every in-edge (06 R213). -/
def firstCredits (s : State) (ix : Nat) : State :=
  match tget s.sre.colls ix with
  | none => s
  | some c => c.ins.foldl (fun s e => sendCredit s ix e.rank (c.window - 1)) s

/-- What an open context does of its own accord and with the chunks it has claimed (06 R202, R213). -/
def runColl (s : State) (ix : Nat) (m : MemIn) : State × MemIn :=
  match tget s.sre.colls ix with
  | none => (s, m)
  | some c =>
    let x := c.ins.foldl (fun (x : State × MemIn) e => consumeHeld ix e.rank 65 x.1 x.2) (startColl s ix m)
    (c.outs.foldl (fun s o => pumpEdge s ix o.rank) x.1, x.2)

/-- The values of a collective that is not opened: the member that found the cause, itself, and its rank where its descriptor gives one
(06 R223; log 143). -/
def refusedDetail (s : State) (rank : Nat) : List Byte :=
  let me := (ownMember s).getD 0
  collDetail 0 me me rank 0 0

/-- A collective that is not opened: REFUSED with its reason, and no ABORT (06 R210). -/
def refuseColl (s : State) (l : Launch) (rank : Nat) (c : Code) : State :=
  sreReason (keyReason (endFlight s l.flight 2 c (refusedDetail s rank)) c) c

/-- S4 to S7 of a descriptor whose keys have resolved. -/
def openColl (s : State) (l : Launch) (ix : Nat) (d : List Byte) (ks : Nat × Nat × Nat × List (Nat × Nat × Nat)) (m : MemIn) : State :=
  match readBytes s (engWho 3 l.world (some l.slice) (some l.context) (cdGroupShelf d) (cdTable d)) (cdClass d) (2 * cdSize d) m with
  | (.error e, s, _) => refuseColl s l (cdRank d) e
  | (.ok table, s, m) =>
    match groupMembers s d table with
    | none => refuseColl s l (cdRank d) Sc.groupTableBad
    | some mem =>
      if cdMasked d && !drbgServes s then refuseColl s l (cdRank d) Rsn.drbgFail
      else
        let (seed, s) := if cdMasked d then drbgTake 256 s else (0#256, s)
        let n := cdSize d
        let me := cdRank d
        let t := if cdTimeout d = 0 then bits s.sre.ctrl.toNat 16 16 else cdTimeout d
        let c : Coll :=
          { flight := l.flight, world := l.world, slice := l.slice, context := l.context, deadline := l.deadline, desc := d, members := mem,
            digests := cdDigests d table, slot := ks.1, half := ks.2.1, gen := ks.2.2.1, seed := seed, started := s.tm.ns, timeoutMs := t, window := sreWindow s,
            own := [], present := [], acc := [], ins := (if n = 1 then [] else inRanks d me).map fun r => { rank := r, at_ := s.tm.ns },
            outs := (if n = 1 then [] else outRanks d me).map fun r => { rank := r }, unacked := [], nextMsg := 0,
            owedIn := if n = 1 then 0 else ((inRanks d me).map fun r => (edgeChunks d r me).length).sum,
            owedOut := if n = 1 then 0 else ((outRanks d me).map fun r => (edgeChunks d me r).length).sum, nonfinite := 0, overflow := 0 }
        let s := { s with sre := { s.sre with colls := tput s.sre.colls ix c } }
        let keys := maskKeys s d ks.2.2.2
        let s := firstCredits (claimEarly s ix c) ix
        if (tget s.sre.colls ix).isNone then raiseAll s
        else match readOwn s c keys m with
          | (.error e, s, _) => raiseAll (abortColl s ix e 0 me)
          | (.ok o, s, m) =>
            let s := modColl s ix fun c => { c with own := o.1, present := o.2.1, nonfinite := o.2.2.1, overflow := o.2.2.2 }
            let s := if cdMasked d then sreWork s ix o.1.length else s
            raiseAll (finishColl (runColl s ix m).1 ix)

/-- CONTEXT_OPEN: the oldest waiting descriptor, where a context is free; it waits while random numbers have to (06 R210). -/
def contextOpen (s : State) (m : MemIn) : State :=
  match s.sre.launch, freeIndex s.sre.colls 0 64 with
  | l :: r, some ix =>
    if !s.pin.pwrok || coreDown s then s
    else
      let s' := { s with sre := { s.sre with launch := r } }
      match readBytes s' (engWho 3 l.world (some l.slice) (some l.context) l.shelf l.addr) (flightCls s l.flight) 144 m with
      | (.error e, s', _) => refuseColl s' l 0 e
      | (.ok d, s', m) =>
        let bad := cdCheck (forerunner s') d
        if bad ≠ 0#8 then refuseColl s' l (cdRank d) bad
        else if cdMasked d && drbgWaits s then s
        else match groupCheck s' d with
          | .error e => refuseColl s' l (cdRank d) e
          | .ok s' => match collKeys s' l d with
            | .error e => refuseColl s' l (cdRank d) e
            | .ok ks => openColl s' l ix d ks m
  | _, _ => s

/-! ### Other endings (06 R222 to R225) -/

/-- The rank a context has waited on longest: its oldest unfinished in-edge, else the peer of its oldest message (06 R223). -/
def waitedOn (c : Coll) : Nat :=
  let open_ := c.ins.filter fun e => decide (e.next < (edgeChunks c.desc e.rank c.me).length)
  match (open_.mergeSort fun a b => decide (a.at_ ≤ b.at_)).head? with
  | some e => e.rank
  | none => match c.unacked.head? with
    | some u => u.rank
    | none => match c.outs.find? fun o => !o.waiting.isEmpty with
      | some o => o.rank
      | none => c.me

/-- COLL_TIMEOUT of an open context, once its timeout has run since S1 (06 R224). -/
def collTimeout (s : State) (gkey coll : Nat) : State :=
  match findColl s gkey coll with
  | some (ix, c) => if c.started + 1000000 * c.timeoutMs ≤ s.tm.ns then raiseAll (abortColl s ix Sc.collTimeout 0 (waitedOn c)) else s
  | none => s

/-- CHUNK_RESEND: messages whose SEND ended with DEAD_TARGET go again, bit for bit, 16 µs later (06 R224). -/
def chunkResend (s : State) (gkey coll : Nat) : State :=
  match findColl s gkey coll with
  | some (ix, c) =>
    let now := fun (u : Unacked) => u.due.any fun t => decide (t ≤ s.tm.ns)
    let due := c.unacked.filter now
    let s := modColl s ix fun c => { c with unacked := c.unacked.map fun u => if now u then { u with due := none } else u }
    due.foldl (fun s u => queueSend s (sreSendOf c (.sre c.gkey (cdColl c.desc) u.id) u.rank u.bytes)) s
  | none => s

/-- EAB_EXPIRE: a message held longer than its time is discarded and counted (06 R212). -/
def eabExpire (s : State) (i : Nat) : State :=
  match s.sre.eab[i]? with
  | some e =>
    if e.until_ < s.tm.ns then { s with sre := { s.sre with eab := s.sre.eab.eraseIdx i, eabExpired := satAdd 16 s.sre.eabExpired 1 } } else s
  | none => s

/-- GROUP_RETIRE: refused while a context of the group is open (06 R209; 15 R464). -/
def groupRetire (s : State) (g : Nat) : State :=
  if s.sre.colls.any fun x => cdGroup x.2.desc == g then { s with sre := { s.sre with groupStatus := 1#32 } }
  else match groupEnt s g with
    | none => { s with sre := { s.sre with groupStatus := 2#32 } }
    | some (i, e) =>
      { s with sre := { s.sre with groupStatus := 0#32, groups := tdel s.sre.groups i,
                                   floor := max s.sre.floor (min 0xFFFFFFFF (e.epoch + 1)) } }

/-- Cancellation of a COLLECTIVE command: an open context aborts, a waiting descriptor is refused (06 R225). -/
def sreCancel (s : State) (flight : Nat) : State :=
  match s.sre.colls.find? fun x => x.2.flight == flight with
  | some (ix, c) => raiseAll (abortColl s ix Sc.cancelled 0 c.me)
  | none => match s.sre.launch.find? fun l => l.flight == flight with
    | some l => refuseColl { s with sre := { s.sre with launch := s.sre.launch.filter fun x => x.flight != flight } } l 0 Sc.cancelled
    | none => s

/-- A tamper zeroisation ends every context with TAMPERED and sends nothing (06 R225). -/
def sreTamper (s : State) : State :=
  s.sre.colls.foldl (fun s x => closeColl s x.1 x.2 1 Rsn.tampered
    (collDetail 0 (memberOf x.2 x.2.me) (memberOf x.2 x.2.me) x.2.me x.2.nonfinite x.2.overflow)) s

/-- A COLLECTIVE command reaches the launch queue of 256, or is refused (06 R210; 10 R318). -/
def sreLaunch (s : State) (l : Launch) : State :=
  if 256 ≤ s.sre.launch.length then
    endFlight s l.flight 2 Rsn.queueFull (refusedDetail s 0)
  else { s with sre := { s.sre with launch := s.sre.launch ++ [l] } }

/-! ### The commands -/

/-- CONTEXT_OPEN (06 R210). -/
def execContextOpen (m : MemIn) (s : State) : Host.Outcome State Fault Refusal := .next (contextOpen s m)

/-- EAB_EXPIRE (06 R212). -/
def execEabExpire (position : Nat) (s : State) : Host.Outcome State Fault Refusal := .next (eabExpire s position)

/-- COLL_TIMEOUT (06 R224). `group` is GROUP_ID with GROUP_EPOCH above it. -/
def execCollTimeout (group coll : Nat) (s : State) : Host.Outcome State Fault Refusal := .next (collTimeout s group coll)

/-- CHUNK_RESEND (06 R224). -/
def execChunkResend (group coll : Nat) (s : State) : Host.Outcome State Fault Refusal := .next (chunkResend s group coll)

/-- GROUP_RETIRE (06 R209). -/
def execGroupRetire (group : Word) (s : State) : Host.Outcome State Fault Refusal :=
  .next (ctlWriteBy s 0x5010 fun s => groupRetire s group.toNat)

end Sys2Proof.Machine
end

