-- ==== Sys2Proof/Machine/Strata.lean ====
section
/-!
DEFINITION. The stratum controller: cuts and restores, their messages, holds and manifests, and its commands (08 R252 to R276).
-/
namespace Sys2Proof.Machine

/-! ### Sealing shared by parcels, shards and messages -/

/-- GCM encryption with the tag behind the ciphertext. -/
def gcmSeal (k : BitVec 256) (iv aad p : List Byte) : List Byte :=
  let c := gcmCrypt k iv p
  c ++ blkBytes (gcmTag k iv aad c)

/-- The plaintext of a ciphertext with its tag behind it, where the tag verifies. -/
def gcmOpen (k : BitVec 256) (iv aad b : List Byte) : Option (List Byte) :=
  let c := b.take (b.length - 16)
  if 16 ≤ b.length ∧ blkBytes (gcmTag k iv aad c) = b.drop (b.length - 16) then some (gcmCrypt k iv c) else none

/-- Blocks counted for one GCM message: its text and its tag mask (03 R97; 07 R242 E2). -/
def gcmBlocks (n : Nat) : Nat := ceilDiv n 16 + 1

/-- The last reason of the BCE and the stratum controller. -/
def bceReason (s : State) (c : Code) : State := if c = 0#8 then s else { s with bce := { s.bce with lastReason := c } }

/-- A late or unmatched message (08 R264, R265). -/
def bceLate (s : State) : State := { s with bce := { s.bce with lateMsgs := satAdd 32 s.bce.lateMsgs 1 } }

/-- Blocks that open jobs and cuts have reserved under a half and not yet encrypted (07 R242 E2; 08 R253). -/
def reservedBlocks (s : State) (slot half : Nat) : Nat :=
  ((s.bce.jobs.filter fun j => j.opened && j.slot == slot && j.half == half).map (·.reserved)).sum
    + ((s.bce.cuts.filter fun c => c.2.slot == slot && c.2.half == half).map (·.2.reserved)).sum

/-- K6 with a reservation: what is counted, reserved and asked for stays below the refusal point (07 R242 E2). -/
def k6Room (s : State) (slot : Nat) (v : Slot) (vol n : Nat) : Bool :=
  decide (cntOf v (curHalf v) + n + reservedBlocks s slot (curHalf v) < volLimit vol - 2 ^ 24)

/-- ROLE of the instance: 0 none, 1 member, 2 archivist (12 R376). -/
def roleOf (s : State) : Nat :=
  match s.flash.appoint with
  | some r => if fld r 0x18 8 = instId s then 2 else 1
  | none => 0

/-! ### Descriptor fields (08 Table 8-4) -/

def sdOp (d : List Byte) : Nat := fld d 1 1
def sdMode (d : List Byte) : Nat := fld d 2 1
def sdArch (d : List Byte) : Bool := bit (fld d 3 1) 0
def sdKeyShelf (d : List Byte) : Nat := fld d 4 4
def sdStratum (d : List Byte) : Nat := fld d 8 8
def sdStep (d : List Byte) : Nat := fld d 0x10 8
def sdList (d : List Byte) : Nat := fld d 0x18 8
def sdListShelf (d : List Byte) : Nat := fld d 0x20 4
def sdRegions (d : List Byte) : Nat := fld d 0x24 2
def sdMembers (d : List Byte) : Nat := fld d 0x26 2
def sdRank (d : List Byte) : Nat := fld d 0x28 2
def sdArchIdx (d : List Byte) : Nat := fld d 0x2A 2
def sdClass (d : List Byte) : Nat := fld d 0x2C 1
def sdTimeout (d : List Byte) : Nat := fld d 0x2E 2
def sdManAddr (d : List Byte) : Nat := fld d 0x30 8
def sdManShelf (d : List Byte) : Nat := fld d 0x38 4
def sdAux (d : List Byte) : Nat := fld d 0x40 8
def sdManLen (d : List Byte) : Nat := fld d 0x48 8

/-- C1 and T1 on a descriptor: reserved fields, ranges, and unused fields zero (08 R258). -/
def sdOk (d : List Byte) : Bool :=
  decide (d.length = 80) && fld d 0 1 == 1 && (sdOp d == 1 || sdOp d == 2) && decide (sdMode d ≤ 1) && decide (fld d 3 1 ≤ 1)
    && decide (sdKeyShelf d < 2 ^ 24) && shFolio (sdKeyShelf d) == 0 && decide (sdStratum d < 2 ^ 48) && decide (sdListShelf d < 2 ^ 24)
    && decide (sdRegions d ≤ 256) && decide (1 ≤ sdMembers d ∧ sdMembers d ≤ 16384) && decide (sdRank d < sdMembers d)
    && decide (sdArchIdx d < 2 ^ 14) && decide (sdClass d < 16) && fld d 0x2D 1 == 0 && decide (sdTimeout d ≤ 60000)
    && decide (sdManShelf d < 2 ^ 24) && fld d 0x3C 4 == 0
    && (if sdOp d = 1 then sdArch d || (zeroBytes (slice d 0x30 12) && zeroBytes (slice d 0x40 16))
        else zeroBytes (slice d 2 2) && sdStep d == 0 && sdArchIdx d == 0)

/-- Entry `k` of a region list (08 Table 8-5). -/
def listEntry (l : List Byte) (k : Nat) : CutRegion :=
  { shelf := fld l (32 * k) 4, shardShelf := fld l (32 * k + 4) 4, shardAddr := fld l (32 * k + 8) 8, shardLen := fld l (32 * k + 16) 8,
    release := 0, mode := 0, size := 0 }

/-- The entries of a region list. -/
def listEntries (l : List Byte) (n : Nat) : List CutRegion := (List.range n).map (listEntry l)

/-- C1 and T1 on a region list: reserved fields, no folio twice. -/
def listOk (l : List Byte) (n : Nat) : Bool :=
  (List.range n).all (fun k => fld l (32 * k + 3) 1 == 0 && fld l (32 * k + 7) 1 == 0 && fld l (32 * k + 24) 8 == 0)
    && decide ((listEntries l n).map fun r => shFolio r.shelf).Nodup

/-- The length of a shard of a region (08 R254). -/
def shardBytes (size : Nat) : Nat := 96 + size + 16 * (size / 4096)

/-- Blocks a shard encrypts. -/
def shardBlocks (size : Nat) : Nat := size / 4096 * gcmBlocks 4096 + 1

/-! ### Cuts -/

/-- The requester of a stratum command's own accesses. -/
def cutWho (c : Cut) (shelf addr : Nat) : Who := engWho 4 c.world (some c.slice) (some c.context) shelf addr

/-- Change an open cut. -/
def modCut (s : State) (ix : Nat) (f : Cut → Cut) : State := { s with bce := { s.bce with cuts := tmod s.bce.cuts ix f } }

/-- Whether this instance is the archivist of an open cut. -/
def Cut.arch (c : Cut) : Bool := sdArch c.desc

/-- The regions of a cut as catalogue indices. -/
def Cut.indices (c : Cut) : List Nat := c.regions.map fun r => regionIx r.shelf

/-- Values of Table 8-14 as DETAIL. -/
def cutDetail (offender rank shards refused copied : Nat) : List Byte :=
  padTo 32 (leBytes 2 offender ++ leBytes 2 rank ++ leBytes 2 shards ++ leBytes 2 refused ++ leBytes 4 copied)

/-- A stratum command ends. -/
def closeCut (s : State) (ix : Nat) (c : Cut) (result : Nat) (reason : Code) (offender rank refused : Nat) : State :=
  bceReason (endFlight { s with bce := { s.bce with cuts := tdel s.bce.cuts ix } } c.flight result reason
    (cutDetail offender rank c.sealed_ refused c.copied)) reason

/-- Set the snapshot state of a region: SNAP and SNAP_PTR, written through (08 R259). -/
def setSnap (s : State) (ix st cut ptr : Nat) : State :=
  match regionAt s ix with
  | some r => catWrite s ix { r with snap := st * 2 ^ 30 + cut * 2 ^ 28, snapPtr := ptr }
  | none => s

/-- Every region of a cut returns to IDLE, and what was copied ahead of it is dropped. -/
def idleRegions (s : State) (ixs : List Nat) : State :=
  let s := { s with ime := { s.ime with
    copyAhead := s.ime.copyAhead.filter (fun x => !ixs.contains x.1), cow := s.ime.cow.filter (fun x => !ixs.contains x.region) } }
  ixs.foldl (fun s i => setSnap s i 0 0 0) s

/-- Held local and outgoing writes go on, in arrival order (08 R261, R265). -/
def releaseHolds (s : State) : State := releaseOutgoing (afterMem s)

/-- The shard jobs of a cut leave the BCE. -/
def dropShardJobs (s : State) (ix : Nat) : State :=
  { s with bce := { s.bce with jobs := s.bce.jobs.filter fun j => j.cut != some ix } }

/-! ### Control messages (08 R263) -/

/-- The derivation of the MANIFEST key from a half of the tenant's slot (03 Table 3-10). -/
def manifestHandle (s : State) (slot half stratum : Nat) : KeyHandle := slotHandle s slot half 0x0322 3 256 0 stratum false

/-- The MANIFEST key under a half of the tenant's slot. -/
def manifestKey (s : State) (slot half stratum : Nat) : Option (BitVec 256) := (derive s (manifestHandle s slot half stratum)).map keyOf

/-- Text passes the COMMON lanes under a key (01 R17, R23; 07 R248). -/
def commonPass (s : State) (h : KeyHandle) (who : Option Who) (tag : Nat) : Bool × State := lanePass s 24 [h] who tag

/-- The 48-byte header of a message (08 Table 8-10). -/
def strHeader (s : State) (c : Cut) (msg reason dst body gen : Nat) : List Byte :=
  leBytes 1 msg ++ leBytes 1 (sdMode c.desc) ++ leBytes 1 reason ++ zeros 1 ++ leBytes 2 c.tenant ++ leBytes 2 (sdMembers c.desc)
    ++ leBytes 8 (domainId s) ++ leBytes 8 c.stratum ++ leBytes 8 (sdStep c.desc) ++ leBytes 2 ((ownMember s).getD 0) ++ leBytes 2 dst
    ++ leBytes 2 (sdRank c.desc) ++ leBytes 2 body ++ leBytes 4 gen ++ zeros 4

/-- IV of a message. -/
def strIv (h : List Byte) : List Byte := slice h 0 1 ++ zeros 1 ++ slice h 0x20 4 ++ zeros 6

/-- Seal and send a message to a member; the code says why it cannot go. -/
def strSend (s : State) (src : OrigSrc) (c : Cut) (msg reason dst : Nat) (body : List Byte) : Code × State :=
  match slotAt s c.slot with
  | none => (Rsn.keyRevoked, s)
  | some v =>
    let half := curHalf v
    if !k6 v half 3 then (Rsn.keyExhausted, s)
    else match manifestKey s c.slot half c.stratum with
      | none => (Rsn.keyRevoked, s)
      | some k =>
        let (ok, s) := commonPass s (manifestHandle s c.slot half c.stratum) (some (cutWho c (sdKeyShelf c.desc) 0)) c.stratum
        let h := strHeader s c msg reason dst body.length v.genCur
        let b := h ++ gcmSeal k (strIv h) h body
        let e := if ok then sendCode s dst 0 b.length else Rsn.laneCheck
        if e ≠ 0#8 then (e, s)
        else
          (0#8, queueSend (countBlocks s c.slot half 3 (gcmBlocks body.length))
            { src := src, queue := 0xFFFE, message := s.ile.nextMsg % 65536, dest := dst, cls := sdClass c.desc, shape := 0,
              who := cutWho c (sdKeyShelf c.desc) 0, deadline := c.deadline, bytes := b })

/-- The body of an ABORT. -/
def abortBody (offender rank : Nat) : List Byte := leBytes 2 offender ++ leBytes 2 rank ++ zeros 4

/-- An open cut aborts: holds released without copy, regions IDLE, shard jobs cancelled; ABORT to the archivist, or from the archivist to
every other rank; ABORTED (08 R265). `tell` is false where the archivist's own ABORT is the cause. -/
def abortCut (s : State) (ix : Nat) (reason : Code) (offender rank : Nat) (tell : Bool) : State :=
  match tget s.bce.cuts ix with
  | none => s
  | some c =>
    let s := dropShardJobs s ix
    let s := closeCut s ix c 1 reason offender rank 0
    let s := releaseHolds (idleRegions s c.indices)
    if !tell then s
    else
      let dests := if c.arch then c.ranks.filter (fun r => some r != ownMember s) else [sdArchIdx c.desc]
      dests.foldl (fun s d => (strSend s .none_ c 5 reason.toNat d (abortBody offender rank)).2) s

/-- A restore that has begun to open shards fails (08 R273). -/
def failRestore (s : State) (ix : Nat) (reason : Code) : State :=
  match tget s.bce.cuts ix with
  | none => s
  | some c => closeCut (dropShardJobs s ix) ix c 1 reason ((ownMember s).getD 0) (sdRank c.desc) 0

/-- A shard job or a memory access of a stratum command failed. -/
def cutFails (s : State) (ix : Nat) (reason : Code) : State :=
  match tget s.bce.cuts ix with
  | none => s
  | some c => if c.restore then failRestore s ix reason else abortCut s ix reason ((ownMember s).getD 0) (sdRank c.desc) true

/-- The rank of a member in an open cut, where this instance holds the rank table; 0 for the archivist, whose rank a member is not told (log 152). -/
def rankOf (c : Cut) (member : Nat) : Nat := if c.arch then c.ranks.findIdx (· == member) else 0

/-- Send a message of an open cut; what cannot be sent aborts it. -/
def cutSend (s : State) (ix msg dst : Nat) (body : List Byte) : State :=
  match tget s.bce.cuts ix with
  | none => s
  | some c =>
    let r := strSend s (.stratum ix) c msg 0 dst body
    if r.1 = 0#8 then r.2 else abortCut r.2 ix r.1 dst (rankOf c dst) true

/-- A SEND of the controller ended in error (08 R275). -/
def stratumSent (s : State) (ix : Nat) (code : Code) : State :=
  if code = 0#8 then s else cutFails s ix code

/-! ### Shard jobs of a cut (08 R256) -/

/-- The descriptor of a shard job (07 Table 7-1). -/
def shardDesc (op cls keyShelf srcShelf src srcLen dstShelf dst dstLen stratum : Nat) : List Byte :=
  leBytes 1 1 ++ leBytes 1 op ++ zeros 2 ++ leBytes 1 cls ++ zeros 3 ++ leBytes 4 keyShelf ++ leBytes 4 srcShelf ++ leBytes 4 dstShelf ++ zeros 4
    ++ leBytes 8 src ++ leBytes 8 srcLen ++ leBytes 8 dst ++ leBytes 8 dstLen ++ leBytes 8 stratum ++ zeros 16

/-- A job that waits in the queue of the BCE (07 R230). Operation 16 is a STRATUM command whose descriptor waits. -/
def newJob (s : State) (op : Nat) (flight cut : Option Nat) (pos world slice context addr shelf : Nat) (desc : List Byte)
    (deadline : Option Nat) : Job :=
  { id := s.bce.nextJob, op := op, flight := flight, cut := cut, pos := pos, world := world, slice := slice, context := context, addr := addr,
    shelf := shelf, desc := desc, deadline := deadline, entered := s.tm.ns, engine := none, opened := false, slot := 0, half := 0, gen := 0,
    inSlot := 0, inHalf := 0, region := 0, header := [], outHeader := [], seg := 0, segs := 0, segDone := 0, serial := 0,
    reserved := 0, plain := [], off := 0, buf := [], out := [], ctr := 0, acc := 0#128, consumed := false, wrote := false, fail := 0#8 }

/-- Queue a job. -/
def queueJob (s : State) (j : Job) : State := { s with bce := { s.bce with jobs := s.bce.jobs ++ [j], nextJob := s.bce.nextJob + 1 } }

/-- The job of list entry `k` of an open stratum command. -/
def shardJob (s : State) (ix : Nat) (c : Cut) (k : Nat) : State :=
  match c.regions[k]? with
  | none => s
  | some r =>
    let base := ((regionAt s (regionIx r.shelf)).map (·.base)).getD 0
    let ks := c.tenant * 2 ^ 15 + 3 * 2 ^ 12 + shFolio r.shelf
    let d := if c.restore then shardDesc 6 (sdClass c.desc) ks r.shardShelf r.shardAddr r.shardLen r.shelf base r.size c.stratum
      else shardDesc 5 (sdClass c.desc) ks r.shelf base r.size r.shardShelf r.shardAddr r.shardLen c.stratum
    queueJob s (newJob s (if c.restore then 6 else 5) none (some ix) k c.world c.slice c.context 0 0 d c.deadline)

/-! ### GO, REPORT, DONE (08 Tables 8-8, 8-9) -/

/-- C11: DONE. -/
def cutDone (s : State) (ix : Nat) : State :=
  match tget s.bce.cuts ix with
  | none => s
  | some c =>
    let s := closeCut s ix c 0 0#8 0 0 0
    if sdMode c.desc = 1 then releaseHolds (idleRegions s c.indices) else s

/-- Put bytes at an offset of a list. -/
def putBytes (b : List Byte) (off : Nat) (x : List Byte) : List Byte := b.take off ++ x ++ b.drop (off + x.length)

/-- The manifest of a cut whose reports are all in (08 R257). -/
def manifestHeader (s : State) (c : Cut) (gen shards : Nat) : List Byte :=
  leBytes 4 0x4E4D5453 ++ leBytes 1 1 ++ leBytes 1 (sdMode c.desc) ++ zeros 2 ++ leBytes 2 c.tenant ++ zeros 2 ++ leBytes 4 gen
    ++ leBytes 8 (domainId s) ++ leBytes 8 c.stratum ++ leBytes 8 (sdStep c.desc) ++ leBytes 2 (sdMembers c.desc) ++ zeros 2
    ++ leBytes 4 shards ++ leBytes 8 (instId s) ++ zeros 8

/-- IV of a manifest. -/
def manifestIv : List Byte := [0xFF#8, 0xFF#8, 0xFF#8, 0xFE#8] ++ zeros 8

/-- A5 and A6: the manifest sealed and written, and DONE to every rank. -/
def archFinish (s : State) (ix : Nat) (m : MemIn) : State × MemIn :=
  match tget s.bce.cuts ix with
  | none => (s, m)
  | some c =>
    if (List.range (sdMembers c.desc)).any fun r => (tget c.reports r).isNone then (s, m)
    else
      let entries := (List.range (sdMembers c.desc)).flatMap fun r => dget [] c.reports r
      let me := (ownMember s).getD 0
      match slotAt s c.slot with
      | none => (abortCut s ix Rsn.keyRevoked me (sdRank c.desc) true, m)
      | some v =>
        let half := curHalf v
        if 2 ^ 28 < entries.length ∨ sdManLen c.desc < 80 + entries.length then (abortCut s ix Bc.dstSpace me (sdRank c.desc) true, m)
        else if !k6 v half 3 then (abortCut s ix Rsn.keyExhausted me (sdRank c.desc) true, m)
        else match manifestKey s c.slot half c.stratum with
          | none => (abortCut s ix Rsn.keyRevoked me (sdRank c.desc) true, m)
          | some k =>
            let b := manifestHeader s c v.genCur (entries.length / 64) ++ entries
            let s := countBlocks s c.slot half 3 1
            match writeBytes s (cutWho c (sdManShelf c.desc) (sdManAddr c.desc)) (b ++ gcmSeal k manifestIv b []) (sdClass c.desc) m with
            | (.error e, s, m) => (abortCut s ix e me (sdRank c.desc) true, m)
            | (.ok (), s, m) =>
              let s := (c.ranks.filter fun r => some r != ownMember s).foldl (fun s r => cutSend s ix 4 r []) s
              (cutDone s ix, m)

/-- C10: this member's entries, to the archivist or kept by it. -/
def cutReport (s : State) (ix : Nat) (m : MemIn) : State × MemIn :=
  match tget s.bce.cuts ix with
  | none => (s, m)
  | some c =>
    if c.step ≠ .shards ∨ c.sealed_ < c.regions.length then (s, m)
    else
      let s := modCut s ix fun c => { c with step := .waitDone }
      if c.arch then archFinish (modCut s ix fun c => { c with reports := tput c.reports (sdRank c.desc) c.entries }) ix m
      else (cutSend s ix 3 (sdArchIdx c.desc) c.entries, m)

/-- C8: GO. COW lets held writes go with copies, STOP freezes the regions; the shard jobs are queued. -/
def cutGo (s : State) (ix : Nat) (m : MemIn) : State × MemIn :=
  match tget s.bce.cuts ix with
  | none => (s, m)
  | some c =>
    let stop := sdMode c.desc == 1
    let s := modCut s ix fun c => { c with step := .shards, entries := zeros (64 * c.regions.length) }
    let s := c.indices.foldl (fun s i => setSnap s i (if stop then 3 else 2) ix 0) s
    let s := releaseHolds s
    let s := (List.range c.regions.length).foldl (fun s k => shardJob s ix c k) s
    cutReport s ix m

/-- A3: every rank is READY; GO to every rank in rank order. -/
def archGo (s : State) (ix : Nat) (m : MemIn) : State × MemIn :=
  match tget s.bce.cuts ix with
  | none => (s, m)
  | some c =>
    if c.step ≠ .waitGo ∨ (List.range (sdMembers c.desc)).any (fun r => !c.ready.contains r) then (s, m)
    else
      let s := (c.ranks.filter fun r => some r != ownMember s).foldl (fun s r => cutSend s ix 2 r []) s
      cutGo s ix m

/-- C7: READY, once no originated store of before C6 is left. -/
def flushDone (s : State) (ix : Nat) (m : MemIn) : State :=
  match tget s.bce.cuts ix with
  | none => s
  | some c =>
    if c.restore ∨ c.step ≠ .flush ∨ c.flush.any (fun q => s.ile.orig.any fun o => o.2.seq == q) then s
    else
      let s := modCut s ix fun c => { c with step := .waitGo, ready := c.ready ++ if c.arch then [sdRank c.desc] else [] }
      if c.arch then (archGo s ix m).1 else cutSend s ix 1 (sdArchIdx c.desc) []

/-- The manifest entry of a sealed shard (08 Table 8-3). -/
def shardEntry (h : List Byte) : List Byte :=
  slice h 0x42 2 ++ slice h 0x40 2 ++ slice h 0x0A 2 ++ slice h 0x05 1 ++ zeros 1 ++ slice h 0x28 8 ++ leBytes 8 (shardBytes (fld h 0x28 8))
    ++ slice h 0x10 4 ++ slice h 0x0C 2 ++ zeros 2 ++ slice h 0x38 8 ++ (shaBytes h).take 16 ++ zeros 8

/-- A shard job has ended well: its entry, its region IDLE under COW, the next shard of a restore, and what follows (C9, C10; R273). -/
def shardDone (s : State) (ix pos : Nat) (h : List Byte) (m : MemIn) : State × MemIn :=
  match tget s.bce.cuts ix with
  | none => (s, m)
  | some c =>
    if c.restore then
      let s := modCut s ix fun c => { c with sealed_ := c.sealed_ + 1 }
      if c.sealed_ + 1 = c.regions.length then (closeCut s ix { c with sealed_ := c.sealed_ + 1 } 0 0#8 0 0 0, m)
      else (shardJob s ix c (pos + 1), m)
    else
      let s := modCut s ix fun c => { c with sealed_ := c.sealed_ + 1, entries := putBytes c.entries (64 * pos) (shardEntry h) }
      let s := match c.regions[pos]? with
        | some r => if sdMode c.desc = 0 then releaseHolds (idleRegions s [regionIx r.shelf]) else s
        | none => s
      cutReport s ix m

/-! ### Receipt (08 R264, R265) -/

/-- Instance ID of a member in the roster in use. -/
def rosterInst (s : State) (member : Nat) : Nat :=
  if some member = ownMember s then instId s else ((tget s.ile.roster member).map (·.inst)).getD 0

/-- A4: the entries of a REPORT. -/
def reportOk (s : State) (rank member : Nat) (body : List Byte) : Bool :=
  (List.range (body.length / 64)).all fun i =>
    let e := slice body (64 * i) 64
    fld e 0 2 == rank && fld e 2 2 == member && fld e 0x20 8 == rosterInst s member && fld e 0x18 4 == fld body 0x18 4
      && fld e 8 8 % 4096 == 0 && fld e 8 8 != 0 && fld e 0x10 8 == shardBytes (fld e 8 8)
      && fld e 7 1 == 0 && fld e 0x1E 2 == 0 && fld e 0x38 8 == 0 && decide (fld e 4 2 < 4096) && decide (fld e 6 1 ≤ 3)

/-- R264 step 1 on a message for an open cut. -/
def strFormOk (s : State) (c : Cut) (b : List Byte) : Bool :=
  let msg := fld b 0 1
  let n := fld b 0x26 2
  fld b 3 1 == 0 && fld b 0x2C 4 == 0 && decide (fld b 0x20 2 < 2 ^ 14) && some (fld b 0x22 2) == ownMember s && (msg == 5 || fld b 2 1 == 0)
    && decide (b.length = 64 + n)
    && (if msg = 3 then n % 64 == 0 else if msg = 5 then n == 8 else n == 0)
    && (if c.arch then (msg == 1 || msg == 3 || msg == 5) && decide (fld b 0x24 2 < sdMembers c.desc) && c.ranks[fld b 0x24 2]? == some (fld b 0x20 2)
        else (msg == 2 || msg == 4 || msg == 5) && fld b 0x20 2 == sdArchIdx c.desc)

/-- What a verified message does. -/
def strAct (s : State) (ix : Nat) (c : Cut) (b body : List Byte) (m : MemIn) : State × MemIn :=
  let msg := fld b 0 1
  let rank := fld b 0x24 2
  if msg = 5 then (abortCut s ix Str.cutAborted (fld body 0 2) (fld body 2 2) c.arch, m)
  else if msg = 1 then
    archGo (modCut s ix fun c => { c with ready := if c.ready.contains rank then c.ready else c.ready ++ [rank] }) ix m
  else if msg = 2 then (if c.step = .waitGo then cutGo s ix m else (s, m))
  else if msg = 3 then
    if !reportOk s rank (fld b 0x20 2) body then (abortCut s ix Str.stratumMalformed (fld b 0x20 2) rank true, m)
    else archFinish (modCut s ix fun c => { c with reports := tput c.reports rank body }) ix m
  else if c.step = .waitDone then (cutDone s ix, m)
  else (s, m)

/-- A message that matches an open cut: the checks of R264 in order. -/
def strCheck (s : State) (ix : Nat) (c : Cut) (b : List Byte) (m : MemIn) : State × MemIn :=
  let bad := fun (s : State) (e : Code) => (abortCut s ix e (fld b 0x20 2) (fld b 0x24 2) true, m)
  if !strFormOk s c b then bad s Str.stratumMalformed
  else if fld b 1 1 ≠ sdMode c.desc ∨ fld b 6 2 ≠ sdMembers c.desc ∨ fld b 0x18 8 ≠ sdStep c.desc then bad s Str.cutMismatch
  else match liveHalf s c.slot (fld b 0x28 4) with
    | none => bad s Rsn.keyGenStale
    | some half =>
      let (ok, s) := commonPass s (manifestHandle s c.slot half c.stratum) (some (cutWho c (sdKeyShelf c.desc) 0)) c.stratum
      match (manifestKey s c.slot half c.stratum).bind fun k => gcmOpen k (strIv b) (b.take 48) (b.drop 48) with
      | none => bad s Str.msgAuth
      | some body => if ok then strAct s ix c b body m else bad s Rsn.laneCheck

/-- Strata whose messages the archivist keeps early. -/
def earlyStrata (s : State) : List (Nat × Nat) := (s.bce.early.map fun e => (e.tenant, e.stratum)).dedup

/-- A message for queue 0xFFFE: to its open cut, kept early at the archivist, or late; none where the target answers NACK_RETRY. -/
def strMessage (s : State) (src : Nat) (b : List Byte) (m : MemIn) : Option (State × MemIn) :=
  let t := fld b 4 2
  let n := fld b 0x10 8
  match s.bce.cuts.find? fun x => !x.2.restore && x.2.tenant == t && x.2.stratum == n && fld b 8 8 == domainId s with
  | some (ix, c) => some (strCheck s ix c b m)
  | none =>
    if roleOf s = 2 ∧ 64 ≤ b.length ∧ (fld b 0 1 = 1 ∨ fld b 0 1 = 5) ∧ dget 0 s.flash.stratumHigh t < n ∧ fld b 8 8 = domainId s then
      if !(earlyStrata s).contains (t, n) && decide (4 ≤ (earlyStrata s).length) then none
      else some ({ s with bce := { s.bce with early := s.bce.early ++ [{ tenant := t, stratum := n, src := src, bytes := b }] } }, m)
    else some (bceLate s, m)

/-! ### CUT (08 R260) -/

/-- A stratum command refused before its point of no return: the offender is this member, at the rank of its descriptor. -/
def refuseStratum (s : State) (j : Job) (c : Code) (refused : Nat) : State :=
  keyReason (bceReason (endFlight { s with bce := { s.bce with jobs := s.bce.jobs.filter fun x => x.id != j.id } } (j.flight.getD 0) 2 c
    (cutDetail ((ownMember s).getD 0) (sdRank j.desc) 0 refused 0)) c) c

/-- Limits of R259: 4 open commands, one for each tenant; the free entry. -/
def cutEntry (s : State) (tenant : Nat) : Option Nat :=
  if s.bce.cuts.any fun x => x.2.tenant == tenant then none else freeIndex s.bce.cuts 0 4

/-- C4 for one listed region: its values as read now. -/
def cutRegionOk (s : State) (j : Job) (tenant : Nat) (all : List CutRegion) (r : CutRegion) (m : MemIn) : Except Code CutRegion × State × MemIn :=
  let w := fun shelf addr => engWho 4 j.world (some j.slice) (some j.context) shelf addr
  let cls := sdClass j.desc
  match regionAt s (regionIx r.shelf) with
  | none => (.error Rsn.regionAbsent, s, m)
  | some g =>
    if shTenant r.shelf ≠ tenant then (.error Rsn.regionAbsent, s, m)
    else match admitted s (w r.shelf g.base) g.size .read cls m with
      | (.error e, s, m) => (.error e, s, m)
      | (.ok _, s, m) =>
        if snapState g ≠ 0 then (.error Str.stratumBusy, s, m)
        else match admitted s (w r.shardShelf r.shardAddr) (shardBytes g.size) .write cls m with
          | (.error e, s, m) => (.error e, s, m)
          | (.ok _, s, m) =>
            let meets := all.any fun x => match regionAt s (regionIx x.shelf) with
              | some y => rangesMeet r.shardAddr (shardBytes g.size) y.base y.size
              | none => false
            if r.shardLen < shardBytes g.size ∨ meets then (.error Bc.dstSpace, s, m)
            else (.ok { r with release := g.release, mode := g.mode, size := g.size }, s, m)

/-- C4 for a list, or the first failing region's reason. -/
def cutRegionsOk (s : State) (j : Job) (tenant : Nat) (all : List CutRegion) (m : MemIn) :
    List CutRegion → Except Code (List CutRegion) × State × MemIn
  | [] => (.ok [], s, m)
  | r :: rs => match cutRegionOk s j tenant all r m with
    | (.error e, s, m) => (.error e, s, m)
    | (.ok x, s, m) => match cutRegionsOk s j tenant all m rs with
      | (.error e, s, m) => (.error e, s, m)
      | (.ok l, s, m) => (.ok (x :: l), s, m)

/-- The stores of FABPORT masters that this instance has accepted (08 R262). -/
def outgoingStores (s : State) : List Nat :=
  (s.ile.orig.filter fun o => isStoreOp o.2.op.op && (match o.2.src with | .fab _ _ _ _ => true | _ => false)).map (·.2.seq)

/-- C6: the cut is open; its regions are HELD and every operation accepted in them before goes on. -/
def holdRegions (s : State) (ix : Nat) (c : Cut) : State :=
  let s := { s with
    bce := { s.bce with cuts := tput s.bce.cuts ix { c with flush := outgoingStores s } }
    ime := { s.ime with ents := s.ime.ents.map fun e => if c.indices.contains e.region then { e with cutOk := true } else e } }
  c.indices.foldl (fun s i => setSnap s i 1 ix 0) s

/-- The archivist claims what came early for a stratum (08 R264). -/
def claimStrata (s : State) (ix : Nat) (c : Cut) (m : MemIn) : State :=
  let mine := fun (e : EarlyMsg) => e.tenant == c.tenant && e.stratum == c.stratum
  let l := s.bce.early.filter mine
  let s := { s with bce := { s.bce with early := s.bce.early.filter fun e => !mine e } }
  if !c.arch then s
  else (l.foldl (fun (x : State × MemIn) e =>
    match tget x.1.bce.cuts ix with
    | some c => strCheck x.1 ix c e.bytes x.2
    | none => (bceLate x.1, x.2)) (s, m)).1

/-- The descriptor, region list and rank table of a STRATUM command, read and checked (C1, A1, T1); or the reason it fails, and the descriptor as far as read. -/
def readStratum (s : State) (j : Job) (m : MemIn) : Except (Code × List Byte) (List Byte × List CutRegion × List Nat) × State × MemIn :=
  let w := fun shelf addr => engWho 4 j.world (some j.slice) (some j.context) shelf addr
  match readBytes s (w j.shelf j.addr) (flightCls s (j.flight.getD 0)) 80 m with
  | (.error e, s, m) => (.error (e, []), s, m)
  | (.ok d, s, m) =>
    if !sdOk d then (.error (Str.stratumMalformed, d), s, m)
    else match readBytes s (w (sdListShelf d) (sdList d)) (sdClass d) (32 * sdRegions d) m with
      | (.error e, s, m) => (.error (e, d), s, m)
      | (.ok l, s, m) =>
        if !listOk l (sdRegions d) then (.error (Str.stratumMalformed, d), s, m)
        else if sdOp d = 1 ∧ sdArch d then
          if roleOf s ≠ 2 then (.error (Str.notArchivist, d), s, m)
          else match readBytes s (w (sdListShelf d) (sdAux d)) (sdClass d) (2 * sdMembers d) m with
            | (.error e, s, m) => (.error (e, d), s, m)
            | (.ok t, s, m) =>
              let ranks := unpackWords 2 (sdMembers d) t
              if ranks.all (fun x => decide (x < 16384)) && decide ranks.Nodup && ranks[sdRank d]? == ownMember s then
                (.ok (d, listEntries l (sdRegions d), ranks), s, m)
              else (.error (Str.stratumMalformed, d), s, m)
        else (.ok (d, listEntries l (sdRegions d), []), s, m)

/-- The command as it opens. -/
def newCut (s : State) (j : Job) (d : List Byte) (regions : List CutRegion) (ranks : List Nat) (slot half gen : Nat) : Cut :=
  { flight := j.flight.getD 0, restore := sdOp d == 2, world := j.world, slice := j.slice, context := j.context, deadline := j.deadline,
    desc := d, tenant := shTenant (sdKeyShelf d), stratum := sdStratum d, slot := slot, half := half, gen := gen, started := s.tm.ns,
    timeoutMs := if sdTimeout d = 0 then bits s.bce.stratumCtrl.toNat 0 16 else sdTimeout d, step := .flush, regions := regions, ranks := ranks,
    flush := [], ready := [], reports := [], entries := [], sealed_ := 0, copied := 0, reserved := 0 }

/-- C2 to C6 of a CUT. -/
def cutOpen (s : State) (j : Job) (d : List Byte) (list : List CutRegion) (ranks : List Nat) (flashOk : Bool) (m : MemIn) : State :=
  let t := shTenant (sdKeyShelf d)
  match cutEntry s t with
  | none => refuseStratum s j Str.stratumBusy 0
  | some ix =>
    if sdStratum d ≤ dget 0 s.flash.stratumHigh t then refuseStratum s j Str.stratumOrder 0
    else match resolve s (engWho 4 j.world (some j.slice) (some j.context) (sdKeyShelf d) 0) [3] with
      | .error e => refuseStratum (keyReason s e) j e 0
      | .ok slot => match slotAt s slot with
        | none => refuseStratum s j Rsn.keyAbsent 0
        | some v =>
          let need := ((list.filterMap fun r => regionAt s (regionIx r.shelf)).map fun g => shardBlocks g.size).sum
          if !k6Room s slot v 3 need then refuseStratum (keyReason s Rsn.keyExhausted) j Rsn.keyExhausted 0
          else match cutRegionsOk s j t list m list with
            | (.error e, s, _) => refuseStratum s j e 0
            | (.ok regions, s, m) =>
              let c := { newCut s j d regions ranks slot (curHalf v) v.genCur with reserved := need }
              let s := { s with bce := { s.bce with jobs := s.bce.jobs.filter fun x => x.id != j.id } }
              if !flashOk then
                abortCut (flashFail { s with bce := { s.bce with cuts := tput s.bce.cuts ix c } }) ix Str.stratumFlashFailed
                  ((ownMember s).getD 0) (sdRank d) true
              else
                let s := userKeyed { s with flash := { s.flash with stratumHigh := tput s.flash.stratumHigh t (sdStratum d) } }
                claimStrata (holdRegions s ix c) ix c m

/-! ### RESTORE (08 R271 to R273) -/

/-- Manifest entry `k`. -/
def manEntry (b : List Byte) (k : Nat) : List Byte := slice b (64 + 64 * k) 64

/-- T2: a manifest's form and its agreement with the descriptor. -/
def manifestOk (s : State) (d b : List Byte) : Bool :=
  let n := fld b 0x2C 4
  fld b 0 4 == 0x4E4D5453 && fld b 4 1 == 1 && decide (fld b 5 1 ≤ 1) && fld b 6 2 == 0 && decide (fld b 8 2 < 512) && fld b 0x0A 2 == 0
    && fld b 0x2A 2 == 0 && fld b 0x38 8 == 0 && decide (n ≤ 2 ^ 22) && decide (b.length = 80 + 64 * n) && decide (fld b 0x18 8 < 2 ^ 48)
    && ((List.range n).all fun k =>
      let e := manEntry b k
      fld e 7 1 == 0 && fld e 0x1E 2 == 0 && fld e 0x38 8 == 0 && decide (fld e 2 2 < 2 ^ 14) && decide (fld e 4 2 < 4096) && decide (fld e 6 1 ≤ 3)
        && (k == 0 || decide (fld (manEntry b (k - 1)) 0 2 ≤ fld e 0 2)))
    && fld b 8 2 == shTenant (sdKeyShelf d) && fld b 0x10 8 == domainId s && fld b 0x18 8 == sdStratum d

/-- Strictness of a release code (07 R241). -/
def releaseRank (v : Nat) : Nat :=
  let p := bits v 14 2
  if p = 1 then 0 else if p = 2 then 1 else if p = 3 then 2 + bits v 10 4 else 100

/-- T4 for one list entry against its manifest entry. -/
def restoreRegionOk (s : State) (j : Job) (tenant : Nat) (r : CutRegion) (e : List Byte) (m : MemIn) :
    Except Code CutRegion × State × MemIn :=
  if shFolio r.shelf ≠ fld e 4 2 then (.error Str.shapeMismatch, s, m)
  else match regionAt s (regionIx r.shelf) with
    | none => (.error Rsn.regionAbsent, s, m)
    | some g =>
      if g.size ≠ fld e 8 8 then (.error Str.shapeMismatch, s, m)
      else if shTenant r.shelf ≠ tenant then (.error Rsn.regionAbsent, s, m)
      else if snapState g ≠ 0 then (.error Str.stratumBusy, s, m)
      else match admitted s (engWho 4 j.world (some j.slice) (some j.context) r.shelf g.base) g.size .write (sdClass j.desc) m with
        | (.error x, s, m) => (.error x, s, m)
        | (.ok _, s, m) =>
          let rel := fld e 0x1C 2
          if releaseRank g.release < releaseRank rel ∨ (g.mode = 0 ∧ bits rel 14 2 ≠ 1) then (.error Bc.releaseWeaker, s, m)
          else (.ok { r with release := g.release, mode := g.mode, size := g.size }, s, m)

/-- T4 for a list. -/
def restoreRegionsOk (s : State) (j : Job) (tenant : Nat) (m : MemIn) : List (CutRegion × List Byte) → Except Code (List CutRegion) × State × MemIn
  | [] => (.ok [], s, m)
  | x :: rs => match restoreRegionOk s j tenant x.1 x.2 m with
    | (.error e, s, m) => (.error e, s, m)
    | (.ok r, s, m) => match restoreRegionsOk s j tenant m rs with
      | (.error e, s, m) => (.error e, s, m)
      | (.ok l, s, m) => (.ok (r :: l), s, m)

/-- The derivation of the STRATUM key of a shard header from a half (03 Table 3-10). -/
def shardHandle (s : State) (slot half : Nat) (h : List Byte) : KeyHandle := slotHandle s slot half 0x0321 3 256 (fld h 0x0A 2) (fld h 0x18 8) false

/-- The STRATUM key of a shard header under a half. -/
def shardKey (s : State) (slot half : Nat) (h : List Byte) : Option (BitVec 256) := (derive s (shardHandle s slot half h)).map keyOf

/-- IVs of a shard (08 R255). -/
def shardIv (h : List Byte) (i : Option Nat) : List Byte :=
  (match i with | some n => leBytes 4 n | none => [0xFF#8, 0xFF#8, 0xFF#8, 0xFF#8]) ++ slice h 0x40 2 ++ zeros 6

/-- T5 for one shard: its reason, and the STRATUM found (08 R271, R272). -/
def shardCheck (s : State) (slot stratum : Nat) (r : CutRegion) (e h : List Byte) : Code × Nat :=
  if r.shardLen < 96 ∨ fld h 0 4 ≠ 0x44535453 ∨ fld h 4 1 ≠ 1 then (Str.shardMismatch, 0)
  else if fld h 0x18 8 ≠ stratum then (Str.stratumMixed, fld h 0x18 8)
  else if r.shardLen ≠ fld e 0x10 8 then (Str.shardMismatch, 0)
  else if (shaBytes h).take 16 ≠ slice e 0x28 16 then (Str.shardMismatch, 0)
  else match liveHalf s slot (fld h 0x10 4) with
    | none => (Rsn.keyGenStale, 0)
    | some half =>
      if ((shardKey s slot half h).bind fun k => gcmOpen k (shardIv h none) (h.take 0x50) (h.drop 0x50)).isSome then (0#8, 0)
      else (Str.shardAuth, 0)

/-- T5 over the list: (position, reason, found) of every failing shard. -/
def shardChecks (s : State) (j : Job) (slot stratum : Nat) : Nat → List (CutRegion × List Byte) → MemIn →
    List (Nat × Code × Nat) × State × MemIn
  | _, [], m => ([], s, m)
  | k, x :: rs, m =>
    let w := engWho 4 j.world (some j.slice) (some j.context) x.1.shardShelf x.1.shardAddr
    let (r, s, m) : (Code × Nat) × State × MemIn :=
      if x.1.shardLen < 96 then ((Str.shardMismatch, 0), s, m)
      else match readBytes s w (sdClass j.desc) 96 m with
        | (.error e, s, m) => ((e, 0), s, m)
        | (.ok h, s, m) => (shardCheck s slot stratum x.1 x.2 h, s, m)
    let (l, s, m) := shardChecks s j slot stratum (k + 1) rs m
    (if r.1 = 0#8 then l else (k, r.1, r.2) :: l, s, m)

/-- The refusal list (08 Table 8-13). -/
def refusalBytes (l : List (Nat × Code × Nat)) : List Byte :=
  l.flatMap fun x => leBytes 2 x.1 ++ [x.2.1] ++ zeros 5 ++ leBytes 8 x.2.2

/-- T1 to T5 of a RESTORE, and the first SHARD_OPEN. -/
def restoreOpen (s : State) (j : Job) (d : List Byte) (list : List CutRegion) (m : MemIn) : State :=
  let t := shTenant (sdKeyShelf d)
  let w := fun shelf addr => engWho 4 j.world (some j.slice) (some j.context) shelf addr
  match cutEntry s t with
  | none => refuseStratum s j Str.stratumBusy 0
  | some ix => match (if sdRegions d = 0 then (.ok (0, freeRegion), s, m) else admitted s (w (sdListShelf d) (sdAux d)) (16 * sdRegions d) .write (sdClass d) m) with
    | (.error e, s, _) => refuseStratum s j e 0
    | (.ok _, s, m) => match readBytes s (w (sdManShelf d) (sdManAddr d)) (sdClass d) (min (sdManLen d) (80 + 2 ^ 28)) m with
      | (.error e, s, _) => refuseStratum s j e 0
      | (.ok b, s, m) =>
        if !(decide (sdManLen d = b.length) && manifestOk s d b) then refuseStratum s j Str.manifestMalformed 0
        else match resolve s (w (sdKeyShelf d) 0) [3] with
          | .error e => refuseStratum (keyReason s e) j e 0
          | .ok slot => match liveHalf s slot (fld b 0x0C 4) with
            | none => refuseStratum s j Rsn.keyGenStale 0
            | some half =>
              if ((manifestKey s slot half (sdStratum d)).bind fun k => gcmOpen k manifestIv (b.take (b.length - 16)) (b.drop (b.length - 16))).isNone
              then refuseStratum s j Str.manifestAuth 0
              else
                let es := ((List.range (fld b 0x2C 4)).map (manEntry b)).filter fun e => fld e 0 2 == sdRank d
                if fld b 0x28 2 ≠ sdMembers d ∨ es.length ≠ sdRegions d then refuseStratum s j Str.shapeMismatch 0
                else match restoreRegionsOk s j t m (list.zip es) with
                  | (.error e, s, _) => refuseStratum s j e 0
                  | (.ok regions, s, m) => match shardChecks s j slot (sdStratum d) 0 (regions.zip es) m with
                    | (x :: l, s, m) =>
                      let s := match writeBytes s (w (sdListShelf d) (sdAux d)) (refusalBytes (x :: l)) (sdClass d) m with
                        | (_, s, _) => s
                      refuseStratum s j x.2.1 (x :: l).length
                    | ([], s, _) =>
                      let c := { newCut s j d regions [] slot half (fld b 0x0C 4) with step := .shards }
                      let s := { s with bce := { s.bce with jobs := s.bce.jobs.filter (fun x => x.id != j.id), cuts := tput s.bce.cuts ix c } }
                      if regions.isEmpty then closeCut s ix c 0 0#8 0 0 0 else shardJob s ix c 0

/-! ### The commands -/

/-- The key of R317 on waiting and suspended jobs: deadline presence, deadline, suspended first, entry. -/
def jobKey (j : Job) : List Nat := [if j.deadline.isSome then 0 else 1, j.deadline.getD 0, if j.opened then 0 else 1, j.entered]

/-- The first of jobs under R317, the oldest of equals. -/
def bestJob : List Job → Option Job
  | [] => none
  | j :: r => match bestJob r with
    | none => some j
    | some k =>
      let a := jobKey j
      let b := jobKey k
      if keyLt b a then some k else some j

/-- Whether the BCE and the stratum controller are stopped for a recharter (02 R60). -/
def bceStopped (s : State) : Bool := (s.gen.funcStop ||| s.gen.funcState ||| s.gen.funcHeld).getLsbD 24

/-- The STRATUM command that opens next. -/
def nextStratum (s : State) : Option Job := bestJob (s.bce.jobs.filter fun j => j.op == 16)

/-- The next STRATUM command, where its descriptor names the operation asked for; a malformed one is refused by either (08 R258). -/
def stratumCmd (s : State) (op : Nat) (m : MemIn) (flashOk : Bool) : State :=
  match nextStratum s with
  | none => s
  | some j =>
    if !s.pin.pwrok || coreDown s || bceStopped s then s
    else match readStratum s j m with
      | (.error (e, d), s, _) => refuseStratum s { j with desc := d } e 0
      | (.ok (d, list, ranks), s', m) =>
        let j := { j with desc := d }
        if sdOp d ≠ op then s
        else if op = 1 then cutOpen s' j d list ranks flashOk m
        else restoreOpen s' j d list m

/-- CUT_TIMEOUT (08 R265). -/
def cutTimeout (s : State) (ix : Nat) : State :=
  match tget s.bce.cuts ix with
  | none => s
  | some c =>
    if c.restore ∨ s.tm.ns < c.started + 1000000 * c.timeoutMs then s
    else if c.arch then
      let late := fun r => if c.step = .flush ∨ c.step = .waitGo then !c.ready.contains r else (tget c.reports r).isNone
      let r := ((List.range (sdMembers c.desc)).find? late).getD (sdRank c.desc)
      abortCut s ix Str.cutTimeout (c.ranks.getD r 0) r true
    else abortCut s ix Str.cutTimeout (sdArchIdx c.desc) 0 true

/-- Cancellation of a STRATUM command (09 R292). -/
def stratumCancel (s : State) (flight : Nat) (code : Code) : State :=
  match s.bce.cuts.find? fun x => x.2.flight == flight with
  | some (ix, c) =>
    if c.restore && c.sealed_ == 0 && !(s.bce.jobs.any fun j => j.cut == some ix && j.opened) then
      closeCut (dropShardJobs s ix) ix c 2 code ((ownMember s).getD 0) (sdRank c.desc) 0
    else cutFails s ix code
  | none => match s.bce.jobs.find? fun j => j.op == 16 && j.flight == some flight with
    | some j => refuseStratum s j code 0
    | none => s

/-- CUT (08 R260, steps C1 to C6). -/
def execCut (m : MemIn) (flashOk : Bool) (s : State) : Host.Outcome State Fault Refusal := .next (stratumCmd s 1 m flashOk)

/-- CUT_FLUSH_DONE (08 R262, step C7). -/
def execCutFlushDone (entry : Nat) (m : MemIn) (s : State) : Host.Outcome State Fault Refusal := .next (flushDone s entry m)

/-- RESTORE (08 R271). -/
def execRestore (m : MemIn) (s : State) : Host.Outcome State Fault Refusal := .next (stratumCmd s 2 m true)

/-- CUT_TIMEOUT (08 R265). -/
def execCutTimeout (entry : Nat) (s : State) : Host.Outcome State Fault Refusal := .next (cutTimeout s entry)

end Sys2Proof.Machine
end

