-- ==== Sys2Proof/Machine/Bce.lean ====
section
/-!
DEFINITION. The bulk cipher engine: job descriptors, parcels, release checks, shard jobs, engines and suspension, and its commands (07 R228 to
R251; 08 R254 to R256, R266, R273).
-/
namespace Sys2Proof.Machine

/-! ### Descriptor fields (07 Table 7-1) -/

def jdOp (d : List Byte) : Nat := fld d 1 1
def jdCheck (d : List Byte) : Nat := fld d 2 1
def jdSegLog (d : List Byte) : Nat := fld d 3 1
def jdClass (d : List Byte) : Nat := fld d 4 1
def jdApprovals (d : List Byte) : Nat := fld d 5 1
def jdOwnerSet (d : List Byte) : Nat := fld d 6 1
def jdKeyShelf (d : List Byte) : Nat := fld d 8 4
def jdSrcShelf (d : List Byte) : Nat := fld d 0x0C 4
def jdDstShelf (d : List Byte) : Nat := fld d 0x10 4
def jdAppShelf (d : List Byte) : Nat := fld d 0x14 4
def jdSrc (d : List Byte) : Nat := fld d 0x18 8
def jdSrcLen (d : List Byte) : Nat := fld d 0x20 8
def jdDst (d : List Byte) : Nat := fld d 0x28 8
def jdDstLen (d : List Byte) : Nat := fld d 0x30 8
def jdSerial (d : List Byte) : Nat := fld d 0x38 8
def jdAppAddr (d : List Byte) : Nat := fld d 0x40 8

/-- A BULK descriptor: reserved fields and encodings, ranges, unused fields zero (07 R228, R229; 08 R256 for OP 5 and 6). -/
def jdOk (d : List Byte) : Bool :=
  let op := jdOp d
  decide (d.length = 80) && fld d 0 1 == 1 && decide (1 ≤ op ∧ op ≤ 4) && decide (jdCheck d ≤ 2)
    && (if op = 1 ∨ op = 3 then decide (12 ≤ jdSegLog d ∧ jdSegLog d ≤ 18) else jdSegLog d == 0)
    && decide (jdClass d < 16) && (if op = 1 then decide (jdApprovals d ≤ 16) else jdApprovals d == 0)
    && (if op = 4 then decide (jdOwnerSet d ≤ 63) else jdOwnerSet d == 0) && fld d 7 1 == 0
    && decide (jdKeyShelf d < 2 ^ 24) && shFolio (jdKeyShelf d) == 0 && decide (jdSrcShelf d < 2 ^ 24) && decide (jdDstShelf d < 2 ^ 24)
    && decide (jdAppShelf d < 2 ^ 24) && zeroBytes (slice d 0x48 8)
    && (op == 1 || (jdAppShelf d == 0 && jdAppAddr d == 0)) && (op == 1 || op == 3 || jdSerial d == 0)
    && (op != 4 || (jdDst d == 0 && jdDstLen d == 0 && jdDstShelf d == 0)) && (op != 1 || decide (jdSrcLen d ≤ 2 ^ 40))

/-! ### Parcels (07 R233 to R236) -/

/-- Segments of a length. -/
def segCountOf (len segLog : Nat) : Nat := ceilDiv len (2 ^ segLog)

/-- The size of a parcel. -/
def parcelBytes (approvals len segLog : Nat) : Nat := 80 + 144 * approvals + len + 16 * segCountOf len segLog

/-- Blocks a parcel encrypts: its text, a tag for each segment and the header's (07 R242 E2). -/
def parcelBlocks (len segLog : Nat) : Nat := ceilDiv len 16 + segCountOf len segLog + 1

/-- Fields of a parcel header (07 Table 7-3). -/
def phSegLog (h : List Byte) : Nat := fld h 6 1
def phOnce (h : List Byte) : Bool := bit (fld h 7 1) 0
def phRelease (h : List Byte) : Nat := fld h 0x0A 2
def phGen (h : List Byte) : Nat := fld h 0x0C 4
def phSerial (h : List Byte) : Nat := fld h 0x18 8
def phLength (h : List Byte) : Nat := fld h 0x20 8
def phApprovals (h : List Byte) : Nat := fld h 0x30 1

/-- The first 64 bytes of a header the block writes (07 R235, R238, R242). -/
def parcelHeader (s : State) (segLog tenant release gen serial len approvals : Nat) : List Byte :=
  leBytes 4 0x4C435250 ++ leBytes 1 (topVersion (offerNow s 4)) ++ leBytes 1 2 ++ leBytes 1 segLog ++ zeros 1 ++ leBytes 2 tenant
    ++ leBytes 2 release ++ leBytes 4 gen ++ leBytes 8 (domainId s) ++ leBytes 8 serial ++ leBytes 8 len ++ leBytes 8 (instId s)
    ++ leBytes 1 approvals ++ zeros 15

/-- The derivation of a parcel's key from a half (03 Table 3-10). -/
def parcelHandle (s : State) (slot half serial : Nat) : KeyHandle := slotHandle s slot half 0x0331 4 256 0 serial false

/-- The parcel key of a serial under a half. -/
def parcelKey (s : State) (slot half serial : Nat) : Option (BitVec 256) := (derive s (parcelHandle s slot half serial)).map keyOf

/-- IVs of a parcel (07 R234). -/
def parcelIv (i : Option Nat) : List Byte :=
  (match i with | some n => leBytes 4 n | none => [0xFF#8, 0xFF#8, 0xFF#8, 0xFF#8]) ++ zeros 8

/-- O1 (07 Table 7-5, R235). -/
def parcelFormOk (s : State) (op srcLen : Nat) (h : List Byte) : Bool :=
  let kind := fld h 5 1
  let fmt := fld h 4 1
  fld h 0 4 == 0x4C435250 && decide (fmt < 16) && bit (offerNow s 4) fmt
    && (if op = 4 then kind == 3 else kind == 1 || kind == 2) && decide (12 ≤ phSegLog h ∧ phSegLog h ≤ 18)
    && decide (fld h 7 1 ≤ 1) && (kind == 1 || !phOnce h) && decide (fld h 8 2 < 512) && releaseOk (phRelease h)
    && decide (phLength h ≤ 2 ^ 40) && (kind == 2 || fld h 0x28 8 == 0) && decide (phApprovals h ≤ 16) && zeroBytes (slice h 0x31 15)
    && (if kind = 2 then bits (phSerial h) 62 2 == 0 else bit (phSerial h) 63)
    && (fmt != 1 || (phApprovals h == 0 && bits (phRelease h) 14 2 != 3))
    && srcLen == parcelBytes (phApprovals h) (phLength h) (phSegLog h)

/-! ### Requesters and endings -/

/-- The requester of a job's own accesses: master BCE, world and slice of its command (07 R228). -/
def jobWho (j : Job) (shelf addr : Nat) : Who := engWho 4 j.world (some j.slice) (some j.context) shelf addr

/-- Replace a job. -/
def setJob (s : State) (j : Job) : State := { s with bce := { s.bce with jobs := s.bce.jobs.map fun x => if x.id = j.id then j else x } }

/-- Values of Table 7-9 as DETAIL. -/
def jobDetail (j : Job) (pos : Nat) : List Byte :=
  padTo 32 (leBytes 4 j.segDone ++ leBytes 1 pos ++ zeros 3 ++ leBytes 8 j.serial)

/-- A job leaves the BCE and its command ends; a shard job tells its cut. -/
def endJob (s : State) (j : Job) (result : Nat) (c : Code) (pos : Nat) : State :=
  let s := { s with bce := { s.bce with jobs := s.bce.jobs.filter fun x => x.id != j.id } }
  match j.flight with
  | some f => bceReason (endFlight s f result c (jobDetail j pos)) c
  | none => match j.cut with
    | some ix => if c = 0#8 then s else cutFails (bceReason s c) ix c
    | none => s

/-- FAILED once a serial is consumed or DST is written, else REFUSED (07 R249). -/
def failJob (s : State) (j : Job) (c : Code) : State := endJob s j (if j.consumed ∨ j.wrote then 1 else 2) c 0

/-- Whether a command put a write of its own into a port's queue. -/
def wroteSince (old s : State) : Bool := s.ime.ents.any fun e => decide (old.ime.seq ≤ e.seq) && e.kind == .write

/-! ### Serials (07 R239, R240) -/

/-- EXPORT_FLOOR of a tenant: EXPORT_RESERVE after a start. -/
def exportFloor (s : State) (tenant : Nat) : Nat := (tget s.bce.exportFloor tenant).getD (dget 0 s.flash.exportReserve tenant)

/-- Consume a serial: SERIAL_USED, SERIAL_EXHAUSTED, BCE_FLASH_FAILED, or the state that holds the new floor. -/
def takeSerial (s : State) (tenant serial : Nat) (flashOk : Bool) : Except (Code × State) State :=
  let c := bits serial 0 48
  if bits serial 62 2 ≠ 0 ∨ (ownMember s).map (fun m => m % 2 ^ 14) ≠ some (bits serial 48 14) ∨ c < exportFloor s tenant then
    .error (Bc.serialUsed, s)
  else if c = 2 ^ 48 - 1 then .error (Bc.serialExhausted, s)
  else
    let res := dget 0 s.flash.exportReserve tenant
    if res < c + 1 ∧ !flashOk then .error (Bc.bceFlashFailed, flashFail s)
    else
      let s := if res < c + 1 then userKeyed { s with flash := { s.flash with exportReserve := tput s.flash.exportReserve tenant (c + 4096) } } else s
      .ok { s with bce := { s.bce with exportFloor := tput s.bce.exportFloor tenant (c + 1) } }

/-! ### Owners and approvals (07 R243, R244) -/

/-- The keys of an owner table entry, where it is loaded for a tenant. -/
def ownersOf (s : State) (set tenant : Nat) : Option (List (BitVec 768)) :=
  match tget s.bce.owners set with
  | some (t, ks) => if t = tenant then some ks else none
  | none => none

/-- Whether an approval record is valid and binds an export (07 Table 7-8). -/
def approvalBinds (s : State) (ix gen offset len serial n : Nat) (a : List Byte) : Bool :=
  fld a 0 1 == 1 && decide (fld a 1 1 < n) && fld a 2 2 == ix / 4096 && fld a 4 4 == ix && fld a 8 8 == serial && fld a 0x10 8 == offset
    && fld a 0x18 8 == len && fld a 0x20 8 == domainId s && fld a 0x28 4 == gen && fld a 0x2C 4 == 0

/-- The first approval record that fails, by position. -/
def approvalFail (s : State) (keys : List (BitVec 768)) (ix gen offset len serial : Nat) (a : List Byte) (n : Nat) : Option Nat :=
  (List.range n).find? fun i =>
    let r := slice a (144 * i) 144
    let k := keys.getD (fld r 1 1) 0#768
    !(approvalBinds s ix gen offset len serial keys.length r && Config.onCurve k && Config.ecdsaVerify k (r.take 0x30) (b768 (slice r 0x30 96)))

/-- Distinct owners of approval records. -/
def approvers (a : List Byte) (n : Nat) : Nat := ((List.range n).map fun i => fld a (144 * i + 1) 1).dedup.length

/-- Owners a release code asks for. -/
def quorumOf (release : Nat) : Nat :=
  if bits release 14 2 = 2 then 1 else if bits release 14 2 = 3 then bits release 10 4 + 1 else 0

/-! ### Opening jobs -/

/-- A region of a tenant that admits a range, with the tenant of its shelfmark as the key's. -/
def admitsOf (s : State) (j : Job) (tenant shelf addr len : Nat) (k : MemKind) (m : MemIn) : Except Code (Nat × Region) × State × MemIn :=
  if shTenant shelf ≠ tenant then (.error Rsn.regionAbsent, s, m) else admitted s (jobWho j shelf addr) len k (jdClass j.desc) m

/-- What an open check gives: the job as opened; or the job as it fails, its reason and the failing approval. -/
abbrev OpenResult := Except (Code × Nat × Job) Job × State × MemIn

/-- E6 and the start of an export: header and approval records written (07 R242). -/
def exportStart (s : State) (j : Job) (ix : Nat) (r : Region) (slot : Nat) (v : Slot) (approvals : List Byte) (flashOk : Bool) (m : MemIn) :
    OpenResult :=
  let d := j.desc
  let tenant := shTenant (jdKeyShelf d)
  match takeSerial s tenant (jdSerial d) flashOk with
  | .error (c, s) => (.error (c, 0, j), s, m)
  | .ok s =>
    let half := curHalf v
    let h := parcelHeader s (jdSegLog d) tenant r.release v.genCur (jdSerial d) (jdSrcLen d) (jdApprovals d)
    let j := { j with serial := jdSerial d, consumed := true }
    match parcelKey s slot half (jdSerial d) with
    | none => (.error (Rsn.keyRevoked, 0, j), keyReason s Rsn.keyRevoked, m)
    | some k =>
      let hd := h ++ blkBytes (gcmTag k (parcelIv none) (h ++ approvals) [])
      let s := countBlocks s slot half 4 1
      let j := { j with opened := true, slot := slot, half := half, gen := v.genCur, region := ix, outHeader := h,
                        segs := segCountOf (jdSrcLen d) (jdSegLog d), reserved := parcelBlocks (jdSrcLen d) (jdSegLog d) - 1 }
      match writeBytesBy .job s (jobWho j (jdDstShelf d) (jdDst d)) (hd ++ approvals) (jdClass d) m with
      | (.error e, s', m) => (.error (e, 0, { j with wrote := wroteSince s s' }), s', m)
      | (.ok (), s, m) => (.ok { j with wrote := true }, s, m)

/-- E4 and E5 (07 R241, R242). -/
def exportRelease (s : State) (j : Job) (r : Region) : Except Code (List (BitVec 768)) :=
  let d := j.desc
  let p := bits r.release 14 2
  if p = 0 ∨ (p = 3 ∧ (forerunner s ∨ topVersion (offerNow s 4) = 1)) then .error Bc.releaseDenied
  else if (p = 1 ∧ jdApprovals d ≠ 0) ∨ (topVersion (offerNow s 4) = 1 ∧ jdApprovals d ≠ 0) then .error Bc.jobMalformed
  else if p = 1 then .ok []
  else match ownersOf s (bits r.release 0 6) (shTenant (jdKeyShelf d)) with
    | none => .error Bc.ownersAbsent
    | some ks => .ok ks

/-- E2 to E6 of an EXPORT. -/
def exportOpen (s : State) (j : Job) (flashOk : Bool) (m : MemIn) : OpenResult :=
  let d := j.desc
  let tenant := shTenant (jdKeyShelf d)
  let no := fun (s : State) (e : Code) (m : MemIn) => ((.error (e, 0, j) : Except (Code × Nat × Job) Job), imeReason s e, m)
  match resolve s (jobWho j (jdKeyShelf d) 0) [4] with
  | .error e => no s e m
  | .ok slot => match slotAt s slot with
    | none => no s Rsn.keyAbsent m
    | some v =>
      if !k6Room s slot v 4 (parcelBlocks (jdSrcLen d) (jdSegLog d)) then no s Rsn.keyExhausted m
      else match admitsOf s j tenant (jdSrcShelf d) (jdSrc d) (jdSrcLen d) .read m with
        | (.error e, s, m) => no s e m
        | (.ok (ix, r), s, m) =>
          let size := parcelBytes (jdApprovals d) (jdSrcLen d) (jdSegLog d)
          match admitted s (jobWho j (jdDstShelf d) (jdDst d)) size .write (jdClass d) m with
          | (.error e, s, m) => no s e m
          | (.ok _, s, m) =>
            if jdDstLen d < size then no s Bc.dstSpace m
            else match exportRelease s j r with
              | .error e => no s e m
              | .ok keys => match readBytes s (jobWho j (jdAppShelf d) (jdAppAddr d)) (jdClass d) (144 * jdApprovals d) m with
                | (.error e, s, m) => no s e m
                | (.ok a, s, m) =>
                  match approvalFail s keys ix (regionGen s r) (jdSrc d - r.base) (jdSrcLen d) (jdSerial d) a (jdApprovals d) with
                  | some i => (.error (Bc.approvalInvalid, i, j), s, m)
                  | none =>
                    if approvers a (jdApprovals d) < quorumOf r.release then no s Bc.quorumShort m
                    else exportStart s j ix r slot v a flashOk m

/-- O1 to O4 of a parcel: its header and approval records, and the slot and half that open it. -/
def parcelOpen (s : State) (j : Job) (m : MemIn) : Except Code (List Byte × List Byte × Nat × Nat) × State × MemIn :=
  let d := j.desc
  if jdSrcLen d < 80 then (.error Bc.parcelMalformed, s, m)
  else match readBytes s (jobWho j (jdSrcShelf d) (jdSrc d)) (jdClass d) 80 m with
    | (.error e, s, m) => (.error e, s, m)
    | (.ok h, s, m) =>
      if !parcelFormOk s (jdOp d) (jdSrcLen d) h then (.error Bc.parcelMalformed, s, m)
      else if fld h 8 2 ≠ shTenant (jdKeyShelf d) ∨ fld h 0x10 8 ≠ domainId s then (.error Bc.parcelForeign, s, m)
      else match resolve s (jobWho j (jdKeyShelf d) 0) [4] with
        | .error e => (.error e, keyReason s e, m)
        | .ok slot => match liveHalf s slot (phGen h) with
          | none => (.error Rsn.keyGenStale, keyReason s Rsn.keyGenStale, m)
          | some half => match readBytes s (jobWho j (jdSrcShelf d) (jdSrc d + 80)) (jdClass d) (144 * phApprovals h) m with
            | (.error e, s, m) => (.error e, s, m)
            | (.ok a, s, m) => match parcelKey s slot half (phSerial h) with
              | none => (.error Rsn.keyRevoked, keyReason s Rsn.keyRevoked, m)
              | some k =>
                if blkBytes (gcmTag k (parcelIv none) (h.take 64 ++ a) []) = h.drop 64 then (.ok (h, a, slot, half), s, m)
                else (.error Bc.parcelAuth, s, m)

/-- O5 of an IMPORT (07 R237). -/
def importOpen (s : State) (j : Job) (h : List Byte) (flashOk : Bool) (m : MemIn) : OpenResult :=
  let d := j.desc
  let tenant := shTenant (jdKeyShelf d)
  match admitsOf s j tenant (jdDstShelf d) (jdDst d) (phLength h) .write m with
  | (.error e, s, m) => (.error (e, 0, j), imeReason s e, m)
  | (.ok (ix, r), s, m) =>
    let high := dget 0 s.flash.importHigh tenant
    if jdDstLen d < phLength h then (.error (Bc.dstSpace, 0, j), s, m)
    else if releaseRank r.release < releaseRank (phRelease h) ∨ (r.mode = 0 ∧ bits (phRelease h) 14 2 ≠ 1) then
      (.error (Bc.releaseWeaker, 0, j), s, m)
    else if phOnce h ∧ phSerial h ≤ high then (.error (Bc.parcelReplay, 0, j), s, m)
    else if phOnce h ∧ !flashOk then (.error (Bc.bceFlashFailed, 0, j), flashFail s, m)
    else
      let s := if phOnce h then userKeyed { s with flash := { s.flash with importHigh := tput s.flash.importHigh tenant (phSerial h) } } else s
      (.ok { j with region := ix }, s, m)

/-- O5 of a RESEAL, its serial and its new header (07 R238). -/
def resealOpen (s : State) (j : Job) (h : List Byte) (slot : Nat) (flashOk : Bool) (m : MemIn) : OpenResult :=
  let d := j.desc
  let tenant := shTenant (jdKeyShelf d)
  let size := parcelBytes 0 (phLength h) (phSegLog h)
  if phOnce h then (.error (Bc.releaseDenied, 0, j), s, m)
  else match admitted s (jobWho j (jdDstShelf d) (jdDst d)) size .write (jdClass d) m with
    | (.error e, s, m) => (.error (e, 0, j), imeReason s e, m)
    | (.ok _, s, m) =>
      if jdDstLen d < size then (.error (Bc.dstSpace, 0, j), s, m)
      else match slotAt s slot with
        | none => (.error (Rsn.keyAbsent, 0, j), s, m)
        | some v =>
          if !k6Room s slot v 4 (parcelBlocks (phLength h) (phSegLog h)) then (.error (Rsn.keyExhausted, 0, j), keyReason s Rsn.keyExhausted, m)
          else match takeSerial s tenant (jdSerial d) flashOk with
            | .error (c, s) => (.error (c, 0, j), s, m)
            | .ok s =>
              let half := curHalf v
              let o := parcelHeader s (phSegLog h) tenant (phRelease h) v.genCur (jdSerial d) (phLength h) 0
              let j := { j with serial := jdSerial d, consumed := true }
              match parcelKey s slot half (jdSerial d) with
              | none => (.error (Rsn.keyRevoked, 0, j), keyReason s Rsn.keyRevoked, m)
              | some k =>
                let s := countBlocks s slot half 4 1
                let j := { j with slot := slot, half := half, gen := v.genCur, outHeader := o,
                                  reserved := parcelBlocks (phLength h) (phSegLog h) - 1 }
                match writeBytesBy .job s (jobWho j (jdDstShelf d) (jdDst d)) (o ++ blkBytes (gcmTag k (parcelIv none) o [])) (jdClass d) m with
                | (.error e, s', m) => (.error (e, 0, { j with wrote := wroteSince s s' }), s', m)
                | (.ok (), s, m) => (.ok { j with wrote := true }, s, m)

/-- IMPORT, RESEAL and LOAD_OWNERS open their parcel. -/
def inputOpen (s : State) (j : Job) (flashOk : Bool) (m : MemIn) : OpenResult :=
  match parcelOpen s j m with
  | (.error e, s, m) => (.error (e, 0, j), s, m)
  | (.ok (h, _, slot, half), s, m) =>
    let j := { j with opened := true, header := h, inSlot := slot, inHalf := half, segs := segCountOf (phLength h) (phSegLog h) }
    if jdOp j.desc = 2 then importOpen s j h flashOk m
    else if jdOp j.desc = 3 then resealOpen s j h slot flashOk m
    else (.ok j, s, m)

/-- A shard job opens under its cut: the slot and half the cut took, and the blocks it reserved for it (08 R253, R254, R273). -/
def shardOpen (s : State) (j : Job) (x : Nat) (c : Cut) (m : MemIn) : OpenResult :=
  match c.regions[j.pos]? with
  | none => (.error (Rsn.regionAbsent, 0, j), s, m)
  | some r =>
    let ix := regionIx r.shelf
    if c.restore then
      match readBytes s (jobWho j r.shardShelf r.shardAddr) (sdClass c.desc) 96 m with
      | (.error e, s, m) => (.error (e, 0, j), s, m)
      | (.ok h, s, m) =>
        match liveHalf s c.slot (fld h 0x10 4) with
        | none => (.error (Rsn.keyRevoked, 0, j), keyReason s Rsn.keyRevoked, m)
        | some half => (.ok { j with opened := true, inSlot := c.slot, inHalf := half, region := ix, header := h, segs := r.size / 4096 }, s, m)
    else
      let h := leBytes 4 0x44535453 ++ leBytes 1 1 ++ leBytes 1 r.mode ++ leBytes 1 (sdMode c.desc) ++ zeros 1 ++ leBytes 2 c.tenant
        ++ leBytes 2 (shFolio r.shelf) ++ leBytes 2 r.release ++ zeros 2 ++ leBytes 4 c.gen ++ zeros 4 ++ leBytes 8 c.stratum
        ++ leBytes 8 (sdStep c.desc) ++ leBytes 8 r.size ++ leBytes 8 (domainId s) ++ leBytes 8 (instId s)
        ++ leBytes 2 ((ownMember s).getD 0) ++ leBytes 2 (sdRank c.desc) ++ zeros 12
      let n := shardBlocks r.size
      (.ok { j with opened := true, slot := c.slot, half := c.half, gen := c.gen, region := ix, outHeader := h, segs := r.size / 4096, reserved := n },
        modCut s x fun c => { c with reserved := c.reserved - n }, m)

/-- Open a job: its descriptor read where it is a BULK command's, then the checks of its operation. -/
def openJob (s : State) (j : Job) (flashOk : Bool) (m : MemIn) : OpenResult :=
  match j.cut with
  | some ix => match tget s.bce.cuts ix with
    | some c => shardOpen s j ix c m
    | none => (.error (Sc.cancelled, 0, j), s, m)
  | none => match readBytes s (jobWho j j.shelf j.addr) (flightCls s (j.flight.getD 0)) 80 m with
    | (.error e, s, m) => (.error (e, 0, j), s, m)
    | (.ok d, s, m) =>
      let j := { j with desc := d, op := jdOp d }
      if !jdOk d then (.error (Bc.jobMalformed, 0, j), s, m)
      else if jdOp d = 1 then exportOpen s j flashOk m
      else inputOpen s j flashOk m

/-! ### Segments -/

/-- Length of segment `i` of a length. -/
def segLen (len segLog i : Nat) : Nat := min (2 ^ segLog) (len - i * 2 ^ segLog)

/-- Write a segment and, under READBACK, read it back; a mismatch is written once more, a second is BULK_CHECK_FAIL (07 R245, R246). -/
def writeSeg (s : State) (j : Job) (shelf addr : Nat) (b : List Byte) (m : MemIn) : Except Code Unit × State × MemIn :=
  let put := fun (s : State) (m : MemIn) => writeBytesBy .job s (jobWho j shelf addr) b (jdClass j.desc) m
  let back := fun (s : State) (m : MemIn) => readBytesBy .job s (jobWho j shelf addr) (jdClass j.desc) b.length m
  match put s m with
  | (.error e, s, m) => (.error e, s, m)
  | (.ok (), s, m) =>
    if jdCheck j.desc ≠ 2 then (.ok (), s, m)
    else match back s m with
      | (.error e, s, m) => (.error e, s, m)
      | (.ok x, s, m) =>
        if x = b then (.ok (), s, m)
        else match put s m with
          | (.error e, s, m) => (.error e, s, m)
          | (.ok (), s, m) => match back s m with
            | (.error e, s, m) => (.error e, s, m)
            | (.ok y, s, m) =>
              if y = b then (.ok (), s, m)
              else (.error Bc.bulkCheckFail,
                record s Flc.bulkCheck 4 (j.engine.getD 0) 4 Bc.bulkCheckFail (some (jobWho j shelf addr)) (j.op + 2 ^ 8 * j.seg), m)

/-- What the engine does with a segment: where its input lies, its text length, and whether the input is sealed with its tag behind it. -/
structure SegIn where
  shelf : Nat
  addr : Nat
  len : Nat
  sealed_ : Bool
  deriving DecidableEq, Repr

/-- The segment a job stands at (07 R233, R242; 08 R254). -/
def segIn (j : Job) : SegIn :=
  let d := j.desc
  if j.op = 1 then
    { shelf := jdSrcShelf d, addr := jdSrc d + j.seg * 2 ^ jdSegLog d, len := segLen (jdSrcLen d) (jdSegLog d) j.seg, sealed_ := false }
  else if j.op = 5 then { shelf := jdSrcShelf d, addr := jdSrc d + 4096 * j.seg, len := 4096, sealed_ := false }
  else
    let sl := if j.op = 6 then 12 else phSegLog j.header
    let len := if j.op = 6 then j.segs * 4096 else phLength j.header
    let head := if j.op = 6 then 96 else 80 + 144 * phApprovals j.header
    { shelf := jdSrcShelf d, addr := jdSrc d + head + j.seg * (2 ^ sl + 16), len := segLen len sl j.seg, sealed_ := true }

/-- Bytes to read for a segment. -/
def SegIn.bytes (g : SegIn) : Nat := g.len + if g.sealed_ then 16 else 0

/-- The derivation that opens a job's input, or seals its output, while its half is live. -/
def jobHandle (s : State) (j : Job) (out : Bool) : Option KeyHandle :=
  let shard := j.op == 5 || j.op == 6
  let h := if out then j.outHeader else j.header
  let slot := if out then j.slot else j.inSlot
  let gen := if out then j.gen else if shard then fld h 0x10 4 else phGen h
  (liveHalf s slot gen).map fun half => if shard then shardHandle s slot half h else parcelHandle s slot half (phSerial h)

/-- IV and additional data of segment `i`. -/
def jobIv (j : Job) (out : Bool) (i : Nat) : List Byte :=
  if j.op = 5 ∨ j.op = 6 then shardIv (if out then j.outHeader else j.header) (some i) else parcelIv (some i)
def jobAad (j : Job) (out : Bool) : List Byte :=
  if out then j.outHeader else if j.op = 6 then j.header.take 0x50 else j.header.take 64

/-- VOLUME of a job's key. -/
def jobVol (j : Job) : Nat := if j.op = 5 ∨ j.op = 6 then 3 else 4

/-- A job's text passes the COMMON lanes under a key (01 R17, R23; 07 R248). -/
def jobPass (s : State) (j : Job) (h : KeyHandle) : Bool × State := commonPass s h (some (jobWho j (jdKeyShelf j.desc) j.addr)) j.id

/-- Blocks encrypted for a job: counted, and taken from what it reserved (03 R97; 07 R242 E2). -/
def jobCount (s : State) (j : Job) (half n : Nat) : Job × State :=
  ({ j with reserved := j.reserved - n }, countBlocks s j.slot half (jobVol j) n)

/-- The engine takes on the segment's text as far as it has been read, in whole blocks: GCM counter and GHASH accumulator move on (07 R232). -/
def cipherOn (s : State) (j : Job) : Except Code Job × State :=
  let g := segIn j
  let out := !g.sealed_
  match jobHandle s j out with
  | none => (.error Rsn.keyRevoked, s)
  | some hd => match derive s hd with
    | none => (.error Rsn.keyRevoked, s)
    | some kb =>
      let (ok, s) := jobPass s j hd
      if !ok then (.error Rsn.laneCheck, s)
      else
        let k := keyOf kb
        let ready := if g.len ≤ j.buf.length then g.len else j.buf.length / 16 * 16
        let x := slice j.buf (16 * j.ctr) (ready - 16 * j.ctr)
        let n := ceilDiv x.length 16
        let y := gcmXor k (jobIv j out j.seg) n (j.ctr + 2) x
        let aad := jobAad j out
        let acc := if j.ctr = 0 then ghash (gcmHash k) (blksOf (ceilDiv aad.length 16) aad) else j.acc
        let j := { j with acc := ghashOn (gcmHash k) acc (blksOf n (if out then y else x)), out := j.out ++ y, ctr := j.ctr + n }
        if out then let (j, s) := jobCount s j hd.half n; (.ok j, s) else (.ok j, s)

/-- The next read of a segment: what is left of a line. The pages of a walk are taken into the buffer whole, the others as they come. -/
def readPiece (s : State) (j : Job) (m : MemIn) : Except Code Job × State × MemIn :=
  let g := segIn j
  let a := g.addr + j.off
  let n := min (64 - a % 64) (g.bytes - j.off)
  match readBytesBy (if j.op = 5 then .walk else .job) s (jobWho j g.shelf a) (jdClass j.desc) n m with
  | (.error e, s, m) => (.error e, s, m)
  | (.ok b, s, m) =>
    let j := { j with buf := j.buf ++ b, off := j.off + n }
    if j.op = 5 then (.ok j, s, m) else let (r, s) := cipherOn s j; (r, s, m)

/-- The tag of the segment whose text is done. -/
def segTag (s : State) (j : Job) : Except Code (BitVec 128) :=
  let g := segIn j
  let out := !g.sealed_
  match (jobHandle s j out).bind (derive s) with
  | none => .error Rsn.keyRevoked
  | some kb => .ok (gcmClose (keyOf kb) (jobIv j out j.seg) (jobAad j out).length g.len j.acc)

/-- Seal text as an output segment in one go: a page of the COW buffer or of the walk, or what a RESEAL has opened; its blocks counted. -/
def sealSeg (s : State) (j : Job) (i : Nat) (p : List Byte) : Except Code (Job × List Byte) × State :=
  match jobHandle s j true with
  | none => (.error Rsn.keyRevoked, s)
  | some hd => match derive s hd with
    | none => (.error Rsn.keyRevoked, s)
    | some kb =>
      let (ok, s) := jobPass s j hd
      if !ok then (.error Rsn.laneCheck, s)
      else
        let (j, s) := jobCount s j hd.half (gcmBlocks p.length)
        (.ok (j, gcmSeal (keyOf kb) (jobIv j true i) (jobAad j true) p), s)

/-- The job at its next segment, nothing of it read. -/
def nextSeg (j : Job) (wrote : Nat) : Job :=
  { j with seg := j.seg + 1, segDone := j.segDone + wrote, off := 0, buf := [], out := [], ctr := 0, acc := 0#128, wrote := j.wrote || decide (0 < wrote) }

/-- Write a segment's output at its place of the destination, and go on to the next one. A failing write still marks DST written where a line of it was. -/
def putSeg (s : State) (j : Job) (addr : Nat) (b : List Byte) (m : MemIn) : Except (Code × Job) Job × State × MemIn :=
  match writeSeg s j (jdDstShelf j.desc) addr b m with
  | (.error e, s', m) => (.error (e, { j with wrote := j.wrote || wroteSince s s' }), s', m)
  | (.ok (), s, m) => (.ok (nextSeg j 1), s, m)

/-- A segment whose input is read: its tag, then its output; PARCEL_AUTH or SHARD_AUTH where the input's tag fails. -/
def segEnd (s : State) (j : Job) (m : MemIn) : Except (Code × Job) Job × State × MemIn :=
  let d := j.desc
  let g := segIn j
  match segTag s j with
  | .error e => (.error (e, j), s, m)
  | .ok t =>
    if !g.sealed_ then
      let (j, s) := jobCount s j (((jobHandle s j true).map (·.half)).getD 0) 1
      putSeg s j (jdDst d + 80 + 144 * jdApprovals d + j.seg * (2 ^ jdSegLog d + 16)) (j.out ++ blkBytes t) m
    else if blkBytes t ≠ slice j.buf g.len 16 then (.error (if j.op = 6 then Str.shardAuth else Bc.parcelAuth, j), s, m)
    else if j.op = 4 then (.ok (nextSeg { j with plain := j.plain ++ j.out } 0), s, m)
    else if j.op = 3 then
      match sealSeg s j j.seg j.out with
      | (.error e, s) => (.error (e, j), s, m)
      | (.ok (j, o), s) => putSeg s j (jdDst d + 80 + j.seg * (2 ^ phSegLog j.header + 16)) o m
    else putSeg s j (jdDst d + j.seg * 2 ^ (if j.op = 6 then 12 else phSegLog j.header)) j.out m

/-- Seal one page of a region into its shard (08 R254, R255). -/
def sealPage (s : State) (j : Job) (page : Nat) (p : List Byte) (m : MemIn) : Except (Code × Job) Job × State × MemIn :=
  match sealSeg s j page p with
  | (.error e, s) => (.error (e, j), s, m)
  | (.ok (j, b), s) => match writeSeg s j (jdDstShelf j.desc) (jdDst j.desc + 96 + 4112 * page) b m with
    | (.error e, s', m) => (.error (e, { j with wrote := j.wrote || wroteSince s s' }), s', m)
    | (.ok (), s, m) => (.ok { j with segDone := j.segDone + 1, wrote := true }, s, m)

/-- A copied page that is ready to be sealed, or has failed. -/
def readyCow (s : State) (ix : Nat) : Option CowPage :=
  s.ime.cow.find? fun x => x.region == ix && (x.fail != 0#8 || decide (x.lines.length = 64))

/-- The walk moves to the next page; SNAP_PTR is written through every 4096 pages (08 R259). -/
def walkOn (s : State) (ix page : Nat) : State :=
  match regionAt s ix with
  | some r =>
    let r := { r with snapPtr := page + 1 }
    if (page + 1) % 4096 = 0 then catWrite s ix r else setRegion s ix r
  | none => s

/-- A page of the COW buffer is sealed, or ends the job where a copy read of it failed (08 R266, R267). -/
def cowStep (s : State) (j : Job) (x : CowPage) (m : MemIn) : Except (Code × Job) Job × State × MemIn :=
  let s := { s with ime := { s.ime with cow := s.ime.cow.filter fun y => !(y.region == x.region && y.page == x.page) } }
  if x.fail ≠ 0#8 then (.error (x.fail, j), s, m)
  else
    match sealPage s j x.page ((List.range 64).flatMap fun i => lineBytes (dget 0#512 x.lines i)) m with
    | (r, s, m) => (r, releaseHolds s, m)

/-- The walk passes over a page copied ahead; what it had read of it is dropped (08 R266). -/
def passPage (s : State) (j : Job) : Job × State :=
  let s := { s with ime := { s.ime with copyAhead := s.ime.copyAhead.filter fun x => x != (j.region, j.seg) } }
  ({ j with seg := j.seg + 1, off := 0, buf := [] }, releaseHolds (walkOn s j.region j.seg))

/-- The page that the walk has read is sealed (08 R266). -/
def walkEnd (s : State) (j : Job) (m : MemIn) : Except (Code × Job) Job × State × MemIn :=
  match sealPage s j j.seg j.buf m with
  | (.error e, s, m) => (.error e, s, m)
  | (.ok k, s, m) => (.ok { k with seg := j.seg + 1, off := 0, buf := [] }, releaseHolds (walkOn s j.region j.seg), m)

/-! ### Ends -/

/-- The owner set of a KIND 3 parcel's plaintext (07 R243). -/
def ownerKeys (p : List Byte) : Option (List (BitVec 768)) :=
  let n := fld p 0 1
  let ks := (List.range n).map fun i => b768 (slice p (16 + 96 * i) 96)
  if 1 ≤ n ∧ n ≤ 16 ∧ zeroBytes (slice p 1 15) ∧ p.length = 16 + 96 * n ∧ ks.all Config.onCurve then some ks else none

/-- A job whose segments are all done ends (07 R243, R249; 08 R254, R273). -/
def jobFinish (s : State) (j : Job) (m : MemIn) : State × MemIn :=
  if j.op = 4 then
    match ownerKeys j.plain with
    | none => (endJob s j 2 Bc.parcelMalformed 0, m)
    | some ks =>
      (endJob { s with bce := { s.bce with owners := tput s.bce.owners (jdOwnerSet j.desc) (shTenant (jdKeyShelf j.desc), ks) } } j 0 0#8 0, m)
  else if j.op = 5 then
    match liveHalf s j.slot j.gen with
    | none => (endJob s j 1 Rsn.keyRevoked 0, m)
    | some half => match shardKey s j.slot half j.outHeader with
      | none => (endJob s j 1 Rsn.keyRevoked 0, m)
      | some k =>
        let h := j.outHeader ++ blkBytes (gcmTag k (shardIv j.outHeader none) j.outHeader [])
        let s := countBlocks s j.slot half 3 1
        match writeBytesBy .job s (jobWho j (jdDstShelf j.desc) (jdDst j.desc)) h (jdClass j.desc) m with
        | (.error e, s, m) => (endJob s j 1 e 0, m)
        | (.ok (), s, m) =>
          let s := endJob s j 0 0#8 0
          match j.cut with
          | some ix => shardDone s ix j.pos h m
          | none => (s, m)
  else if j.op = 6 then
    let s := endJob s j 0 0#8 0
    match j.cut with
    | some ix => shardDone s ix j.pos j.header m
    | none => (s, m)
  else (endJob s j 0 0#8 0, m)

/-- How a failing segment ends its job: FAILED where its tag or its check fails, else by R249 (07 R246). -/
def segFails (s : State) (j : Job) (c : Code) : State :=
  if (c = Bc.parcelAuth ∧ j.op ≠ 4) ∨ c = Bc.bulkCheckFail then endJob s j 1 c 0 else failJob (keyReason s c) j c

/-- Whether a region of a job is still the one it opened with. -/
def shardWaits (s : State) (j : Job) : Bool := j.op == 5 && decide (j.segs ≤ j.seg) && s.ime.cow.any fun x => x.region == j.region

/-- Run an open job while memory answers are left; one that runs out of them stays where it stands, at a 16-byte block of its segment (07 R232; log 14). -/
def runJob : Nat → State → Job → MemIn → State
  | 0, s, j, _ => setJob s j
  | f + 1, s, j, m =>
    if j.fail ≠ 0#8 then segFails s j j.fail
    else match (if j.op = 5 ∧ j.off = 0 then readyCow s j.region else none) with
    | some x => match cowStep s j x m with
      | (.error (e, j), s, _) => segFails s j e
      | (.ok j, s, m) => runJob f s j m
    | none =>
      if shardWaits s j then setJob s j
      else if j.segs ≤ j.seg then (jobFinish s j m).1
      else if j.op = 5 ∧ s.ime.copyAhead.contains (j.region, j.seg) then
        let (j, s) := passPage s j
        runJob f s j m
      else if j.off < (segIn j).bytes then
        if m.lines.isEmpty then setJob s j
        else match readPiece s j m with
          | (.error e, s, _) => segFails s j e
          | (.ok j, s, m) => runJob f s j m
      else match (if j.op = 5 then walkEnd s j m else segEnd s j m) with
        | (.error (e, j), s, _) => segFails s j e
        | (.ok j, s, m) => runJob f s j m

/-- The most steps one run can take: the lines and the end of each segment, and the pages of the COW buffer. -/
def runFuel (s : State) (j : Job) : Nat := 4100 * (j.segs + 1) + s.ime.cow.length + 2

/-! ### Engines, queue, suspension (07 R230 to R232; 10 R317) -/

/-- The jobs that an engine may take next: the suspended ones, and those of the queue of 256; STRATUM commands are not jobs of an engine. -/
def queuedJobs (s : State) : List Job :=
  (s.bce.jobs.filter fun j => j.opened && j.engine.isNone) ++ ((s.bce.jobs.filter fun j => !j.opened).take 256).filter fun j => j.op != 16

/-- Running, and suspended, jobs. -/
def runningJobs (s : State) : List Job := s.bce.jobs.filter fun j => j.engine.isSome
def suspendedJobs (s : State) : List Job := s.bce.jobs.filter fun j => j.opened && j.engine.isNone

/-- The lowest-numbered free engine of 4. -/
def freeEngine (s : State) : Option Nat := (List.range 4).find? fun e => !s.bce.jobs.any fun j => j.engine == some e

/-- Whether a running job ranks below another: later deadline or none, later entry, higher engine. -/
def ranksBelow (a b : Job) : Bool :=
  let k := fun (j : Job) => [if j.deadline.isSome then 0 else 1, j.deadline.getD 0, j.entered, j.engine.getD 0]
  keyLt (k b) (k a)

/-- The lowest-ranked running job. -/
def lowestJob : List Job → Option Job
  | [] => none
  | j :: r => match lowestJob r with
    | none => some j
    | some k => if ranksBelow k j then some k else some j

/-- Whether a waiting job outranks a running one: its deadline is strictly earlier (10 R317). -/
def outranks (j k : Job) : Bool :=
  match j.deadline, k.deadline with
  | some a, some b => decide (a < b)
  | some _, none => true
  | none, _ => false

/-- The engine for a waiting job: a free one, or that of the lowest-ranked running job where R231 suspends it. -/
def engineFor (s : State) (j : Job) : Option (Nat × State) :=
  match freeEngine s with
  | some e => some (e, s)
  | none => match lowestJob (runningJobs s) with
    | none => none
    | some k =>
      if outranks j k ∧ (suspendedJobs s).length < 8 then k.engine.map fun e => (e, setJob s { k with engine := none }) else none

/-- Whether the BCE may run jobs now: power, CORE, not stopped, a COMMON or lent lane (07 R248; 01 R32). -/
def bceRuns (s : State) : Bool :=
  s.pin.pwrok && !coreDown s && !bceStopped s && !s.key.tampered && !(bceLanes s).isEmpty

/-- JOB_START: the first job of the queue, where it waits to start, takes an engine and a segment buffer. -/
def jobStart (s : State) (m : MemIn) (flashOk : Bool) : State :=
  if !bceRuns s then s
  else match bestJob (queuedJobs s) with
    | none => s
    | some j =>
      if j.opened ∨ 8 ≤ (runningJobs s).length + (suspendedJobs s).length then s
      else match engineFor s j with
        | none => s
        | some (e, s) =>
          match openJob s { j with engine := some e } flashOk m with
          | (.error (c, pos, k), s, _) => endJob s k (if k.consumed ∨ k.wrote then 1 else 2) c pos
          | (.ok k, s, m) => runJob (runFuel s k) (setJob s k) k m

/-- Whether a running job has work: it does not wait for copied pages alone. -/
def hasWork (s : State) (j : Job) : Bool := !(shardWaits s j && (readyCow s j.region).isNone)

/-- The running job whose engine's turn it is, of those with work: engine 0 first, then each in its turn (07 R248). -/
def turnJob (s : State) : Option Job :=
  let l := (runningJobs s).filter (hasWork s)
  ((List.range 4).filterMap fun i => l.find? fun j => j.engine == some ((s.lane.turn + i) % 4)).head?

/-- JOB_RESUME: a suspended job that stands first goes on; else the running job whose turn it is for the lanes (07 R231, R232, R248; log 14). -/
def jobResume (s : State) (m : MemIn) : State :=
  if !bceRuns s then s
  else
    let first := match bestJob (queuedJobs s), freeEngine s with
      | some j, some e => if j.opened then some { j with engine := some e } else none
      | _, _ => none
    match first with
    | some j => runJob (runFuel s j) (setJob s j) j m
    | none => match turnJob s with
      | some j => runJob (runFuel s j) { s with lane := { s.lane with turn := (j.engine.getD 0 + 1) % 4 } } j m
      | none => s

/-! ### Other endings (07 R250) -/

/-- Every open job under a half ends with KEY_REVOKED (03 R95; 07 R250). -/
def jobsRevoked (s : State) (slot half : Nat) : State :=
  (s.bce.jobs.filter fun j => j.opened && ((j.slot == slot && j.half % 2 == half % 2 && (j.op == 1 || j.op == 3 || j.op == 5))
    || (j.inSlot == slot && j.inHalf % 2 == half % 2 && (j.op == 2 || j.op == 3 || j.op == 4 || j.op == 6)))).foldl
    (fun s j => if s.bce.jobs.any fun x => x.id == j.id then failJob s j Rsn.keyRevoked else s) s

/-- Cancellation of a BULK command (07 R250). -/
def bulkCancel (s : State) (flight : Nat) (code : Code) : State :=
  match s.bce.jobs.find? fun j => j.op != 16 && j.flight == some flight with
  | some j => failJob s j code
  | none => s

/-- Every job ends with a code (07 R250; 08 R270). -/
def allJobsEnd (s : State) (code : Code) : State :=
  let s := { s with bce := { s.bce with jobs := s.bce.jobs.filter fun j => j.cut.isNone } }
  s.bce.jobs.foldl (fun s j => if j.op = 16 then refuseStratum s j code 0 else failJob s j code) s

/-- Every open stratum command ends with a code and sends nothing; holds go on without copy (08 R270). -/
def allCutsEnd (s : State) (code : Code) : State :=
  s.bce.cuts.foldl (fun s x =>
    let s := closeCut (dropShardJobs s x.1) x.1 x.2 1 code ((ownMember s).getD 0) (sdRank x.2.desc) 0
    if x.2.restore then s else releaseHolds (idleRegions s x.2.indices)) s

/-- A BULK or STRATUM command reaches the job queue of 256, or is refused (07 R230; 10 R318). -/
def bceLaunch (s : State) (stratum : Bool) (l : Launch) : State :=
  if 256 ≤ (s.bce.jobs.filter fun j => !j.opened).length then
    endFlight s l.flight 2 Rsn.queueFull (zeros 32)
  else queueJob s (newJob s (if stratum then 16 else 0) (some l.flight) none 0 l.world l.slice l.context l.addr l.shelf [] l.deadline)

/-! ### The commands -/

/-- JOB_START (07 R230, R231). -/
def execJobStart (m : MemIn) (flashOk : Bool) (s : State) : Host.Outcome State Fault Refusal := .next (jobStart s m flashOk)

/-- JOB_RESUME (07 R232). -/
def execJobResume (m : MemIn) (s : State) : Host.Outcome State Fault Refusal := .next (jobResume s m)

end Sys2Proof.Machine
end

