-- ==== Sys2Proof/Machine/Hob.lean ====
section
/-!
DEFINITION. The host objects unit: queues and rings, commands from fetch to completion, events, memory objects, control commands and slice resets (09).
-/
namespace Sys2Proof.Machine

/-! ### Slices (09 R277 to R279) -/

/-- SLICE_COUNT of the charter in use. -/
def sliceCount (s : State) : Nat :=
  match secBody s 4 with
  | some b => fld b 0 2
  | none => 0

/-- A slice's entry. -/
def sliceAt (s : State) (i : Nat) : Slice := dget {} s.hob.slices i

/-- Replace a slice's entry. -/
def setSlice (s : State) (i : Nat) (v : Slice) : State := { s with hob := { s.hob with slices := dput {} s.hob.slices i v } }

/-- HOB_CTRL.HOSTIF. -/
def hostIf (s : State) : Nat := bits s.hob.ctrl.toNat 0 3

/-- HOST_CLASS: the class of ring, completion and mirror traffic (10 Table 10-7). -/
def hostClass (s : State) : Nat := bits s.qos.ctrl.toNat 0 4

/-- Whether GEN_FUNC_STATE shows the unit stopped for a recharter: it fetches and dispatches nothing (09 R300, R306). -/
def hobStopped (s : State) : Bool := s.gen.funcState.getLsbD 25

/-- Whether the unit works: power, HOST and CORE out of reset. -/
def hobUp (s : State) : Bool := s.pin.pwrok && !hostDown s && !coreDown s

/-- The requester of the unit's own traffic: CONTROL, the context's world and slice. -/
def hobWho (world slice context shelf addr : Nat) : Who := engWho 6 world (some slice) (some context) shelf addr

/-! ### Queues (09 R282 to R285) -/

/-- Replace a queue. -/
def setQueue (s : State) (q : Nat) (v : HQueue) : State := { s with hob := { s.hob with queues := tput s.hob.queues q v } }

/-- Entries a ring holds. -/
def ringHeld (q : HQueue) : Nat := (q.tail + 65536 - q.head) % 65536

/-- Whether a completion queue has an unreserved entry (09 R284). -/
def cqRoom (q : HQueue) : Bool := decide (ringHeld q + q.reserved < 2 ^ q.sizeLog2)

/-- World of a context. -/
def ctxWorld (s : State) (c : Nat) : Nat := ((tget s.hob.ctxs c).map (·.world)).getD 0

/-- HOB_DOORBELL: the driver's count moves, or the doorbell is counted and ignored (09 R283). -/
def doorbell (s : State) (v : Word) : State :=
  let n := bits v.toNat 16 16
  let bad := { s with hob := { s.hob with badDoorbell := satAdd 8 s.hob.badDoorbell 1 } }
  match tget s.hob.queues (bits v.toNat 0 12) with
  | none => bad
  | some q =>
    let q' := if q.kind = 1 then { q with tail := n } else { q with head := n }
    if ringHeld q' ≤ 2 ^ q.sizeLog2 then setQueue s (bits v.toNat 0 12) q' else bad

/-- A completion record (09 Table 9-6), under the format in use (R291). -/
def cqRecord (s : State) (phase : Bool) (tag op signal service result reason queue sqHead late slice ctx signalled : Nat) (detail : List Byte) :
    List Byte :=
  let two := decide (hostIf s = 2)
  let head := leBytes 8 tag ++ leBytes 1 op
    ++ leBytes 1 (128 * b2n phase + (if two then 0 else 16 * signal + 4 * service) + result) ++ leBytes 1 reason ++ zeros 1
    ++ leBytes 2 queue ++ leBytes 2 sqHead
  if two then head ++ zeros 48
  else head ++ leBytes 4 late ++ leBytes 2 slice ++ leBytes 2 ctx ++ leBytes 8 signalled ++ (padTo 32 detail).take 32

/-- PHASE of the record written at a TAIL count (09 R285). -/
def cqPhase (q : HQueue) : Bool := !(q.tail.testBit q.sizeLog2)

/-- Write a completion record at the TAIL of a completion queue; `held` says whether an entry was reserved for it (09 R284, R285). -/
def cqWrite (s : State) (cq : Nat) (rcd : List Byte) (held : Bool) (m : MemIn) : State × MemIn :=
  match tget s.hob.queues cq with
  | none => (s, m)
  | some q =>
    let w := hobWho (ctxWorld s q.ctx) q.slice q.ctx q.shelf (q.addr + 64 * (q.tail % 2 ^ q.sizeLog2))
    let (_, s, m) := writeLine .live s w (bytesLine rcd) (hostClass s) m
    let s := setQueue s cq { q with tail := (q.tail + 1) % 65536, reserved := if held then q.reserved - 1 else q.reserved }
    (if q.notify then raiseIrq s 0 else s, m)

/-- What becomes of a message for a receive queue. -/
inductive Recv where
  | placed
  | full
  | error (c : Code)
  deriving DecidableEq, Repr

/-- Place a message in a receive queue with its RECV record (05 R184; 09 R284, R290, R303 SR1). A message longer than a slot is answered
MSG_TOO_LONG, one whose slot cannot be written with the write's reason (log 60). -/
def recvMessage (s : State) (src queue : Nat) (b : List Byte) (m : MemIn) : Recv × State × MemIn :=
  match tget s.hob.queues queue with
  | none => (.error Rsn.noQueue, s, m)
  | some q =>
    if q.kind ≠ 3 ∨ (sliceAt s q.slice).resetting then (.error Rsn.noQueue, s, m)
    else if 2 ^ q.slotLog2 < b.length then (.error Rsn.msgTooLong, s, m)
    else if 2 ^ q.sizeLog2 ≤ ringHeld q ∨ !((tget s.hob.queues q.cq).any cqRoom) then (.full, s, m)
    else
      let ix := q.tail % 2 ^ q.sizeLog2
      match writeBytes s (hobWho (ctxWorld s q.ctx) q.slice q.ctx q.shelf (q.addr + ix * 2 ^ q.slotLog2)) b (hostClass s) m with
      | (.error c, s, m) => (.error c, s, m)
      | (.ok (), s, m) =>
        let cq := (tget s.hob.queues q.cq).getD q
        let rcd := cqRecord s (cqPhase cq) q.tail 0x80 0 0 0 0 queue 0 0 q.slice q.ctx 0
          (leBytes 2 src ++ zeros 2 ++ leBytes 4 b.length ++ leBytes 2 ix)
        let (s, m) := cqWrite s q.cq rcd false m
        (.placed, setQueue s queue { q with tail := (q.tail + 1) % 65536 }, m)

/-! ### Command records (09 Tables 9-4, 9-5) -/

/-- Fields of a command record. -/
def crOp (r : List Byte) : Nat := fld r 0 1
def crWait (r : List Byte) : Bool := bit (fld r 1 1) 0
def crSignal (r : List Byte) : Bool := bit (fld r 1 1) 1
def crAlways (r : List Byte) : Bool := bit (fld r 1 1) 2
def crOrdered (r : List Byte) : Bool := bit (fld r 1 1) 3
def crClass (r : List Byte) : Nat := fld r 2 1
def crTag (r : List Byte) : Nat := fld r 8 8
def crWaitEvent (r : List Byte) : Nat := fld r 0x10 2
def crSigEvent (r : List Byte) : Nat := fld r 0x12 2
def crObjA (r : List Byte) : Nat := fld r 0x14 2
def crObjB (r : List Byte) : Nat := fld r 0x16 2
def crWaitValue (r : List Byte) : Nat := fld r 0x18 8
def crSigValue (r : List Byte) : Nat := fld r 0x20 8
def crArg0 (r : List Byte) : Nat := fld r 0x28 8
def crArg1 (r : List Byte) : Nat := fld r 0x30 8
def crArg2 (r : List Byte) : Nat := fld r 0x38 8

/-- The arguments an OPCODE admits. -/
def crArgsOk (r : List Byte) : Bool :=
  let a1 := crArg1 r
  let a2 := crArg2 r
  if crOp r = 0 then crArg0 r == 0 && a1 == 0 && a2 == 0
  else if crOp r ≤ 3 then decide (crArg0 r < 2 ^ 52) && decide (a1 < 2 ^ 24) && a2 == 0
  else if crOp r = 4 then
    decide (crArg0 r < 2 ^ 52) && bits a1 24 8 == 0 && decide (bits a1 32 17 ≤ 65536) && bits a1 51 13 == 0 && bits a2 14 2 == 0
      && bits a2 32 32 == 0
  else crOp r == 5 && decide (a1 < 4096) && a2 == 0

/-- Whether a command record carries no reserved bit, field or encoding (09 R286, R287 step 2). -/
def crOk (r : List Byte) : Bool :=
  decide (fld r 1 1 < 16) && (crSignal r || !crAlways r) && decide (crClass r < 16) && fld r 3 1 == 0
    && (if crWait r then decide (crWaitEvent r < 16384) else crWaitEvent r == 0 && crWaitValue r == 0)
    && (if crSignal r then decide (crSigEvent r < 16384) else crSigEvent r == 0 && crSigValue r == 0)
    && crArgsOk r

/-! ### Memory objects (09 R296 to R299) -/

/-- Replace a memory object; FREE is not listed. -/
def setObj (s : State) (h : Nat) (o : Option HObj) : State := { s with hob := { s.hob with objs := tset s.hob.objs h o } }

/-- Issue the DESTROY of an object no one holds: it is RETIRING until a DESTROY is done, and its handle then FREE (`closeRegion`; 09 R298). -/
def objDestroy (s : State) (h : Nat) (m : MemIn) : State × MemIn :=
  match tget s.hob.objs h with
  | none => (s, m)
  | some o =>
    if o.refs ≠ 0 then (s, m)
    else
      let (_, s, m) := regionDestroy (setObj s h (some { o with state := 2, tried := s.tm.ns })) o.cat false m
      (afterMem s, m)

/-- One reference of an object goes (09 R289 step 4, R298). -/
def objRelease (s : State) (h : Nat) (m : MemIn) : State × MemIn :=
  match tget s.hob.objs h with
  | none => (s, m)
  | some o =>
    let s := setObj s h (some { o with refs := o.refs - 1 })
    if o.refs = 1 then objDestroy s h m else (s, m)

/-- OBJ_DESTROY_RETRY: a DESTROY that completed BUSY, again after 100 µs (09 R298). -/
def objRetry (s : State) (h : Nat) (m : MemIn) : State :=
  match tget s.hob.objs h with
  | some o => if hobUp s ∧ o.state = 2 ∧ o.refs = 0 ∧ o.tried + 100000 ≤ s.tm.ns then (objDestroy s h m).1 else s
  | none => s

/-! ### Events (09 R293 to R295) -/

/-- Write an event's VALUE to its mirror, as a command's context. -/
def mirrorWrite (s : State) (f : Flight) (e : HEvent) (m : MemIn) : State × MemIn :=
  if !e.mirror then (s, m)
  else
    let (_, s, m) := writeBytes s (hobWho f.world f.slice f.ctx e.mShelf e.mAddr) (leBytes 8 e.value) (hostClass s) m
    (s, m)

/-- Apply a signal: the SIGNAL field, and the state (09 R293). -/
def applySignal (s : State) (f : Flight) (ix v : Nat) (m : MemIn) : Nat × State × MemIn :=
  match tget s.hob.events ix with
  | none => (0, s, m)
  | some e =>
    if e.value = 2 ^ 64 - 1 then (2, hobReason { s with hob := { s.hob with fenceEnd := satAdd 8 s.hob.fenceEnd 1 } } Hc.fenceEnd, m)
    else if v ≤ e.value then
      (1, { s with hob := { s.hob with events := tput s.hob.events ix { e with ignored := satAdd 32 e.ignored 1 },
                                       fenceIgnored := satAdd 16 s.hob.fenceIgnored 1 } }, m)
    else
      let e := { e with value := v }
      let (s, m) := mirrorWrite { s with hob := { s.hob with events := tput s.hob.events ix e } } f e m
      (0, s, m)

/-! ### Fetch (09 R287) -/

/-- The fetched command of an SQ that has not been dispatched. -/
def fetchedOf (s : State) (sq : Nat) : Option (Nat × Flight) := s.hob.flight.find? fun x => x.2.sq == sq && x.2.stage == .fetched

/-- Whether an SQ is in the rotation with a command to fetch: its context is live, and the command has its entries (09 R279, R284, R287). -/
def fetchable (s : State) (sq : Nat) (q : HQueue) : Bool :=
  q.kind == 1 && (sliceAt s q.slice).live == some q.ctx && !(sliceAt s q.slice).resetting && decide (0 < ringHeld q)
    && (fetchedOf s sq).isNone && (tget s.hob.queues q.cq).any cqRoom

/-- Whether the turn that has fetched from `turn` has still to come to an SQ: none of its slice at or above its number has had its turn. -/
def stillDue (s : State) (turn : List Nat) (sq : Nat) (q : HQueue) : Bool :=
  !(turn.any fun t => decide (sq ≤ t) && (tget s.hob.queues t).any fun x => x.slice == q.slice)

/-- The SQs the present turn has fetched from; a new turn begins once it has come to every SQ (09 R287). -/
def turnNow (s : State) : List Nat :=
  if s.hob.queues.any fun x => fetchable s x.1 x.2 && stillDue s s.hob.turn x.1 x.2 then s.hob.turn else []

/-- Whether the unit fetches from an SQ now: it is its turn, and it is the lowest of its slice that this turn has still to come to (09 R287). -/
def mayFetch (s : State) (sq : Nat) : Bool :=
  match tget s.hob.queues sq with
  | none => false
  | some q =>
    let due := fun (i : Nat) (x : HQueue) => fetchable s i x && stillDue s (turnNow s) i x
    hobUp s && !quiescing s && !portStopped s 25 && decide (s.hob.flight.length < 4096) && due sq q
      && !(s.hob.queues.any fun x => decide (x.1 < sq) && x.2.slice == q.slice && due x.1 x.2)

/-- Step 3: an event a record names is to exist and be of the slice. -/
def eventCheck (s : State) (slice : Nat) (used : Bool) (ix : Nat) : Code :=
  if !used then 0#8
  else match tget s.hob.events ix with
    | none => Hc.eventAbsent
    | some e => if e.slice = slice then 0#8 else Hc.foreign

/-- Step 4: an object a record names is to be LIVE and of the slice; it then takes a reference. -/
def objTake (s : State) (slice h : Nat) : Code × State :=
  if h = 0xFFFF then (0#8, s)
  else match tget s.hob.objs h with
    | none => (Hc.objAbsent, s)
    | some o =>
      if o.state ≠ 1 then (Hc.objRetiring, s)
      else if o.slice ≠ slice then (Hc.foreign, s)
      else (0#8, setObj s h (some { o with refs := o.refs + 1 }))

/-- Steps 2 to 4: the first failure's reason, the references taken, and the state. -/
def fetchChecks (s : State) (slice : Nat) (r : List Byte) : Code × List Nat × State :=
  if !crOk r then (Hc.cmdMalformed, [], s)
  else
    let w := eventCheck s slice (crWait r) (crWaitEvent r)
    let g := eventCheck s slice (crSignal r) (crSigEvent r)
    if w ≠ 0#8 then (w, [], s)
    else if g ≠ 0#8 then (g, [], s)
    else
      let (a, s) := objTake s slice (crObjA r)
      let ra := if a = 0#8 ∧ crObjA r ≠ 0xFFFF then [crObjA r] else []
      if a ≠ 0#8 then (a, [], s)
      else
        let (b, s) := objTake s slice (crObjB r)
        (b, ra ++ (if b = 0#8 ∧ crObjB r ≠ 0xFFFF then [crObjB r] else []), s)

/-- COMMAND_FETCH: the next record of an SQ, with its CQ and in-flight entries. A record that cannot be read completes REFUSED with the
read's reason (log 61). -/
def commandFetch (s : State) (sq : Nat) (m : MemIn) : State :=
  match tget s.hob.queues sq with
  | none => s
  | some q =>
    if !mayFetch s sq then s
    else
      let w := hobWho (ctxWorld s q.ctx) q.slice q.ctx q.shelf (q.addr + 64 * (q.head % 2 ^ q.sizeLog2))
      let turn := turnNow s ++ [sq]
      let (r, s, _) := readLine s w (hostClass s) .live m
      let head := (q.head + 1) % 65536
      let s := setQueue { s with hob := { s.hob with turn := turn } } sq { q with head := head }
      let s := match tget s.hob.queues q.cq with
        | some c => setQueue s q.cq { c with reserved := c.reserved + 1 }
        | none => s
      let rcd := match r with
        | .ok l => lineBytes l
        | .error _ => zeros 64
      let (c, refs, s) := match r with
        | .ok _ => fetchChecks s q.slice rcd
        | .error c => (c, [], s)
      let f : Flight :=
        { sq := sq, slice := q.slice, ctx := q.ctx, world := ctxWorld s q.ctx, record := rcd, sqHead := head,
          deadline := deadlineOf s (BitVec.ofNat 32 (if r.isOk then fld rcd 4 4 else 0xFFFFFFFF)),
          stage := if c = 0#8 then .fetched else .ended, result := if c = 0#8 then 0 else 2, reason := c, detail := zeros 32,
          refs := refs, target := none, engaged := false, entered := s.tm.ns }
      hobReason { s with hob := { s.hob with flight := tput s.hob.flight s.hob.nextFlight f, nextFlight := s.hob.nextFlight + 1 } } c

/-! ### Dispatch (09 R288, R292) -/

/-- Whether a fetched command's wait and order conditions hold. -/
def mayDispatch (s : State) (id : Nat) (f : Flight) : Bool :=
  hobUp s && !quiescing s && !hobStopped s && (sliceAt s f.slice).live == some f.ctx
    && (!crWait f.record || (tget s.hob.events (crWaitEvent f.record)).any fun e => decide (crWaitValue f.record ≤ e.value))
    && (!crOrdered f.record || !(s.hob.flight.any fun x => x.2.sq == f.sq && decide (x.1 < id)))

/-- Replace an in-flight command. -/
def setFlight (s : State) (id : Nat) (f : Flight) : State := { s with hob := { s.hob with flight := tput s.hob.flight id f } }

/-- Cancel the dispatched command of an engine, or a fetched one, with a reason; whether it ended or is to end (09 R292, R303). -/
def cancelFlight (s : State) (id : Nat) (f : Flight) (code : Code) : Bool × State :=
  if f.stage = .fetched then (true, endFlight s id 2 code (zeros 32))
  else if f.stage = .ended then (false, s)
  else if crOp f.record = 1 then (true, sreCancel s id)
  else if crOp f.record = 2 then (true, bulkCancel s id code)
  else if crOp f.record = 3 then (true, stratumCancel s id code)
  else (false, s)

/-- CANCEL: the oldest command of its slice with that TAG and SQ; the CANCEL ends after it (09 R292). It may name no other slice's queue (R281,
log 153). -/
def cancelCmd (s : State) (id : Nat) (f : Flight) : State :=
  if (tget s.hob.queues (crArg1 f.record)).any fun q => q.slice != f.slice then endFlight s id 2 Hc.foreign (zeros 32)
  else match s.hob.flight.find? fun x => x.1 != id && x.2.slice == f.slice && x.2.sq == crArg1 f.record && crTag x.2.record == crArg0 f.record with
  | none => endFlight s id 2 Hc.cancelMiss (zeros 32)
  | some (t, g) =>
    let (ended, s) := cancelFlight s t g Sc.cancelled
    let f := { f with stage := .dispatched, target := some t, result := if ended then 0 else 2,
                      reason := if ended then 0#8 else Hc.cancelMiss, detail := zeros 32 }
    let s := setFlight s id f
    if ended then s else hobReason s Hc.cancelMiss

/-- SEND: the buffer is read as the context, and the message goes to the ILE (05 R184; 09 Table 9-5; 10 R318). -/
def sendCmd (s : State) (id : Nat) (f : Flight) (m : MemIn) : State :=
  let r := f.record
  let len := bits (crArg1 r) 32 17
  let shape := bits (crArg1 r) 49 2
  let dest := bits (crArg2 r) 0 14
  let e := routeEgress (routeOf s dest)
  let det := leBytes 4 len ++ zeros 28
  let c := sendCode s dest shape len
  let bar := if c ≠ 0#8 then c
    else if portStopped s (qpOfLnk e) then Rsn.portStopped
    else if noLanes s (qpOfLnk e) then Rsn.noLanes
    else 0#8
  if bar ≠ 0#8 then endFlight { s with ile := { s.ile with lastReason := bar } } id 2 bar det
  else match readBytes s (hobWho f.world f.slice f.ctx (bits (crArg1 r) 0 24) (crArg0 r)) (crClass r) len m with
    | (.error c, s, _) => endFlight s id 2 c det
    | (.ok b, s, _) =>
      let p : PendingSend :=
        { src := .host id, queue := bits (crArg2 r) 16 16, message := s.ile.nextMsg, dest := dest, cls := crClass r, shape := shape,
          who := hobWho f.world f.slice f.ctx (bits (crArg1 r) 0 24) (crArg0 r), deadline := f.deadline, bytes := b }
      if !origRoom s (crClass r) (segCount s p) then endFlight s id 2 Rsn.queueFull det
      else queueSend (setFlight s id { f with stage := .dispatched, engaged := true, detail := det }) p

/-- COMMAND_DISPATCH: a fetched command whose conditions hold goes to its engine (09 R288). -/
def commandDispatch (s : State) (sq : Nat) (m : MemIn) : State :=
  match fetchedOf s sq with
  | none => s
  | some (id, f) =>
    if !mayDispatch s id f then s
    else
      let r := f.record
      let l : Launch := { flight := id, world := f.world, slice := f.slice, context := f.ctx, addr := crArg0 r, shelf := crArg1 r,
                          deadline := f.deadline, entered := s.tm.ns }
      let s' := setFlight s id { f with stage := .dispatched, engaged := true }
      if crOp r = 0 then endFlight s id 0 0#8 (zeros 32)
      else if crOp r = 1 then sreLaunch s' l
      else if crOp r = 2 then bceLaunch s' false l
      else if crOp r = 3 then bceLaunch s' true l
      else if crOp r = 4 then sendCmd s id f m
      else cancelCmd s id f

/-! ### Completion (09 R289, R290) -/

/-- The selector a command's outcome is counted at: the ILE table, the SRE queue or the BCE queue (10 Table 10-8). -/
def statOf (op : Nat) : Option Nat := if op = 1 then some 25 else if op = 2 ∨ op = 3 then some 26 else if op = 4 then some 24 else none

/-- The CANCELs that wait for a target end once its record is written (09 R292). -/
def wakeCancels (s : State) (id : Nat) : State :=
  { s with hob := { s.hob with flight := s.hob.flight.map fun x =>
    (x.1, if x.2.target = some id ∧ x.2.stage = .dispatched then { x.2 with stage := .ended } else x.2) } }

/-- COMMAND_COMPLETE: the signal and its mirror, the record, the references, the entry (09 R289). -/
def commandComplete (s : State) (id : Nat) (m : MemIn) : State :=
  match tget s.hob.flight id with
  | none => s
  | some f =>
    if f.stage ≠ .ended ∨ !hobUp s ∨ f.untilCore then s
    else
      let r := f.record
      let ask := crSignal r && (f.result == 0 || crAlways r) && (tget s.hob.events (crSigEvent r)).any fun e => e.slice == f.slice
      let (sig, s, m) := if ask then applySignal s f (crSigEvent r) (crSigValue r) m else (0, s, m)
      let refusedNop := decide (sig = 2 ∧ crOp r = 0 ∧ f.result = 0)
      let result := if refusedNop then 2 else f.result
      let reason := if refusedNop then Hc.fenceEnd else f.reason
      let late := if result = 2 then 0 else min 0xFFFFFFFF (latenessOf s f.deadline)
      let s := match statOf (crOp r) with
        | some p => if f.engaged ∨ reason = Rsn.queueFull then countOutcome s p (crClass r) (decide (result = 2)) f.deadline else s
        | none => s
      let value := if ask ∧ sig = 0 then ((tget s.hob.events (crSigEvent r)).map (·.value)).getD 0 else 0
      let sqe := tget s.hob.queues f.sq
      let cq := ((sqe.bind fun q => tget s.hob.queues q.cq).map cqPhase).getD false
      let rcd := cqRecord s cq (crTag r) (crOp r) sig (serviceOf s (decide (result = 2)) f.deadline) result reason.toNat f.sq f.sqHead late
        f.slice f.ctx value f.detail
      let (s, m) := match sqe with
        | some q => cqWrite s q.cq rcd true m
        | none => (s, m)
      let (s, _) := f.refs.foldl (fun (x : State × MemIn) h => objRelease x.1 h x.2) (s, m)
      wakeCancels { s with hob := { s.hob with flight := tdel s.hob.flight id } } id

/-! ### Control commands (09 R300) -/

/-- A control command ends: its code, or HOB_BUSY where another was written while it ran; the HOB source rises (09 R300; 15 Table 15-5). -/
def hobEnd (s : State) (c : Code) (detail : Nat) : State :=
  let c' := if s.hob.busyHit then Hc.hobBusy else c
  raiseIrq (hobReason { s with hob := { s.hob with
    cmdBusy := false, busyHit := false, cmdCode := c', cmdDetail := detail, cmdWait := none } } c') 5

/-- The checks every control command starts with (09 R281, R300). A value Table 9-10 gives as 0 is a field of the command (log 62). -/
def hobGate (s : State) (slice : Nat) (usesAddr : Bool) (argBits : Nat) : Code :=
  if hobStopped s then Hc.hobStopped
  else if (!usesAddr && s.hob.cmdAddr != 0#64) || decide (2 ^ argBits ≤ s.hob.cmdArg.toNat) then Hc.cmdMalformed
  else if sliceCount s ≤ slice then Hc.sliceAbsent
  else if (sliceAt s slice).resetting then Hc.sliceResetting
  else 0#8

/-- Run a control command that ends at once. -/
def hobRun (s : State) (slice : Nat) (usesAddr : Bool) (argBits : Nat) (f : State → Code × State) : State :=
  if s.hob.cmdBusy then { s with hob := { s.hob with busyHit := true } }
  else
    let g := hobGate s slice usesAddr argBits
    if g ≠ 0#8 then hobEnd s g 0
    else
      let (c, s) := f s
      hobEnd s c 0

/-- A creation's index: in range and not in use (09 R280). -/
def newIndex {α : Type} (t : Tbl α) (i n : Nat) : Code :=
  if n ≤ i then Hc.indexRange else if (tget t i).isSome then Hc.indexUsed else 0#8

/-- CTX_CREATE. -/
def ctxCreate (slice i : Nat) (s : State) : Code × State :=
  let c := newIndex s.hob.ctxs i 4096
  if c ≠ 0#8 then (c, s)
  else (0#8, { s with hob := { s.hob with ctxs := tput s.hob.ctxs i { slice := slice, world := bits s.hob.cmdArg.toNat 0 2 } } })

/-- Whether a context exists and belongs to a slice. -/
def ctxOf (s : State) (slice i : Nat) : Bool := (tget s.hob.ctxs i).any fun c => c.slice == slice

/-- CTX_DESTROY: a context the slice does not have is FOREIGN (log 63). -/
def ctxDestroy (slice i : Nat) (s : State) : Code × State :=
  if !ctxOf s slice i then (Hc.foreign, s)
  else if (sliceAt s slice).live = some i ∨ s.hob.queues.any (fun q => q.2.ctx == i) then (Hc.hobInUse, s)
  else (0#8, { s with hob := { s.hob with ctxs := tdel s.hob.ctxs i } })

/-- SWITCH (09 R301). -/
def switchCtx (slice i : Nat) (s : State) : Code × State :=
  if i = 0xFFFF then (0#8, setSlice s slice { sliceAt s slice with live := none })
  else if !ctxOf s slice i then (Hc.foreign, s)
  else (0#8, setSlice s slice { sliceAt s slice with live := some i })

/-- Whether a queue record has no reserved field and no value out of range (09 Table 9-2). -/
def queueForm (b : List Byte) : Bool :=
  let k := fld b 1 1
  let n := fld b 2 1
  fld b 0 1 == 1 && decide (1 ≤ k ∧ k ≤ 3)
    && (if k = 3 then decide (2 ≤ n ∧ n ≤ 12 ∧ 12 ≤ fld b 3 1 ∧ fld b 3 1 ≤ 16) else decide (4 ≤ n ∧ n ≤ 15) && fld b 3 1 == 0)
    && fld b 7 1 == 0 && decide (fld b 8 8 < 2 ^ 52) && fld b 8 8 % 4096 == 0 && decide (fld b 0x10 2 < 4096)
    && (if k = 2 then fld b 0x12 2 == 0 && decide (fld b 0x14 1 < 2) else decide (fld b 0x12 2 < 4096) && fld b 0x14 1 == 0)
    && zeroBytes (slice b 0x15 43)

/-- Whether a thing a command names is another slice's: FOREIGN, where a thing that does not exist is not (09 R281, log 153). -/
def ofOther {α : Type} (t : Tbl α) (of : α → Nat) (slice i : Nat) : Bool := (tget t i).any fun x => of x != slice

/-- Q_CREATE (09 R281, R282). -/
def queueCreate (slc i : Nat) (m : MemIn) (s : State) : Code × State :=
  let c := newIndex s.hob.queues i 4096
  if c ≠ 0#8 then (c, s)
  else match ctlRead s s.hob.cmdShelf.toNat s.hob.cmdAddr.toNat 64 m with
    | (.error c, s, _) => (c, s)
    | (.ok b, s, m) =>
      let k := fld b 1 1
      let ctx := fld b 0x10 2
      let cq := fld b 0x12 2
      let q : HQueue := { kind := k, ctx := ctx, slice := slc, sizeLog2 := fld b 2 1, slotLog2 := fld b 3 1, shelf := fld b 4 3,
                          addr := fld b 8 8, cq := cq, notify := bit (fld b 0x14 1) 0, head := 0, tail := 0, reserved := 0 }
      let len := if k = 3 then 2 ^ (q.sizeLog2 + q.slotLog2) else 64 * 2 ^ q.sizeLog2
      let w := hobWho (ctxWorld s ctx) slc ctx q.shelf q.addr
      if !queueForm b then (Hc.ringMalformed, s)
      else if ofOther s.hob.ctxs (·.slice) slc ctx then (Hc.foreign, s)
      else if !ctxOf s slc ctx then (Hc.ringMalformed, s)
      else if k ≠ 2 ∧ ofOther s.hob.queues (·.slice) slc cq then (Hc.foreign, s)
      else if k ≠ 2 ∧ !((tget s.hob.queues cq).any fun c => c.kind == 2) then (Hc.ringMalformed, s)
      else match admitted s w len .read (hostClass s) m with
        | (.error c, s, _) => (c, imeReason s c)
        | (.ok _, s, m) => match admitted s w len .write (hostClass s) m with
          | (.error c, s, _) => (c, imeReason s c)
          | (.ok _, s, _) => (0#8, setQueue s i q)

/-- Q_DESTROY (09 Table 9-10). -/
def queueDestroy (slice i : Nat) (s : State) : Code × State :=
  match tget s.hob.queues i with
  | none => (Hc.queueAbsent, s)
  | some q =>
    if q.slice ≠ slice then (Hc.foreign, s)
    else if (s.hob.queues.any fun x => x.2.kind != 2 && q.kind == 2 && x.2.cq == i) || (s.hob.flight.any fun f => f.2.sq == i)
        || (s.ile.msgs.any fun g => g.queue == i) then (Hc.hobInUse, s)
    else (0#8, { s with hob := { s.hob with queues := tdel s.hob.queues i } })

/-- EVENT_CREATE (09 R295). -/
def eventCreate (slc i : Nat) (m : MemIn) (s : State) : Code × State :=
  let c := newIndex s.hob.events i 16384
  if c ≠ 0#8 then (c, s)
  else match ctlRead s s.hob.cmdShelf.toNat s.hob.cmdAddr.toNat 32 m with
    | (.error c, s, _) => (c, s)
    | (.ok b, s, _) =>
      let mir := bit (fld b 1 1) 0
      let a := fld b 0x10 8
      if fld b 0 1 ≠ 1 ∨ 2 ≤ fld b 1 1 ∨ fld b 2 2 ≠ 0 ∨ fld b 7 1 ≠ 0 ∨ a % 8 ≠ 0 ∨ 2 ^ 52 ≤ a ∨ (!mir ∧ a ≠ 0)
          ∨ fld b 0x18 8 ≠ 0 then (Hc.cmdMalformed, s)
      else
        let e : HEvent := { slice := slc, value := fld b 8 8, ignored := 0, mirror := mir, mShelf := fld b 4 3, mAddr := a }
        (0#8, { s with hob := { s.hob with events := tput s.hob.events i e } })

/-- EVENT_DESTROY (09 R295). -/
def eventDestroy (slice i : Nat) (s : State) : Code × State :=
  match tget s.hob.events i with
  | none => (Hc.eventAbsent, s)
  | some e =>
    if e.slice ≠ slice then (Hc.foreign, s)
    else if s.hob.flight.any (fun f => (crWait f.2.record && crWaitEvent f.2.record == i) || (crSignal f.2.record && crSigEvent f.2.record == i)) then
      (Hc.hobInUse, s)
    else (0#8, { s with hob := { s.hob with events := tdel s.hob.events i } })

/-- A handle is bound to a region, with the driver's hold (09 R296). -/
def objBind (s : State) (slice h cat : Nat) : State := setObj s h (some { slice := slice, cat := cat, state := 1, hold := true, refs := 1 })

/-- The catalogue index of HOB_CMD_ARG. -/
def argCat (s : State) : Nat := bits s.hob.cmdArg.toNat 0 21

/-- CREATE for OBJ_CREATE, once the catalogue is formatted: its code, Table 4-5's code, and the state. -/
def objCreateRun (s : State) (slice h : Nat) (m : MemIn) : Code × Nat × State :=
  match ctlRead s s.hob.cmdShelf.toNat s.hob.cmdAddr.toNat 64 m with
  | (.error c, s, _) => (c, 0, s)
  | (.ok b, s, m) =>
    let (c, s) := regionCreate s (argCat s) b m
    if c = Rc.done then (0#8, 0, objBind (afterMem s) slice h (argCat s)) else (Hc.regionCmdFailed, c.toNat, s)

/-- OBJ_CREATE: it waits, as CREATE does, until the catalogue is formatted (09 R296; 04 R112). -/
def objCreate (s : State) (slice h : Nat) (m : MemIn) : State :=
  if s.hob.cmdBusy then { s with hob := { s.hob with busyHit := true } }
  else
    let g := hobGate s slice true 21
    let n := newIndex s.hob.objs h 8192
    if g ≠ 0#8 then hobEnd s g 0
    else if n ≠ 0#8 then hobEnd s n 0
    else if sliceTenant s slice ≠ some (argCat s / 4096) then hobEnd s Hc.foreign 0
    else if !s.ime.formatted then { s with hob := { s.hob with cmdBusy := true, cmdDue := s.tm.ns + 1000000 * hangField s 26 6, cmdWait := some (slice, h) } }
    else
      let (c, d, s) := objCreateRun s slice h m
      hobEnd s c d

/-- The OBJ_CREATE that waited for formatting. -/
def objWaited (s : State) : State :=
  match s.hob.cmdWait with
  | none => s
  | some (slice, h) =>
    if !s.ime.formatted then s
    else
      let (c, d, s) := objCreateRun s slice h { lines := [] }
      hobEnd s c d

/-- OBJ_ADOPT: an index without a live region answers REGION_ABSENT (log 63). -/
def objAdopt (slice h : Nat) (s : State) : Code × State :=
  let n := newIndex s.hob.objs h 8192
  if n ≠ 0#8 then (n, s)
  else if sliceTenant s slice ≠ some (argCat s / 4096) then (Hc.foreign, s)
  else match regionAt s (argCat s) with
    | none => (Rsn.regionAbsent, s)
    | some _ => (0#8, objBind s slice h (argCat s))

/-- OBJ_FREE (09 R298). -/
def objFree (slice h : Nat) (m : MemIn) (s : State) : Code × State :=
  match tget s.hob.objs h with
  | none => (Hc.objAbsent, s)
  | some o =>
    if o.slice ≠ slice then (Hc.foreign, s)
    else if o.state ≠ 1 then (Hc.objRetiring, s)
    else
      let s := setObj s h (some { o with hold := false, refs := o.refs - 1, state := 2 })
      (0#8, (objDestroy s h m).1)

/-! ### Slice reset (09 R303, R304) -/

/-- The codes a squash ends an origination with, where it ends it (09 Table 9-12 SR3). -/
def squashOrig (s : State) (ix : Nat) (o : Orig) : State :=
  match o.src with
  | .fab ch tag ep mid => if o.posted then s else origFab (freeOrig s ix) o ch tag ep mid Hc.sliceReset []
  | .host fl =>
    let s := match o.msg with
      | some g => freeMessage s g
      | none => freeOrig s ix
    endFlight s fl 1 Hc.sliceReset (((tget s.hob.flight fl).map (·.detail)).getD (zeros 32))
  | _ => s

/-- SR3 under SQUASH: engines cancelled, outstanding fabric operations and SENDs ended. -/
def sliceSquash (s : State) (i : Nat) : State :=
  let s := s.hob.flight.foldl (fun s x =>
    if x.2.slice = i ∧ x.2.stage = .dispatched ∧ 1 ≤ crOp x.2.record ∧ crOp x.2.record ≤ 3 then (cancelFlight s x.1 x.2 Sc.cancelled).2 else s) s
  let s := s.ile.sendq.foldl (fun s p =>
    match p.src with
    | .host fl => if p.who.slice = some i then
        endFlight { s with ile := { s.ile with sendq := s.ile.sendq.erase p } } fl 1 Hc.sliceReset (leBytes 4 p.bytes.length ++ zeros 28) else s
    | _ => s) s
  let s := s.ile.orig.foldl (fun s x =>
    match tget s.ile.orig x.1 with
    | some o => if o.who.slice = some i then squashOrig s x.1 o else s
    | none => s) s
  pumpSends (releaseFlagged s)

/-- SR1 and SR2, and SR3 where the reset squashes. A reset that runs already goes on, for both that asked for it; a SQUASH stays one. -/
def sliceStart (s : State) (i : Nat) (squash charter : Bool) : State :=
  let old := sliceAt s i
  let v := if old.resetting then old else { live := old.live, resets := old.resets }
  let now := squash && !v.squash
  let limit := fun lo => bits s.hob.ctrl.toNat lo 16
  let s := setSlice s i { v with
    resetting := true, squash := v.squash || squash, charter := v.charter || charter, driver := v.driver || !charter,
    since := if v.resetting && !now then v.since else s.tm.ns,
    drainMs := if v.resetting then v.drainMs else limit 32, squashMs := if v.resetting then v.squashMs else limit 48 }
  let s := s.hob.flight.foldl (fun s x => if x.2.slice = i ∧ x.2.stage = .fetched then endFlight s x.1 2 Hc.sliceReset (zeros 32) else s) s
  if now then sliceSquash s i else s

/-- SLICE_RESET of the driver; it stays BUSY until SR6. A second one for the slice completes with SLICE_RESETTING while the first goes on
(09 R304; log 154). -/
def sliceReset (s : State) (i : Nat) (squash : Bool) : State :=
  if s.hob.cmdBusy then
    if (sliceAt s i).driver ∧ (sliceAt s i).resetting then
      raiseIrq (hobReason { s with hob := { s.hob with cmdCode := Hc.sliceResetting } } Hc.sliceResetting) 5
    else { s with hob := { s.hob with busyHit := true } }
  else
    let g := hobGate s i false 0
    if g ≠ 0#8 then hobEnd s g 0
    else sliceStart { s with hob := { s.hob with cmdBusy := true, cmdDue := s.tm.ns + 1000000 * hangField s 26 6 } } i squash false

/-- SR4: the slice has nothing in flight, outstanding or pending. -/
def sliceQuiet (s : State) (i : Nat) : Bool :=
  !(s.hob.flight.any fun f => f.2.slice == i)
    && !(s.ime.ents.any fun e => e.who.slice == some i && (!e.answered || e.who.master == 6))
    && !(s.ime.blks.any fun b => b.who.slice == some i)
    && !(s.ile.orig.any fun o => o.2.who.slice == some i && !o.2.posted)
    && !(s.ile.heldOut.any fun h => h.who.slice == some i)
    && !(s.ile.sendq.any fun p => p.who.slice == some i)

/-- SR5 and SR6 (09 Table 9-12). -/
def sliceSettle (s : State) (i : Nat) : State :=
  let v := sliceAt s i
  if !v.resetting || !sliceQuiet s i || !hobUp s then s
  else
    let gone := (s.hob.queues.filter fun q => q.2.slice == i).map (·.1)
    let s := { s with
      hob := { s.hob with
        queues := s.hob.queues.filter (fun q => q.2.slice != i)
        events := s.hob.events.filter (fun e => e.2.slice != i)
        ctxs := s.hob.ctxs.filter (fun c => c.2.slice != i) }
      ile := { s.ile with msgs := s.ile.msgs.filter fun g => !gone.contains g.queue } }
    let s := setSlice s i { resets := v.resets + 1 }
    if v.driver then hobEnd s 0#8 0 else s

/-- DRAIN_TIMEOUT: after DRAIN_MS a DRAIN still short of SR4 becomes a SQUASH from SR3 (09 R304). -/
def drainTimeout (s : State) (i : Nat) : State :=
  let v := sliceAt s i
  if !v.resetting || v.squash || sliceQuiet s i || !hobUp s || decide (s.tm.ns < v.since + 1000000 * v.drainMs) then s
  else sliceSquash (setSlice s i { v with squash := true, since := s.tm.ns }) i

/-- The oldest work of a slice at a memory, link or D2D port: since when, and the port by its code of Table 10-8. -/
def oldestAtPort (s : State) (i : Nat) : Option (Nat × Nat) :=
  bestBy (fun x => [x.1, x.2])
    ((s.ime.ents.filter fun e => e.who.slice == some i).map (fun e => (e.entered, e.port))
      ++ (s.ile.orig.filter fun o => o.2.who.slice == some i).map fun o => (o.2.accepted, qpOfLnk o.2.egress))

/-- Since when the oldest work of a slice waits in an engine. -/
def oldestInEngine (s : State) (i : Nat) : Option Nat :=
  bestBy (fun x => [x])
    ((s.sre.colls.filter fun c => c.2.slice == i).map (fun c => c.2.started) ++ (s.sre.launch.filter fun l => l.slice == i).map (fun l => l.entered)
      ++ (s.bce.jobs.filter fun j => j.slice == i && j.flight.isSome).map (fun j => j.entered)
      ++ (s.bce.cuts.filter fun c => c.2.slice == i).map fun c => c.2.started)

/-- The port a SLICE_HANG resets; none is a CORE warm reset (11 R341). -/
def hangPort (s : State) (i : Nat) : Option Nat :=
  match oldestAtPort s i, oldestInEngine s i with
  | some (t, p), some u => if t ≤ u then some p else none
  | some (_, p), none => some p
  | none, _ => none

/-- SQUASH_TIMEOUT: after SQUASH_MS, SLICE_HANG, which names the slice and the oldest in-flight command, and its escalation (09 R304; 11 R341). -/
def squashTimeout (s : State) (i : Nat) : State :=
  let v := sliceAt s i
  if !v.resetting || !v.squash || sliceQuiet s i || !hobUp s || decide (s.tm.ns < v.since + 1000000 * v.squashMs) then s
  else
    let oldest := ((s.hob.flight.find? fun f => f.2.slice == i).map fun f => crTag f.2.record).getD 0
    let who := { engWho 6 0 (some i) none 0 0 with slice := some i }
    match hangPort s i with
    | some p => startRung (record s Flc.sliceHang 7 i 5 0#8 (some who) oldest) 1 p Flc.sliceHang
    | none => startRung (record s Flc.sliceHang 7 i 7 0#8 (some who) oldest) 3 0 Flc.sliceHang

/-! ### The commands -/

/-- DOORBELL (09 R283). -/
def execDoorbell (value : Word) (s : State) : Host.Outcome State Fault Refusal := .next (ctlWriteBy s 0x8010 fun s => doorbell s value)

/-- COMMAND_FETCH (09 R287). -/
def execCommandFetch (sq : Nat) (m : MemIn) (s : State) : Host.Outcome State Fault Refusal := .next (commandFetch s sq m)

/-- COMMAND_DISPATCH (09 R288). -/
def execCommandDispatch (sq : Nat) (m : MemIn) (s : State) : Host.Outcome State Fault Refusal := .next (commandDispatch s sq m)

/-- COMMAND_COMPLETE (09 R289). -/
def execCommandComplete (flight : Nat) (m : MemIn) (s : State) : Host.Outcome State Fault Refusal := .next (commandComplete s flight m)

/-- CTX_CREATE (09 R300). -/
def execCtxCreate (slice index : Nat) (s : State) : Host.Outcome State Fault Refusal :=
  .next (ctlWriteBy s 0x8014 fun s => hobRun s slice false 2 (ctxCreate slice index))

/-- CTX_DESTROY (09 R300). -/
def execCtxDestroy (slice index : Nat) (s : State) : Host.Outcome State Fault Refusal :=
  .next (ctlWriteBy s 0x8014 fun s => hobRun s slice false 0 (ctxDestroy slice index))

/-- SWITCH (09 R301). -/
def execSwitch (slice index : Nat) (s : State) : Host.Outcome State Fault Refusal :=
  .next (ctlWriteBy s 0x8014 fun s => hobRun s slice false 0 (switchCtx slice index))

/-- Q_CREATE (09 R282). -/
def execQCreate (slice index : Nat) (m : MemIn) (s : State) : Host.Outcome State Fault Refusal :=
  .next (ctlWriteBy s 0x8014 fun s => hobRun s slice true 0 (queueCreate slice index m))

/-- Q_DESTROY (09 Table 9-10). -/
def execQDestroy (slice index : Nat) (s : State) : Host.Outcome State Fault Refusal :=
  .next (ctlWriteBy s 0x8014 fun s => hobRun s slice false 0 (queueDestroy slice index))

/-- EVENT_CREATE (09 R295). -/
def execEventCreate (slice index : Nat) (m : MemIn) (s : State) : Host.Outcome State Fault Refusal :=
  .next (ctlWriteBy s 0x8014 fun s => hobRun s slice true 0 (eventCreate slice index m))

/-- EVENT_DESTROY (09 R295). -/
def execEventDestroy (slice index : Nat) (s : State) : Host.Outcome State Fault Refusal :=
  .next (ctlWriteBy s 0x8014 fun s => hobRun s slice false 0 (eventDestroy slice index))

/-- OBJ_CREATE (09 R296). -/
def execObjCreate (slice index : Nat) (m : MemIn) (s : State) : Host.Outcome State Fault Refusal :=
  .next (ctlWriteBy s 0x8014 fun s => objCreate s slice index m)

/-- OBJ_ADOPT (09 R296). -/
def execObjAdopt (slice index : Nat) (s : State) : Host.Outcome State Fault Refusal :=
  .next (ctlWriteBy s 0x8014 fun s => hobRun s slice false 21 (objAdopt slice index))

/-- OBJ_FREE (09 R298). -/
def execObjFree (slice : Nat) (o : ObjNamed) (s : State) : Host.Outcome State Fault Refusal :=
  .next (ctlWriteBy s 0x8014 fun s => hobRun s slice false 0 (objFree slice o.index o.m))

/-- OBJ_DESTROY_RETRY (09 R298). -/
def execObjDestroyRetry (o : ObjNamed) (s : State) : Host.Outcome State Fault Refusal := .next (objRetry s o.index o.m)

/-- SLICE_RESET_DRAIN (09 R303). -/
def execSliceResetDrain (slice : Nat) (s : State) : Host.Outcome State Fault Refusal :=
  .next (ctlWriteBy s 0x8014 fun s => sliceReset s slice false)

/-- SLICE_RESET_SQUASH (09 R303). -/
def execSliceResetSquash (slice : Nat) (s : State) : Host.Outcome State Fault Refusal :=
  .next (ctlWriteBy s 0x8014 fun s => sliceReset s slice true)

/-- DRAIN_TIMEOUT (09 R304). -/
def execDrainTimeout (slice : Nat) (s : State) : Host.Outcome State Fault Refusal := .next (drainTimeout s slice)

/-- SQUASH_TIMEOUT (09 R304). -/
def execSquashTimeout (slice : Nat) (s : State) : Host.Outcome State Fault Refusal := .next (squashTimeout s slice)

/-- CATALOGUE_FORMAT (04 R112), and the OBJ_CREATE that waited for it. -/
def execCatalogueFormat (flashOk : Bool) (s : State) : Host.Outcome State Fault Refusal := .next (objWaited (catalogueFormat s flashOk))

end Sys2Proof.Machine
end

