-- ==== Sys2Proof/Machine/LinkRx.lean ====
section
/-!
DEFINITION. Link and D2D ports, receiving side: bring-up messages, sealed frames, fabric operations at their target, responses at their source, and
the dead-target timeout (05 R156 to R159, R163 to R167, R170, R173, R175, R181 to R187).
-/
namespace Sys2Proof.Machine

/-! ### The end of an originated operation (05 R183 to R187, Table 5-13) -/

/-- What follows when table entries have been freed: held stores, waiting messages, writes held by a cut. -/
def afterOrig (s : State) : State := releaseOutgoing (pumpSends (releaseFlagged s))

/-- The entries of an operation or of its whole message are freed. -/
def freeWhole (s : State) (ix : Nat) (o : Orig) : State :=
  match o.msg with
  | some g => freeMessage s g
  | none => freeOrig s ix

/-- An originated operation ends with a reason (0: none) and the data of its response. -/
def endOrig (s : State) (ix : Nat) (o : Orig) (c : Code) (data : List Byte) : State :=
  let s := freeWhole s ix o
  afterOrig (match o.src with
    | .fab ch tag ep mid => origFab s o ch tag ep mid c data
    | .host fl => endFlight (if c = 0#8 then s else { s with ile := { s.ile with lastReason := c } }) fl (if c = 0#8 then 0 else 1) c
        (((tget s.hob.flight fl).map (·.detail)).getD (zeros 32))
    | .sre g k id => sreSent s g k id c
    | .stratum x => stratumSent s x c
    | .none_ => s)

/-- Operations whose frames failed their lanes twice, or whose response was an error withheld till now, end (01 R23; log 144). -/
def endFailed (s : State) : State :=
  s.ile.orig.foldl (fun s x => match tget s.ile.orig x.1 with
    | some o => if o.fail = 0#8 then s else endOrig s x.1 o o.fail []
    | none => s) s

/-- The live table entry a TAG names, its issue count included (05 R187). -/
def origOf (s : State) (tag : Nat) : Option Orig := (tget s.ile.orig (tag % 4096)).filter fun o => o.op.tag == tag

/-- DEADTIME_US of the charter in use, in nanoseconds (02 Table 2-5; 05 R186). -/
def deadNs (s : State) : Nat := 1000 * deadtimeUs s

/-- DEAD_TARGET_TIMEOUT: an operation unanswered for DEADTIME_US since its acceptance (05 R186). -/
def deadTarget (s : State) (tag : Nat) : State :=
  if coreDown s then s
  else match origOf s tag with
    | some o => if o.accepted + deadNs s ≤ s.tm.ns then endOrig s (tag % 4096) o Rsn.deadTarget [] else s
    | none => s

/-- A response dropped as stale (05 R187). -/
def staleDrop (s : State) : State := { s with ile := { s.ile with staleDrops := satAdd 32 s.ile.staleDrops 1 } }

/-- Whether a response is of the kind its operation expects (05 Table 5-10). -/
def respFits (o : Orig) (r : FabOp) : Bool :=
  if r.op = 0x13 then r.data.isEmpty
  else if r.op = 0x12 then r.data.length == 16 && r.data.headD 0#8 != 0#8 && zeroBytes (slice r.data 1 15)
  else if o.op.op = 1 then r.op == 0x10 && r.data.length == 64
  else if o.op.op = 4 ∧ o.op.fetch then r.op == 0x10 && r.data.length == 16
  else r.op == 0x11 && r.data.isEmpty && (o.op.op != 5 || o.op.last)

/-- A response reaches its originator (05 R173, R183, R187). -/
def takeResponse (s : State) (r : FabOp) : State :=
  match origOf s r.tag with
  | none => staleDrop s
  | some o =>
    let ix := r.tag % 4096
    if r.epoch ≠ epochOf s (domLnk o.egress) then countDrop (staleDrop s) (domLnk o.egress)
    else if !respFits o r then s
    else if r.op = 0x13 then { s with ile := { s.ile with orig := tput s.ile.orig ix { o with resend := true, nacks := o.nacks + 1 } } }
    else if r.op = 0x12 then endOrig s ix o (r.data.headD 0#8) []
    else endOrig s ix o 0#8 r.data

/-! ### Operations in DATA content (05 R172, R173) -/

/-- An operation as it lies in DATA content, and whether its header has no reserved bit or encoding. -/
def readOp (b : List Byte) : FabOp × Bool :=
  let fl := fld b 1 1
  let at_ := fld b 0x10 4
  let op := fld b 0 1
  let o : FabOp :=
    { op := op, flagged := bit fl 0, fetch := bit fl 1, last := bit fl 2, shape := bits fl 3 2, ttl := bits fl 5 3, tag := fld b 4 4,
      address := fld b 8 8, shelf := bits at_ 0 24, cls := bits at_ 24 4, world := bits at_ 28 2, deadline := BitVec.ofNat 32 (fld b 0x14 4),
      epoch := BitVec.ofNat 32 (fld b 0x18 4), dest := bits (fld b 0x1C 2) 0 14, src := bits (fld b 0x1E 2) 0 14, data := slice b 32 (fld b 2 2) }
  (o, ((decide (1 ≤ op) && decide (op ≤ 5)) || (decide (0x10 ≤ op) && decide (op ≤ 0x13)))
    && (!o.flagged || op == 2 || op == 3) && (!o.fetch || op == 4) && (op == 5 || (!o.last && o.shape == 0))
    && (op == 5 || decide (o.address < 2 ^ 52)) && bits at_ 30 2 == 0 && decide (fld b 0x1C 2 < 16384) && decide (fld b 0x1E 2 < 16384)
    && (decide (op < 0x10) || o.address == 0))

/-- The operations of DATA content, back to back. -/
def readOps : Nat → List Byte → List (FabOp × Bool)
  | 0, _ => []
  | n + 1, b =>
    let size := 32 + roundUp (fld b 2 2) 16
    if b.length < 32 ∨ b.length < size then [] else readOp b :: readOps n (b.drop size)

/-- An operation for another member goes on by the route table, with TTL less one; its budget is rebased. One that needs FADD32 goes on no FABRIC 1
port (05 R158, R175; 10 R310). -/
def forwardOp (s : State) (e vc : Nat) (op : FabOp) : State :=
  let w := routeOf s op.dest
  if op.ttl = 0 ∨ !routeValid w ∨ 20 ≤ routeEgress w ∨ !lnkPresent s (routeEgress w) then
    (if op.op < 0x10 then answerError s op e Rsn.noRoute (deadlineOf s op.deadline) else s)
  else if needsFadd op.op op.data ∧ (lportAt s (routeEgress w)).fabVer = 1 then answerError s op e Rsn.opUnsupported (deadlineOf s op.deadline)
  else txPut s (routeEgress w) vc { op with ttl := op.ttl - 1 } (deadlineOf s op.deadline) none op.data.length

/-- NACK_RETRY: the source is to send the operation again (05 R182). -/
def nackOp (s : State) (e vc : Nat) (op : FabOp) : State :=
  let k := (op.src, vc, op.tag)
  let s := if s.ile.nacked.contains k then s else { s with ile := { s.ile with nacked := s.ile.nacked ++ [k] } }
  answerOp s op e 0x13 [] (deadlineOf s op.deadline)

/-- An operation that had been sent NACK_RETRY is accepted. -/
def acceptOp (s : State) (vc : Nat) (op : FabOp) : State :=
  { s with ile := { s.ile with nacked := s.ile.nacked.filter fun k => k != (op.src, vc, op.tag) } }

/-- Whether an earlier operation of the same SRC and VC still waits to be accepted on retry (05 R182). -/
def nackedAhead (s : State) (vc : Nat) (op : FabOp) : Bool :=
  match s.ile.nacked.filter fun k => k.1 == op.src && k.2.1 == vc with
  | [] => false
  | k :: _ => k.2.2 != op.tag

/-- QUEUE, MESSAGE and OFFSET of a SEND. -/
def sendQueueNo (op : FabOp) : Nat := bits op.address 0 16
def sendMessageNo (op : FabOp) : Nat := bits op.address 16 16
def sendOffset (op : FabOp) : Nat := bits op.address 32 32

/-- The message a segment belongs to, as gathered so far. -/
def gathered (s : State) (op : FabOp) : List Byte :=
  ((s.ile.msgs.find? fun g => g.src == op.src && g.queue == sendQueueNo op && g.message == sendMessageNo op).map (·.bytes)).getD []

/-- A segment joined to what was gathered, at its OFFSET. -/
def joinSegment (b : List Byte) (op : FabOp) : List Byte :=
  if op.data.isEmpty then b else padTo (sendOffset op) (b.take (sendOffset op)) ++ op.data

/-- Keep what a message has gathered, or drop it. -/
def setGathered (s : State) (op : FabOp) (b : Option (List Byte)) : State :=
  let rest := s.ile.msgs.filter fun g => !(g.src == op.src && g.queue == sendQueueNo op && g.message == sendMessageNo op)
  { s with ile := { s.ile with msgs := match b with
    | some b => rest ++ [{ src := op.src, queue := sendQueueNo op, message := sendMessageNo op, bytes := b }]
    | none => rest } }

/-- Deliver a whole message: to the SRE, the stratum controller or a receive queue (05 R184; 06 R205; 08 R263). -/
def deliver (s : State) (op : FabOp) (b : List Byte) (m : MemIn) : Recv × State × MemIn :=
  if sendQueueNo op = 0xFFFF then
    match sreMessage s op.src b m with
    | some (s, m) => (.placed, s, m)
    | none => (.full, s, m)
  else if sendQueueNo op = 0xFFFE then
    match strMessage s op.src b m with
    | some (s, m) => (.placed, s, m)
    | none => (.full, s, m)
  else recvMessage s op.src (sendQueueNo op) b m

/-- A message segment at its target (05 R184). -/
def takeSend (s : State) (e vc : Nat) (op : FabOp) (m : MemIn) : State × MemIn :=
  let d := deadlineOf s op.deadline
  if !lenOk s op then (answerError s op e Rsn.opUnsupported d, m)
  else
    let b := joinSegment (gathered s op) op
    if !op.last then (setGathered (acceptOp s vc op) op (some b), m)
    else match deliver s op b m with
      | (.full, s, m) => (nackOp s e vc op, m)
      | (.error c, s, m) => (answerError (setGathered (acceptOp s vc op) op none) op e c d, m)
      | (.placed, s, m) => (answerOp (setGathered (acceptOp s vc op) op none) op e 0x11 [] d, m)

/-- An operation for this instance (05 R181, R182). -/
def takeRequest (s : State) (e vc : Nat) (op : FabOp) (m : MemIn) : State × MemIn :=
  if 2048 ≤ s.ile.ingress.length ∨ nackedAhead s vc op then (nackOp s e vc op, m)
  else if op.op = 5 then takeSend s e vc op m
  else
    let s := acceptOp s vc op
    let g : Ingress := { op := op, port := e, vc := vc, deadline := deadlineOf s op.deadline, answers := m.lines }
    (afterMem { s with ile := { s.ile with ingress := s.ile.ingress ++ [g] } }, m)

/-- One operation of a DATA frame: taken, forwarded, answered or dropped. A malformed request is answered OP_UNSUPPORTED (log 64). -/
def takeOp (s : State) (e vc : Nat) (x : FabOp × Bool) (m : MemIn) : State × MemIn :=
  let op := x.1
  if !x.2 then (if op.op < 0x10 then answerError s op e Rsn.opUnsupported (deadlineOf s op.deadline) else s, m)
  else if some op.dest ≠ ownMember s then (forwardOp s e vc op, m)
  else if 0x10 ≤ op.op then (takeResponse s op, m)
  else takeRequest s e vc op m

/-- A receive slot of a VC is free again: reported with the next frame, or held back for a request VC (05 R170, R182). -/
def freeSlot (s : State) (e vc : Nat) : State :=
  let p := lportAt s e
  if 2 ≤ vc ∧ 1536 ≤ s.ile.ingress.length then setLport s e { p with held := dput 0 p.held vc (dget 0 p.held vc + 1) }
  else setLport s e { p with freed := dput 0 p.freed vc (dget 0 p.freed vc + 1) }

/-- Credits a port has to report. -/
def freedCredits (p : LPort) : Nat := (p.freed.map (·.2)).sum

/-- What memory answers to operation `j` of the `k` of a frame: the lines that the frame's command brings are dealt evenly, in order (log 7). -/
def opAnswers (m : MemIn) (k j : Nat) : MemIn := { lines := (m.lines.drop (m.lines.length / k * j)).take (m.lines.length / k) }

/-- A DATA frame: its operations in order, its slot, and an IDLE once 16 slots are free (05 R163, R170). -/
def rxData (s : State) (e vc : Nat) (content : List Byte) (m : MemIn) : State :=
  let ops := readOps (content.length / 32 + 1) content
  let s := ops.zipIdx.foldl (fun s x => (takeOp s e vc x.1 (opAnswers m ops.length x.2)).1) s
  let s := freeSlot s e vc
  if 16 ≤ freedCredits (lportAt s e) then creditIdle s e else s

/-! ### NAK and rekey frames (05 R165, R167) -/

/-- The frames to resend for a NAK that names a sequence: from the frame of the session in use that bears it, else from the one of the session before
(05 R165; log 136). -/
def replayFrom (p : LPort) (session n : Nat) : List (Nat × Frame) :=
  let now := p.replay.dropWhile fun f => !(f.1 == n && f.2.session.toNat == session)
  if now.isEmpty ∧ n ≠ p.txSeq then p.replay.dropWhile fun f => f.1 != n else now

/-- NAK: resend from the named sequence on; the fourth in a row fails the port, as does a frame no longer kept. -/
def rxNak (s : State) (e n : Nat) : State :=
  let p := lportAt s e
  let k := if p.nakCount ≠ 0 ∧ p.nakSeq = n then p.nakCount + 1 else 1
  let s := setLport s e { p with nakSeq := n, nakCount := k, nakAt := s.tm.ns }
  let again := replayFrom p (sessUse s e true).2 n
  if 4 ≤ k then linkFail s e 11 Flc.linkFault
  else if again.isEmpty ∧ n ≠ p.txSeq then linkFail s e 10 Flc.linkFault
  else emits s (again.map fun f => .frame e f.2)

/-- RK2 to RK4: the peer's REKEY; it waits where the own one waits for random numbers. -/
def rxRekey (s : State) (e : Nat) (content : List Byte) : State :=
  let s := if (lportAt s e).rekey.isNone then startRekey s e else s
  let p := lportAt s e
  match p.rekey with
  | none => if p.rekeyDue then setLport s e { p with rekeyPeer := content } else s
  | some r =>
    if r.peer.isSome then s
    else
      let peer := b768 content
      if !Config.onCurve peer then bringupFail s e 5
      else
        let x := bytes48 (Config.ecdhX (r.priv.getD 0#384) peer)
        let a := if sideA s e then bytes96 r.pub ++ content else content ++ bytes96 r.pub
        let hash := Config.sha384 (bytes48 p.thash ++ a)
        let s := stageHalf s (sessSlot e) ownMasks (sha256of (x ++ bytes48 p.thash))
        sendCtl (setLport s e { lportAt s e with rekeyPeer := [], rekey := some { r with peer := some peer, hash := hash } }) e 5

/-- RK5: the peer's REKEY_DONE. -/
def rxRekeyDone (s : State) (e : Nat) : State :=
  let p := lportAt s e
  match p.rekey with
  | some r =>
    if r.peer.isSome && !r.rxDone then finishRekey (setLport s e { p with rxSeq := 0, rekey := some { r with rxDone := true } }) e else s
  | none => s

/-! ### Sealed frames (05 R163 to R165) -/

/-- Credits a frame returns. -/
def takeCredits (s : State) (e credits : Nat) : State :=
  let p := lportAt s e
  setLport s e { p with used := (List.range 8).foldl (fun u v => dput 0 u v (dget 0 u v - bits credits (12 * v) 12)) p.used }

/-- The plaintext of a frame that is the next of its session and verifies. -/
def openFrame (s : State) (e : Nat) (f : Frame) : Option (List Byte) :=
  let n := f.payload.length
  let p := lportAt s e
  if f.payloadLen.toNat ≠ n ∨ n % 16 ≠ 0 ∨ n < 16 ∨ payloadMax s < n ∨ f.session.toNat ≠ (sessUse s e false).2 ∨ f.sequence.toNat ≠ p.rxSeq then
    none
  else (sessKey s e false).bind fun k =>
    let iv := frameIv k.2 p.rxSeq
    if gcmTag k.1 iv (outerBytes f) f.payload = f.tag then some (gcmCrypt k.1 iv f.payload) else none

/-- The bytes of content a frame of a type carries, where its type fixes them (05 R163). -/
def contentLen (t : Nat) : Option Nat :=
  if t = 2 then some 8 else if t = 3 then some 48 else if t = 4 then some 96 else if t = 1 ∨ t = 5 then some 0 else none

/-- Whether an inner header is well formed: its type, its reserved bits, and a length its type and its payload allow (05 R163, Table 5-6). -/
def innerOk (b : List Byte) : Bool :=
  decide (fld b 0 1 ≤ 5) && decide (fld b 1 1 < 8) && decide (fld b 2 2 + 16 ≤ b.length)
    && (contentLen (fld b 0 1)).all fun n => n == fld b 2 2

/-- A frame that verified, at an open port. A malformed inner header voids all of it, its credits too (00 R12; log 64). -/
def takeFrame (s : State) (e : Nat) (b : List Byte) (m : MemIn) : State :=
  if !innerOk b then s
  else
    let s := takeCredits s e (fld b 4 12)
    let content := slice b 16 (fld b 2 2)
    let t := fld b 0 1
    if t = 0 then rxData s e (fld b 1 1) content m
    else if t = 2 then rxNak s e (leNat content)
    else if t = 4 then rxRekey s e content
    else if t = 5 then rxRekeyDone s e
    else s

/-- Operations that waited for a port to open at FABRIC 1 and need FADD32 are refused (05 R158). -/
def refuseFadd (s : State) (e : Nat) : State :=
  if (lportAt s e).fabVer ≠ 1 then s
  else
    let p := lportAt s e
    let no := fun (t : TxOp) => needsFadd t.op.op t.op.data
    (p.txq.filter no).foldl (fun s t => match t.orig.bind fun ix => (tget s.ile.orig ix).map fun o => (ix, o) with
      | some (ix, o) => endOrig s ix o Rsn.opUnsupported []
      | none => answerError s t.op e Rsn.opUnsupported t.deadline) (setLport s e { p with txq := p.txq.filter fun t => !no t })

/-- L9: a KEY_CONFIRM that verified opens the port where its hash matches (05 R156, R159). -/
def takeConfirm (s : State) (e : Nat) (b : List Byte) : State :=
  if fld b 0 1 = 3 ∧ slice b 16 (fld b 2 2) ≠ bytes48 (lportAt s e).thash then bringupFail s e 6
  else if !innerOk b || fld b 0 1 != 3 then bringupFail s e 9
  else
    let s := setLport s e { lportAt s e with fail := 0, msgs := [] }
    refuseFadd (startCredits (setPortSt (takeCredits s e (fld b 4 12)) e .open_) (qpOfLnk e)) e

/-- A SEALED frame: accepted in its order, or dropped and answered with NAK; before OPEN it is the KEY_CONFIRM of the bring-up. One that fails its
lanes twice is dropped, as one that does not verify (01 R23; log 144). -/
def rxSealed (s : State) (e : Nat) (f : Frame) (m : MemIn) : State :=
  let p := lportAt s e
  if (p.st = .hello ∨ p.st = .keying) ∧ p.session = 0 then bringupFail s e 9
  else
    let (pass, s) := formPass s e false none 0
    match if pass then openFrame s e f else none with
    | none => if p.st = .keying then bringupFail s e 6 else sendNak s e
    | some b =>
      let s := setLport s e { p with rxSeq := p.rxSeq + 1 }
      if p.st = .keying then takeConfirm s e b else takeFrame s e b m

/-! ### Bring-up messages (05 R156 to R161) -/

/-- L3 and L4: the peer's HELLO, and the own IDENTITY. `form`: whether its frame is well formed. The reasons in the order of Table 5-4. -/
def rxHello (s : State) (e : Nat) (form : Bool) (b : List Byte) : State :=
  let port := maskAnd (offerNow s (portKind e)) (fld b 0x18 2)
  let fab := maskAnd (offerNow s 3) (fld b 0x1A 2)
  if domainId s = 0 then bringupFail s e 1
  else if fld b 0x10 8 ≠ domainId s then bringupFail s e 2
  else if port = 0 ∨ fab = 0 then bringupFail s e 3
  else if fld b 8 8 = instId s then bringupFail s e 4
  else if !form ∨ (lportAt s e).st ≠ .hello ∨ (tget (lportAt s e).msgs 1).isSome ∨ b.length ≠ 64 ∨ 2 ≤ fld b 1 1 ∨ 16384 ≤ fld b 2 2
      ∨ fld b 5 1 ≠ portKind e ∨ fld b 6 2 ≠ 0 ∨ fld b 0x1C 4 ≠ 0 then bringupFail s e 9
  else
    let s := setLport s e { lportAt s e with
      peerInst := fld b 8 8, peerMember := fld b 2 2, peerRole := fld b 1 1, peerPort := fld b 4 1, portVer := topVersion port, fabVer := topVersion fab }
    let s := keepMsg s e 1 b
    match s.key.idPub with
    | none => s
    | some pub =>
      let i := 2#8 :: (zeros 15 ++ bytes96 pub)
      sendBringup (keepMsg s e 2 i) e i

/-- The messages of a transcript in A's order: HELLOs, then IDENTITYs. -/
def transcript (s : State) (e : Nat) : List Byte :=
  let o := msgAt s e
  if sideA s e then o 0 ++ o 1 ++ o 2 ++ o 3 else o 1 ++ o 0 ++ o 3 ++ o 2

/-- L5: an ephemeral pair, and the own KEY_SHARE signed over the transcript, once random numbers are served. -/
def sendShare (s : State) (e : Nat) : State :=
  match identity s with
  | none => s
  | some id =>
    if !drbgServes s then setLport s e { lportAt s e with shareDue := true }
    else
      let (d, s) := drbgTake 384 s
      let (n, s) := drbgTake 384 s
      let share := 3#8 :: (zeros 15 ++ bytes96 (Config.pubOf d))
      let full := share ++ bytes96 (Config.ecdsaSign id (transcript s e ++ share) n.toNat)
      let s := keepMsg s e 4 full
      sendBringup (setLport s e { lportAt s e with ephPriv := some d, shareDue := false }) e full

/-- L5: the peer's IDENTITY. -/
def rxIdentity (s : State) (e : Nat) (form : Bool) (b : List Byte) : State :=
  let p := lportAt s e
  if !form ∨ p.st ≠ .hello ∨ (tget p.msgs 1).isNone ∨ (tget p.msgs 2).isNone ∨ b.length ≠ 112 ∨ !zeroBytes (slice b 1 15) then bringupFail s e 9
  else sendShare (setPortSt (keepMsg s e 3 b) e .keying) e

/-- THRESH_LOG2 as the port's next session takes it (15 R463). -/
def threshOf (p : LPort) : Nat := bits p.rekeyCtrl.toNat 0 6

/-- Whether the party that has sent HELLO is in the roster with its MEMBER and ROLE (05 R153, Table 5-4). -/
def peerListed (s : State) (p : LPort) : Bool := (tget s.ile.roster p.peerMember).any fun r => r.inst == p.peerInst && r.kind == p.peerRole

/-- L6 to L8: the peer's KEY_SHARE; the session secret, and the own KEY_CONFIRM. A check whose message has not come matches no reason; the reasons
are taken in the order of Table 5-4. -/
def rxKeyShare (s : State) (e : Nat) (form : Bool) (b : List Byte) : State :=
  let p := lportAt s e
  let pub := b768 (slice (msgAt s e 3) 16 96)
  let eph := b768 (slice b 16 96)
  let known := (tget p.msgs 3).isSome
  if (known ∧ (!Config.onCurve pub ∨ instanceOf pub ≠ p.peerInst)) ∨ (112 ≤ b.length ∧ !Config.onCurve eph) then bringupFail s e 5
  else if known ∧ 208 ≤ b.length ∧ !Config.ecdsaVerify pub (transcript s e ++ b.take 112) (b768 (slice b 112 96)) then bringupFail s e 6
  else if (tget p.msgs 1).isSome ∧ !peerListed s p then bringupFail s e 7
  else if !form ∨ p.st ≠ .keying ∨ (tget p.msgs 5).isSome ∨ b.length ≠ 208 ∨ !zeroBytes (slice b 1 15) then bringupFail s e 9
  else if (tget p.msgs 4).isNone then setLport s e { p with shareWait := b }
  else
    let own := (msgAt s e 4).take 112
    let all := transcript s e ++ if sideA s e then own ++ b.take 112 else b.take 112 ++ own
    let x := bytes48 (Config.ecdhX (p.ephPriv.getD 0#384) eph)
    let s := keepMsg s e 5 b
    let s := fillSlot s (sessSlot e) 4 (tenantClass s) 0 0 ownMasks (sha256of x)
    let s := setLport s e { lportAt s e with
      session := 1, txSeq := 0, rxSeq := 0, ephPriv := none, thash := Config.sha384 all, thresh := threshOf p }
    sendPlain s e 3 (bytes48 (Config.sha384 all))

/-- A bring-up frame, by its message; a malformed outer header is a reason of the last place (05 Table 5-4). -/
def rxBringup (s : State) (e : Nat) (f : Frame) : State :=
  let st := (lportAt s e).st
  if st ≠ .hello ∧ st ≠ .keying then s
  else
    let form := f.version = 0#8 ∧ f.session = 0#32 ∧ f.sequence = 0#64 ∧ f.payloadLen.toNat = f.payload.length
    if fld f.payload 0 1 = 1 then rxHello s e form f.payload
    else if fld f.payload 0 1 = 2 then rxIdentity s e form f.payload
    else if fld f.payload 0 1 = 3 then rxKeyShare s e form f.payload
    else bringupFail s e 9

/-! ### Random numbers for the ports (03 R100, R101) -/

/-- A port whose step waited for random numbers goes on: L2, L5, or RK1 with the peer's REKEY. -/
def wakeLink (s : State) (e : Nat) : State :=
  let p := lportAt s e
  if !drbgServes s then s
  else if p.helloDue then startHello (setLport s e { p with helloDue := false }) e
  else if p.shareDue then
    let s := sendShare s e
    if p.shareWait.isEmpty then s else rxKeyShare (setLport s e { lportAt s e with shareWait := [] }) e true p.shareWait
  else if p.rekeyDue then (if p.rekeyPeer.isEmpty then startRekey s e else rxRekey s e p.rekeyPeer)
  else s

/-- Every port's waiting step. -/
def wakeLinks (s : State) : State := (lnkPortsOf s).foldl wakeLink s

/-- Whether a port takes frames now: not DOWN, FAILED or in RETRAIN, its domain and CORE out of reset, CORE not without ACLK (05 Table 5-1;
01 R36, R38). -/
def rxTakes (s : State) (e : Nat) : Bool :=
  let st := (lportAt s e).st
  s.pin.pwrok && lnkPresent s e && !coreDown s && !s.dom.aclkWait && !(domAt s (domLnk e)).inReset
    && (st == .hello || st == .keying || st == .open_ || st == .rekeying)

/-- A frame from the wire. Only its decrypted FTYPE, or its message, says what it is (05 R162, R163). -/
def rxFrame (s : State) (e : Nat) (f : Frame) (m : MemIn) : State :=
  if !rxTakes s e then s
  else if f.kind = 0#8 then rxSealed s e f m
  else if f.kind = 1#8 then rxBringup s e f
  else if (lportAt s e).st = .hello ∨ (lportAt s e).st = .keying then bringupFail s e 9
  else s

/-- A frame whose content reads no memory. -/
def rxPlain (s : State) (e : Nat) (f : Frame) : State := rxFrame s e f { lines := [] }

/-! ### The commands -/

/-- HELLO (05 R158). -/
def execHello (port : Nat) (f : Frame) (s : State) : Host.Outcome State Fault Refusal := .next (rxPlain s port f)

/-- IDENTITY (05 R156). -/
def execIdentity (port : Nat) (f : Frame) (s : State) : Host.Outcome State Fault Refusal := .next (rxPlain s port f)

/-- KEY_SHARE (05 R156). -/
def execKeyShare (port : Nat) (f : Frame) (s : State) : Host.Outcome State Fault Refusal := .next (rxPlain s port f)

/-- KEY_CONFIRM (05 R156). -/
def execKeyConfirm (port : Nat) (f : Frame) (s : State) : Host.Outcome State Fault Refusal := .next (rxPlain s port f)

/-- DATA (05 R165). -/
def execData (port : Nat) (f : Frame) (m : MemIn) (s : State) : Host.Outcome State Fault Refusal := .next (rxFrame s port f m)

/-- IDLE (05 R170). -/
def execIdle (port : Nat) (f : Frame) (s : State) : Host.Outcome State Fault Refusal := .next (rxPlain s port f)

/-- NAK (05 R165). -/
def execNak (port : Nat) (f : Frame) (s : State) : Host.Outcome State Fault Refusal := .next (rxPlain s port f)

/-- REKEY (05 R167). -/
def execRekey (port : Nat) (f : Frame) (s : State) : Host.Outcome State Fault Refusal := .next (rxPlain s port f)

/-- REKEY_DONE (05 R167). -/
def execRekeyDone (port : Nat) (f : Frame) (s : State) : Host.Outcome State Fault Refusal := .next (rxPlain s port f)

/-- DEAD_TARGET_TIMEOUT (05 R186). -/
def execDeadTargetTimeout (tag : Nat) (s : State) : Host.Outcome State Fault Refusal := .next (deadTarget s tag)

end Sys2Proof.Machine
end

