-- ==== Sys2Proof/Machine/KeyCmd.lean ====
section
/-!
DEFINITION. The key commands, in the order of checking of Table 3-13, and the end of a repeat of the entropy tests (03 R90 to R96, R100).
-/
namespace Sys2Proof.Machine

/-! ### The wrapped key record (03 Table 3-14) -/

/-- The masks of an ATTR_LO word. -/
def attrMasks (a : Nat) : Masks :=
  { lcs := BitVec.ofNat 6 (bits a 26 6), world := BitVec.ofNat 4 (bits a 22 4), master := BitVec.ofNat 8 (bits a 14 8), vol := BitVec.ofNat 8 (bits a 6 8) }

/-- Whether an ATTR_LO word has no reserved bit. -/
def attrOk (a : Nat) : Bool := bits a 0 6 == 0 && !bit a 13 && !bit a 21

/-- Fields of a record. -/
def wrKind (b : List Byte) : Nat := fld b 2 1
def wrTenant (b : List Byte) : Nat := fld b 4 2
def wrDomain (b : List Byte) : Nat := fld b 8 8
def wrGen (b : List Byte) : Nat := fld b 0x10 4
def wrAttr (b : List Byte) : Nat := fld b 0x14 4

/-- Format, reserved fields and encodings of a record. -/
def wrOk (b : List Byte) : Bool :=
  fld b 0 2 == 1 && (wrKind b == 1 || wrKind b == 2) && fld b 3 1 == 0 && decide (wrTenant b < 512) && fld b 6 2 == 0 && attrOk (wrAttr b)
    && zeroBytes (slice b 0x18 8) && zeroBytes (slice b 0x8C 4)

/-- The DOMAIN_WRAP key of a shared x-coordinate (03 R92 step 4, Table 3-10). -/
def wrapKey (s : State) (x : BitVec 384) (tenant domain gen : Nat) : BitVec 256 :=
  keyOf (kdf (sha256of (bytes48 x)) { rootHandle 0x0204 256 domain with tenant := tenant, generation := gen } (tenantClass s))

/-- Steps 2 to 5 of R92: the key a record carries. -/
def unwrap (s : State) (b : List Byte) : Option (BitVec 256) :=
  let eph := b768 (slice b 0x20 96)
  if !Config.onCurve eph then none
  else (slotScalar s 1).bind fun d =>
    (gcmOpen (wrapKey s (Config.ecdhX d eph) (wrTenant b) (wrDomain b) (wrGen b)) (slice b 0x80 12) (b.take 0x90) (slice b 0x90 48)).map keyOf

/-! ### Results -/

/-- A key command ends: its result, and the KEY source (15 Table 15-5). -/
def keyEnd (s : State) (c : Code) : State :=
  raiseIrq { s with key := { s.key with cmdBusy := false, cmdResult := c, genWait := none } } 4

/-- A key command runs; a write while one waits is ignored (03 R90). -/
def keyRun (s : State) (f : State → Code × State) : State :=
  if s.key.cmdBusy then ignoreWrite s (0x100C / 4)
  else
    let (c, s) := if s.key.tampered then (Kc.tampered, s) else f s
    keyEnd s c

/-- A tenant's slot of a kind, DOMAIN or EPHEMERAL, is already taken (03 R89). -/
def tenantTaken (s : State) (kind tenant : Nat) : Bool := kind != 2 && s.key.slots.any fun x => x.2.kind == kind && x.2.tenant == tenant

/-- KEY_EXHAUSTED where a slot's generation reaches 0xFFFF_FF00 (03 R96). -/
def genReached (s : State) (slot old new : Nat) : State :=
  if old < 0xFFFFFF00 ∧ 0xFFFFFF00 ≤ new then record s Flc.keyExhausted 5 0 0 Rsn.keyExhausted none slot else s

/-! ### The commands (03 Tables 3-12, 3-13) -/

/-- The checks of LOAD_WRAPPED between the record's form and its opening. -/
def loadChecks (s : State) (slot : Nat) (b : List Byte) : Code :=
  if wrDomain b = 0 ∨ wrDomain b ≠ domainId s then Kc.domainMismatch
  else if slot < 64 then Kc.slotReserved
  else if !tenantAvail s then Kc.geodeFail
  else match slotAt s slot with
    | none => if tenantTaken s (wrKind b) (wrTenant b) then Kc.tenantConflict else Kc.done
    | some v =>
      if v.kind ≠ wrKind b ∨ v.tenant ≠ wrTenant b then Kc.kindMismatch
      else if v.staged.isSome then Kc.stagedPresent
      else if v.prevLive then Kc.prevInUse
      else if v.genCur = 0xFFFFFFFF then Kc.keyExhausted
      else if wrGen b ≠ v.genCur + 1 then Kc.genOrder
      else Kc.done

/-- LOAD_WRAPPED: into an empty slot as current, into a valid one as staged. -/
def loadWrapped (slot : Nat) (m : MemIn) (s : State) : Code × State :=
  match ctlRead s s.key.cmdShelf.toNat s.key.cmdAddr.toNat 192 m with
  | (.error c, s, _) => (c, s)
  | (.ok b, s, _) =>
    let c := loadChecks s slot b
    if !wrOk b then (Kc.badRecord, s)
    else if c ≠ Kc.done then (c, s)
    else match unwrap s b with
      | none => (Kc.unwrapFail, s)
      | some k =>
        if (slotAt s slot).isSome then (Kc.done, stageHalf s slot (attrMasks (wrAttr b)) k)
        else
          let s := fillSlot s slot (wrKind b) (tenantClass s) (wrTenant b) (wrGen b) (attrMasks (wrAttr b)) k
          (Kc.done, genReached s slot 0 (wrGen b))

/-- ACTIVATE: the staged half becomes current, and re-shelving of the tenant's regions begins (03 R93; 04 R140). -/
def activate (slot : Nat) (s : State) : Code × State :=
  if slot < 64 then (Kc.slotReserved, s)
  else match slotAt s slot with
    | none => (Kc.noStaged, s)
    | some v =>
      if v.staged.isNone then (Kc.noStaged, s)
      else
        let s := activateHalf s slot
        let s := if v.kind = 1 then startShelving s v.tenant else s
        (Kc.done, genReached s slot v.genCur (v.genCur + 1))

/-- RETIRE_PREV. -/
def retirePrev (slot : Nat) (s : State) : Code × State :=
  if slot < 64 then (Kc.slotReserved, s)
  else match slotAt s slot with
    | none => (Kc.noPrev, s)
    | some v =>
      if !v.prevLive then (Kc.noPrev, s)
      else if prevUsers s slot ≠ 0 then (Kc.prevInUse, s)
      else (Kc.done, afterMem (retireHalf (jobsRevoked s slot (v.genCur + 1)) slot))

/-- DISCARD_STAGED. -/
def discardStaged (slot : Nat) (s : State) : Code × State :=
  if slot < 64 then (Kc.slotReserved, s)
  else match slotAt s slot with
    | none => (Kc.noStaged, s)
    | some v =>
      if v.staged.isNone then (Kc.noStaged, s)
      else
        let s := zeroHalf (jobsRevoked s slot (v.genCur + 1)) slot (v.genCur + 1)
        (Kc.done, { s with key := { s.key with slots := tmod s.key.slots slot fun v => { v with staged := none } } })

/-- ZEROISE: both halves; a DOMAIN slot's owner sets go with it (03 Table 3-12; 07 R243). -/
def zeroise (slot : Nat) (s : State) : Code × State :=
  if slot < 64 then (Kc.slotReserved, s)
  else
    let v := slotAt s slot
    let s := emptySlot (jobsRevoked (jobsRevoked s slot 0) slot 1) slot
    let s := match v with
      | some v => if v.kind = 1 then { s with bce := { s.bce with owners := s.bce.owners.filter fun o => o.2.1 != v.tenant } } else s
      | none => s
    (Kc.done, afterMem s)

/-- The checks of GEN_EPHEMERAL before its random number. -/
def genChecks (s : State) (slot : Nat) : Code :=
  let a := s.key.cmdArg.toNat
  if bits a 9 23 ≠ 0 ∨ !attrOk (bits a 32 32) then Kc.badRecord
  else if slot < 64 then Kc.slotReserved
  else if !tenantAvail s then Kc.geodeFail
  else if (slotAt s slot).isSome then Kc.slotInUse
  else if tenantTaken s 3 (bits a 0 9) then Kc.tenantConflict
  else Kc.done

/-- GEN_EPHEMERAL once random numbers are served or refused. -/
def genNow (slot : Nat) (s : State) : Code × State :=
  let c := genChecks s slot
  if c ≠ Kc.done then (c, s)
  else if !drbgServes s then (Kc.drbgFail, s)
  else
    let (k, s) := drbgTake 256 s
    let a := s.key.cmdArg.toNat
    (Kc.done, fillSlot s slot 3 (tenantClass s) (bits a 0 9) 0 (attrMasks (bits a 32 32)) k)

/-- GEN_EPHEMERAL: a request that needs a seed waits while the entropy tests repeat (03 R100). -/
def genEphemeral (s : State) (slot : Nat) : State :=
  if !s.key.cmdBusy && !s.key.tampered && genChecks s slot == Kc.done && drbgWaits s then
    { s with key := { s.key with cmdBusy := true, genWait := some slot } }
  else keyRun s (genNow slot)

/-- An OP of KEY_CMD that Table 3-12 reserves. -/
def keyReserved (s : State) : State := keyRun s fun s => (Kc.badRecord, s)

/-! ### The rows -/

/-- LOAD_WRAPPED (03 R92). -/
def execLoadWrapped (slot : BitVec 10) (m : MemIn) (s : State) : Host.Outcome State Fault Refusal :=
  .next (ctlWriteBy s 0x100C fun s => keyRun s (loadWrapped slot.toNat m))

/-- ACTIVATE (03 R90). -/
def execActivate (slot : BitVec 10) (s : State) : Host.Outcome State Fault Refusal :=
  .next (ctlWriteBy s 0x100C fun s => keyRun s (activate slot.toNat))

/-- RETIRE_PREV (03 R90, R95). -/
def execRetirePrev (slot : BitVec 10) (s : State) : Host.Outcome State Fault Refusal :=
  .next (ctlWriteBy s 0x100C fun s => keyRun s (retirePrev slot.toNat))

/-- DISCARD_STAGED (03 R90, R95). -/
def execDiscardStaged (slot : BitVec 10) (s : State) : Host.Outcome State Fault Refusal :=
  .next (ctlWriteBy s 0x100C fun s => keyRun s (discardStaged slot.toNat))

/-- ZEROISE (03 R90, R95). -/
def execZeroise (slot : BitVec 10) (s : State) : Host.Outcome State Fault Refusal :=
  .next (ctlWriteBy s 0x100C fun s => keyRun s (zeroise slot.toNat))

/-- GEN_EPHEMERAL (03 R90). -/
def execGenEphemeral (slot : BitVec 10) (s : State) : Host.Outcome State Fault Refusal :=
  .next (ctlWriteBy s 0x100C fun s => genEphemeral s slot.toNat)

end Sys2Proof.Machine
end

