-- ==== Sys2Proof/Machine/LcsOps.lean ====
section
/-!
DEFINITION. The life cycle without its commands: codes and their decode, the platform root, the accession log, intent records, wipes, and the steps of a transition
(13 R394 to R406, R413, R474; 03 R76, R81).
-/
namespace Sys2Proof.Machine

/-! ### Codes (13 R394, R396) -/

/-- The code of each copy, by state (13 Table 13-1). -/
def lcsCode (st : Nat) : BitVec 32 :=
  if st = 0 then 0x00000000#32 else if st = 1 then 0x0000003F#32 else if st = 2 then 0x00000FFF#32
  else if st = 3 then 0x0003FFFF#32 else if st = 4 then 0x00FFFFFF#32 else 0x3FFFFFFF#32

/-- Copy A, B or C of LCS_CODE (13 R394). -/
def lcsCopy (f : BitVec 8192) (j : Nat) : BitVec 32 := f.extractLsb' (1088 + 32 * j) 32

/-- The state a copy names. -/
def copyState (f : BitVec 8192) (j : Nat) : Option Nat := (List.range 6).find? fun i => lcsCode i == lcsCopy f j

/-- How many copies name a state. -/
def copiesNaming (f : BitVec 8192) (st : Nat) : Nat := ((List.range 3).filter fun j => copyState f j == some st).length

/-- Whether every set bit of `b` is set in `a`. -/
def containsBits (a b : BitVec 32) : Bool := a &&& b == b

/-- What LCS_CODE decodes to (13 R396). -/
inductive LcsDecode where
  | state (st : Nat) (disagree : Bool)
  | transit (x y : Nat)
  | halt
  deriving DecidableEq, Repr

/-- X of R396: the latest state whose code every copy contains. -/
def latestBelow (f : BitVec 8192) : Option Nat :=
  ((List.range 6).filter fun i => (List.range 3).all fun j => containsBits (lcsCopy f j) (lcsCode i)).getLast?

/-- Y of R396: the earliest state whose code contains every copy. -/
def earliestAbove (f : BitVec 8192) : Option Nat :=
  (List.range 6).find? fun i => (List.range 3).all fun j => containsBits (lcsCode i) (lcsCopy f j)

/-- The decode of R396. -/
def decodeLcs (f : BitVec 8192) : LcsDecode :=
  match (List.range 6).find? fun i => decide (2 ≤ copiesNaming f i) with
  | some st => .state st (copiesNaming f st != 3)
  | none =>
    match latestBelow f, earliestAbove f with
    | some x, some y => if x = y then .halt else .transit x y
    | _, _ => .halt

/-- The LCS code a decode is reported as: 6 IN_TRANSIT, 7 HALT. -/
def decodeCode : LcsDecode → Nat
  | .state st _ => st
  | .transit _ _ => 6
  | .halt => 7

/-- LCS and DISAGREE take a decode. -/
def takeDecode (s : State) (d : LcsDecode) : State :=
  { s with lcs := { s.lcs with st := decodeCode d, disagree := match d with | .state _ g => g | _ => false } }

/-! ### Debug and the roots in effect (13 R407, R408; 03 R76, R81) -/

/-- The scopes a state may grant (13 Table 13-7). -/
def scopesOf (st : Nat) : Nat := if st = 0 ∨ st = 4 then 7 else if st = 1 ∨ st = 2 then 3 else 0

/-- DEBUG and its scopes as a start sets them: every scope in BLANK, the pending scopes elsewhere (13 R408). -/
def settleDebug (s : State) : State :=
  let st := s.lcs.st
  let on := st == 0 || (s.lcs.debugPending && scopesOf st != 0)
  { s with lcs := { s.lcs with debug := on, scope := if st = 0 then 7 else if on then Nat.land s.lcs.pendingScope (scopesOf st) else 0 } }

/-- The slots whose ROOT_CLASS is not in effect are zeroised, with the cache and the group buffers, where the substitution begins
or ends (03 R81). -/
def settleSlate (s : State) : State :=
  let on := s.lcs.st == 0 || s.lcs.st == 4 || s.lcs.debug
  if on = s.key.slateOn then s
  else
    let gone := s.key.slots.filter fun x => if on then x.2.rootClass == 1 || x.2.rootClass == 2 else x.2.rootClass == 3
    let s := gone.foldl (fun s x => emptySlot s x.1) s
    { s with key := { s.key with slateOn := on, dkc := [], missq := [] }, lane := { s.lane with ctx := [] } }

/-- The platform root settled from the state and the fuses (03 R76). A held-low kill bank takes no root. -/
def settleBedrock (s : State) : State :=
  let st := s.lcs.st
  let f := s.fuse.shadow
  let real := st == 1 || st == 2 || st == 3
  let root := if real && !s.key.killed then bedrockOf f else none
  let fail := real && (bedrockOf f).isNone
  let s := { s with key := { s.key with
    bedrockFail := fail
    bedrockAbsent := st == 0 && bedrockA f == 0#256 && bedrockB f == 0#256
    kill := { s.key.kill with bedrock := root } } }
  if fail then recordPlain s Flc.rootFail 5 0 0 else s

/-! ### The accession log (13 R413, Table 13-10) -/

/-- The ACCESSION key of a platform class, from the fuse shadow. -/
def accKeyOf (f : BitVec 8192) (cls : Nat) : Option (BitVec 256) :=
  let root := if cls = 3 then some (slateRoot (serialOf f)) else if cls = 1 then bedrockOf f else none
  root.map fun r => keyOf (kdf r (rootHandle 0x0103 256 0) cls)

/-- The ACCESSION key now, with its class. -/
def accKeyNow (s : State) : Option (BitVec 256 × Nat) := (platKey s 0x0103 256 0).map fun k => (keyOf k, platClass s)

/-- What an entry says of an action. -/
structure AccInfo where
  action : Nat
  role : Nat
  before : Nat
  after : Nat
  arg : Nat
  subject : List Byte
  deriving DecidableEq, Repr

/-- An entry at an index (13 Table 13-10). -/
def accEntry (s : State) (ix : Nat) (key : BitVec 256 × Nat) (i : AccInfo) : List Byte :=
  let body := leBytes 8 ix ++ leBytes 1 i.action ++ leBytes 1 i.role ++ leBytes 1 i.before ++ leBytes 1 i.after ++ leBytes 1 key.2
    ++ leBytes 1 (b2n (forerunner s) + 2 * b2n s.lcs.debug) ++ zeros 2 ++ leBytes 4 s.flash.boot ++ leBytes 4 s.flt.hours ++ leBytes 8 s.tm.aclk
    ++ leBytes 8 i.arg ++ padTo 32 (i.subject.take 32) ++ (bytes48 s.lcs.accChain).take 32
  body ++ blkBytes (cmac key.1 body) ++ zeros 8

/-- Whether an entry's MAC verifies under the key of its ROOT_CLASS. -/
def accEntryOk (f : BitVec 8192) (e : List Byte) : Bool :=
  match accKeyOf f (fld e 0x0C 1) with
  | some k => blkBytes (cmac k (e.take 0x68)) == slice e 0x68 16
  | none => false

/-- The chain value of an entry. -/
def accChainOf (e : List Byte) : BitVec 384 := Config.sha384 (e.take 0x78)

/-- The count and the chain rebuilt from flash at step C7. -/
def rebuildAcc (s : State) : State :=
  let used := s.flash.accession.map (·.1) ++ s.flash.accVoid
  let chain := match (s.flash.accession.filter fun e => accEntryOk s.fuse.shadow e.2).getLast? with
    | some e => accChainOf e.2
    | none => 0#384
  { s with lcs := { s.lcs with accCount := used.foldl (fun a x => max a (x + 1)) 0, accChain := chain } }

/-- Why an action finds no place or no key in the log: 0 where it does. `last` marks the two transitions that may use the last 16 positions. -/
def accRoom (s : State) (last : Bool) : Code :=
  if (accKeyNow s).isNone then Rsn.bedrockFail
  else if 65536 ≤ s.lcs.accCount ∨ (65520 ≤ s.lcs.accCount ∧ !last) then Lc.logFull
  else 0#8

/-- An entry written at the next position; a failed write leaves the position void and raises FLASH_FAIL. -/
def accWrite (s : State) (key : BitVec 256 × Nat) (i : AccInfo) (flashOk : Bool) : Bool × State :=
  let ix := s.lcs.accCount
  let s := emit s (.flashOp "accession log entry")
  if flashOk then
    let e := accEntry s ix key i
    (true, { s with flash := { s.flash with accession := tput s.flash.accession ix e },
                    lcs := { s.lcs with accCount := ix + 1, accChain := accChainOf e } })
  else
    (false, flashFail { s with flash := { s.flash with accVoid := s.flash.accVoid ++ [ix] }, lcs := { s.lcs with accCount := ix + 1 } })

/-- Append an entry of an action: 0, LOG_FULL, BEDROCK_FAIL, or LCS_FLASH_FAILED. -/
def accAppend (s : State) (i : AccInfo) (last flashOk : Bool) : Code × State :=
  let c := accRoom s last
  match accKeyNow s with
  | none => (Rsn.bedrockFail, s)
  | some k =>
    if c ≠ 0#8 then (c, s)
    else
      let (ok, s) := accWrite s k i flashOk
      (if ok then 0#8 else Lc.lcsFlashFailed, s)

/-- What an entry says of an action that changes no state. -/
def accPlain (s : State) (action role arg : Nat) (subject : List Byte) : AccInfo :=
  { action := action, role := role, before := s.lcs.st, after := s.lcs.st, arg := arg, subject := subject }

/-! ### Transitions and intents (13 Tables 13-3, 13-6; R404) -/

/-- The wipes (13 Table 13-4). -/
inductive Wipe where
  | first
  | handover
  | service
  | destroy
  | endWipe
  deriving DecidableEq, Repr

/-- The role and the wipe of a permitted transition (13 Table 13-3). -/
def transOf (fr to_ : Nat) : Option (Nat × Wipe) :=
  match fr, to_ with
  | 0, 1 => some (1, .first)
  | 0, 5 => some (1, .endWipe)
  | 1, 2 => some (2, .handover)
  | 1, 4 => some (1, .destroy)
  | 1, 5 => some (1, .endWipe)
  | 2, 3 => some (3, .service)
  | 2, 4 => some (2, .destroy)
  | 2, 5 => some (2, .endWipe)
  | 3, 4 => some (3, .destroy)
  | 3, 5 => some (3, .endWipe)
  | 4, 5 => some (1, .endWipe)
  | _, _ => none

/-- The ACCESSION key under which a FROM state's intent is checked, from the fuse shadow (13 R404). -/
def intentKey (f : BitVec 8192) (fr : Nat) : Option (BitVec 256 × Nat) :=
  let cls := if fr = 0 ∨ fr = 4 then 3 else 1
  (accKeyOf f cls).map fun k => (k, cls)

/-- An intent record before its MAC (13 Table 13-6). -/
def intentBody (fr to_ logIndex : Nat) (fore : Bool) (digest : List Byte) : List Byte :=
  leBytes 4 0x544E4549 ++ leBytes 1 1 ++ leBytes 1 fr ++ leBytes 1 to_ ++ leBytes 1 (b2n fore) ++ leBytes 8 logIndex ++ padTo 32 (digest.take 32)

/-- Fields of an intent record. -/
def inFrom (b : List Byte) : Nat := fld b 5 1
def inTo (b : List Byte) : Nat := fld b 6 1
def inFore (b : List Byte) : Bool := bit (fld b 7 1) 0
def inIndex (b : List Byte) : Nat := fld b 8 8
def inDigest (b : List Byte) : List Byte := slice b 0x10 32

/-- Whether a record is well formed and its MAC verifies. -/
def intentOk (f : BitVec 8192) (b : List Byte) : Bool :=
  match intentKey f (inFrom b) with
  | some k => b.length == 64 && fld b 0 4 == 0x544E4549 && fld b 4 1 == 1 && fld b 7 1 / 2 == 0 && blkBytes (cmac k.1 (b.take 0x30)) == slice b 0x30 16
  | none => false

/-- Whether a decode lies within the span of a transition (13 R404). -/
def inSpan (d : LcsDecode) (fr to_ : Nat) : Bool :=
  match d with
  | .state st _ => st == fr || st == to_
  | .transit x y => decide (fr ≤ x) && decide (x < y) && decide (y ≤ to_)
  | .halt => false

/-! ### Wipes (13 R400, R474) -/

/-- Every vault slot from one on is overwritten with zero. -/
def wipeSlots (s : State) (first : Nat) : State :=
  (s.key.slots.filter fun x => decide (first ≤ x.1)).foldl (fun s x => emptySlot s x.1) s

/-- The tenant part of USER (13 R399). -/
def eraseTenant (f : Flash) : Flash := { f with importHigh := [], exportReserve := [], stratumHigh := [], appoint := none, fwTags := [] }

/-- USER, both parts. -/
def eraseUser (f : Flash) : Flash := { eraseTenant f with helper := none, certChain := none, endorse := none }

/-- SYSTEM but for the annals rings, the standing list, the accession log and the intent record. -/
def eraseSystem (f : Flash) : Flash := { f with formatEpoch := 0, hours := 0, boot := 0, userKey := none, slots := [], slotVoid := [], dumps := [] }

/-- The bits of a list blown, but those that do not blow (14 R445). -/
def blowAll (s : State) (bs stuck : List Nat) : State :=
  bs.foldl (fun s b =>
    let s := emit s (.fuseBlow b)
    if stuck.contains b then s else { s with fuse := { s.fuse with blown := s.fuse.blown ||| (1#8192 <<< b) } }) s

/-- The unblown bits outside LCS_CODE, ascending (13 R406). -/
def unblownOutside (f : BitVec 8192) : List Nat := (List.range 8192).filter fun i => !(decide (1088 ≤ i) && decide (i < 1184)) && !f.getLsbD i

/-- Whether a wipe clears the kill bank and the USER area key. -/
def wipesAll : Wipe → Bool
  | .destroy => true
  | .endWipe => true
  | _ => false

/-- The vault overwrite of a wipe: all slots, slots 2 to 1023, or none. -/
def wipeVault (s : State) : Wipe → State
  | .first => s
  | .handover => wipeSlots s 2
  | .service => wipeSlots s 2
  | .destroy => wipeSlots s 0
  | .endWipe => wipeSlots s 0

/-- The flash rows of a wipe that end no key; a failure is recorded and the wipe goes on. -/
def wipeFlash (s : State) (w : Wipe) (ok : Bool) : State :=
  let go := fun (s : State) (name : String) (f : Flash → Flash) =>
    let s := emit s (.flashOp name)
    if ok then { s with flash := f s.flash } else flashFail s
  match w with
  | .handover => go s "overwrite tenant part" eraseTenant
  | .destroy => go s "erase USER" eraseUser
  | .endWipe => go (go s "erase USER" eraseUser) "erase SYSTEM" eraseSystem
  | _ => s

/-- W1: the wipe in the row order of Table 13-4; `none` where a row that ends keys fails (13 R474). -/
def wipe (s : State) (w : Wipe) (fore : Bool) (e : StartIn) : Bool × State :=
  let s := if wipesAll w then { s with key := { s.key with kill := KillBank.empty, dkc := [], missq := [] }, lane := { s.lane with ctx := [] } } else s
  let s := if w = .first then s else wipeVault s w
  if w ≠ .first ∧ e.vaultStuck then (false, recordPlain s Flc.zeroiseVerify 5 0 9)
  else if wipesAll w ∧ e.flashFails then (false, record s Flc.flashFail 9 0 9 0#8 none 0)
  else
    let s := if wipesAll w then { emit s (.flashOp "overwrite USER area key") with flash := { s.flash with userKey := none } } else s
    let s := wipeFlash s w (!e.flashFails)
    let s := if w = .endWipe ∧ fore then blowAll s (unblownOutside s.fuse.blown) e.stuckFuses else s
    (true, s)

/-- W2: copy A, then B, then C, each toward the code from its lowest unblown bit. -/
def blowCode (s : State) (to_ : Nat) (stuck : List Nat) : State :=
  let bs := (List.range 96).filter fun i => (lcsCode to_).getLsbD (i % 32) && !s.fuse.blown.getLsbD (1088 + i)
  blowAll s (bs.map (1088 + ·)) stuck

/-- The intent record cleared, or a failure of it recorded. -/
def clearIntent (s : State) (ok : Bool) : State :=
  let s := emit s (.flashOp "erase intent")
  if ok then { s with flash := { s.flash with intent := none }, lcs := { s.lcs with intentPending := false } } else flashFail s

/-- W3: the shadow read again and decoded, the platform root settled, the RESUMED entry of a cold start, the intent cleared. A decode that
names no state here is HALT. -/
def stepW3 (s : State) (rec_ : List Byte) (key : BitVec 256 × Nat) (cold : Bool) (e : StartIn) : State :=
  let s := { s with fuse := { s.fuse with shadow := s.fuse.blown } }
  let d := decodeLcs s.fuse.shadow
  let s := takeDecode s d
  let s := if s.lcs.st = 6 then { s with lcs := { s.lcs with st := 7 } } else s
  let s := settleBedrock (settleSlate (settleDebug s))
  let s :=
    if !cold then s
    else if 65536 ≤ s.lcs.accCount ∨ (65520 ≤ s.lcs.accCount ∧ inTo rec_ < 4) then flashFail s
    else (accWrite s key (accPlain s 32 0 (inTo rec_) (inDigest rec_)) (!e.flashFails)).2
  clearIntent { s with lcs := { s.lcs with resumed := true } } (!e.flashFails)

/-- The TRANSITION entry of an intent, where the log lacks it (13 R404). -/
def appendMissing (s : State) (rec_ : List Byte) (role : Nat) (key : BitVec 256 × Nat) (e : StartIn) : State :=
  let have_ := match tget s.flash.accession (inIndex rec_) with
    | some x => fld x 8 1 == 1 && slice x 0x28 32 == inDigest rec_ && accEntryOk s.fuse.shadow x
    | none => false
  if have_ then s
  else if 65536 ≤ s.lcs.accCount then flashFail s
  else
    (accWrite s key { action := 1, role := role, before := inFrom rec_, after := inTo rec_, arg := inTo rec_, subject := inDigest rec_ }
      (!e.flashFails)).2

/-- How step C4 ends: the start goes on, or it stops as at rung 4. -/
inductive C4End where
  | goOn
  | cold
  deriving DecidableEq, Repr

/-- Step C4 (13 R404): the intent record resumes its transition, or is discarded; an IN_TRANSIT decode that resumes nothing is HALT. -/
def stepC4 (s : State) (cold : Bool) (e : StartIn) : C4End × State :=
  let s := { s with lcs := { s.lcs with resumed := false } }
  let d := decodeLcs s.fuse.shadow
  let halt := fun (s : State) => if s.lcs.st = 6 then { s with lcs := { s.lcs with st := 7 } } else s
  match s.flash.intent with
  | none => (.goOn, halt { s with lcs := { s.lcs with intentPending := false } })
  | some r =>
    let b := r.bytes
    match transOf (inFrom b) (inTo b), intentKey s.fuse.shadow (inFrom b) with
    | some (role, w), some key =>
      if intentOk s.fuse.shadow b ∧ inSpan d (inFrom b) (inTo b) then
        let s := appendMissing { s with lcs := { s.lcs with intentPending := true } } b role key e
        let (ok, s) := wipe s w (inFore b && inTo b == 5) e
        if ok then (.goOn, stepW3 (blowCode s (inTo b) e.stuckFuses) b key cold e) else (.cold, s)
      else (.goOn, halt (clearIntent { s with lcs := { s.lcs with discarded := true } } (!e.flashFails)))
    | _, _ => (.goOn, halt (clearIntent { s with lcs := { s.lcs with discarded := true } } (!e.flashFails)))

/-! ### Action records (13 R409, R410) -/

/-- Fields of an action record (13 Table 13-8). -/
def arAction (b : List Byte) : Nat := fld b 5 1
def arRole (b : List Byte) : Nat := fld b 6 1
def arLcs (b : List Byte) : Nat := fld b 7 1
def arSerial (b : List Byte) : Nat := fld b 8 8
def arCount (b : List Byte) : Nat := fld b 0x10 8
def arArg (b : List Byte) : Nat := fld b 0x18 8
def arKey (b : List Byte) : List Byte := slice b 0x70 96

/-- Encodings of ARG0 (13 Table 13-8). -/
def arArgOk (action arg : Nat) : Bool :=
  if action = 1 then decide (arg < 8)
  else if action = 2 then decide (arg < 8)
  else if action = 4 then decide (1 ≤ arg) && decide (arg ≤ 128)
  else if action = 5 then decide (arg < 256) || arg == 0xFFFF
  else false

/-- Step 1 of R410. -/
def arForm (b : List Byte) : Bool :=
  b.length == 304 && fld b 0 4 == 0x54434152 && fld b 4 1 == 1 && arArgOk (arAction b) (arArg b) && decide (1 ≤ arRole b) && decide (arRole b ≤ 3)
    && decide (arLcs b < 8) && zeroBytes (slice b 0x20 0x50) && (arRole b == 1 || zeroBytes (arKey b))

/-- The roles that may take an action in a state (13 Table 13-9). -/
def arRights (action st : Nat) : List Nat :=
  if action = 2 then (if st = 1 then [1] else if st = 2 then [2, 1] else if st = 4 then [1] else [])
  else if action = 4 then (if st = 2 then [2] else if st = 3 then [2, 3] else [])
  else if action = 5 then (if st = 1 ∨ st = 4 then [1] else [])
  else []

/-- The public key of a role in a ROLES body (02 Table 2-7). -/
def roleKeyOf (b : List Byte) (role : Nat) : List Byte := slice b (if role = 1 then 0 else if role = 2 then 96 else 288) 96

/-- The public key of a role of the charter in use. -/
def roleKey (s : State) (role : Nat) : Option (List Byte) := if s.gen.unchartered then none else (secBody s 7).map fun b => roleKeyOf b role

/-- A signature verified under a key that is a valid point (03 R102). -/
def sigOk (key msg sig : List Byte) : Bool := Config.onCurve (b768 key) && Config.ecdsaVerify (b768 key) msg (b768 sig)

/-- Whether a maker key is the fused one; in BLANK it is taken as given (02 R53; 13 R410). -/
def makerKeyOk (s : State) (key : List Byte) : Bool := s.lcs.st == 0 || Config.sha384 key == makerHash s.fuse.shadow

/-- Step 5 of R410. -/
def arAuth (s : State) (b : List Byte) : Bool :=
  let key := if arRole b = 1 then (if makerKeyOk s (arKey b) then some (arKey b) else none) else roleKey s (arRole b)
  match key with
  | some k => sigOk k (b.take 0xD0) (slice b 0xD0 96)
  | none => false

/-- Steps 1 to 5 of R410: 0 where all pass. -/
def arChecks (s : State) (b : List Byte) : Code :=
  let st := s.lcs.st
  if !arForm b then Lc.lcsMalformed
  else if arLcs b ≠ st ∨ (arAction b = 1 ∧ (transOf st (arArg b)).isNone) then Lc.lcsStateWrong
  else if (if st = 0 then arSerial b = 0 else arSerial b ≠ serialOf s.fuse.shadow) ∨ arCount b ≠ s.lcs.accCount then Lc.lcsReplay
  else if !(if arAction b = 1 then (transOf st (arArg b)).map (·.1) == some (arRole b) else (arRights (arAction b) st).contains (arRole b)) then Lc.lcsRole
  else if !arAuth s b then Lc.lcsAuth
  else 0#8

/-- RECORD_DIGEST and SUBJECT of a record. -/
def arDigest (b : List Byte) : List Byte := (shaBytes b).take 32

end Sys2Proof.Machine
end

