-- ==== Sys2Proof/Machine/Charter.lean ====
section
/-!
DEFINITION. The charter: image layout, the checks of R52 in their order, the merged image and its binding, the two slots, and what a section that takes effect changes
(02 R46 to R65, R473).
-/
namespace Sys2Proof.Machine

/-! ### Layout (02 R46, Tables 2-1, 2-2) -/

/-- Header fields. -/
def chMajor (b : List Byte) : Nat := fld b 4 2
def chMinor (b : List Byte) : Nat := fld b 6 2
def chLen (b : List Byte) : Nat := fld b 8 4
def chCount (b : List Byte) : Nat := fld b 0x0C 2
def chSigner (b : List Byte) : Nat := fld b 0x0E 1
def chPartial (b : List Byte) : Bool := bit (fld b 0x0F 1) 0
def chSequence (b : List Byte) : Nat := fld b 0x10 8
def chConfig (b : List Byte) : Nat := fld b 0x18 4

/-- A directory entry: TYPE, VERSION, OFFSET, LENGTH, and whether its reserved bytes are zero. -/
structure DirEnt where
  ty : Nat
  ver : Nat
  off : Nat
  len : Nat
  clean : Bool
  deriving DecidableEq, Repr

/-- The directory of an image. -/
def chDir (b : List Byte) : List DirEnt :=
  (List.range (chCount b)).map fun i =>
    let o := 0x40 + 16 * i
    { ty := fld b o 2, ver := fld b (o + 2) 2, off := fld b (o + 4) 4, len := fld b (o + 8) 4, clean := zeroBytes (slice b (o + 12) 4) }

/-- Where the bodies may begin, and where they end. -/
def chDirEnd (b : List Byte) : Nat := 0x40 + 16 * chCount b

/-- Whether two bodies share a byte. -/
def bodiesMeet (x y : DirEnt) : Bool := decide (x.off < y.off + y.len) && decide (y.off < x.off + x.len)

/-- Whether no body of a list meets a later one. -/
def bodiesApart : List DirEnt → Bool
  | [] => true
  | x :: r => !(r.any (bodiesMeet x)) && bodiesApart r

/-- Step 1 of R52 but for MAGIC. -/
def chLayout (b : List Byte) : Bool :=
  chLen b == b.length && b.length % 16 == 0 && decide (b.length ≤ 65536) && decide (1 ≤ chCount b) && decide (chCount b ≤ 16)
    && decide (chDirEnd b + 96 ≤ b.length)
    && (chDir b).all (fun x => x.off % 16 == 0 && decide (chDirEnd b ≤ x.off) && decide (x.off + x.len + 96 ≤ b.length))
    && bodiesApart (chDir b)

/-! ### Bodies (02 R47 to R51) -/

/-- How many ports of each kind are present. -/
def presentPorts (s : State) : List Nat := (List.range 24).filter (portPresent s)

/-- The length of a section's body. -/
def secLen (s : State) (ty : Nat) (b : List Byte) : Nat :=
  if ty = 1 ∨ ty = 2 ∨ ty = 9 then 32
  else if ty = 3 then 48
  else if ty = 4 then 16 + 8 * fld b 0 2
  else if ty = 5 then 32 * (presentPorts s).length
  else if ty = 6 then 8 * s.cfg.lnkPorts
  else if ty = 7 then 496
  else 128

/-- Reserved fields and encodings of a body (00 R12). -/
def secReserved (ty : Nat) (b : List Byte) : Bool :=
  if ty = 1 then
    let c := fld b 0 4
    bits c 10 22 == 0 && !bit c 1 && bits c 8 2 != 3 && zeroBytes (slice b 0x10 16)
  else if ty = 2 then zeroBytes (slice b 0x19 7)
  else if ty = 3 then zeroBytes (slice b 0x24 12)
  else if ty = 4 then zeroBytes (slice b 2 14) && (List.range (fld b 0 2)).all fun i => bits (fld b (16 + 8 * i) 8) 29 35 == 0
  else if ty = 7 then zeroBytes (slice b 480 16)
  else if ty = 9 then (List.range 8).all fun i => decide (fld b (4 * i) 1 ≤ 7) && fld b (4 * i + 1) 1 == 0
  else true

/-- Step 2 of R52: reserved fields and encodings of header, directory and bodies. -/
def chForm (s : State) (b : List Byte) : Bool :=
  zeroBytes (slice b 0x1C 36) && decide (1 ≤ chSigner b) && decide (chSigner b ≤ 3) && fld b 0x0F 1 / 2 == 0
    && (chDir b).all fun x =>
      let body := slice b x.off x.len
      x.clean && x.ver == 1 && decide (1 ≤ x.ty) && decide (x.ty ≤ 9) && body.length == secLen s x.ty body && secReserved x.ty body

/-- The limits of Table 1-4 on a port's group. -/
def groupMax (q : Nat) : Nat := if q < 4 then 32 else if q < 20 then 8 else 24

/-- Lanes active now: those of every group (01 R27). -/
def activeLanes (s : State) : Nat := ((List.range s.cfg.lanes).filter fun i => (groupOf (laneAt s i).st).isSome).length

/-- The size byte of a group in a LANES body. -/
def laneSize (b : List Byte) (q : Nat) : Nat := fld b q 1

/-- Contents of a LANES body (01 R27; 02 R49). -/
def lanesOk (s : State) (b : List Byte) : Bool :=
  (List.range 24).all (fun q => if portPresent s q then decide (1 ≤ laneSize b q) && decide (laneSize b q ≤ groupMax q) else laneSize b q == 0)
    && decide (fld b 0x18 1 ≤ 16)
    && decide (((List.range 24).map (laneSize b)).sum + fld b 0x18 1 ≤ activeLanes s)

/-- Contents of a TABLES body (04 R110). -/
def tablesOk (b : List Byte) : Bool :=
  let cb := fld b 0 8
  let cn := fld b 8 8
  let tb := fld b 0x10 8
  let tn := fld b 0x18 8
  let ce := fld b 0x20 4
  ((List.range 10).any fun k => ce == 2 ^ (12 + k)) && cn == 64 * ce && cb % 4096 == 0 && tb % 4096 == 0 && decide (cb + cn ≤ 2 ^ 52)
    && decide (tb + tn ≤ 2 ^ 52) && tn % 4096 == 0 && decide (64 * (treeCounts 10 (cn / 4096)).sum ≤ tn)
    && !(decide (cb < tb + tn) && decide (tb < cb + cn))

/-- Contents of a SLICES body (09 R277; 02 Table 2-7). -/
def slicesOk (b : List Byte) : Bool :=
  let n := fld b 0 2
  decide (1 ≤ n) && decide (n ≤ 512) && ((List.range n).map fun i => bits (fld b (16 + 8 * i) 8) 0 20).Nodup

/-- The interface codes 1 to 7, each exactly once (02 R50). -/
def versionsOnce (b : List Byte) : Bool := (List.range 7).all fun c => ((List.range 8).filter fun i => fld b (4 * i) 1 == c + 1).length == 1

/-- OFFER_MASK of an interface in a VERSIONS body. -/
def offerIn (b : List Byte) (code : Nat) : Nat := ((List.range 8).map fun i => if fld b (4 * i) 1 = code then fld b (4 * i + 2) 2 else 0).sum

/-- Step 9 for one section: 0 where its contents pass. -/
def secContents (s : State) (fores : List Bool) (ty : Nat) (b : List Byte) : Code :=
  if ty = 1 then (if fld b 4 4 = 0 ∨ 16000 < fld b 4 4 then Chr.limit else 0#8)
  else if ty = 2 then (if lanesOk s b then 0#8 else Chr.laneAllocation)
  else if ty = 3 then (if tablesOk b then 0#8 else Chr.limit)
  else if ty = 4 then (if slicesOk b then 0#8 else Chr.limit)
  else if ty = 5 then
    (if (List.range (presentPorts s).length).all fun i => decide (((List.range 16).map fun c => fld b (32 * i + 2 * c) 2).sum ≤ 1024) then 0#8
     else Chr.limit)
  else if ty = 6 then (if b.all fun x => x != 0#8 then 0#8 else Chr.limit)
  else if ty = 8 then (if (List.range 32).all fun c => !isEvent c || fld b (4 * c) 4 == 0 then 0#8 else Chr.limit)
  else if ty = 9 then
    (if !versionsOnce b then Chr.sectionMalformed
     else if fores.any fun f => (List.range 7).any fun c => effOffer (offerIn b (c + 1)) (c + 1) f == 0 then Chr.noCommonVersion
     else 0#8)
  else 0#8

/-! ### Signers (02 R52 steps 6, 7; R53; 13 Table 13-9) -/

/-- The roles that may sign charters in a state. -/
def chSigners (st : Nat) : List Nat :=
  if st = 0 then [1] else if st = 1 then [1, 2] else if st = 2 ∨ st = 3 then [2, 3] else if st = 4 then [2] else []

/-- Whether a role may sign a section (02 Table 2-3). -/
def mayCarry (role ty : Nat) : Bool := role == 1 || role == 2 || (role == 3 && ty != 1 && ty != 7)

/-- The chain of a ROLES body (02 R53). -/
def rolesOk (s : State) (b : List Byte) : Bool :=
  makerKeyOk s (slice b 0 96) && sigOk (slice b 0 96) (slice b 96 96) (slice b 192 96) && sigOk (slice b 96 96) (slice b 288 96) (slice b 384 96)

/-! ### The checks (02 R52) -/

/-- What an accepted image carries. -/
structure ChrImage where
  raw : List Byte
  secs : Tbl (Nat × List Byte)
  deriving DecidableEq, Repr

/-- The sections a directory carries, by type; of a repeated type the first. -/
def chSections (b : List Byte) : Tbl (Nat × List Byte) :=
  (chDir b).reverse.foldl (fun t x => tput t x.ty (x.ver, slice b x.off x.len)) []

/-- The body of a carried section. -/
def carried (t : Tbl (Nat × List Byte)) (ty : Nat) : Option (List Byte) := (tget t ty).map (·.2)

/-- The GLOBAL CONTROL word the merged charter will set. -/
def mergedCtl (s : State) (t : Tbl (Nat × List Byte)) : Nat :=
  match carried t 1, secBody s 1 with
  | some b, _ => fld b 0 4
  | none, some b => fld b 0 4
  | none, none => 0

/-- The settings of compatibility a load is judged under: the one in effect, and the one the merged charter will set (02 R59). -/
def chFores (s : State) (t : Tbl (Nat × List Byte)) : List Bool :=
  let new := s.gen.strap || bit (mergedCtl s t) 0
  if s.gen.unchartered then [new] else [forerunner s, new]

/-- Step 7: the image's signature, and the chain of a ROLES section it carries. -/
def chSigned (s : State) (b : List Byte) (t : Tbl (Nat × List Byte)) : Code :=
  let msg := b.take (b.length - 96)
  let sig := b.drop (b.length - 96)
  if s.gen.unchartered then
    match carried t 7 with
    | none => Chr.sectionMissing
    | some r =>
      if chPartial b then Chr.sectionMissing
      else if rolesOk s r ∧ sigOk (roleKeyOf r (chSigner b)) msg sig then 0#8 else Chr.badSignature
  else match roleKey s (chSigner b) with
    | none => Chr.badSignature
    | some k => if sigOk k msg sig && (match carried t 7 with | some r => rolesOk s r | none => true) then 0#8 else Chr.badSignature

/-- Step 8: uniqueness, and the required sections of a full image. -/
def chPresence (b : List Byte) (t : Tbl (Nat × List Byte)) : Code :=
  if !((chDir b).map (·.ty)).Nodup then Chr.sectionMalformed
  else if !chPartial b ∧ !([1, 2, 3, 4, 7, 9].all fun ty => (tget t ty).isSome) then Chr.sectionMissing
  else 0#8

/-- Step 9: the first section, by type, whose contents fail. -/
def chContents (s : State) (t : Tbl (Nat × List Byte)) : Code :=
  ((t.map fun x => secContents s (chFores s t) x.1 x.2.2).find? fun c => c != 0#8).getD 0#8

/-- Step 10: settings forbidden under forerunner compatibility, and versions only it offers (02 R59, R65). -/
def chFore (s : State) (t : Tbl (Nat × List Byte)) : Code :=
  let new := s.gen.strap || bit (mergedCtl s t) 0
  let bad1 := match carried t 1 with
    | some b => new && (bit (fld b 0 4) 5 || bit (fld b 0 4) 6 || bits (fld b 0 4) 8 2 == 1)
    | none => false
  let bad9 := match carried t 9 with
    | some b => !((chFores s t).any id) && (List.range 7).any fun c => maskAnd (offerIn b (c + 1)) (foreMask (c + 1)) != 0
    | none => false
  if bad1 || bad9 then Chr.modeNotPermitted else 0#8

/-- The section a full image leaves out is replaced by its default. -/
def replaced (s : State) (b : List Byte) (t : Tbl (Nat × List Byte)) (ty : Nat) : Bool :=
  (tget t ty).isSome || (!chPartial b && (secBody s ty).isSome)

/-- The budgets of a port under a QOS body; without the section every budget is 0 (10 R311). -/
def portBudgets (b : Option (List Byte)) (i : Nat) : List Byte := match b with | some x => slice x (32 * i) 32 | none => zeros 32

/-- The virtual channel weights of a link port under a VCHAN body; without the section every weight is 32 (05 R169). -/
def portWeights (b : Option (List Byte)) (i : Nat) : List Byte := match b with | some x => slice x (8 * i) 8 | none => List.replicate 8 32#8

/-- The functions that are to be stopped for a load (02 Table 2-3), as bits of GEN_FUNC_STOP. A full image that leaves out a section the charter
in use has puts its defaults in its place, and the ports whose values that changes are to be stopped too (02 R47, R61; log 133). -/
def chStops (s : State) (b : List Byte) (t : Tbl (Nat × List Byte)) : List Nat :=
  let same := fun ty => tget t ty == (s.gen.charter.bind fun c => tget c.secs ty)
  let on := fun ty => replaced s b t ty && !same ty
  let ps := presentPorts s
  let ix := fun q => (ps.takeWhile fun x => x != q).length
  (if on 2 then 24 :: ps.filter fun q => ((carried t 2).map fun x => laneSize x q) != ((secBody s 2).map fun x => laneSize x q) else [])
    ++ (if on 3 then memPortsOf s else [])
    ++ (if on 4 then [25] else [])
    ++ (if on 5 then ps.filter fun q => portBudgets (carried t 5) (ix q) != portBudgets (secBody s 5) (ix q) else [])
    ++ (if on 6 then (ps.filter fun q => decide (4 ≤ q) && decide (q < 20)).filter fun q =>
          portWeights (carried t 6) (q - 4) != portWeights (secBody s 6) (q - 4) else [])

/-- Steps 1 to 11 of R52 on an image: its status code, and its sections. -/
def chChecks (s : State) (b : List Byte) : Code × Tbl (Nat × List Byte) :=
  if fld b 0 4 ≠ 0x48434853 then (Chr.badMagic, [])
  else if !chLayout b then (Chr.badLayout, [])
  else
    let n := if chMajor b = 1 ∧ s.gen.strap then Config.shepol32 b else b
    let t := chSections n
    let seq := chSequence b
    if !chForm s n then (Chr.sectionMalformed, t)
    else if !((chMajor b == 2 && decide (chMinor b ≤ 1)) || (chMajor b == 1 && s.gen.strap)) then (Chr.schemaUnsupported, t)
    else if chConfig b ≠ 0 ∧ chConfig b ≠ s.cfg.configId.toNat then (Chr.configMismatch, t)
    else if (match s.gen.charter with | some c => decide (seq ≤ c.sequence) | none => false) || decide (seq / 2 ^ 48 < floorCount s.fuse.shadow) then
      (Chr.rollback, t)
    else if !(chSigners s.lcs.st).contains (chSigner b) || !(t.all fun x => mayCarry (chSigner b) x.1) then (Chr.signerNotPermitted, t)
    else
      let c7 := chSigned s b t
      let c8 := chPresence n t
      let c9 := chContents s t
      let c10 := chFore s t
      if c7 ≠ 0#8 then (c7, t)
      else if c8 ≠ 0#8 then (c8, t)
      else if c9 ≠ 0#8 then (c9, t)
      else if c10 ≠ 0#8 then (c10, t)
      else if !s.gen.unchartered && (chStops s b t).any fun f => !(s.gen.funcState.getLsbD f) then (Chr.notStopped, t)
      else (0#8, t)

/-! ### Merge, binding and slots (02 R53 to R55, R473) -/

/-- The merged charter: each section of a partial image replaces its own, a full image replaces every one. -/
def chMerge (s : State) (b : List Byte) (t : Tbl (Nat × List Byte)) : Charter :=
  let base := if chPartial b then (match s.gen.charter with | some c => c.secs | none => []) else []
  { schemaMajor := chMajor b, schemaMinor := chMinor b, signer := chSigner b, sequence := chSequence b, configId := chConfig b,
    secs := t.foldl (fun a x => tput a x.1 x.2) base }

/-- The directory and the bodies of a merged image, from an offset on. -/
def mergedBodies : Nat → Tbl (Nat × List Byte) → List Byte × List Byte
  | _, [] => ([], [])
  | off, (ty, ver, body) :: r =>
    let len := roundUp body.length 16
    let (d, bs) := mergedBodies (off + len) r
    (leBytes 2 ty ++ leBytes 2 ver ++ leBytes 4 off ++ leBytes 4 body.length ++ zeros 4 ++ d, padTo len body ++ bs)

/-- The canonical merged image (02 R473). -/
def mergedImage (c : Charter) : List Byte :=
  let dirEnd := 0x40 + 16 * c.secs.length
  let (dir, bodies) := mergedBodies dirEnd c.secs
  let len := dirEnd + bodies.length + 96
  leBytes 4 0x48434853 ++ leBytes 2 c.schemaMajor ++ leBytes 2 c.schemaMinor ++ leBytes 4 len ++ leBytes 2 c.secs.length ++ leBytes 1 c.signer ++ zeros 1
    ++ leBytes 8 c.sequence ++ leBytes 4 c.configId ++ zeros 36 ++ dir ++ bodies ++ zeros 96

/-- The binding tag of a charter under the platform root in effect. -/
def chBind (s : State) (c : Charter) : Option (BitVec 128) := (platKey s 0x0101 256 0).map fun k => cmac (keyOf k) (mergedImage c)

/-- Whether a slot is valid now (02 R54, R55). -/
def slotValid (s : State) (v : ChrSlot) : Bool := chBind s v.chr == some v.bind && decide (floorCount s.fuse.shadow ≤ v.chr.sequence / 2 ^ 48)

/-- Bytes of the SYSTEM area as flash holds them: under the FLASH_PART key, by units of 64 bytes (03 Table 3-10; 13 R399). -/
def flashSeal (s : State) (off : Nat) (b : List Byte) : List Byte :=
  match platKey s 0x0102 512 0 with
  | none => []
  | some k =>
    let key := BitVec.ofNat 512 (leNat k)
    (List.range (ceilDiv b.length 64)).flatMap fun i => lineBytes (xtsEnc key (Config.flashTweak (off + 64 * i)) (bytesLine (slice b (64 * i) 64)))

/-- Where a charter slot lies in the partition (14 Table 14-12). -/
def slotOffset (i : Nat) : Nat := 0x10000 + 0x20000 * i

/-- The write of a slot: the image in its first 64 KiB, then SEQUENCE and the binding tag in the sector that follows, erased and written apart
(02 R54). -/
def slotWrite (s : State) (i : Nat) (c : Charter) (tag : BitVec 128) : List Out :=
  let o := slotOffset i
  [.flashErase o 0x10000, .flashProgram o (flashSeal s o (mergedImage c)), .flashErase (o + 0x10000) 0x1000,
   .flashProgram (o + 0x10000) (flashSeal s (o + 0x10000) (leBytes 8 c.sequence ++ leBytes 16 tag.toNat))]

/-- Step C8: the valid slot with the higher SEQUENCE becomes the charter in use; with none the block is UNCHARTERED. -/
def selectSlot (s : State) : State :=
  let ok := s.flash.slots.filter fun x => !s.flash.slotVoid.contains x.1 && slotValid s x.2
  let best := ok.foldl (fun (a : Option (Nat × ChrSlot)) x =>
    match a with
    | none => some x
    | some y => if y.2.sequence < x.2.sequence then some x else a) none
  match best with
  | some (i, v) => { s with gen := { s.gen with charter := some v.chr, slotInUse := i, unchartered := false } }
  | none => { s with gen := { s.gen with charter := none, unchartered := true } }

/-! ### Effects of sections -/

/-- The reset values of the per-port registers that follow compatibility and SHAPING_DEFAULT (15 R463). -/
def settleShapes (s : State) : State :=
  { s with ile := { s.ile with ports := s.ile.ports.map fun x => (x.1, { x.2 with shape := none, shadow := none }) } }

/-- The GLOBAL section of the charter in use takes effect (02 R63, R64). -/
def applyGlobal (s : State) : State :=
  settleShapes { s with gen := { s.gen with glob := (secBody s 1).getD [], chrStaged := false } }

/-- The group sizes of the LANES section of the charter in use. -/
def sizesOf (s : State) : Tbl Nat × Nat :=
  match secBody s 2 with
  | some b => ((List.range 24).foldl (fun t q => dput 0 t q (laneSize b q)) [], fld b 0x18 1)
  | none => ([], 0)

/-- Steps C9 and C10: sizes taken from the charter, every lane tested, groups formed afresh. -/
def chooseLanes (s : State) (bad : List Nat) : State :=
  let (size, bce) := sizesOf s
  let s := laneStart { s with lane := { s.lane with size := size, bceMin := bce } } bad
  { s with gen := { s.gen with c10Done := true } }

/-- A memory port leaves reset, where it may: its epoch increments, MEM_INIT rises for training, and its budget counters start (14 R432; 10 R311). -/
def memPortOut (s : State) (p : Nat) : State :=
  if !mayRelease s p then s
  else
    let s := exitReset s (domMem p)
    startCredits (setMemPin s p { memPin s p with init := true, trained := false, calSeenLow := !(memPin s p).calReq }) p

/-- A link or D2D port leaves reset, where it may: LNK_EN rises, and its bring-up begins once the link is up. -/
def lnkPortOut (s : State) (e : Nat) : State :=
  if !mayRelease s (qpOfLnk e) then s
  else if failHeld s e then endRung (exitReset s (domLnk e)) 1 (qpOfLnk e)
  else startHello (startCredits (releaseLink (exitReset s (domLnk e)) e) (qpOfLnk e)) e

/-- Any port's release, by its QOS_STAT_SEL.PORT code. -/
def portOut (s : State) (q : Nat) : State := if q < 4 then memPortOut s q else lnkPortOut s (q - 4)

/-- The port domains that wait in reset leave it, where they may (01 R38). -/
def releaseWaiting (s : State) : State :=
  (presentPorts s).foldl (fun s q => if (domAt s (2 + q)).inReset then portOut s q else s) s

/-- ILE_REKEY_CTRL of every port at its reset value (05 R168; 15 Table 15-9). -/
def settleRekeyCtrl (s : State) : State :=
  (lnkPortsOf s).foldl (fun s e => setLport s e { lportAt s e with rekeyCtrl := if forerunner s then 0x20#32 else 0x28#32 }) s

/-- Step C11: memory ports are released for training, link and D2D ports for bring-up; none while UNCHARTERED (02 R56, R67). -/
def releasePorts (s : State) : State :=
  if s.gen.unchartered then s else releaseWaiting (settleRekeyCtrl s)

/-- The slices a new SLICES section changes or drops (09 R306). -/
def changedSlices (old new : Option (List Byte)) : List Nat :=
  let r := fun (b : Option (List Byte)) i => match b with
    | some x => if i < fld x 0 2 then some (fld x (16 + 8 * i) 8) else none
    | none => none
  (List.range 512).filter fun i => (r old i).isSome && r old i != r new i

/-- A load ends: its code, and the CHARTER source (15 Table 15-5). -/
def chrEnd (s : State) (c : Code) : State :=
  raiseIrq { s with gen := { s.gen with chrBusy := false, chrCode := c, load := none } } 2

/-- Step 7 of Table 2-9, once no slice is still being reset for the load (09 R306). -/
def chrFinish (s : State) : State :=
  if !s.gen.chrBusy || s.gen.load.isSome || s.hob.slices.any (fun x => x.2.resetting && x.2.charter) then s else chrEnd s 0#8

/-- The place of a port's record in a per-port body. -/
def portPlace (s : State) (q : Nat) : Nat := ((presentPorts s).takeWhile fun x => x != q).length

/-- Whether the budgets of a port change (02 R61: only a port that is stopped, and so only one whose budgets change, takes a QOS section). -/
def budgetsChange (s : State) (old : Option (List Byte)) (q : Nat) : Bool :=
  portBudgets old (portPlace s q) != portBudgets (secBody s 5) (portPlace s q)

/-- A QOS section applied to a port: its counters start at their new ceilings and its statistics clear (10 R311, R326). -/
def applyBudgets (s : State) (q : Nat) : State :=
  startCredits { s with qos := { s.qos with stats := s.qos.stats.filter fun x => x.1 / 16 != q } } q

/-- Step 6 of Table 2-9: the carried sections that take effect on restart or once stored; a GLOBAL section is staged. -/
def chrApply (s : State) (old : Option Charter) (types : List Nat) : State :=
  let oldBody := fun ty => (old.bind fun c => tget c.secs ty).map (·.2)
  let differs := fun ty => (types.contains ty) && oldBody ty != secBody s ty
  let s := if differs 1 then { s with gen := { s.gen with chrStaged := true } } else s
  let s := if differs 2 then
      let (size, bce) := sizesOf s
      let before := s.lane.size
      let s := regroup s size bce
      (presentPorts s).foldl (fun s q => if dget 0 size q = dget 0 before q then s else startCredits s q) s
    else s
  let s := if differs 3 then { s with ime := { s.ime with cached := [] } } else s
  let s := if types.contains 5 then (presentPorts s).foldl (fun s q => if budgetsChange s (oldBody 5) q then applyBudgets s q else s) s else s
  if differs 4 then (changedSlices (oldBody 4) (secBody s 4)).foldl (fun s i => sliceStart s i true true) s else s

/-- A charter applied while UNCHARTERED: steps C9 to C13 follow, C12 and C13 by their own rows (02 R56). READY falls until C13 (log 67).
`bad`: the lanes whose known-answer test fails at C10. -/
def chrApplyFirst (s : State) (bad : List Nat) : State :=
  let s := applyGlobal { s with gen := { s.gen with unchartered := false, c12Done := false, ready := false } }
  releasePorts (chooseLanes s bad)

/-- CHARTER_STORED: the slot write of a load has been read back and checked, or has failed (02 R54, R60). -/
def charterStored (s : State) (flashOk : Bool) (bad : List Nat) : State :=
  match s.gen.load with
  | none => s
  | some l =>
    if !s.gen.chrBusy || coreDown s || s.key.tampered then s
    else
      let s := emits s (slotWrite s l.slot l.merged l.bind)
      if !flashOk then chrEnd (flashFail { s with flash := { s.flash with slots := tdel s.flash.slots l.slot } }) Chr.storeFailed
      else
        let old := s.gen.charter
        let first := s.gen.unchartered
        let s := { s with
          flash := { s.flash with slots := tput s.flash.slots l.slot { chr := l.merged, sequence := l.merged.sequence, bind := l.bind }, slotVoid := s.flash.slotVoid.filter fun x => x != l.slot }
          gen := { s.gen with charter := some l.merged, slotInUse := l.slot, load := none } }
        chrFinish (if first then chrApplyFirst s bad else chrApply s old l.carried)

/-- The image a LOAD reads: the window, or memory through the IME (02 R60 step 4; 15 R456). -/
def chrImage (s : State) (source : Bool) (m : MemIn) : Except Code (List Byte) × State :=
  let n := bits s.gen.chrLen.toNat 0 17
  if s.gen.unchartered || source then (.ok (bufBytes s.gen.chrWindow 0 n), s)
  else match ctlRead s (bits s.gen.chrShelf.toNat 0 24) (bits s.gen.chrBase.toNat 0 52) n m with
    | (.ok b, s, _) => (.ok b, s)
    | (.error c, s, _) => (.error c, s)

/-- The slot a new charter goes to: the one that does not hold the charter in use; slot 0 while no charter is in use (log 135). -/
def chrSlotFor (s : State) : Nat := if s.gen.charter.isSome then 1 - s.gen.slotInUse else 0

/-- Checks passed: the merge is bound, logged and its slot write begins (02 R53, R54, R473; 13 R413). -/
def chrAccept (s : State) (b : List Byte) (t : Tbl (Nat × List Byte)) (flashOk : Bool) : State :=
  let c := chMerge s b t
  match chBind s c with
  | none => chrEnd (keyReason s Rsn.bedrockFail) Rsn.bedrockFail
  | some tag =>
    let (r, s) := accAppend s (accPlain s 16 c.signer c.sequence ((shaBytes (mergedImage c)).take 32)) false flashOk
    if r = Lc.lcsFlashFailed then chrEnd s Chr.storeFailed
    else if r ≠ 0#8 then chrEnd s r
    else
      let types := (List.range 10).filter fun ty => (tget t ty).isSome || (!chPartial b && (secBody s ty).isSome)
      { s with gen := { s.gen with load := some { merged := c, bind := tag, carried := types, slot := chrSlotFor s } } }

/-- CHARTER_LOAD: a write of LOAD (02 R52, R60, R62). -/
def charterLoad (s : State) (source : Bool) (m : MemIn) (flashOk : Bool) : State :=
  if s.gen.chrBusy then { s with gen := { s.gen with chrOverrun := true } }
  else if isRunning s 4 0 || s.lcs.intentPending || (match s.lcs.act with | some a => fld a.record 5 1 == 1 | none => false) then raiseIrq { s with gen := { s.gen with chrCode := Chr.busy } } 2
  else
    let s := { s with gen := { s.gen with chrBusy := true, chrOverrun := false } }
    if s.key.tampered then chrEnd s Rsn.tampered
    else match chrImage s source m with
      | (.error c, s) => chrEnd s c
      | (.ok b, s) =>
        let (c, t) := chChecks s b
        if c ≠ 0#8 then chrEnd s c else chrAccept s b t flashOk

/-- A reset that interrupts a load abandons it (02 R62); a stored slot is settled at the restart. -/
def chrAbandon (s : State) (c : Code) : State := if s.gen.chrBusy then chrEnd s c else s

/-! ### Functions (02 R60, R61) -/

/-- The functions stopped or told to stop. -/
def funcStops (s : State) : BitVec 32 := s.gen.funcStop ||| s.gen.funcHeld

/-- The bits of GEN_FUNC_STOP that name a present function. -/
def funcPresent (s : State) : Word :=
  (presentPorts s).foldl (fun w q => w ||| (1#32 <<< q)) 0x03000000#32

/-- A running BCE job is suspended at a block boundary where the BCE is told to stop (02 R60 step 2). -/
def suspendAll (s : State) : State := { s with bce := { s.bce with jobs := s.bce.jobs.map fun j => { j with engine := none } } }

/-- FUNC_STOP_WRITE: stop bits rise, or fall; a bit cleared during a load stays in force until a later write clears it again (02 R61). -/
def funcStopWrite (s : State) (v : Word) : State :=
  let w := v &&& funcPresent s
  let s := if v &&& ~~~(funcPresent s) &&& 0x00FFFFFF#32 != 0#32 then ignoreWrite s (0x60 / 4) else s
  let held := if s.gen.chrBusy then (s.gen.funcHeld ||| s.gen.funcStop) &&& ~~~w else 0#32
  let s := { s with gen := { s.gen with funcStop := w, funcHeld := held, funcState := s.gen.funcState &&& (w ||| held) } }
  if w.getLsbD 24 then suspendAll s else s

/-- Whether a stopped function has ended its accepted work. -/
def funcIdle (s : State) (f : Nat) : Bool :=
  if f < 4 then !(s.ime.ents.any fun e => e.port == f) && !(s.ime.blks.any fun b => b.port == f)
  else if f < 24 then
    (lportAt s (f - 4)).txq.isEmpty && !(s.ile.orig.any fun o => o.2.egress == f - 4) && !(s.ile.ingress.any fun g => g.port == f - 4)
  else if f = 24 then (runningJobs s).isEmpty
  else !(s.hob.flight.any fun x => x.2.stage == .fetched && mayDispatch s x.1 x.2)

/-- FUNCTION_DRAINED: the drain of a stopped function ends. -/
def functionDrained (s : State) (f : Nat) : State :=
  if coreDown s || !(funcStops s).getLsbD f || s.gen.funcState.getLsbD f || !funcIdle s f then s
  else { s with gen := { s.gen with funcState := s.gen.funcState ||| (1#32 <<< f) } }

/-! ### The commands -/

/-- CHARTER_LOAD (02 R52). -/
def execCharterLoad (source : Bool) (m : MemIn) (flashOk : Bool) (s : State) : Host.Outcome State Fault Refusal :=
  .next (ctlWriteBy s 0x50 fun s => charterLoad s source m flashOk)

/-- CHARTER_STORED (02 R60). -/
def execCharterStored (w : SlotWrite) (s : State) : Host.Outcome State Fault Refusal := .next (charterStored s w.flashOk w.badLanes)

/-- FUNC_STOP_WRITE (02 R60, R61). -/
def execFuncStopWrite (value : Word) (s : State) : Host.Outcome State Fault Refusal := .next (ctlWriteBy s 0x60 fun s => funcStopWrite s value)

/-- FUNCTION_DRAINED (02 R61). -/
def execFunctionDrained (function : Nat) (s : State) : Host.Outcome State Fault Refusal := .next (functionDrained s function)

/-- SLICE_RESET_SETTLE (09 R303, R306). -/
def execSliceResetSettle (slice : Nat) (s : State) : Host.Outcome State Fault Refusal := .next (chrFinish (sliceSettle s slice))

end Sys2Proof.Machine
end

