-- ==== Sys2Proof/Machine/Flags.lean ====
section
/-!
DEFINITION. The status words: every status register as its fields give it (15 Tables 15-3 to 15-15; 11 Table 11-10; 12 Table 12-8; 13 Tables 13-12, 13-13).
-/
namespace Sys2Proof.Machine

/-- A bit of a status word. -/
def fb (b : Bool) (i : Nat) : Nat := if b then 2 ^ i else 0

/-! ### GEN_ (15 Tables 15-2 to 15-5, 15-13) -/

/-- GEN_STATUS. -/
def genStatus (s : State) : Nat :=
  fb s.gen.ready 31 + fb s.gen.unchartered 30 + fb s.key.tampered 29 + fb s.lcs.debug 28 + fb (s.pin.pwrok && coreDown s) 27

/-- GEN_START_STATUS. -/
def startStatus (s : State) : Nat :=
  s.gen.lastStart * 2 ^ 8 + fb s.gen.startDrbg 4 + fb s.gen.startUnch 3 + fb s.gen.startBedFail 2 + fb s.gen.startBedAbsent 1 + fb s.gen.startGeode 0

/-- GEN_COMPAT (02 R63). -/
def compatWord (s : State) : Nat := fb (forerunner s) 2 + fb (bit (globCtl s) 0) 1 + fb s.gen.strap 0

/-- GEN_CCLK_FREQ. -/
def cclkFreq (s : State) : Nat := fb s.gen.cclkValid 31 + cclkNow s

/-- GEN_CHR_STATUS. -/
def chrStatus (s : State) : Nat := fb s.gen.chrBusy 31 + fb s.gen.chrStaged 30 + fb s.gen.chrOverrun 29 + s.gen.chrCode.toNat

/-- GEN_CHR_SEQ. -/
def chrSeq (s : State) : Nat := (s.gen.charter.map (·.sequence)).getD 0

/-- The code of a lane state (01 Table 1-2). -/
def laneCode : LaneSt → Nat
  | .absent => 0
  | .spare => 1
  | .bound _ => 2
  | .common => 3
  | .fenced => 4

/-- GEN_LANE_STATEk. -/
def laneWord (s : State) (k : Nat) : Nat := ((List.range 10).map fun j => laneCode (laneAt s (10 * k + j)).st * 2 ^ (3 * j)).sum

/-- GEN_PORT_INFO of the selected group. -/
def portInfo (s : State) : Nat :=
  let q := bits s.gen.portSel.toNat 0 5
  if 24 < q ∨ (q < 24 ∧ !portPresent s q) then 0
  else
    let n := (members s q).length
    charteredSize s q + n * 2 ^ 8 + (if s.lane.lent.contains q then n else 0) * 2 ^ 16 + n * 64 * cclkNow s * 2 ^ 32

/-- GEN_COMMIT_STATUS; a commit ends with its command. -/
def commitStatus (s : State) : Nat := s.gen.commitPair * 2 ^ 16 + s.gen.commitPort * 2 ^ 8 + s.gen.commitCode.toNat

/-! ### KEY_ and IME_ (15 Tables 15-6, 15-7) -/

/-- KEY_STATUS. -/
def keyStatus (s : State) : Nat :=
  prevUsers s (bits s.key.slotSel.toNat 0 10) % 2 ^ 13 * 2 ^ 32 + fb s.key.zeroised 31 + fb s.key.killed 30 + fb s.key.tampered 29 + fb s.key.slateOn 28
    + fb s.key.bedrockAbsent 27 + fb s.key.bedrockFail 26 + fb s.key.geodeFail 25 + fb s.key.drbgFail 24 + s.key.lastReason.toNat

/-- KEY_GEODE_STATUS. -/
def geodeStatus (s : State) : Nat := fb s.key.enrolled 8 + s.key.geodeCause

/-- KEY_CMD_STATUS. -/
def keyCmdStatus (s : State) : Nat := fb s.key.cmdBusy 31 + s.key.cmdResult.toNat

/-- KEY_SLOT_ATTR of a slot (03 Table 3-11). -/
def slotAttr (s : State) (i : Nat) : Nat :=
  match slotAt s i with
  | none => 0
  | some v =>
    v.masks.lcs.toNat * 2 ^ 58 + v.masks.world.toNat * 2 ^ 54 + v.masks.master.toNat * 2 ^ 46 + v.masks.vol.toNat * 2 ^ 38 + v.rootClass * 2 ^ 36 + v.kind * 2 ^ 32
      + v.tenant * 2 ^ 23 + fb (curHalf v == 1) 22 + fb v.prevLive 21 + fb v.staged.isSome 20 + 2 ^ 19

/-- IME_STATUS. -/
def imeStatus (s : State) : Nat :=
  min s.ime.lostCounters 0xFFFFFFFF * 2 ^ 32 + fb s.ime.formatted 31 + fb (s.ime.createLimit != 0) 30 + s.ime.sweeps.length % 16 * 2 ^ 16 + s.ime.lastReason.toNat

/-- IME_REGION_STATUS. -/
def regionStatus (s : State) : Nat := fb s.ime.cmdBusy 31 + s.ime.cmdCode.toNat

/-! ### ILE_ (15 Tables 15-8, 15-9) -/

/-- ILE_STATUS. -/
def ileStatus (s : State) : Nat := s.ile.staleDrops * 2 ^ 32 + fb s.ile.postedLost 16 + s.ile.lastReason.toNat

/-- The code of a port state (05 Table 5-1). -/
def portCode : PortSt → Nat
  | .down => 0
  | .hello => 1
  | .keying => 2
  | .open_ => 3
  | .rekeying => 4
  | .retrain => 5
  | .failed => 6

/-- ILE_PORT_STATE. -/
def portState (s : State) (e : Nat) : Nat := portCode (lportAt s e).st

/-- ILE_PORT_STATUS. -/
def portStatus (s : State) (e : Nat) : Nat := (lportAt s e).fabVer * 2 ^ 24 + (lportAt s e).portVer * 2 ^ 16 + (lportAt s e).fail

/-! ### SRE_, BCE_, HOB_ (15 Tables 15-10 to 15-12) -/

/-- SRE_STATUS. -/
def sreStatus (s : State) : Nat :=
  s.sre.lateMsgs * 2 ^ 32 + s.sre.eabExpired * 2 ^ 16 + s.sre.colls.length % 128 * 2 ^ 8 + s.sre.lastReason.toNat

/-- BCE_STATUS. -/
def bceStatus (s : State) : Nat :=
  s.bce.lateMsgs * 2 ^ 32 + (suspendedJobs s).length % 16 * 2 ^ 24 + (runningJobs s).length % 16 * 2 ^ 16 + s.bce.cuts.length % 16 * 2 ^ 8 + s.bce.lastReason.toNat

/-- HOB_STATUS. -/
def hobStatus (s : State) : Nat :=
  s.hob.fenceIgnored * 2 ^ 48 + s.hob.badDoorbell * 2 ^ 40 + s.hob.fenceEnd * 2 ^ 32 + s.hob.orphans % 2 ^ 13 * 2 ^ 16 + s.hob.lastReason.toNat

/-- HOB_CMD_STATUS. -/
def hobCmdStatus (s : State) : Nat := fb s.hob.cmdBusy 31 + s.hob.cmdDetail % 256 * 2 ^ 16 + s.hob.cmdCode.toNat

/-- HOB_OBJ_INFO of a handle. -/
def objInfo (s : State) (h : Nat) : Nat :=
  match tget s.hob.objs h with
  | some o => o.state * 2 ^ 62 + fb o.hold 61 + o.slice * 2 ^ 52 + o.cat * 2 ^ 16 + o.refs % 2 ^ 16
  | none => 0

/-! ### FLT_, ATT_, LCS_ -/

/-- The RUNG of FLT_STATUS: the highest reset in progress; 5 once the cold request stands (11 Table 11-10). -/
def rungField (s : State) : Nat := if s.flt.coldReq then 5 else topRung s

/-- FLT_STATUS. -/
def fltStatus (s : State) : Nat :=
  fb s.flt.permanent 31 + fb s.flt.coldReq 30 + fb s.flt.dumpReady 29 + fb s.flt.annalsLost 28 + fb s.flt.ignoredWrite 27 + rungField s * 2 ^ 24
    + s.flt.merged * 2 ^ 16 + s.flt.ignoredOffset

/-- ATT_CMD_STATUS (12 Table 12-8). -/
def attCmdStatus (s : State) : Nat := fb s.att.cmdBusy 31 + s.att.cmdDetail % 256 * 2 ^ 16 + s.att.cmdCode.toNat

/-- ATT_MBX_STATUS. -/
def mbxStatus (m : Mbx) : Nat := fb m.rspReady 31 + fb m.busy 30 + (if m.rspReady then m.rsp.length else 0)

/-- LCS_CMD_STATUS (13 Table 13-12). -/
def lcsCmdStatus (s : State) : Nat := fb s.lcs.cmdBusy 31 + fb s.lcs.overrun 30 + s.lcs.code.toNat

/-- LCS_STATE (13 Table 13-13). -/
def lcsState (s : State) : Nat :=
  fb s.lcs.discarded 19 + fb s.lcs.resumed 18 + fb s.lcs.intentPending 17 + fb s.lcs.disagree 16 + s.lcs.scope * 2 ^ 8 + fb s.lcs.debugPending 7
    + fb s.lcs.debug 6 + s.lcs.st

/-! ### Crash dumps (11 R349, R350, Table 11-9) -/

/-- A 64-bit status register as two words. -/
def two (v : Nat) : List Word := [BitVec.ofNat 32 v, BitVec.ofNat 32 (v / 2 ^ 32)]

/-- A 32-bit status register. -/
def one (v : Nat) : List Word := [BitVec.ofNat 32 v]

/-- The status registers of a unit, in offset order, padded to a multiple of 8 bytes (log 68). -/
def unitWords (s : State) (u : Nat) : List Word :=
  let w :=
    if u = 1 then two (imeStatus s) ++ one (regionStatus s)
    else if u = 2 then two (ileStatus s) ++ (lnkPortsOf s).flatMap fun e => one (portState s e) ++ one (portStatus s e)
    else if u = 3 then two (sreStatus s) ++ one s.sre.groupStatus.toNat
    else if u = 4 then two (bceStatus s)
    else if u = 5 then two (keyStatus s) ++ one (geodeStatus s) ++ one (keyCmdStatus s)
    else if u = 6 then
      one (genStatus s) ++ one (startStatus s) ++ one (chrStatus s) ++ one s.gen.irqStatus.toNat ++ one (commitStatus s) ++ one (fltStatus s)
        ++ one (attCmdStatus s) ++ one (mbxStatus s.att.mbxCtl) ++ one (lcsCmdStatus s)
    else if u = 7 then two (hobStatus s) ++ one (hobCmdStatus s)
    else []
  if w.length % 2 = 0 then w else w ++ [0#32]

/-- One pending operation as a dump lists it; the step label is the unit's own number, a free value (log 3). -/
def pendRow (slice context : Option Nat) (master cls label tag ns : Nat) : BitVec 128 :=
  BitVec.ofNat 128 (validField 15 slice + validField 15 context * 2 ^ 16 + master % 256 * 2 ^ 32 + cls % 16 * 2 ^ 40
    + label % 2 ^ 16 * 2 ^ 48 + tag % 2 ^ 32 * 2 ^ 64 + ns / 1000 % 2 ^ 32 * 2 ^ 96)

/-- MASTER of a requester as Table 11-4 codes it. -/
def masterByte (w : Who) : Nat := 128 + w.master % 8 + 8 * (w.world % 4)

/-- The operations a unit holds, oldest first: slice, context, master, class, tag, and since when. -/
def unitPending (s : State) (u : Nat) : List (Option Nat × Option Nat × Nat × Nat × Nat × Nat) :=
  if u = 1 then s.ime.ents.map fun e => (e.who.slice, e.who.context, masterByte e.who, e.cls, e.who.tag, e.entered)
  else if u = 2 then s.ile.orig.map fun o => (o.2.who.slice, o.2.who.context, masterByte o.2.who, o.2.op.cls, o.2.op.tag, o.2.accepted)
  else if u = 3 then
    s.sre.colls.map (fun c => (some c.2.slice, some c.2.context, 128 + 3 + 8 * c.2.world, cdClass c.2.desc, c.1, c.2.started))
      ++ s.sre.launch.map fun l => (some l.slice, some l.context, 128 + 3 + 8 * l.world, 0, l.flight, l.entered)
  else if u = 4 then s.bce.jobs.map fun j => (some j.slice, some j.context, 128 + 4 + 8 * j.world, jdClass j.desc, j.id, j.entered)
  else if u = 7 then
    s.hob.flight.map fun f => (some f.2.slice, some f.2.ctx, 128 + 6 + 8 * f.2.world, crClass f.2.record, crTag f.2.record % 2 ^ 32, f.2.entered)
  else []

/-- Insert by age, the oldest first. -/
def insertOld (x : Option Nat × Option Nat × Nat × Nat × Nat × Nat) :
    List (Option Nat × Option Nat × Nat × Nat × Nat × Nat) → List (Option Nat × Option Nat × Nat × Nat × Nat × Nat)
  | [] => [x]
  | y :: r => if x.2.2.2.2.2 < y.2.2.2.2.2 then x :: y :: r else y :: insertOld x r

/-- A unit's pending rows, up to the 64 oldest, each with a fresh step label. -/
def pendRows (s : State) (u : Nat) : List (BitVec 128) × State :=
  (((unitPending s u).foldl (fun l x => insertOld x l) []).take 64).foldl (fun (a : List (BitVec 128) × State) x =>
    let (v, t) := fresh a.2
    (a.1 ++ [pendRow x.1 x.2.1 x.2.2.1 x.2.2.2.1 v x.2.2.2.2.1 (s.tm.ns - x.2.2.2.2.2)], t)) ([], s)

/-- Whether a unit is missing from the configuration. -/
def unitAbsent (s : State) (u : Nat) : Bool := u == 2 && (lnkPortsOf s).isEmpty

/-- A unit's section. -/
def dumpSec (s : State) (u : Nat) : DumpSec × State :=
  if unitAbsent s u then ({ unit := u, status := 3, words := [], pending := [] }, s)
  else
    let (p, s') := pendRows s u
    ({ unit := u, status := 0, words := unitWords s u, pending := p }, s')

/-- The ten sections, in UNIT order. -/
def dumpSecs (s : State) : List DumpSec × State :=
  (List.range 10).foldl (fun (a : List DumpSec × State) u =>
    let (x, t) := dumpSec a.2 u
    (a.1 ++ [x], t)) ([], s)

/-- A section as bytes; the body of a TRUNCATED unit has been cut already. -/
def secBytes (d : DumpSec) : List Byte :=
  let body := (d.words.flatMap fun w => leBytes 4 w.toNat) ++ d.pending.flatMap fun p => leBytes 16 p.toNat
  leBytes 1 d.unit ++ leBytes 1 d.status ++ zeros 2 ++ leBytes 4 body.length ++ body

/-- A dump as bytes, its CRC over every byte but its own. -/
def dumpBytes (d : Dump) : List Byte :=
  let secs := d.secs.flatMap secBytes
  let head := leBytes 4 0x504D5544 ++ leBytes 1 1 ++ leBytes 1 d.cause ++ leBytes 1 d.cls ++ leBytes 1 d.secs.length ++ leBytes 8 d.time ++ leBytes 4 d.hours
    ++ leBytes 4 d.boot ++ leBytes 4 (0x40 + secs.length) ++ leBytes 4 d.recovery ++ zeros 28
  head ++ leBytes 4 (crc32 (head ++ secs)).toNat ++ secs

/-- A crash dump is taken, unless TAMPERED: it goes to the AON store, its DUMP record is formed, its copy falls due (11 R348 to R351). -/
def takeDump (s : State) (cause cls : Nat) : State :=
  if s.key.tampered then s
  else
    let (secs, s) := dumpSecs s
    let d : Dump := { cause := cause, cls := cls, time := s.tm.aclk, hours := s.flt.hours, boot := s.flash.boot, recovery := s.flt.recovery, secs := secs }
    recordPlain { s with flt := { s.flt with dump := some d, dumpDue := true } } Flc.dump 6 0 0

/-- The AON store's dump is copied to a flash slot, the two used in turn (11 R351). -/
def copyDump (s : State) (flashOk : Bool) : State :=
  match s.flt.dump with
  | none => s
  | some d =>
    if !s.flt.dumpDue then s
    else
      let i := s.flt.dumpNext
      let s := emit { s with flt := { s.flt with dumpDue := false } } (.flashOp "dump slot")
      if flashOk then
        raiseIrq { s with flash := { s.flash with dumps := tput s.flash.dumps i d }, flt := { s.flt with dumpNext := 1 - i, dumpReady := true } } 8
      else flashFail s

end Sys2Proof.Machine
end

