-- ==== Sys2Proof/Machine/Quiesce.lean ====
section
/-!
DEFINITION. What a reset of CORE ends, drains, counts as lost and clears: the work of steps Q2, Q3 and Q6 (11 Table 11-8; 04 R134; 08 R270; 12 R373).
-/
namespace Sys2Proof.Machine

/-! ### Operations a reset ends (11 Table 11-8 Q2) -/

/-- Whether an operation only reads; of the loads of resident lines, those a fetching atomic waits for. -/
def endsAtQuiesce (e : MemEnt) : Bool :=
  match e.kind with
  | .read => true
  | .rawRead => true
  | .cread => true
  | .copyRead => true
  | .resident => match e.src with
    | .remote op _ => op.fetch
    | _ => false
  | _ => false

/-- End every outstanding read with a reason, its data poisoned; a CREAD once for its block. -/
def abortReads (s : State) (c : Code) : State :=
  let s := (s.ime.ents.filter endsAtQuiesce).foldl (fun s e => if e.kind = .cread then dropEnt s e.seq else refuseEnt s e c false true) s
  let gone := s.ime.blks.filter fun b => !b.write
  let s := { s with ime := { s.ime with blks := s.ime.blks.filter fun b => b.write } }
  gone.foldl (fun s b => finishMem s b.src b.port b.cls b.deadline c false (List.replicate b.n (0#576, true))) s

/-- End one originated operation with a reason; a posted one is not answered and stays (11 R357). -/
def abortOrig (s : State) (ix : Nat) (c : Code) : State :=
  match tget s.ile.orig ix with
  | none => s
  | some o =>
    match o.src with
    | .fab ch tag ep mid => if o.posted then s else origFab (freeOrig s ix) o ch tag ep mid c []
    | .host fl => endFlight (freeWhole s ix o) fl 1 c (((tget s.hob.flight fl).map (·.detail)).getD (zeros 32))
    | _ => freeWhole s ix o

/-- End every LOAD, fetching atomic, flagged store and SEND in the origination table, and every SEND that waits for an entry. -/
def abortOrigs (s : State) (c : Code) : State :=
  let s := (s.ile.orig.map (·.1)).foldl (fun s ix => abortOrig s ix c) s
  let q := s.ile.sendq
  q.foldl (fun s p => match p.src with
    | .host fl => endFlight s fl 1 c (leBytes 4 p.bytes.length ++ zeros 28)
    | _ => s) { s with ile := { s.ile with sendq := [] } }

/-- Cuts and jobs end with JOB_ABANDONED, which the host objects unit reports once CORE has left reset (07 R250; 08 R270). -/
def abandonWork (s : State) : State :=
  let s := allJobsEnd (allCutsEnd s Bc.jobAbandoned) Bc.jobAbandoned
  { s with hob := { s.hob with flight := s.hob.flight.map fun x =>
    (x.1, { x.2 with untilCore := x.2.untilCore || (x.2.stage == .ended && x.2.reason == Bc.jobAbandoned) }) } }

/-- Step Q2 begins: cuts and jobs end, held writes and resident lines go out, and what only reads or waits for an answer is ended
(08 R270; 07 R250; 05 R179). -/
def beginDrain (s : State) : State :=
  let s := abandonWork s
  let s := s.ile.resident.foldl (fun s r => writeBack s r none) s
  settle (abortOrigs (abortReads s Rsn.resetAbort) Rsn.resetAbort)

/-! ### Losses (11 Table 11-8 Q2, Q3; 04 R134) -/

/-- Whether an operation is a write that Q2 counts: accepted at FABPORT, taken from the ingress queue, written by an engine, or a resident line. -/
def countsLost (e : MemEnt) : Bool :=
  match e.kind with
  | .write => true
  | .partial_ => true
  | .rawWrite => true
  | .cwrite => true
  | .resident => true
  | .ownWrite => e.src != .own || e.mask == BitVec.allOnes 64
  | _ => false

/-- Q2 is over: writes not acknowledged are lost, each counted at its port; those not yet answered end with RESET_ABORT. -/
def loseWrites (s : State) : State :=
  let s := abortReads s Rsn.resetAbort
  let lost := s.ime.ents.filter countsLost
  let s := { s with flt := { s.flt with
    lossW := (List.range 4).foldl (fun t p => dput 0 t p (lost.filter fun e => e.port == p).length) [], lossC := [] } }
  let s := (lost.filter fun e => !e.answered && e.kind != .cwrite).foldl (fun s e => refuseEnt s e Rsn.resetAbort false false) s
  let gone := s.ime.blks
  let s := gone.foldl (fun s b => finishMem s b.src b.port b.cls b.deadline Rsn.resetAbort false [(0#576, false)]) s
  { s with ime := { s.ime with blks := [], ents := [] } }

/-- Whether a port takes the write-backs of step Q3. -/
def portWrites (s : State) (p : Nat) : Bool :=
  (memPin s p).trained && !(domAt s (domMem p)).inReset && dget 0 s.flt.lossW p == 0

/-- RENEW of the catalogue itself: a sweep of its own lines is to come, from the first on (04 R134; log 149). -/
def renewCatalogue (s : State) : State :=
  { s with ime := { s.ime with catRenew := true, catSt := 2, catPtr := 0, renewed := s.ime.renewed.filter fun x => x.1 != catIx } }

/-- RENEW is set in every P3 region, which is to be swept anew, and in the catalogue. -/
def setRenew (s : State) : State :=
  let s := { s with ime := { s.ime with
    cat := s.ime.cat.map (fun x => if x.2.state ≠ 0 ∧ x.2.mode = 3 then (x.1, { x.2 with renew := true, state := 2, sweepPtr := 0 }) else x),
    renewed := [] } }
  renewCatalogue s

/-- A dirty counter line is lost at its port: memory keeps what it held (04 R134). -/
def dropDirty (s : State) (x : Nat × Nat × CtrLine) : State :=
  match anyRegion s x.1 with
  | none => s
  | some r =>
    let p := memPort s (treeLine s r 0 x.2.1)
    { setCtr s x.1 x.2.1 x.2.2 with flt := { s.flt with lossC := dput 0 s.flt.lossC p (dget 0 s.flt.lossC p + 1) } }

/-- Step Q3: each dirty counter line is written back with its parents, or lost where its port cannot take it: memory then keeps what it
held. The write-backs are issued and acknowledged within the step (log 69). -/
def flushCounters (s : State) : State :=
  let s := s.ime.dirty.foldl (fun s x =>
    match anyRegion s x.1 with
    | none => s
    | some r =>
      let p := memPort s (treeLine s r 0 x.2.1)
      if portWrites s p then writeCtr s x.1 r x.2.1 (shelveClass s)
      else dropDirty s x) s
  let s := s.ime.ents.foldl (fun s e => emit s (.memCmd e.port true e.line 0 (epochOf s (domMem e.port)) e.cls e.stored)) s
  let s := { s with ime := { s.ime with ents := [], dirty := [], cached := [] } }
  let n := (s.flt.lossC.map (·.2)).sum
  if n = 0 then s else setRenew { s with ime := { s.ime with lostCounters := min 0xFFFFFFFF (s.ime.lostCounters + n) } }

/-- One LOSS record for each port that lost writes or counter lines. -/
def recordLoss (s : State) : State :=
  (memPortsOf s).foldl (fun s p =>
    let w := dget 0 s.flt.lossW p
    let c := dget 0 s.flt.lossC p
    if w = 0 ∧ c = 0 then s else record s Flc.loss 1 p 0 0#8 none (w + c * 2 ^ 32)) s

/-! ### CORE cleared (01 Table 1-8) -/

/-- What the ILE loses: its tables and queues, its CORE registers, what VCs held. Port sessions stay with their domains. -/
def clearIle (s : State) : State :=
  let posted := s.ile.orig.any (fun o => o.2.posted) || s.ile.heldOut.any fun h => h.posted
  let s := (s.ile.orig.map (·.1)).foldl freeOrig s
  let port := fun (p : LPort) =>
    { p with rekeyCtrl := if forerunner s then 0x20#32 else 0x28#32, shape := none, shadow := none, txq := [], deficit := [], held := [],
             freed := p.held.foldl (fun t x => dput 0 t x.1 (dget 0 t x.1 + x.2)) p.freed }
  { s with ile := { Ile.reset with
    ports := s.ile.ports.map (fun x => (x.1, port x.2)), issue := s.ile.issue, cals := s.ile.cals, nextMsg := s.ile.nextMsg,
    postedLost := s.ile.postedLost || posted } }

/-- What the IME loses: queues, caches and CORE registers; the catalogue and the trees stand in memory and the root store. -/
def clearIme (s : State) : State :=
  { s with ime := { Ime.reset with
    formatted := s.ime.formatted, formatDue := s.ime.formatDue, createLimit := s.ime.createLimit, formatEpoch := s.ime.formatEpoch,
    cat := s.ime.cat, roots := s.ime.roots, ctr := s.ime.ctr, node := s.ime.node, seq := s.ime.seq, cals := s.ime.cals,
    catSt := s.ime.catSt, catPtr := s.ime.catPtr, catRenew := s.ime.catRenew,
    lostCounters := s.ime.lostCounters, renewed := s.ime.renewed } }

/-- Key services without the vault array: caches, the DRBG, the scrambling key and the CORE registers (03 R98, R99). -/
def clearKey (s : State) : State :=
  { s with key := { s.key with
    kill := { s.key.kill with scramble := none }, dkc := [], missq := [], drbgUp := false, drbgReqs := 0, reseedDue := false, retries := 0,
    seedWait := 0, cmdAddr := 0#64, cmdShelf := 0#32, cmdArg := 0#64, cmdBusy := false, cmdResult := 0#8, slotSel := 0#32, genWait := none } }

/-- Every collective and waiting launch is lost, and sends nothing (06 R225). -/
def clearSre (s : State) : State :=
  let s := s.sre.colls.foldl (fun s x => endFlight s x.2.flight 1 Rsn.resetAbort (zeros 32)) s
  let s := s.sre.launch.foldl (fun s l => endFlight s l.flight 1 Rsn.resetAbort (zeros 32)) s
  { s with sre := { Sre.reset with groups := s.sre.groups, floor := s.sre.floor } }

/-- A load under way is abandoned with a code; a slot it was writing does not check (02 R54, R62). -/
def chrDrop (s : State) (c : Code) : State :=
  match s.gen.load with
  | some l => chrAbandon { s with flash := { s.flash with slots := tdel s.flash.slots l.slot } } c
  | none => chrAbandon s c

/-- The GEN_ registers of CORE (15 Table 15-2). -/
def clearGen (s : State) : State :=
  { s with gen := { s.gen with
    ready := false, c10Done := false, c12Done := false, chrBase := 0#64, chrShelf := 0#32, chrLen := 0#32, chrWindow := [], load := none,
    funcStop := 0#32, funcHeld := 0#32, funcState := 0#32, commitCode := 0#8, commitPair := 0, commitPort := 0, portSel := 0#32 } }

/-- Step Q6 for CORE: its state is lost (01 Table 1-8, R25). -/
def coreClear (s : State) : State :=
  let s := if s.hob.cmdWait.isSome then hobEnd { s with hob := { s.hob with cmdWait := none } } Rsn.resetAbort 0 else s
  let s := clearSre s
  let s := clearGen (chrDrop s Chr.abandoned)
  let s := clearKey (clearIme (clearIle s))
  { s with
    lane := { s.lane with vacant := [], lent := [], ctx := [] }
    qos := Qos.reset
    bce := { Bce.reset with nextJob := s.bce.nextJob } }

/-! ### Continuity (11 R353; 12 R373) -/

/-- The CONTINUITY block at step Q7: `ev` 1 a CORE warm reset, 2 a block warm recovery. -/
def continuity (s : State) (ev : Nat) (held : List Bool) : State :=
  let cont := (memPortsOf s).foldl (fun t p =>
    let c := dget {} t p
    let w := dget 0 s.flt.lossW p
    let k := dget 0 s.flt.lossC p
    let h := ev == 1 || held.getD p true
    dput {} t p { c with srHeld := h, lastW := w, lastC := k, totalW := min 0xFFFFFFFF (c.totalW + w), totalC := min 0xFFFFFFFF (c.totalC + k),
                         breaks := c.breaks + b2n (!h) }) s.att.cont
  { s with att := { s.att with contEvent := ev, contTime := s.tm.aclk, cont := cont } }

end Sys2Proof.Machine
end

