-- ==== Sys2Proof/Machine/Measure.lean ====
section
/-!
DEFINITION. The measurement blocks of the attestation signer, and their values kept while the block is TAMPERED or stopped in HALT or SCRAP (12 R365 to R374).
-/
namespace Sys2Proof.Machine

/-- KEYSTATE (12 Table 12-3), the first that holds in this order: TAMPERED, GEODE_FAIL, NO_IDENTITY_YET, BEDROCK_FAIL, BEDROCK_ABSENT, DRBG_FAIL
(log 74). -/
def keyState (s : State) : Nat :=
  if s.key.tampered then 3
  else if s.key.geodeFail then 2
  else if (identity s).isNone then 1
  else if s.key.bedrockFail then 4
  else if s.key.bedrockAbsent then 5
  else if s.key.drbgFail then 6
  else 0

/-- Whether any firmware component or a GLOBAL section is staged (12 R372). -/
def updating (s : State) : Bool := !s.att.fwStg.isEmpty || s.gen.chrStaged

/-- A body of the GLOBAL section that is staged. -/
def stagedGlob (s : State) : List Byte := if s.gen.chrStaged then (secBody s 1).getD [] else []

/-- The appointment held. -/
def appointment (s : State) : List Byte := s.flash.appoint.getD []

/-- HARDWARE. -/
def blkHardware (s : State) : List Byte :=
  leBytes 8 (serialOf s.fuse.shadow) ++ leBytes 8 (instId s) ++ leBytes 4 s.cfg.configId.toNat ++ leBytes 4 s.cfg.hwRev.toNat
    ++ leBytes 1 s.cfg.lanes ++ leBytes 1 s.cfg.sreLog2 ++ leBytes 1 s.cfg.memPorts ++ leBytes 1 s.cfg.lnkPorts ++ leBytes 1 s.cfg.d2dPorts ++ zeros 3

/-- MODE. -/
def blkMode (s : State) : List Byte :=
  leBytes 1 s.lcs.st
    ++ leBytes 1 (b2n s.lcs.debug + 2 * b2n s.gen.strap + 4 * b2n (forerunner s) + 8 * b2n (bit (globCtl s) 2) + 16 * b2n (updating s)
        + 32 * b2n (coreDown s) + 64 * b2n s.gen.unchartered + 128 * b2n s.gen.chrBusy)
    ++ leBytes 1 (keyState s) ++ leBytes 1 (rungField s) ++ zeros 4

/-- CHARTER; zero while no slot is in use. -/
def blkCharter (s : State) : List Byte :=
  match s.gen.charter with
  | some c => shaBytes (mergedImage c)
  | none => zeros 48

/-- POLICY. -/
def blkPolicy (s : State) : List Byte :=
  let g := stagedGlob s
  padTo 16 (s.gen.glob.take 16) ++ leBytes 8 (chrSeq s) ++ leBytes 1 (floorCount s.fuse.shadow) ++ leBytes 1 (b2n s.gen.chrStaged) ++ zeros 2
    ++ leBytes 4 (fld g 0 4) ++ leBytes 4 (fld g 4 4) ++ zeros 4 ++ leBytes 8 (fld g 8 8) ++ zeros 16

/-- FIRMWARE0 to FIRMWARE3. -/
def blkFirmware (s : State) (c : Nat) : List Byte := ((tget s.att.fwCur c).map (·.digest)).getD (zeros 48)

/-- STAGED. -/
def blkStaged (s : State) : List Byte :=
  (List.range 4).flatMap fun c =>
    let cur := tget s.att.fwCur c
    let stg := tget s.att.fwStg c
    leBytes 1 (b2n cur.isSome + 2 * b2n stg.isSome) ++ zeros 3 ++ leBytes 4 ((cur.map (·.version)).getD 0) ++ leBytes 4 ((stg.map (·.version)).getD 0)
      ++ zeros 4 ++ (stg.map (·.digest)).getD (zeros 48)

/-- EPOCHS. -/
def blkEpochs (s : State) : List Byte :=
  leBytes 4 s.flash.boot ++ leBytes 4 s.flt.recovery ++ leBytes 4 s.flt.coreResets ++ zeros 4 ++ (List.range 26).flatMap fun d => leBytes 4 (epochOf s d).toNat

/-- CONTINUOUS (12 R374). -/
def continuous (s : State) : Bool :=
  (memPortsOf s).all fun p =>
    let c := dget {} s.att.cont p
    c.totalW == 0 && c.totalC == 0 && c.breaks == 0

/-- CONTINUITY (12 Table 12-5). -/
def blkContinuity (s : State) : List Byte :=
  leBytes 1 1 ++ leBytes 1 (b2n (continuous s) + 2 * s.att.contEvent) ++ zeros 2 ++ leBytes 4 s.flash.boot ++ leBytes 4 s.flt.recovery ++ leBytes 4 s.flt.coreResets
    ++ leBytes 8 s.att.contTime ++ zeros 8
    ++ (List.range 4).flatMap fun p =>
      let c := dget {} s.att.cont p
      leBytes 1 (b2n (memPresent s p) + 2 * b2n c.srHeld) ++ zeros 3 ++ leBytes 4 c.lastW ++ leBytes 4 c.lastC ++ leBytes 4 c.totalW ++ leBytes 4 c.totalC
        ++ leBytes 4 c.breaks ++ leBytes 4 c.resets ++ zeros 4

/-- DOMAIN. -/
def blkDomain (s : State) : List Byte :=
  let a := appointment s
  leBytes 8 (fld a 8 8) ++ leBytes 1 (roleOf s) ++ leBytes 1 (b2n s.att.locked + 2 * b2n s.att.listed) ++ leBytes 2 (if s.att.listed then s.att.member else 0)
    ++ leBytes 4 (fld a 0x10 4) ++ leBytes 4 s.att.rosterEpoch ++ leBytes 4 s.att.rekeyEpoch ++ leBytes 8 (fld a 0x18 8) ++ leBytes 1 s.att.admitted.length ++ zeros 7
    ++ (shaBytes s.att.admitted.flatten).take 16 ++ zeros 8

/-- P0. -/
def blkP0 (s : State) : List Byte :=
  let l := s.ime.cat.filter fun x => x.2.state != 0 && x.2.mode == 0
  leBytes 4 l.length ++ zeros 4 ++ leBytes 64 (((List.range 512).filter fun t => l.any fun x => x.1 / 4096 == t).map (2 ^ ·)).sum

/-- KEYS. -/
def blkKeys (s : State) : List Byte :=
  let key := fun (o : Option (BitVec 768)) => (o.map bytes96).getD (zeros 96)
  let e := s.flash.endorse.getD (zeros 112)
  key s.key.idPub ++ key s.key.kexPub ++ e.take 1 ++ zeros 15 ++ slice e 16 96

/-- FAULTS. -/
def blkFaults (s : State) : List Byte :=
  leBytes 2 s.flash.standing.length ++ leBytes 1 ((List.range s.cfg.lanes).filter fun i => (laneAt s i).st == .fenced).length
    ++ leBytes 1 (b2n s.flt.permanent + 2 * b2n s.flt.annalsLost) ++ leBytes 4 s.flt.hours ++ zeros 8

/-- The slot of an IDE stream (12 R387). -/
def ideSlot (k : Nat) : Nat := 36 + k

/-- A stream's state: 0 closed, 1 current, 2 current and staged. -/
def ideState (s : State) (k : Nat) : Nat :=
  match slotAt s (ideSlot k) with
  | none => 0
  | some v => if v.staged.isSome then 2 else 1

/-- IDE. -/
def blkIde (s : State) : List Byte :=
  (match s.att.ideRecv with | some r => (shaBytes (bytes96 r)).take 16 | none => zeros 16)
    ++ (List.range 28).flatMap fun k =>
      let v := tget s.att.ide k
      leBytes 1 ((v.map (·.streamId)).getD 0) ++ leBytes 1 (ideState s k) ++ leBytes 1 ((v.map (·.keySet)).getD 0) ++ zeros 1

/-- The value of a measurement block as the units have it now (12 Table 12-2). -/
def blkNow (s : State) (i : Nat) : List Byte :=
  if i = 1 then blkHardware s else if i = 2 then blkMode s else if i = 3 then blkCharter s else if i = 4 then blkPolicy s
  else if i ≤ 8 then blkFirmware s (i - 5)
  else if i = 9 then blkStaged s else if i = 10 then blkEpochs s else if i = 11 then blkContinuity s else if i = 12 then blkDomain s
  else if i = 13 then blkP0 s else if i = 14 then blkKeys s else if i = 15 then blkFaults s else blkIde s

/-- The measurement values stop changing, MODE excepted, when TAMPERED or HALT begins (12 R370). -/
def freeze (s : State) : State :=
  if s.att.frozen.isSome then s else { s with att := { s.att with frozen := some ((List.range 17).map (blkNow s)) } }

/-- The value of a measurement block as the signer reports it. -/
def blkValue (s : State) (i : Nat) : List Byte :=
  match s.att.frozen with
  | some l => if i = 2 then blkMode s else l.getD i []
  | none => blkNow s i

/-- The value type of a block (12 Table 12-2). -/
def blkType (i : Nat) : Nat :=
  if i = 1 then 0x82 else if i = 2 then 0x85 else if i = 3 then 0x03 else if i = 4 then 0x83 else if i ≤ 8 then 0x01 else 0x84

end Sys2Proof.Machine
end

