-- ==== Sys2Proof/Machine/Start.lean ====
section
/-!
DEFINITION. Power, the cold start, READY, tamper zeroisation, and clocks lost and returned (02 R66 to R69; 03 R103 to R105; 01 R36; 14 R418).
-/
namespace Sys2Proof.Machine

/-! ### Rung 4 of Table 11-7 (11 R347) -/

/-- The block at rung 4: its dump is taken and copied, COLDREQ rises, and every domain but AON stops. A charter load under way stands still: the cold
start that follows reports it abandoned (02 R62). -/
def coldStop (s : State) (cls : Nat) (flashOk : Bool) : State :=
  let s := copyDump (takeDump s 4 cls) flashOk
  let s := (List.range 26).foldl enterReset s
  { s with
    pin := { s.pin with coldreq := true }
    flt := { s.flt with coldReq := true }
    gen := { s.gen with ready := false, released := false } }

/-! ### Cold start (02 Table 2-11) -/

/-- Step C3's settling of life cycle, debug and roots (13 R396, R408; 03 R76, R81). -/
def stepC3 (s : State) : State := settleBedrock (settleSlate (settleDebug (takeDecode s (decodeLcs s.fuse.shadow))))

/-- GEN_START_STATUS as step C3 sets it (15 R458). -/
def startFlags (s : State) (last : Nat) : State :=
  { s with gen := { s.gen with
    lastStart := last, startDrbg := false, startUnch := false, startBedFail := s.key.bedrockFail, startBedAbsent := s.key.bedrockAbsent,
    startGeode := s.key.geodeFail } }

/-- Whether the life-cycle state ends the start: HALT or SCRAP (02 R67). -/
def stopsAtC3 (s : State) : Bool := s.lcs.st == 5 || s.lcs.st == 7

/-- The start stops; CORE and HOST stay in reset, and the measurement values with MODE excepted stay as they are (02 R67; 12 R370). -/
def haltStart (s : State) : State := { (List.range 26).foldl enterReset (freeze s) with gen := { s.gen with halted := true, released := false, ready := false } }

/-- The ACTION of a domain's reset (11 Table 11-4). -/
def domAction (d : Nat) : Nat := if d = 0 then 7 else if d = 1 then 6 else 5

/-- Steps C8 to C11 of a cold start or a block warm recovery. -/
def stepsC8 (s : State) (bad : List Nat) : State :=
  let s := selectSlot s
  let s := { s with gen := { s.gen with startUnch := s.gen.unchartered } }
  releasePorts (chooseLanes (applyGlobal s) bad)

/-- BOOT counts a cold start once the die is enrolled (11 Table 11-4). -/
def countBoot (s : State) (flashOk : Bool) : State :=
  if s.flash.helper.isNone then s
  else
    let s := emit s (.flashOp "boot count")
    if flashOk then { s with flash := { s.flash with boot := s.flash.boot + 1 } } else flashFail s

/-- A cold start that finds TMP_ZEROIZE_N low enters TAMPERED at step C3 with nothing left to overwrite (03 R105). -/
def tamperAtC3 (s : State) : State :=
  if s.pin.tmpHigh then s
  else recordPlain { freeze s with key := { s.key with tampered := true, killed := true, zeroised := true } } Flc.tamper 6 0 0

/-- Steps C1 to C3. -/
def stepsC1 (s : State) (e : StartIn) : State :=
  let s := { s with
    pin := { s.pin with pwrok := true, tmpHigh := e.tmpHigh, flPart := e.flPart }
    tm := { ns := 640, aclk := 64 }
    flt := { s.flt with hours := s.flash.hours }
    fuse := { s.fuse with shadow := s.fuse.blown }
    dom := { s.dom with d := (List.range 26).map fun i =>
      (i, ({ inReset := true, epoch := 1#32, clockLost := (i == 0 && e.cclkMhz == 0#12) || (i == 1 && !e.hclk) } : Dom)) }
    gen := { s.gen with strap := e.frCompat, cclkMhz := e.cclkMhz, cclkValid := e.cclkMhz != 0#12 } }
  startFlags (stepC3 (tamperAtC3 s)) 1

/-- Whether CCLK or HCLK is lost. -/
def clocksLost (s : State) : Bool := (domAt s 0).clockLost || (domAt s 1).clockLost

/-- Step C5 is over, and C7 to C11 follow. Releasing CORE and HOST leaves their epochs at 1 (01 R39; log 70). -/
def stepsC7 (s : State) (e : StartIn) : State :=
  let s := exitReset (exitReset s 0) 1
  let s := { s with gen := { s.gen with released := true, c5Wait := none } }
  stepsC8 (rebuildAcc (rebuildFence (countBoot s (!e.flashFails)))) e.badLanes

/-- Step C5, once C4 has let the start go on: a clock found missing is recorded as lost, and the start waits for it (01 R36; 02 R66). -/
def stepsC5 (s : State) (e : StartIn) : State :=
  if clocksLost s then
    let s := [0, 1].foldl (fun s d => if (domAt s d).clockLost then recordPlain s Flc.clockLost 8 d (domAction d) else s) s
    { s with gen := { s.gen with c5Wait := some e } }
  else stepsC7 s e

/-- POWER_GOOD: steps C1 to C5 and C7 to C11; C6, C12 and C13 are commands of their own (02 R66; log 71). -/
def powerGood (s : State) (e : StartIn) : State :=
  if s.pin.pwrok then s
  else
    let s := stepsC1 s e
    if stopsAtC3 s then haltStart s
    else
      let (r, s) := stepC4 (rebuildAcc s) true e
      match r with
      | .cold => coldStop s 0xFF (!e.flashFails)
      | .goOn => if stopsAtC3 s then haltStart s else stepsC5 s e

/-- COLD_POWER_LOSS: only fuses and flash stay; a slot write under way does not check, and the load is reported abandoned (14 R418; 02 R62). -/
def coldPowerLoss (s : State) : State :=
  if !s.pin.pwrok then s
  else
    let flash := match s.gen.load with
      | some l => { s.flash with slots := tdel s.flash.slots l.slot }
      | none => s.flash
    { State.reset with
      cfg := s.cfg, flash := flash, fuse := { s.fuse with shadow := 0#8192 }, pending := s.pending, freeIx := s.freeIx, out := s.out ++ [.outputsReset]
      gen := { Gen.reset with chrCode := if s.gen.chrBusy then Chr.abandoned else 0#8 } }

/-- Whether every memory port with a lane group has trained. -/
def portsTrained (s : State) : Bool := (memPortsOf s).all fun p => charteredSize s p == 0 || (memPin s p).trained

/-- START_READY: step C13. It ends a block warm recovery (11 Table 11-7). -/
def startReady (s : State) : State :=
  if !s.pin.pwrok || !s.gen.released || s.gen.halted || !s.gen.c10Done || !s.gen.c12Done || s.gen.ready || coreDown s || s.flt.coldReq || !portsTrained s then s
  else
    let s := { s with gen := { s.gen with ready := true } }
    if (s.flt.running.any fun r => r.rung == 4 && r.phase == .restart) then
      endRung { s with dom := { s.dom with aclkWait := false } } 4 0
    else s

/-! ### Tamper (03 R103 to R105; 05 R193) -/

/-- Every fabric operation in the table completes with TAMPERED. -/
def tamperOrigs (s : State) : State :=
  let posted := s.ile.orig.filter fun o => o.2.posted
  let s := abortOrigs s Rsn.tampered
  posted.foldl (fun s x => match x.2.src with
    | .fab ch tag ep mid => origFab (freeOrig s x.1) x.2 ch tag ep mid Rsn.tampered []
    | _ => freeOrig s x.1) s

/-- Every memory operation whose line is not already at its controller completes with TAMPERED; own traffic ends. -/
def tamperEnts (s : State) : State :=
  let s := abortReads s Rsn.tampered
  let gone := s.ime.ents.filter fun e => e.phase != .writeOut
  let s := (gone.filter fun e => e.kind != .cwrite && !e.answered).foldl (fun s e => refuseEnt s e Rsn.tampered false false) s
  let blks := s.ime.blks
  let s := { s with ime := { s.ime with blks := [], ents := s.ime.ents.filter fun e => e.phase == .writeOut } }
  blks.foldl (fun s b => finishMem s b.src b.port b.cls b.deadline Rsn.tampered false [(0#576, false)]) s

/-- An attestation command and a transition that wait for random numbers end: none will be served (03 R104, R105). -/
def tamperWaits (s : State) : State :=
  let s := if s.att.wait.isNone then s
    else raiseIrq { s with att := { s.att with wait := none, cmdBusy := false, cmdCode := Rsn.tampered, cmdDetail := 0 } } 6
  if s.lcs.act.any fun a => a.bits.isEmpty then
    raiseIrq { s with lcs := { s.lcs with act := none, cmdBusy := false, code := Rsn.drbgFail } } 7
  else s

/-- The CORE side of the sequence: collectives, jobs, cuts, operations and a waiting key command end; caches and the DRBG are overwritten. -/
def tamperCore (s : State) : State :=
  let s := sreTamper s
  let s := s.sre.launch.foldl (fun s l => endFlight s l.flight 1 Rsn.tampered (zeros 32)) s
  let s := { s with sre := { s.sre with launch := [], eab := [] } }
  let s := allJobsEnd (allCutsEnd s Rsn.tampered) Rsn.tampered
  let s := tamperEnts (tamperOrigs s)
  let s := tamperWaits (if s.key.genWait.isSome then keyEnd s Kc.tampered else s)
  { s with
    key := { s.key with dkc := [], missq := [], drbgUp := false, retries := 0, seedWait := 0 }
    lane := { s.lane with ctx := [] }
    ile := { s.ile with resident := [] }
    att := { s.att with ide := [], ideRecv := none } }

/-- TAMPER_ZEROISE: the kill bank falls at once; the first time, the whole sequence follows (03 Table 3-17). Once TAMPERED, only the kill
bank is cleared again. While CCLK is lost CORE's overwrites wait, while ACLK is lost those of the vault array, and with them ZEROISED (03 R104). -/
def tamperZeroise (s : State) (vaultClean : Bool) : State :=
  if !s.pin.pwrok then s
  else
    let s := { s with
      pin := { s.pin with tmpHigh := false }
      key := { s.key with kill := KillBank.empty, killed := true } }
    if s.key.tampered then s
    else
      let wait := (domAt s 0).clockLost || s.dom.aclkLost
      let s := chrDrop { freeze s with key := { s.key with tampered := true } } Rsn.tampered
      let s := tamperCore s
      let s := { s with key := { s.key with slots := if s.dom.aclkLost then s.key.slots else [], zeroised := !wait, coreWipeDue := wait } }
      let s := (lnkPortsOf s).foldl (fun s e => portDown (setLnkPin s e { lnkPin s e with en := false }) e) s
      let s := recordPlain s Flc.tamper 6 0 0
      if vaultClean then s else recordPlain s Flc.zeroiseVerify 5 0 0

/-! ### Clocks (01 R36) -/

/-- A memory port falls into reset: MEM_INIT falls, training and window are lost (14 R432, R434). -/
def memPortIn (s : State) (p : Nat) : State :=
  let v := memPin s p
  let s := setMemPin (enterReset s (domMem p)) p { v with init := false, trained := false, calGnt := false, calSeenLow := !v.calReq }
  returnLanes { s with ime := { s.ime with cals := s.ime.cals.filter fun c => c.port != p } } p

/-- A link or D2D port falls into reset: DOWN, session gone, LNK_EN low (05 R155; 14 R436). -/
def lnkPortIn (s : State) (e : Nat) : State :=
  let v := lnkPin s e
  let s := setLnkPin (enterReset s (domLnk e)) e { v with en := false, up := false, calGnt := false, calSeenLow := !v.calReq }
  let s := portDown s e
  setLport s e { lportAt s e with resetAsked := false }

/-- The reset of one port by itself: a port that holds in FAILED stays there (05 R159). -/
def lnkPortInOnly (s : State) (e : Nat) : State :=
  if failHeld s e then setLport (lnkPortIn s e) e { lportAt s e with st := .failed } else lnkPortIn s e

/-- Any port's reset, by its QOS_STAT_SEL.PORT code. -/
def portIn (s : State) (q : Nat) : State := if q < 4 then memPortIn s q else lnkPortInOnly s (q - 4)

/-- The tables of the host objects unit are emptied; commands dispatched before are orphans; the slice map is the charter's (09 R305). -/
def hostClear (s : State) : State :=
  let orphans := s.hob.orphans + (s.hob.flight.filter fun f => f.2.stage == .dispatched && crOp f.2.record != 5).length
  let s := { s with
    hob := { Hob.reset with orphans := orphans, nextFlight := s.hob.nextFlight }
    gen := { s.gen with irqStatus := 0#32, verSel := 0#32, wlatch := [], rlatch := [] } }
  chrFinish s

/-- The host command an operation acts for. -/
def hostOf : OrigSrc → Option Nat
  | .host fl => some fl
  | _ => none

/-- CORE stops without a quiesce, as when its clock is lost: nothing is answered at FABPORT, and unwritten counters and writes are lost. -/
def coreVanish (s : State) : State :=
  let s : State := abandonWork s
  let lost : List MemEnt := s.ime.ents.filter countsLost
  let s : State := { s with flt := { s.flt with
    lossW := (List.range 4).foldl (fun t p => dput 0 t p (lost.filter fun e => e.port == p).length) [], lossC := [] } }
  let s : State := s.ime.dirty.foldl dropDirty s
  let n := (s.flt.lossC.map (·.2)).sum
  let hosts : List Nat := (s.ile.orig.filterMap fun o => hostOf o.2.src) ++ s.ile.sendq.filterMap fun p => hostOf p.src
  let s : State := hosts.dedup.foldl (fun s fl => endFlight s fl 1 Rsn.resetAbort (((tget s.hob.flight fl).map (·.detail)).getD (zeros 32))) s
  let s : State := { s with ime := { s.ime with ents := [], blks := [], dirty := [], cached := [], lostCounters := min 0xFFFFFFFF (s.ime.lostCounters + n) } }
  coreClear (recordLoss (if n = 0 then s else setRenew s))

/-- A domain that has left reset before is reset: its next exit increments its epoch (01 R39). -/
def resetDom (s : State) (d : Nat) : State := setDom s d { domAt s d with inReset := true, first := false }

/-- Port resets that waited for CORE start (11 R346), and port domains that waited for it leave reset (01 R38). -/
def portsFollow (s : State) : State :=
  let w := s.flt.portWait
  releaseWaiting (w.foldl (fun s x => startRung s 1 x.1 x.2) { s with flt := { s.flt with portWait := [] } })

/-- CORE restarts as after a CORE warm reset: C8, C10 and the credits of its ports (02 Table 2-12). -/
def coreRestart (s : State) (bad : List Nat) : State :=
  let s := chooseLanes (selectSlot (exitReset (resetDom s 0) 0)) bad
  let s := (presentPorts s).foldl startCredits s
  { s with gen := { s.gen with lastStart := 3 } }

/-- A domain whose clock is lost is reset. -/
def clockReset (s : State) (d : Nat) : State :=
  if d = 0 then enterReset (coreVanish s) 0
  else if d = 1 then enterReset (hostClear s) 1
  else portIn s (d - 2)

/-- CLOCK_LOST: the domain is held in reset until its clock returns; the loss is recorded. A reset of a domain whose epoch is at its end asks for a
cold start (01 R36, R39). Before the domains are released, or at rung 4, there is nothing more to reset. -/
def clockLost (s : State) (d : Nat) : State :=
  if !s.pin.pwrok || 26 ≤ d || (2 ≤ d && !portPresent s (d - 2)) || (domAt s d).clockLost then s
  else
    let s := recordPlain s Flc.clockLost 8 d (domAction d)
    let s := setDom s d { domAt s d with clockLost := true }
    let s := if d = 0 then { s with gen := { s.gen with cclkValid := false } } else s
    if !s.gen.released || s.flt.coldReq then s
    else
      let s := clockReset s d
      if epochOf s d = 0xFFFFFFFF#32 then startRung s 5 0 Flc.clockLost else s

/-- The overwrites that a tamper left for CORE or AON to do (03 R104). -/
def lateWipe (s : State) : State :=
  if s.key.coreWipeDue && !(domAt s 0).clockLost && !s.dom.aclkLost then
    { s with key := { s.key with slots := [], coreWipeDue := false, zeroised := true } }
  else s

/-- ACLK_LOST: CORE stops taking requests until a block warm recovery after the return; location 26 stands for ACLK (log 72). -/
def aclkLost (s : State) : State :=
  if !s.gen.released || coreDown s || s.dom.aclkLost then s
  else
    let s := recordPlain s Flc.clockLost 8 26 8
    { s with dom := { s.dom with aclkLost := true, aclkWait := true } }

/-- ACLK_RETURN: the block warm recovery that CORE waits for starts (01 R36; 11 Table 11-7). -/
def aclkReturn (s : State) : State :=
  if !s.pin.pwrok || !s.dom.aclkLost then s else startRung (lateWipe { s with dom := { s.dom with aclkLost := false } }) 4 0 Flc.clockLost

/-! ### The commands -/

/-- POWER_GOOD (02 R66). -/
def execPowerGood (e : StartIn) (s : State) : Host.Outcome State Fault Refusal := .next (powerGood s e)

/-- COLD_POWER_LOSS (14 R418). -/
def execColdPowerLoss (s : State) : Host.Outcome State Fault Refusal := .next (coldPowerLoss s)

/-- START_READY (02 R66). -/
def execStartReady (s : State) : Host.Outcome State Fault Refusal := .next (startReady s)

/-- TAMPER_ZEROISE (03 R103). -/
def execTamperZeroise (vaultClean : Bool) (s : State) : Host.Outcome State Fault Refusal := .next (tamperZeroise s vaultClean)

/-- CLOCK_LOST (01 R36). -/
def execClockLost (domain : Nat) (s : State) : Host.Outcome State Fault Refusal := .next (clockLost s domain)

/-- ACLK_LOST (01 R36). -/
def execAclkLost (s : State) : Host.Outcome State Fault Refusal := .next (aclkLost s)

/-- ACLK_RETURN (01 R36). -/
def execAclkReturn (s : State) : Host.Outcome State Fault Refusal := .next (aclkReturn s)

end Sys2Proof.Machine
end

