-- ==== Sys2Proof/Machine/Reset.lean ====
section
/-!
DEFINITION. The reset rungs and their steps, watchdogs, crash dumps, the annals logger and the flash grant (11 R339 to R356; 14 R432, R433, R442).
-/
namespace Sys2Proof.Machine

/-- The reset in progress of a rung and port, in a phase. -/
def runAt (s : State) (rung port : Nat) (ph : RstPhase) : Option Running :=
  s.flt.running.find? fun r => r.rung == rung && (rung != 1 || r.port == port) && r.phase == ph

/-- Move a reset in progress on. -/
def setPhase (s : State) (rung port : Nat) (ph : RstPhase) (e : StartIn) : State :=
  { s with flt := { s.flt with running := s.flt.running.map fun r =>
    if r.rung = rung ∧ (rung ≠ 1 ∨ r.port = port) then { r with phase := ph, start := e, drainBy := if ph = .drain then drainDue s else r.drainBy } else r } }

/-- A rung's command stands for a request where none is in progress (11 R342). -/
def requestRung (s : State) (rung port : Nat) : State := if isRunning s rung port then s else startRung s rung port 0xFF

/-! ### Rung 1 (11 R344; 05 R165) -/

/-- What a controller had not answered is issued again, in acceptance order, a write with the 72 bytes it carried (11 R344). -/
def reissue (s : State) (p : Nat) : State :=
  { s with
    ime := { s.ime with ents := s.ime.ents.map fun e =>
      if e.port = p ∧ e.phase = .readOut then { e with phase := .ready }
      else if e.port = p ∧ e.phase = .writeOut then { e with phase := .writeReady } else e }
    att := { s.att with cont := dput {} s.att.cont p { dget {} s.att.cont p with resets := min 0xFFFFFFFF ((dget {} s.att.cont p).resets + 1) } } }

/-- PORT_RESET: the port goes through reset; the controller's training, or HELLO, completes it. While CORE is in reset it waits (11 R346), and a port
whose clock is lost, or of a block without a charter, stays in reset until it may leave (01 R36, R38; 02 R56). -/
def portReset (s : State) (q : Nat) : State :=
  if !s.gen.released || !portPresent s q || s.flt.coldReq then s
  else
    let s := requestRung s 1 q
    match runAt s 1 q .requested with
    | none => s
    | some r =>
      let s := setPhase s 1 q .restart r.start
      let s := portOut (portIn s q) q
      if q < 4 then reissue s q else s

/-! ### Rung 1H (09 R305) -/

/-- HOST_RESET. -/
def hostReset (s : State) : State :=
  if !s.gen.released || s.flt.coldReq || (domAt s 1).clockLost then s
  else
    let s := requestRung s 2 0
    match runAt s 2 0 .requested with
    | none => s
    | some _ => endRung (exitReset (resetDom (hostClear s) 1) 1) 2 0

/-! ### Rungs 2 and 3 (11 Table 11-8) -/

/-- Step Q7 of a CORE warm reset: CORE restarts, and the ports follow (01 R38; 11 R346). -/
def coreResume (s : State) (bad : List Nat) : State :=
  let s := coreRestart s bad
  let s := continuity { s with flt := { s.flt with coreResets := s.flt.coreResets + 1 } } 1 []
  portsFollow (endRung (recordPlain s Flc.recovery 6 0 7) 3 0)

/-- Steps Q5 to Q7 of a CORE warm reset. While CORE's clock is lost the reset holds until it returns (01 R36). -/
def coreReset (s : State) (r : Running) : State :=
  let s := coreClear (takeDump s 2 r.cls)
  if (domAt s 0).clockLost then setPhase (resetDom s 0) 3 0 .restart r.start else coreResume s r.start.badLanes

/-- Every domain but AON is reset; each epoch increments at the domain's exit, that of a port that is absent at once (01 R39, R40; log 70). -/
def resetAll (s : State) : State :=
  let s := (memPortsOf s).foldl memPortIn s
  let s := (lnkPortsOf s).foldl lnkPortIn s
  let s := resetDom (resetDom s 0) 1
  ((List.range 24).filter fun q => !portPresent s q).foldl (fun s q => exitReset (resetDom s (2 + q)) (2 + q)) s

/-- Steps C8 to C11 of a block warm recovery, once C4 has let it go on and CORE has its clock. -/
def warmResume (s : State) (bad : List Nat) : State :=
  match s.flt.running.find? fun r => r.rung == 4 with
  | none => s
  | some r =>
    let s := exitReset s 0
    let s := stepsC8 (rebuildAcc s) bad
    setPhase (recordPlain (continuity s 2 r.start.srHeld) Flc.recovery 6 0 8) 4 0 .restart r.start

/-- Steps Q5 to Q7 of a block warm recovery, up to C11; READY ends it, and so does a stop at C3 or C4 (13 R403). -/
def warmReset (s : State) (r : Running) : State :=
  let e := r.start
  let s := resetAll (coreClear (takeDump s 3 r.cls))
  let s := hostClear s
  let s := { s with hob := { s.hob with orphans := 0 }, key := { s.key with drbgFail := false }, flt := { s.flt with portWait := [] } }
  let s := stepC3 s
  let s := { s with key := { s.key with geodeFail := !s.key.slateOn && s.gen.c6Done && s.key.kill.geode.isNone } }
  let s := startFlags s 2
  if stopsAtC3 s then endRung (haltStart s) 4 0
  else
    let (x, s) := stepC4 (rebuildAcc s) false e
    match x with
    | .cold => coldStop s r.cls (!e.flashFails)
    | .goOn =>
      if stopsAtC3 s then endRung (haltStart s) 4 0
      else
        let s := if (domAt s 1).clockLost then s else exitReset s 1
        let s := (memPortsOf s).foldl (fun s p => setMemPin s p { memPin s p with srReq := false, srAck := false }) s
        if (domAt s 0).clockLost then setPhase s 4 0 .restart e else warmResume s e.badLanes

/-- A CORE clock that returns: a reset that CORE waits in goes on in its own steps; otherwise CORE restarts as after a CORE warm reset (01 R36, R40). -/
def coreReturns (s : State) (bad : List Nat) : State :=
  match s.flt.running.find? fun r => r.rung == 3 || r.rung == 4 with
  | none => portsFollow (coreRestart s bad)
  | some r =>
    if r.phase ≠ .restart ∨ s.gen.c10Done then s
    else if r.rung = 3 then coreResume s bad
    else warmResume s bad

/-- CLOCK_RETURN: the domain leaves the reset that held it; a port waits for CORE, and a cold start at C5 for both clocks. `bad`: the lanes whose
known-answer test fails at the C10 of a CORE restart. A domain whose epoch is at its end stays in reset for the cold start (01 R39). -/
def clockReturn (s : State) (d : Nat) (bad : List Nat) : State :=
  if !(domAt s d).clockLost || !s.pin.pwrok then s
  else
    let s := setDom s d { domAt s d with clockLost := false }
    let s := lateWipe (if d = 0 then { s with gen := { s.gen with cclkValid := true } } else s)
    match s.gen.c5Wait with
    | some e => if clocksLost s || s.flt.coldReq || s.gen.halted then s else stepsC7 s e
    | none =>
      if !s.gen.released || s.flt.coldReq || epochOf s d == 0xFFFFFFFF#32 then s
      else if d = 0 then coreReturns s bad
      else if d = 1 then exitReset (resetDom s 1) 1
      else releaseWaiting s

/-- CORE_WARM_RESET: steps Q1 and Q2 begin. -/
def coreWarmReset (s : State) (e : StartIn) : State :=
  if !s.gen.released || s.flt.coldReq then s
  else
    let s := requestRung s 3 0
    match runAt s 3 0 .requested with
    | none => s
    | some _ => beginDrain (setPhase s 3 0 .drain e)

/-- BLOCK_WARM_RECOVERY: steps Q1 and Q2 begin. -/
def blockWarmRecovery (s : State) (e : StartIn) : State :=
  if !s.gen.released || s.flt.coldReq then s
  else
    let s := requestRung s 4 0
    match runAt s 4 0 .requested with
    | none => s
    | some _ => beginDrain (setPhase s 4 0 .drain e)

/-- Step Q4 of a block warm recovery: self-refresh is asked of every port in service; with none, the recovery goes on. -/
def selfRefresh (s : State) (r : Running) : State :=
  let ps := (memPortsOf s).filter fun p => (memPin s p).init
  if ps.isEmpty then warmReset s r
  else
    let s := ps.foldl (fun s p => setMemPin s p { memPin s p with srReq := true, srAck := false }) s
    setPhase s 4 0 .selfRefresh r.start

/-- QUIESCE_DRAIN_DONE: a resident line still dirty goes out first; once every write is acknowledged or DRAIN_MS has passed, losses are counted,
counters written back, and the reset goes on (11 Table 11-8). -/
def drainDone (s : State) : State :=
  match s.flt.running.find? fun r => r.phase == .drain with
  | none => s
  | some r =>
    if !s.gen.released then s
    else if s.ile.resident.any fun x => x.dirty then settle (s.ile.resident.foldl (fun s x => writeBack s x none) s)
    else if s.ime.ents.any countsLost && decide (s.tm.ns < r.drainBy) then s
    else
      let s := recordLoss (flushCounters (loseWrites s))
      if r.rung = 3 then coreReset s r else selfRefresh s r

/-- MEM_SR_ACK: the last port's answer lets the recovery go on (14 R433). -/
def memSrAck (s : State) (p : Nat) : State :=
  match runAt s 4 0 .selfRefresh with
  | none => s
  | some r =>
    if !(memPin s p).srReq || !s.gen.released then s
    else
      let s := setMemPin s p { memPin s p with srAck := true }
      if (memPortsOf s).all fun p => !(memPin s p).srReq || (memPin s p).srAck then warmReset s r else s

/-- COLD_START_REQUEST (11 R347). -/
def coldStartRequest (s : State) (flashOk : Bool) : State :=
  if !s.gen.released || s.flt.coldReq then s
  else
    let s := requestRung s 5 0
    match runAt s 5 0 .requested with
    | none => s
    | some r => coldStop s r.cls flashOk

/-- The ACTION that starts a rung (11 Table 11-4). -/
def rungAction (rung : Nat) : Nat := rung + 4

/-- RUNG_TIMER_EXPIRY, at or after the timer's end: a RESET_HANG record that names the domain, and the rung above (11 R342). -/
def rungExpiry (s : State) (rung port : Nat) : State :=
  if !(s.flt.running.any fun r => r.rung == rung && (rung != 1 || r.port == port) && decide (r.due ≤ s.tm.ns)) || rung = 0 || 5 ≤ rung then s
  else
    let d := if rung = 1 then 2 + port else if rung = 2 then 1 else 0
    let s := recordPlain s Flc.resetHang 6 d (rungAction (nextRung rung))
    startRung (endRung s rung port) (nextRung rung) 0 Flc.resetHang

/-! ### Watchdogs (11 R339, R340) -/

/-- A watchdog's unit, the reset it starts and that reset's port. Ports are named by their code, 24 to 29 are the IME, ILE, SRE, BCE, stratum
controller and key services, 30 the host control command. -/
def watchUnit (w : Nat) : Nat :=
  if w < 4 then 1 else if w < 24 then 2 else if w = 24 then 1 else if w = 25 then 2 else if w = 26 then 3 else if w ≤ 28 then 4 else if w = 29 then 5 else 7
def watchRung (w : Nat) : Nat := if w < 24 then 1 else if w < 30 then 3 else 2

/-- Whether a watchdog may declare a hang now: of a memory port the command has gone unanswered for MEM_LIMIT, of the host the control command BUSY
for HOST_MS; how long a port or an engine has stood still State does not show (11 Table 11-6; log 49). -/
def watchCan (s : State) (w : Nat) : Bool :=
  if w < 4 then s.ime.ents.any fun e => e.port == w && (e.phase == .readOut || e.phase == .writeOut) && decide (e.due ≤ s.tm.ns)
  else if w < 24 then portPresent s w && portOpen s (w - 4)
  else if w < 30 then !coreDown s
  else w == 30 && s.hob.cmdBusy && !hostDown s && decide (s.hob.cmdDue ≤ s.tm.ns)

/-- The requester and tag of the oldest operation the watched unit holds. -/
def watchOldest (s : State) (w : Nat) : Option (Who × Nat) :=
  let mem := fun (p : MemEnt → Bool) => (s.ime.ents.find? p).map fun e => (e.who, e.who.tag)
  let orig := fun (p : Orig → Bool) => (s.ile.orig.find? fun o => p o.2).map fun o => (o.2.who, o.2.op.tag)
  if w < 4 then mem fun e => e.port == w && (e.phase == .readOut || e.phase == .writeOut)
  else if w < 24 then orig fun o => o.egress == w - 4
  else if w = 24 then mem fun _ => true
  else if w = 25 then orig fun _ => true
  else if w = 26 then (s.sre.colls.head?).map fun c => (collWho c.2 (cdSrcShelf c.2.desc) (cdSrc c.2.desc), c.1)
  else if w ≤ 28 then (s.bce.jobs.head?).map fun j => (jobWho j j.shelf j.addr, j.id)
  else none

/-- WATCHDOG_HANG. -/
def watchdogHang (s : State) (w : Nat) : State :=
  if !s.gen.released || !watchCan s w then s
  else
    let o := watchOldest s w
    let rung := watchRung w
    let s := record s Flc.hang (watchUnit w) w (rungAction rung) Rsn.resetAbort (o.map (·.1)) ((o.map (·.2)).getD 0)
    startRung s rung (if rung = 1 then w else 0) Flc.hang

/-! ### Dumps, annals, hours (11 R332, R333, R348 to R351) -/

/-- DUMP_UNIT_TIMEOUT: the unit's section of the dump being taken holds what it gave, `got` bytes, or nothing. -/
def dumpTimeout (s : State) (unit got : Nat) : State :=
  match s.flt.dump with
  | none => s
  | some d =>
    if !s.flt.dumpDue then s
    else
      let cut := fun (x : DumpSec) =>
        let w := x.words.take (got / 8 * 2)
        { x with status := if got = 0 then 1 else 2, words := w, pending := x.pending.take ((got - 4 * w.length) / 16) }
      { s with flt := { s.flt with dump := some { d with secs := d.secs.map fun x => if x.unit = unit ∧ x.status ≠ 3 then cut x else x } } }

/-- Whether the reset that prompted a dump is over. -/
def dumpFree (s : State) : Bool := s.flt.dumpDue && !quiescing s

/-- DUMP_COPY. -/
def dumpCopy (s : State) (flashOk : Bool) : State := if dumpFree s && s.pin.pwrok then copyDump s flashOk else s

/-- A record that waited at the crossing enters the queue once there is room (11 R332). -/
def unstall (s : State) : State :=
  match s.flt.stalled with
  | r :: l => if s.flt.queue.length < 256 then { s with flt := { s.flt with queue := s.flt.queue ++ [r], stalled := l } } else s
  | [] => s

/-- ANNALS_WRITE: the oldest queued record reaches its unit's ring of 1024, or stays queued where the write fails. -/
def annalsWrite (s : State) (flashOk : Bool) : State :=
  match s.flt.queue with
  | [] => s
  | r :: q =>
    if !s.pin.pwrok then s
    else
      let s := emit s (.flashOp "annals record")
      if flashOk then
        let ring := (r :: dget [] s.flash.rings r.unit).take 1024
        unstall { s with flt := { s.flt with queue := q }, flash := { s.flash with rings := tput s.flash.rings r.unit ring } }
      else flashFail s

/-- HOUR_TICK: the count of AON, stored where flash takes it (11 R333). -/
def hourTick (s : State) (flashOk : Bool) : State :=
  if !s.pin.pwrok then s
  else
    let n := s.flt.hours + 1
    let s := emit { s with flt := { s.flt with hours := n } } (.flashOp "hours")
    if flashOk then { s with flash := { s.flash with hours := n } } else flashFail s

/-- The flash operation that waits for, or holds, the bus fails: a charter slot write, then a dump copy, then an annals record (log 73). -/
def flashOpFails (s : State) : State :=
  if s.gen.load.isSome then charterStored s false []
  else if dumpFree s then dumpCopy s false
  else annalsWrite s false

/-! ### Time (10 R309; log 5) -/

/-- One ACLK period with nothing waiting: the AON counts advance while the block is powered and ACLK runs. -/
def tick (s : State) : State :=
  if s.pin.pwrok && !s.dom.aclkLost then { s with tm := { ns := s.tm.ns + 10, aclk := s.tm.aclk + 1 } } else s

/-! ### The commands -/

/-- CLOCK_RETURN (01 R36). -/
def execClockReturn (c : ClockBack) (s : State) : Host.Outcome State Fault Refusal := .next (clockReturn s c.domain c.badLanes)

/-- PORT_RESET (11 R344). -/
def execPortReset (port : Nat) (s : State) : Host.Outcome State Fault Refusal := .next (portReset s port)

/-- HOST_RESET (09 R305). -/
def execHostReset (s : State) : Host.Outcome State Fault Refusal := .next (hostReset s)

/-- CORE_WARM_RESET (11 R343). -/
def execCoreWarmReset (e : StartIn) (s : State) : Host.Outcome State Fault Refusal := .next (coreWarmReset s e)

/-- BLOCK_WARM_RECOVERY (11 R343). -/
def execBlockWarmRecovery (e : StartIn) (s : State) : Host.Outcome State Fault Refusal := .next (blockWarmRecovery s e)

/-- COLD_START_REQUEST (11 R347). -/
def execColdStartRequest (flashOk : Bool) (s : State) : Host.Outcome State Fault Refusal := .next (coldStartRequest s flashOk)

/-- RUNG_TIMER_EXPIRY (11 R342). -/
def execRungTimerExpiry (rung port : Nat) (s : State) : Host.Outcome State Fault Refusal := .next (rungExpiry s rung port)

/-- QUIESCE_DRAIN_DONE (11 R343). -/
def execQuiesceDrainDone (s : State) : Host.Outcome State Fault Refusal := .next (drainDone s)

/-- MEM_SR_ACK (14 R433). -/
def execMemSrAck (port : Nat) (s : State) : Host.Outcome State Fault Refusal := .next (memSrAck s port)

/-- WATCHDOG_HANG (11 R339). -/
def execWatchdogHang (watchdog : Nat) (s : State) : Host.Outcome State Fault Refusal := .next (watchdogHang s watchdog)

/-- DUMP_TAKE (11 R348): TAKE written in FLT_DUMP_CTRL. -/
def execDumpTake (s : State) : Host.Outcome State Fault Refusal := .next (ctlWriteBy s 0x10010 fun s => takeDump s 5 0xFF)

/-- DUMP_UNIT_TIMEOUT (11 R349). -/
def execDumpUnitTimeout (unit got : Nat) (s : State) : Host.Outcome State Fault Refusal := .next (dumpTimeout s unit got)

/-- DUMP_COPY (11 R351). -/
def execDumpCopy (flashOk : Bool) (s : State) : Host.Outcome State Fault Refusal := .next (dumpCopy s flashOk)

/-- ANNALS_WRITE (11 R332). -/
def execAnnalsWrite (flashOk : Bool) (s : State) : Host.Outcome State Fault Refusal := .next (annalsWrite s flashOk)

/-- HOUR_TICK (11 R333). -/
def execHourTick (flashOk : Bool) (s : State) : Host.Outcome State Fault Refusal := .next (hourTick s flashOk)

/-- FLASH_GRANT_TIMEOUT (14 R442). -/
def execFlashGrantTimeout (s : State) : Host.Outcome State Fault Refusal := .next (flashOpFails s)

/-- FLASH_GRANT_LOST (14 R442): the operation that holds the bus fails. -/
def flashGrantLost (s : State) : State := flashOpFails s

/-- FLASH_GRANT_LOST (14 R442). -/
def execFlashGrantLost (s : State) : Host.Outcome State Fault Refusal := .next (flashGrantLost s)

end Sys2Proof.Machine
end

