-- ==== Sys2Proof/Machine/Spdm.lean ====
section
/-!
DEFINITION. The attestation signer: mailboxes and the SPDM requests it answers (12 R363 to R370; 15 R471). The manual gives the limits; the layout of the messages
is that of SPDM 1.1 and 1.2, which it names (log 75).
-/
namespace Sys2Proof.Machine

/-! ### Mailboxes (12 R364; 15 R471). A mailbox is named by whether it is that of the debug path -/

/-- A mailbox. -/
def mbxOf (s : State) (dbg : Bool) : Mbx := if dbg then s.att.mbxDbg else s.att.mbxCtl

/-- Replace a mailbox. -/
def setMbx (s : State) (dbg : Bool) (m : Mbx) : State :=
  if dbg then { s with att := { s.att with mbxDbg := m } } else { s with att := { s.att with mbxCtl := m } }

/-- The request a mailbox holds. -/
def mbxReq (m : Mbx) : List Byte := bufBytes m.req 0 m.reqLen

/-- A request joins the order of arrival; the debug path goes before one of the same ACLK (12 R364). -/
def mbxArrive (l : List (Bool × Nat)) (dbg : Bool) (now : Nat) : List (Bool × Nat) :=
  if dbg && l == [(false, now)] then [(true, now), (false, now)] else l ++ [(dbg, now)]

/-- Whether a mailbox takes a request of a length. -/
def mbxTakes (m : Mbx) (len : Nat) : Bool := !m.busy && !m.rspReady && decide (1 ≤ len) && decide (len ≤ 4096)

/-- A request handed to the signer. -/
def mbxHand (s : State) (dbg : Bool) (len : Nat) : State :=
  let s := setMbx s dbg { mbxOf s dbg with busy := true, reqLen := len }
  { s with att := { s.att with mbxOrder := mbxArrive s.att.mbxOrder dbg s.tm.aclk } }

/-- A write to ATT_MBX_CTRL: SEND and RELEASE are judged on the mailbox as it stands at the write (15 R471). -/
def mbxCtrl (s : State) (v : Word) : State :=
  let m := mbxOf s false
  let len := bits v.toNat 0 13
  let s := if bit v.toNat 31 then (if mbxTakes m len then mbxHand s false len else ignoreWrite s (0x11040 / 4)) else s
  if bit v.toNat 30 ∧ m.rspReady then setMbx s false { mbxOf s false with rspReady := false } else s

/-! ### Messages (log 75) -/

/-- The bytes of a text. -/
def ascii (t : String) : List Byte := t.toList.map fun c => BitVec.ofNat 8 c.toNat

/-- What a request is answered with: the response, the connection and the state after it. -/
abbrev Reply := List Byte × Mbx × State

/-- The SPDM version byte of a connection; 1.0 before one is chosen. -/
def verByte (m : Mbx) : Nat := 0x10 + m.version

/-- An ERROR response. -/
def spdmError (s : State) (m : Mbx) (code data : Nat) : Reply :=
  (leBytes 1 (verByte m) ++ leBytes 1 0x7F ++ leBytes 1 code ++ leBytes 1 data, m, s)

/-- The versions the signer offers: the effective offer, or what it implements while no charter is in use (02 R59; log 75). -/
def spdmOffer (s : State) : Nat := if s.gen.charter.isNone then effOffer 0xFFFF 6 (forerunner s) else offerNow s 6

/-- The certificate chain stored, while its leaf is the identity key (12 R367). -/
def chainOf (s : State) : Option (List Byte) :=
  match s.flash.certChain, s.key.idPub with
  | some c, some p => if slice (c.drop 4) (fld c 0 4) 97 = 0x04#8 :: bytes96 p then some (c.drop 4) else none
  | _, _ => none

/-- The failing step of a request's place in the connection: 0 none. `stage` is 1 before CAPABILITIES, 2 before ALGORITHMS, 3 after. -/
def spdmGate (m : Mbx) (q : List Byte) (stage : Nat) : Nat :=
  if m.vca = [] ∨ (stage = 1 ∧ m.caps) ∨ (2 ≤ stage ∧ !m.caps) ∨ (stage = 2 ∧ m.algs) ∨ (stage = 3 ∧ !m.algs) then 0x04
  else if 2 ≤ stage ∧ fld q 0 1 ≠ verByte m then 0x41
  else 0

/-- VERSION: the connection starts again. -/
def ansVersion (s : State) (m : Mbx) (q : List Byte) : Reply :=
  if fld q 0 1 ≠ 0x10 then spdmError s { m with version := 0 } 0x41 0
  else if q.length ≠ 4 then spdmError s { m with version := 0 } 0x01 0
  else
    let vs := (List.range 16).filter fun n => bit (spdmOffer s) n
    let r := leBytes 1 0x10 ++ leBytes 1 0x04 ++ zeros 3 ++ leBytes 1 vs.length ++ vs.flatMap fun n => leBytes 2 (0x1000 + n * 0x100)
    (r, { m with version := 0, caps := false, algs := false, vca := q ++ r, meas := [], auth := [] }, s)

/-- The capability flags: CHAL_CAP, MEAS_CAP 2, and CERT_CAP or PUB_KEY_ID_CAP. -/
def capFlags (s : State) : Nat := 2 ^ 2 + 2 * 2 ^ 3 + if (chainOf s).isSome then 2 ^ 1 else 2 ^ 16

/-- CAPABILITIES. -/
def ansCapabilities (s : State) (m : Mbx) (q : List Byte) : Reply :=
  let v := fld q 0 1
  let g := spdmGate m q 1
  if g ≠ 0 then spdmError s m g 0
  else if v / 16 ≠ 1 ∨ !bit (spdmOffer s) (v % 16) then spdmError s m 0x41 0
  else if q.length ≠ (if v = 0x11 then 12 else 20) then spdmError s m 0x01 0
  else
    let r := leBytes 1 v ++ leBytes 1 0x61 ++ zeros 3 ++ leBytes 1 15 ++ zeros 2 ++ leBytes 4 (capFlags s)
      ++ if v = 0x11 then [] else leBytes 4 4096 ++ leBytes 4 4096
    (r, { m with version := v % 16, caps := true, vca := m.vca ++ q ++ r }, s)

/-- ALGORITHMS: ECDSA P-384, SHA-384 and DMTF measurements, or InvalidRequest where one of them is not offered (00 R15; log 155). -/
def ansAlgorithms (s : State) (m : Mbx) (q : List Byte) : Reply :=
  let g := spdmGate m q 2
  if g ≠ 0 then spdmError s m g 0
  else if q.length < 32 ∨ fld q 4 2 ≠ q.length ∨ !bit (fld q 6 1) 0 ∨ !bit (fld q 8 4) 7 ∨ !bit (fld q 12 4) 1 then spdmError s m 0x01 0
  else
    let r := leBytes 1 (verByte m) ++ leBytes 1 0x63 ++ zeros 2 ++ leBytes 2 36 ++ leBytes 1 1 ++ zeros 1 ++ leBytes 4 4 ++ leBytes 4 0x80
      ++ leBytes 4 2 ++ zeros 16
    (r, { m with algs := true, vca := m.vca ++ q ++ r }, s)

/-- A request that needs the identity and a connection: refused as Unspecified with KEYSTATE, or by its place (12 R367). -/
def needsIdentity (s : State) (m : Mbx) (q : List Byte) (f : BitVec 384 → Reply) : Reply :=
  match identity s with
  | none => spdmError s m 0x05 (keyState s)
  | some d =>
    let g := spdmGate m q 3
    if g ≠ 0 then spdmError s m g 0 else f d

/-- DIGESTS of slot 0. -/
def ansDigests (s : State) (m : Mbx) (q : List Byte) : Reply :=
  needsIdentity s m q fun _ =>
    match chainOf s with
    | none => spdmError s m 0x07 0x81
    | some c =>
      let r := leBytes 1 (verByte m) ++ leBytes 1 0x01 ++ zeros 1 ++ leBytes 1 1 ++ shaBytes c
      (r, { m with auth := m.auth ++ q ++ r, meas := [] }, s)

/-- A portion of the chain of slot 0. -/
def ansCertificate (s : State) (m : Mbx) (q : List Byte) : Reply :=
  needsIdentity s m q fun _ =>
    match chainOf s with
    | none => spdmError s m 0x07 0x82
    | some c =>
      let off := fld q 4 2
      let n := min (fld q 6 2) (min 4088 (c.length - off))
      if q.length ≠ 8 ∨ fld q 2 1 ≠ 0 ∨ c.length ≤ off then spdmError s m 0x01 0
      else
        let r := leBytes 1 (verByte m) ++ leBytes 1 0x02 ++ zeros 2 ++ leBytes 2 n ++ leBytes 2 (c.length - off - n) ++ slice c off n
        (r, { m with auth := m.auth ++ q ++ r, meas := [] }, s)

/-- A measurement block as sent (12 R368). -/
def measBlock (s : State) (i : Nat) : List Byte :=
  let v := blkValue s i
  leBytes 1 i ++ leBytes 1 1 ++ leBytes 2 (v.length + 3) ++ leBytes 1 (blkType i) ++ leBytes 2 v.length ++ v

/-- The blocks of a range of indices. -/
def measBlocks (s : State) (first n : Nat) : List Byte := (List.range n).flatMap fun k => measBlock s (first + k)

/-- What a signature is made over: the messages, or from 1.2 on the prefix, the context and their digest. -/
def spdmSigned (version : Nat) (ctx : String) (msg : List Byte) : List Byte :=
  if version < 2 then msg
  else
    let p := ascii "dmtf-spdm-v1.2.*"
    p ++ p ++ p ++ p ++ zeros (36 - (ascii ctx).length) ++ ascii ctx ++ shaBytes msg

/-- A signature of the signer, which is deterministic (03 R102). -/
def spdmSign (d : BitVec 384) (version : Nat) (ctx : String) (msg : List Byte) : List Byte := bytes96 (Config.ecdsaSign d (spdmSigned version ctx msg) 0)

/-- The slot a signature names: 0, or 0xF while no chain is stored. -/
def signSlot (s : State) : Nat := if (chainOf s).isSome then 0 else 0xF

/-- CHALLENGE_AUTH. -/
def ansChallenge (s : State) (m : Mbx) (q : List Byte) : Reply :=
  needsIdentity s m q fun d =>
    let kind := fld q 3 1
    let slotOk := fld q 2 1 == (if (chainOf s).isSome then 0 else 0xFF)
    if q.length ≠ 36 ∨ !slotOk ∨ !(kind == 0 || kind == 1 || kind == 0xFF) then spdmError s m 0x01 0
    else
      let (n, s) := freshBits 256 s
      let own := match chainOf s with
        | some c => leBytes 1 0 ++ leBytes 1 1 ++ shaBytes c
        | none => leBytes 1 0xF ++ leBytes 1 0 ++ shaBytes ((s.key.idPub.map bytes96).getD [])
      let sum := if kind = 0 then [] else if kind = 1 then shaBytes (measBlocks s 1 8) else shaBytes (measBlocks s 1 16)
      let r := leBytes 1 (verByte m) ++ leBytes 1 0x03 ++ own ++ leBytes 32 n.toNat ++ sum ++ zeros 2
      let sig := spdmSign d m.version "responder-challenge_auth signing" (m.vca ++ m.auth ++ q ++ r)
      (r ++ sig, { m with auth := [], meas := [] }, s)

/-- MEASUREMENTS without its signature: the nonce is a free value (log 3). -/
def measReply (s : State) (m : Mbx) (op slot : Nat) : List Byte × State :=
  let (n, s) := freshBits 256 s
  let rec_ := if op = 0 then [] else if op = 0xFF then measBlocks s 1 16 else measBlock s op
  let count := if op = 0 then 0 else if op = 0xFF then 16 else 1
  (leBytes 1 (verByte m) ++ leBytes 1 0x60 ++ leBytes 1 (if op = 0 then 16 else 0) ++ leBytes 1 slot ++ leBytes 1 count ++ leBytes 3 rec_.length
    ++ rec_ ++ leBytes 32 n.toNat ++ zeros 2, s)

/-- MEASUREMENTS from one snapshot, signed where asked; an attribute other than the signature is rejected (12 R365, R366; 00 R15). -/
def ansMeasurements (s : State) (m : Mbx) (q : List Byte) : Reply :=
  let op := fld q 3 1
  let ok := (decide (op ≤ 16) || op == 0xFF) && decide (fld q 2 1 < 2)
  if bit (fld q 2 1) 0 then
    needsIdentity s m q fun d =>
      if q.length ≠ 37 ∨ !ok ∨ fld q 36 1 ≠ signSlot s then spdmError s m 0x01 0
      else
        let (r, s) := measReply s m op (signSlot s)
        let l1 := (if m.version < 2 then [] else m.vca) ++ m.meas ++ q ++ r
        (r ++ spdmSign d m.version "responder-measurements signing" l1, { m with meas := [], auth := [] }, s)
  else
    let g := spdmGate m q 3
    if g ≠ 0 then spdmError s m g 0
    else if q.length ≠ 4 ∨ !ok then spdmError s m 0x01 0
    else
      let (r, s) := measReply s m op 0
      (r, { m with meas := m.meas ++ q ++ r, auth := [] }, s)

/-- Any other request code: Unspecified while the identity is unavailable, else UnsupportedRequest with the code (12 R366, R367). -/
def ansUnsupported (s : State) (m : Mbx) (q : List Byte) : Reply :=
  if (identity s).isNone then spdmError s m 0x05 (keyState s) else spdmError s m 0x07 (fld q 1 1)

/-! ### Serving a mailbox -/

/-- The request codes of Table 12-1. -/
def spdmCodes : List Nat := [0x84, 0xE1, 0xE3, 0x81, 0x82, 0x83, 0xE0]

/-- The signer answers the mailbox whose request came first, where its code fits: the whole response is posted (12 R364; 15 R471). -/
def serve (s : State) (dbg : Bool) (fits : Nat → Bool) (f : State → Mbx → List Byte → Reply) : State :=
  let m := mbxOf s dbg
  if !s.pin.pwrok ∨ s.dom.aclkLost ∨ !m.busy ∨ (s.att.mbxOrder.head?.map (·.1)) ≠ some dbg ∨ !fits (fld (mbxReq m) 1 1) then s
  else
    let (r, m, s) := f s m (mbxReq m)
    let s := setMbx s dbg { m with rsp := r, rspReady := true, busy := false, pos := 0, reqLen := if dbg then 0 else m.reqLen }
    let s := { s with att := { s.att with mbxOrder := s.att.mbxOrder.tail } }
    if dbg then s else raiseIrq s 6

/-- GET_VERSION (12 Table 12-1). -/
def execGetVersion (mailbox : Bool) (s : State) : Host.Outcome State Fault Refusal := .next (serve s mailbox (· == 0x84) ansVersion)

/-- GET_CAPABILITIES (12 Table 12-1). -/
def execGetCapabilities (mailbox : Bool) (s : State) : Host.Outcome State Fault Refusal := .next (serve s mailbox (· == 0xE1) ansCapabilities)

/-- NEGOTIATE_ALGORITHMS (12 Table 12-1). -/
def execNegotiateAlgorithms (mailbox : Bool) (s : State) : Host.Outcome State Fault Refusal := .next (serve s mailbox (· == 0xE3) ansAlgorithms)

/-- GET_DIGESTS (12 Table 12-1). -/
def execGetDigests (mailbox : Bool) (s : State) : Host.Outcome State Fault Refusal := .next (serve s mailbox (· == 0x81) ansDigests)

/-- GET_CERTIFICATE (12 Table 12-1, R367). -/
def execGetCertificate (mailbox : Bool) (s : State) : Host.Outcome State Fault Refusal := .next (serve s mailbox (· == 0x82) ansCertificate)

/-- CHALLENGE (12 Table 12-1). -/
def execChallenge (mailbox : Bool) (s : State) : Host.Outcome State Fault Refusal := .next (serve s mailbox (· == 0x83) ansChallenge)

/-- GET_MEASUREMENTS (12 Table 12-1, R365). -/
def execGetMeasurements (mailbox : Bool) (s : State) : Host.Outcome State Fault Refusal := .next (serve s mailbox (· == 0xE0) ansMeasurements)

/-- SPDM_UNSUPPORTED (12 R366). -/
def execSpdmUnsupported (mailbox : Bool) (s : State) : Host.Outcome State Fault Refusal :=
  .next (serve s mailbox (fun c => !spdmCodes.contains c) ansUnsupported)

/-- MBX_SEND: a write to ATT_MBX_CTRL (15 R471). -/
def execMbxSend (value : Word) (s : State) : Host.Outcome State Fault Refusal := .next (ctlWriteBy s 0x11040 fun s => mbxCtrl s value)

/-- RELEASE clears RSP_READY; without a response it has no effect (15 R471). -/
def mbxRelease (s : State) : State := setMbx s false { mbxOf s false with rspReady := false }

/-- MBX_RELEASE: ATT_MBX_CTRL written with RELEASE alone (15 R471). -/
def execMbxRelease (s : State) : Host.Outcome State Fault Refusal := .next (ctlWriteBy s 0x11040 mbxRelease)

end Sys2Proof.Machine
end

