-- ==== Sys2Proof/Machine/Att.lean ====
section
/-!
DEFINITION. The attestation commands: operands and results, the colophon, the trust domain, and firmware measurements (12 R371 to R386, R391 to R393).
-/
namespace Sys2Proof.Machine

/-! ### Operands and results (12 R391) -/

/-- How a command ends: its code, its detail, and the state. -/
abbrev AttRes := Code × Nat × State

/-- Fields of the operand block. -/
def aoAddr (b : List Byte) : Nat := fld b 0 8
def aoShelf (b : List Byte) : Nat := fld b 8 4
def aoLen (b : List Byte) : Nat := fld b 0xC 4
def aoOutAddr (b : List Byte) : Nat := fld b 0x10 8
def aoOutShelf (b : List Byte) : Nat := fld b 0x18 4
def aoOutLen (b : List Byte) : Nat := fld b 0x1C 4
def aoArg (b : List Byte) : Nat := fld b 0x28 8
def aoArg2 (b : List Byte) : Nat := fld b 0x30 8

/-- Reserved fields of the operand block are zero (00 R12). -/
def aoOk (b : List Byte) : Bool :=
  decide (aoShelf b < 2 ^ 24) && decide (aoOutShelf b < 2 ^ 24) && decide (aoAddr b < 2 ^ 52) && decide (aoOutAddr b < 2 ^ 52)
    && zeroBytes (slice b 0x20 8) && zeroBytes (slice b 0x38 8)

/-- A command ends, and the ATT source rises, but where it waits for random numbers (12 Table 12-8; 15 Table 15-5; 03 R100). -/
def attEnd (r : AttRes) : State :=
  let busy := r.2.2.att.wait.isSome
  let s := { r.2.2 with att := { r.2.2.att with cmdBusy := busy, cmdCode := if busy then 0#8 else r.1, cmdDetail := if busy then 0 else r.2.1 } }
  if busy then s else raiseIrq s 6

/-- Whether a command completes with ATT_BUSY (12 R391). -/
def attBusy (s : State) : Bool := coreDown s || s.gen.unchartered || s.lcs.act.isSome || s.lcs.intentPending || s.att.cmdBusy

/-- A command that fails changes nothing. -/
def attNo (s : State) (c : Code) : AttRes := (c, 0, s)

/-- A command that is done. -/
def attDone (s : State) : AttRes := (0#8, 0, s)

/-- The result of a command: BUSY, role and operand block first (12 R391, R392). -/
def attResult (s : State) (archivist : Bool) (m : MemIn) (f : List Byte → State → MemIn → AttRes) : AttRes :=
  if attBusy s then attNo s Ac.attBusy
  else if s.key.tampered then attNo s Rsn.tampered
  else if archivist ∧ roleOf s ≠ 2 then attNo s Ac.roleWrong
  else match ctlRead s s.att.cmdShelf.toNat s.att.cmdAddr.toNat 64 m with
    | (.error c, s, _) => attNo s c
    | (.ok b, s, m) => if aoOk b then f b s m else attNo s Ac.attMalformed

/-- A write of an OP to ATT_CMD. One written while another waits completes with ATT_BUSY, and the other goes on (12 R391). -/
def attCmd (s : State) (archivist : Bool) (m : MemIn) (f : List Byte → State → MemIn → AttRes) : State :=
  if s.att.cmdBusy then raiseIrq { s with att := { s.att with cmdCode := Ac.attBusy, cmdDetail := 0 } } 6
  else attEnd (attResult s archivist m f)

/-- What follows needs random numbers: it is done now, waits while the entropy tests repeat, or is refused with DRBG_FAIL (03 R100, R101). -/
def attSeed (b : List Byte) (job : AttJob) (f : List Byte → State → MemIn → AttRes) (s : State) (m : MemIn) : AttRes :=
  if drbgServes s then f b s m
  else if drbgWaits s then (0#8, 0, { s with att := { s.att with wait := some { block := b, job := job, m := m } } })
  else attNo s Rsn.drbgFail

/-- Read the input a command names, of a length it admits. -/
def attIn (b : List Byte) (ok : Nat → Bool) (f : List Byte → State → MemIn → AttRes) (s : State) (m : MemIn) : AttRes :=
  if !ok (aoLen b) then attNo s Ac.attMalformed
  else match ctlRead s (aoShelf b) (aoAddr b) (aoLen b) m with
    | (.error c, s, _) => attNo s c
    | (.ok x, s, m) => f x s m

/-- Write the output of a command, and then its effect: an output the buffer cannot hold is malformed. -/
def attOut (b : List Byte) (out : List Byte) (k : State → State) (s : State) (m : MemIn) : AttRes :=
  if aoOutLen b < out.length then attNo s Ac.attMalformed
  else match ctlWrite s (aoOutShelf b) (aoOutAddr b) out m with
    | (.error c, s, _) => attNo s c
    | (.ok (), s, _) => attDone (k s)

/-- A record stored in USER and the action logged, then its effect; the record's write comes first (12 R376; 13 R413). -/
def attLogged (s : State) (name : String) (store : Flash → Flash) (i : AccInfo) (flashOk : Bool) (k : State → State) : AttRes :=
  let c := accRoom s false
  if c ≠ 0#8 then attNo s c
  else
    let s := emit s (.flashOp name)
    if !flashOk then attNo (flashFail s) Ac.attFlashFailed
    else
      let (c, s) := accAppend (userKeyed { s with flash := store s.flash }) i false true
      if c ≠ 0#8 then attNo s c else attDone (k s)

/-- The identity signature of the signer over bytes (03 R102). -/
def idSign (d : BitVec 384) (b : List Byte) : List Byte := bytes96 (Config.ecdsaSign d b 0)

/-! ### COLOPHON (12 R375) -/

/-- The requests of the internal connection. -/
def colCaps (v : Nat) : List Byte := leBytes 1 v ++ leBytes 1 0xE1 ++ zeros 10 ++ if v = 0x11 then [] else leBytes 4 4096 ++ leBytes 4 4096
def colAlgs (v : Nat) : List Byte :=
  leBytes 1 v ++ leBytes 1 0xE3 ++ zeros 2 ++ leBytes 2 32 ++ leBytes 1 1 ++ zeros 1 ++ leBytes 4 0x80 ++ leBytes 4 2 ++ zeros 16
def colMeas (s : State) (v : Nat) (nonce : List Byte) : List Byte :=
  leBytes 1 v ++ leBytes 1 0xE0 ++ leBytes 1 1 ++ leBytes 1 0xFF ++ nonce ++ leBytes 1 (signSlot s)

/-- The capsule of the exchange with a nonce. -/
def capsule (s : State) (nonce : List Byte) : List Byte × State :=
  let v := 0x10 + topVersion (spdmOffer s)
  let (_, m, s) := ansVersion s {} [0x10#8, 0x84#8, 0#8, 0#8]
  let (_, m, s) := ansCapabilities s m (colCaps v)
  let (_, m, s) := ansAlgorithms s m (colAlgs v)
  let q := colMeas s v nonce
  let (r, m, s) := ansMeasurements s m q
  (leBytes 4 0x4E4F4C43 ++ leBytes 1 1 ++ zeros 3 ++ leBytes 4 m.vca.length ++ leBytes 4 q.length ++ leBytes 4 r.length ++ zeros 12 ++ m.vca ++ q ++ r, s)

/-- COLOPHON. -/
def colophon (b : List Byte) : State → MemIn → AttRes :=
  attIn b (· == 32) fun nonce s m =>
    if (identity s).isNone then attNo s Ac.noIdentity
    else
      let (c, s) := capsule s nonce
      attOut b c id s m

/-! ### Reading a capsule (12 R375, Table 12-6 N1) -/

/-- The length of an SPDM message of the VCA by its code. -/
def msgLen (code : Nat) (b : List Byte) : Nat :=
  if code = 0x84 then 4 else if code = 0x04 then 6 + 2 * fld b 5 1 else if code = 0xE1 ∨ code = 0x61 then (if fld b 0 1 = 0x11 then 12 else 20)
  else fld b 4 2

/-- The messages of given codes, one after another to the end. -/
def vcaWalk : List Nat → List Byte → Option (List (List Byte))
  | [], b => if b = [] then some [] else none
  | c :: cs, b =>
    let n := msgLen c b
    if n < 4 ∨ b.length < n ∨ fld b 1 1 ≠ c then none else (vcaWalk cs (b.drop n)).map (b.take n :: ·)

/-- `n` measurement blocks by index, to the end of a record. -/
def measWalk : Nat → List Byte → Option (Tbl (List Byte))
  | 0, b => if b = [] then some [] else none
  | n + 1, b =>
    let len := fld b 2 2
    if len < 3 ∨ fld b 1 1 ≠ 1 ∨ fld b 5 2 + 3 ≠ len ∨ b.length < 4 + len then none
    else match measWalk n (b.drop (4 + len)) with
      | some t => if (tget t (fld b 0 1)).isSome then none else some (tput t (fld b 0 1) (slice b 7 (len - 3)))
      | none => none

/-- The parts of a capsule. -/
def capVca (b : List Byte) : List Byte := slice b 32 (fld b 8 4)
def capReq (b : List Byte) : List Byte := slice b (32 + fld b 8 4) (fld b 12 4)
def capRsp (b : List Byte) : List Byte := slice b (32 + fld b 8 4 + fld b 12 4) (fld b 16 4)

/-- N1 on the header and the request. -/
def capHeadOk (b : List Byte) : Bool :=
  fld b 0 4 == 0x4E4F4C43 && fld b 4 1 == 1 && zeroBytes (slice b 5 3) && zeroBytes (slice b 20 12)
    && b.length == 32 + fld b 8 4 + fld b 12 4 + fld b 16 4
    && (capReq b).length == 37 && fld (capReq b) 1 1 == 0xE0 && bit (fld (capReq b) 2 1) 0 && fld (capReq b) 3 1 == 0xFF

/-- N1 on the response: its fixed parts, and its blocks. -/
def capBlocks (b : List Byte) (v : Nat) : Option (Tbl (List Byte)) :=
  let r := capRsp b
  let n := fld r 5 3
  let opq := fld r (8 + n + 32) 2
  if fld r 0 1 ≠ v ∨ fld r 1 1 ≠ 0x60 ∨ r.length ≠ 8 + n + 34 + opq + 96 ∨ fld (capReq b) 0 1 ≠ v then none
  else measWalk (fld r 4 1) (slice r 8 n)

/-- N1: the SPDM version and the blocks of a capsule. -/
def capParse (s : State) (b : List Byte) : Option (Nat × Tbl (List Byte)) :=
  if !capHeadOk b then none
  else match vcaWalk [0x84, 0x04, 0xE1, 0x61, 0xE3, 0x63] (capVca b) with
    | some [_, _, _, caps, _, algs] =>
      let v := fld caps 0 1
      if v / 16 ≠ 1 ∨ !bit (spdmOffer s) (v % 16) ∨ fld algs 12 4 ≠ 0x80 ∨ fld algs 16 4 ≠ 2 then none
      else match capBlocks b v with
        | some t =>
          let has := fun (i n : Nat) => (tget t i).map List.length == some n
          if has 1 32 && has 2 8 && has 12 64 && has 14 304 then some (v, t) else none
        | none => none
    | _ => none

/-- A block of a capsule; a block it lacks counts as 48 zero bytes (12 R368). -/
def capBlk (t : Tbl (List Byte)) (i : Nat) : List Byte := (tget t i).getD (zeros 48)

/-! ### ENLIST (12 R377, R378) -/

/-- ID_PUB, KEX_PUB and ENDORSEMENT of block 14; the instance ID of block 1. -/
def capIdPub (t : Tbl (List Byte)) : List Byte := slice (capBlk t 14) 0 96
def capKexPub (t : Tbl (List Byte)) : List Byte := slice (capBlk t 14) 0x60 96
def capInst (t : Tbl (List Byte)) : Nat := fld (capBlk t 1) 8 8
def capKind (t : Tbl (List Byte)) : Nat := fld (capBlk t 1) 0x1D 1

/-- The admission digest (12 R378). -/
def admissionDigest (t : Tbl (List Byte)) : List Byte :=
  shaBytes (slice (capBlk t 1) 0x10 14 ++ slice (capBlk t 2) 0 1 ++ leBytes 1 (fld (capBlk t 2) 1 1 % 8) ++ capBlk t 3
    ++ capBlk t 5 ++ capBlk t 6 ++ capBlk t 7 ++ capBlk t 8)

/-- N3. -/
def capEndorsed (s : State) (t : Tbl (List Byte)) : Bool :=
  let e := fld (capBlk t 14) 0xC0 1
  Config.onCurve (b768 (capIdPub t)) && instanceOf (b768 (capIdPub t)) == capInst t && (e == 1 || e == 2)
    && (match roleKey s e with
        | some k => sigOk k (capIdPub t ++ slice (capBlk t 1) 0 8) (slice (capBlk t 14) 0xD0 96)
        | none => false)

/-- N4. -/
def capSigned (b : List Byte) (v : Nat) (t : Tbl (List Byte)) : Bool :=
  let r := capRsp b
  let body := r.take (r.length - 96)
  let l1 := (if v = 0x11 then [] else capVca b) ++ capReq b ++ body
  sigOk (capIdPub t) (spdmSigned (v % 16) "responder-measurements signing" l1) (r.drop (r.length - 96))

/-- N5 to N7. -/
def capAdmitted (s : State) (t : Tbl (List Byte)) : Bool :=
  let mode := capBlk t 2
  let dom := capBlk t 12
  let a := appointment s
  fld mode 0 1 == 3 && !bit (fld mode 1 1) 0 && fld mode 2 1 == 0 && !bit (fld mode 1 1) 6
    && fld dom 0 8 == fld a 8 8 && fld dom 0xC 4 == fld a 0x10 4 && fld dom 0x18 8 == fld a 0x18 8
    && (if capKind t = 0 then Config.onCurve (b768 (capKexPub t)) else capKind t == 1 && zeroBytes (capKexPub t))

/-- The member an instance is listed as. -/
def listedAs (s : State) (inst : Nat) : Option Nat := (s.ile.roster.find? fun x => x.2.inst == inst).map (·.1)

/-- The index an instance takes: its own where listed, 0 for the archivist, else the lowest never used (12 R376, R377). -/
def enlistIndex (s : State) (inst : Nat) : Option Nat :=
  match listedAs s inst with
  | some i => some i
  | none => if inst = instId s then some 0 else if s.att.nextIx < 16384 then some s.att.nextIx else none

/-- N3 to N9 in order: 0 where all pass. -/
def enlistChecks (s : State) (b : List Byte) (v : Nat) (t : Tbl (List Byte)) : Code :=
  let known := s.att.admitted.contains (admissionDigest t)
  if !capEndorsed s t then Ac.endorseFail
  else if !capSigned b v t then Ac.capsuleAuth
  else if !capAdmitted s t then Ac.admissionRefused
  else if !known ∧ s.att.locked then Ac.admitLocked
  else if !known ∧ 16 ≤ s.att.admitted.length then Ac.admitFull
  else if (enlistIndex s (capInst t)).isNone then Ac.rosterFull
  else 0#8

/-- A port whose bring-up failed with PEER_UNLISTED tries again when the roster changes (05 Table 5-4). -/
def retryUnlisted (s : State) (e : Nat) : State := if (lportAt s e).st = .down ∧ (lportAt s e).fail = 7 then startHello s e else s

/-- ROSTER_EPOCH increments where the roster changes (12 R377). -/
def rosterChange (s s' : State) : State :=
  if s.ile.roster = s'.ile.roster ∧ s.att.admitted = s'.att.admitted ∧ s.att.locked = s'.att.locked then s'
  else
    let s' := { s' with att := { s'.att with rosterEpoch := s.att.rosterEpoch + 1 } }
    if s.ile.roster = s'.ile.roster then s' else (lnkPortsOf s').foldl retryUnlisted s'

/-- An instance takes its entry. -/
def enlistEntry (s : State) (t : Tbl (List Byte)) (ix : Nat) : State :=
  let dig := admissionDigest t
  let admitted := if s.att.admitted.contains dig then s.att.admitted else s.att.admitted ++ [dig]
  let kex := if capKind t = 0 then (shaBytes (capKexPub t)).take 16 else zeros 16
  let ent : RosterEnt := { inst := capInst t, kind := capKind t, admitted := admitted.findIdx (· == dig), kex := kex }
  rosterChange s { s with
    ile := { s.ile with roster := tput s.ile.roster ix ent }
    att := { s.att with admitted := admitted, nextIx := max s.att.nextIx (ix + 1) } }

/-- N2: the nonce of a capsule is held; it is consumed. -/
def takeNonce (s : State) (n : List Byte) : Bool × State :=
  (s.att.nonces.any fun x => x.1 == n && decide (s.tm.ns < x.2),
    { s with att := { s.att with nonces := s.att.nonces.filter fun x => x.1 != n } })

/-- ENLIST. -/
def enlist (b : List Byte) : State → MemIn → AttRes :=
  attIn b (fun n => decide (32 ≤ n) && decide (n ≤ 8192)) fun c s _ =>
    match capParse s c with
    | none => attNo s Ac.attMalformed
    | some (v, t) =>
      let (held, s) := takeNonce s (slice (capReq c) 4 32)
      if !held then attNo s Ac.nonceStale
      else
        let e := enlistChecks s c v t
        if e ≠ 0#8 then attNo s e
        else match enlistIndex s (capInst t) with
          | some ix => attDone (enlistEntry s t ix)
          | none => attNo s Ac.rosterFull

/-- The nonce of ENLIST_NONCE: the 65th discards the oldest; each is valid for 10 s. -/
def drawNonce (b : List Byte) (s : State) (m : MemIn) : AttRes :=
  let (n, s) := drbgTake 256 s
  let l := s.att.nonces ++ [(leBytes 32 n.toNat, s.tm.ns + 10000000000)]
  attOut b (leBytes 32 n.toNat) (fun s => { s with att := { s.att with nonces := l.drop (l.length - 64) } }) s m

/-- ENLIST_NONCE. -/
def enlistNonce (b : List Byte) (s : State) (m : MemIn) : AttRes := attSeed b .nonce drawNonce s m

/-- ENLIST_NONCE_EXPIRE: the nonce at a position, drawn 10 s ago or longer, is no longer held (12 R377). -/
def nonceExpire (s : State) (pos : Nat) : State :=
  if (s.att.nonces[pos]?).any fun x => decide (x.2 ≤ s.tm.ns) then { s with att := { s.att with nonces := s.att.nonces.eraseIdx pos } } else s

/-- DELIST. -/
def delist (b : List Byte) (s : State) (_ : MemIn) : AttRes :=
  if 16384 ≤ aoArg b then attNo s Ac.attMalformed
  else if (tget s.ile.roster (aoArg b)).isNone then attNo s Ac.memberUnlisted
  else attDone (rosterChange s { s with ile := { s.ile with roster := tdel s.ile.roster (aoArg b) } })

/-- LOCK_ADMISSION. -/
def lockAdmission (_ : List Byte) (s : State) (_ : MemIn) : AttRes := attDone (rosterChange s { s with att := { s.att with locked := true } })

/-! ### The roster (12 R379, R380) -/

/-- An entry as written. -/
def rosterEntBytes (i : Nat) (e : RosterEnt) : List Byte :=
  leBytes 8 e.inst ++ leBytes 2 i ++ leBytes 1 e.kind ++ leBytes 1 e.admitted ++ zeros 4 ++ padTo 16 (e.kex.take 16)

/-- The current roster before its signature. -/
def rosterBody (s : State) : List Byte :=
  let a := appointment s
  leBytes 4 0x54534F52 ++ leBytes 1 1 ++ leBytes 1 s.att.admitted.length ++ leBytes 2 s.ile.roster.length ++ leBytes 8 (fld a 8 8) ++ leBytes 4 (fld a 0x10 4)
    ++ leBytes 4 s.att.rosterEpoch ++ leBytes 8 (fld a 0x18 8) ++ leBytes 1 (b2n s.att.locked) ++ zeros 31 ++ s.att.admitted.flatten
    ++ s.ile.roster.flatMap fun x => rosterEntBytes x.1 x.2

/-- ROSTER_SIGN. A roster without entries, as after a reset before its reload, is not signed (12 R380; log 76). -/
def rosterSign (b : List Byte) (s : State) (m : MemIn) : AttRes :=
  match identity s with
  | none => attNo s Ac.noIdentity
  | some d =>
    if s.ile.roster.isEmpty then attNo s Ac.rosterStale
    else attOut b (rosterBody s ++ idSign d (rosterBody s)) id s m

/-- The offset of entry `k` of a roster. -/
def rosterAt (r : List Byte) (k : Nat) : Nat := 0x40 + 48 * fld r 5 1 + 32 * k

/-- Format, reserved fields and order of a roster. -/
def rosterOk (r : List Byte) : Bool :=
  fld r 0 4 == 0x54534F52 && fld r 4 1 == 1 && decide (fld r 5 1 ≤ 16) && decide (1 ≤ fld r 6 2 ∧ fld r 6 2 ≤ 16384) && decide (fld r 0x20 1 ≤ 1)
    && zeroBytes (slice r 0x21 31) && r.length == rosterAt r (fld r 6 2) + 96
    && (List.range (fld r 6 2)).all fun k =>
      let o := rosterAt r k
      decide (fld r (o + 8) 2 < 16384) && decide (fld r (o + 10) 1 ≤ 1) && decide (fld r (o + 11) 1 < fld r 5 1) && zeroBytes (slice r (o + 12) 4)
        && (fld r (o + 10) 1 == 0 || zeroBytes (slice r (o + 16) 16)) && (k == 0 || decide (fld r (o - 24) 2 < fld r (o + 8) 2))

/-- The entries of a roster as a table. -/
def rosterTable (r : List Byte) : Tbl RosterEnt :=
  (List.range (fld r 6 2)).map fun k =>
    let o := rosterAt r k
    (fld r (o + 8) 2, { inst := fld r o 8, kind := fld r (o + 10) 1, admitted := fld r (o + 11) 1, kex := slice r (o + 16) 16 })

/-- Whether the appointment fields of a record at three offsets are those held. -/
def appointFits (s : State) (r : List Byte) (dom count arch : Nat) : Bool :=
  match s.flash.appoint with
  | some a => fld r dom 8 == fld a 8 8 && fld r count 4 == fld a 0x10 4 && fld r arch 8 == fld a 0x18 8
  | none => false

/-- The archivist's public key of the appointment held. -/
def archivistPub (s : State) : List Byte := slice (appointment s) 0x20 96

/-- What follows an accepted roster at one port (12 R380). -/
def rosterPort (own : Bool) (s : State) (e : Nat) : State :=
  let p := lportAt s e
  let there := (tget s.ile.roster p.peerMember).map (·.inst) == some p.peerInst
  if !own ∨ (p.peerInst ≠ 0 ∧ !there) then startRung s 1 (qpOfLnk e) 0xFF
  else retryUnlisted s e

/-- An accepted roster takes effect. -/
def rosterTake (s : State) (r : List Byte) : State :=
  let t := rosterTable r
  let own := (t.find? fun x => x.2.inst == instId s).map (·.1)
  let s := { s with
    ile := { s.ile with roster := t }
    att := { s.att with
      rosterEpoch := fld r 0x14 4, listed := own.isSome, member := own.getD 0, locked := s.att.locked || bit (fld r 0x20 1) 0
      admitted := (List.range (fld r 5 1)).map fun k => slice r (0x40 + 48 * k) 48
      nextIx := t.foldl (fun a x => max a (x.1 + 1)) s.att.nextIx } }
  (lnkPortsOf s).foldl (rosterPort own.isSome) s

/-- ROSTER_LOAD: format, appointment, signature, epoch. -/
def rosterLoad (b : List Byte) : State → MemIn → AttRes :=
  attIn b (fun n => decide (0x40 + 32 + 96 ≤ n) && decide (n ≤ 525216)) fun r s _ =>
    if !rosterOk r then attNo s Ac.attMalformed
    else if !appointFits s r 8 0x10 0x18 then attNo s Ac.rosterStale
    else if !sigOk (archivistPub s) (r.take (r.length - 96)) (r.drop (r.length - 96)) then attNo s Ac.capsuleAuth
    else if fld r 0x14 4 < s.att.rosterEpoch then attNo s Ac.rosterStale
    else attDone (rosterTake s r)

/-! ### APPOINT (12 R376) -/

/-- The effect of an appointment. -/
def appointTake (s : State) : State :=
  { s with
    ile := { s.ile with roster := [] }
    att := { s.att with member := 0, listed := false, admitted := [], locked := false, rekeyEpoch := 0, rosterEpoch := 0, nextIx := 1 } }

/-- APPOINT: the conditions in the manual's order; the operator appoints in ISSUED and ENLISTED (13 Table 13-9). -/
def appoint (flashOk : Bool) (b : List Byte) : State → MemIn → AttRes :=
  attIn b (· == 224) fun r s _ =>
    let pub := b768 (slice r 0x20 96)
    if fld r 0 4 ≠ 0x54505041 ∨ fld r 4 1 ≠ 1 ∨ !zeroBytes (slice r 5 3) ∨ !zeroBytes (slice r 0x14 4) then attNo s Ac.attMalformed
    else if fld r 8 8 = 0 ∨ fld r 8 8 ≠ domainId s ∨ fld r 0x10 4 ≤ fld (appointment s) 0x10 4 then attNo s Ac.appointStale
    else if !Config.onCurve pub ∨ instanceOf pub ≠ fld r 0x18 8 then attNo s Ac.endorseFail
    else if !((s.lcs.st == 2 || s.lcs.st == 3) && (match roleKey s 3 with | some k => sigOk k (r.take 0x80) (slice r 0x80 96) | none => false)) then
      attNo s Ac.capsuleAuth
    else attLogged s "appointment" (fun f => { f with appoint := some r }) (accPlain s 21 3 0 (shaBytes r)) flashOk appointTake

/-! ### Tenant keys (12 R381, R382) -/

/-- ATTR_LO of masks (03 Table 3-14). -/
def attrLo (m : Masks) : Nat := m.vol.toNat * 2 ^ 6 + m.master.toNat * 2 ^ 14 + m.world.toNat * 2 ^ 22 + m.lcs.toNat * 2 ^ 26

/-- A wrapped key record to a KEX key: a fresh ephemeral key and an IV from the DRBG (03 Table 3-14; 12 R381). -/
def wrapRecord (s : State) (kind tenant gen : Nat) (mk : Masks) (kex : List Byte) (key : BitVec 256) : List Byte × State :=
  let (d, s) := drbgTake 384 s
  let (iv, s) := drbgTake 96 s
  let head := leBytes 2 1 ++ leBytes 1 kind ++ zeros 1 ++ leBytes 2 tenant ++ zeros 2 ++ leBytes 8 (domainId s) ++ leBytes 4 gen ++ leBytes 4 (attrLo mk)
    ++ zeros 8 ++ bytes96 (Config.pubOf d) ++ leBytes 12 iv.toNat ++ zeros 4
  (head ++ gcmSeal (wrapKey s (Config.ecdhX d (b768 kex)) tenant (domainId s) gen) (leBytes 12 iv.toNat) head (leBytes 32 key.toNat), s)

/-- Why a member cannot be wrapped to: 0 where it can. -/
def memberCheck (s : State) (ix : Nat) (kex : List Byte) : Code :=
  match tget s.ile.roster ix with
  | none => Ac.memberUnlisted
  | some e => if e.kind ≠ 0 then Ac.memberUnlisted else if (shaBytes kex).take 16 ≠ e.kex then Ac.kexMismatch else 0#8

/-- The half, its masks and its generation that WRAP_DOMAIN names: CURRENT, or STAGED. -/
def wrapHalf (v : Slot) (staged : Bool) : Option (Nat × Masks × Nat) :=
  if staged then v.staged.map fun m => ((v.genCur + 1) % 2, m, v.genCur + 1) else some (curHalf v, v.masks, v.genCur)

/-- The record of WRAP_DOMAIN, for the half chosen at its start (12 R381). -/
def drawWrap (slot half tenant gen : Nat) (mk : Masks) (kex b : List Byte) (s : State) (m : MemIn) : AttRes :=
  match halfKey s slot half with
  | none => attNo s Rsn.keyAbsent
  | some k =>
    let (r, s) := wrapRecord s 1 tenant gen mk kex k
    attOut b r id s m

/-- WRAP_DOMAIN: the refusals in the manual's order. -/
def wrapDomain (b : List Byte) : State → MemIn → AttRes :=
  attIn b (· == 96) fun kex s m =>
    let tenant := bits (aoArg2 b) 0 9
    if 16384 ≤ aoArg b ∨ bits (aoArg2 b) 9 7 ≠ 0 ∨ 2 ^ 17 ≤ aoArg2 b then attNo s Ac.attMalformed
    else if !s.att.locked then attNo s Ac.admitUnlocked
    else
      let c := memberCheck s (aoArg b) kex
      if c ≠ 0#8 then attNo s c
      else match (slotFor s tenant 0).bind fun i => (slotAt s i).bind fun v => (wrapHalf v (bit (aoArg2 b) 16)).bind fun h =>
          (halfKey s i h.1).map fun _ => (i, h) with
        | none => attNo s Rsn.keyAbsent
        | some (i, h, mk, gen) => attSeed b (.wrap i h tenant gen mk kex) (drawWrap i h tenant gen mk kex) s m

/-- The masks of a PAIR record: volume 6, master class SRE, world TENANT, state ENLISTED (12 R382). -/
def pairMasks : Masks := { lcs := 8#6, world := 2#4, master := 8#8, vol := 64#8 }

/-- The two records of GEN_PAIR (12 R382). -/
def drawPair (tenant gen : Nat) (kex b : List Byte) (s : State) (m : MemIn) : AttRes :=
  let (k, s) := drbgTake 256 s
  let (r0, s) := wrapRecord s 2 tenant gen pairMasks (kex.take 96) k
  let (r1, s) := wrapRecord s 2 tenant gen pairMasks (kex.drop 96) k
  attOut b (r0 ++ r1) id s m

/-- GEN_PAIR: a failing member's position is the DETAIL. -/
def genPair (b : List Byte) : State → MemIn → AttRes :=
  attIn b (· == 192) fun kex s m =>
    let a := aoArg b
    let tenant := bits (aoArg2 b) 0 9
    let gen := bits (aoArg2 b) 32 32
    let c0 := memberCheck s (bits a 0 14) (kex.take 96)
    let c1 := memberCheck s (bits a 16 14) (kex.drop 96)
    if bits a 14 2 ≠ 0 ∨ 2 ^ 30 ≤ a ∨ bits (aoArg2 b) 9 23 ≠ 0 then attNo s Ac.attMalformed
    else if !s.att.locked then attNo s Ac.admitUnlocked
    else if c0 ≠ 0#8 then (c0, 0, s)
    else if c1 ≠ 0#8 then (c1, 1, s)
    else if (slotFor s tenant 0).isNone then attNo s Rsn.keyAbsent
    else attSeed b (.pair tenant gen kex) (drawPair tenant gen kex) s m

/-! ### Rekey notices (12 R383) -/

/-- A notice takes effect: the epoch, and a rekey of every port in OPEN. -/
def rekeyTake (s : State) (epoch : Nat) : State := (lnkPortsOf s).foldl startRekey { s with att := { s.att with rekeyEpoch := epoch } }

/-- A notice before its signature. -/
def noticeBody (s : State) : List Byte :=
  let a := appointment s
  leBytes 4 0x594B4552 ++ leBytes 1 1 ++ zeros 3 ++ leBytes 8 (fld a 8 8) ++ leBytes 4 (fld a 0x10 4) ++ leBytes 4 (s.att.rekeyEpoch + 1) ++ leBytes 8 (fld a 0x18 8)

/-- REKEY_ISSUE. -/
def rekeyIssue (b : List Byte) (s : State) (m : MemIn) : AttRes :=
  match identity s with
  | none => attNo s Ac.noIdentity
  | some d => attOut b (noticeBody s ++ idSign d (noticeBody s)) (fun s => rekeyTake s (s.att.rekeyEpoch + 1)) s m

/-- REKEY_APPLY: format, appointment, signature, epoch. -/
def rekeyApply (b : List Byte) : State → MemIn → AttRes :=
  attIn b (· == 128) fun r s _ =>
    if fld r 0 4 ≠ 0x594B4552 ∨ fld r 4 1 ≠ 1 ∨ !zeroBytes (slice r 5 3) then attNo s Ac.attMalformed
    else if !appointFits s r 8 0x10 0x18 then attNo s Ac.rosterStale
    else if !sigOk (archivistPub s) (r.take 0x20) (slice r 0x20 96) then attNo s Ac.capsuleAuth
    else if fld r 0x14 4 ≤ s.att.rekeyEpoch then attNo s Ac.rosterStale
    else attDone (rekeyTake s (fld r 0x14 4))

/-! ### Firmware measurements (12 R371, R372) -/

/-- Fields of a statement (12 Table 12-4). -/
def fwComp (b : List Byte) : Nat := fld b 5 1
def fwSigner (b : List Byte) : Nat := fld b 6 1
def fwVersion (b : List Byte) : Nat := fld b 8 4
def fwLen (b : List Byte) : Nat := fld b 0x10 8
def fwDigest (b : List Byte) : List Byte := slice b 0x18 48

/-- Format and reserved fields of a statement. -/
def fwOk (b : List Byte) : Bool :=
  fld b 0 4 == 0x57464853 && fld b 4 1 == 1 && decide (fwComp b < 4) && decide (fwSigner b < 4) && fld b 7 1 == 0 && zeroBytes (slice b 0xC 4)
    && decide (1 ≤ fwLen b ∧ fwLen b < 2 ^ 32) && zeroBytes (slice b 0x48 8) && (fwSigner b != 0 || zeroBytes (slice b 0x60 80))

/-- The roles that sign firmware statements in a state (13 Table 13-9). -/
def fwRoles (st : Nat) : List Nat :=
  if st = 0 then [1] else if st = 1 then [1, 2] else if st = 2 then [2] else if st = 3 then [2, 3] else if st = 4 then [1] else []

/-- The binding tag of a statement (12 R371). -/
def fwBind (s : State) (b : List Byte) : Option (BitVec 128) :=
  (platKey s 0x0105 256 (fwVersion b)).map fun k => cmac (keyOf k) (b.take 6 ++ zeros 1 ++ slice b 7 0x49)

/-- Step 3: the statement is authenticated. -/
def fwAuth (s : State) (b : List Byte) : Bool :=
  if fwSigner b = 0 then fwBind s b == some (blkOf (slice b 0x50 16))
  else (fwRoles s.lcs.st).contains (fwSigner b)
    && (match roleKey s (fwSigner b) with | some k => sigOk k (b.take 0x50) (slice b 0x50 96) | none => false)

/-- The checks after the image: authentication and rollback. -/
def fwChecks (s : State) (b : List Byte) : Code :=
  if !fwAuth s b then Ac.fwAuth
  else if fwVersion b < ((tget s.att.fwCur (fwComp b)).map (·.version)).getD 0 then Ac.fwRollback
  else 0#8

/-- FW_MEASURE and FW_STAGE: the state of the component with the format, then the image, the statement and the version. -/
def fwLoad (stage flashOk : Bool) (b : List Byte) : State → MemIn → AttRes :=
  attIn b (· == 176) fun st s m =>
    if !fwOk st ∨ aoOutLen b ≠ fwLen st then attNo s Ac.attMalformed
    else if (tget s.att.fwCur (fwComp st)).isSome ≠ stage then attNo s Ac.fwState
    else match ctlRead s (aoOutShelf b) (aoOutAddr b) (fwLen st) m with
      | (.error c, s, _) => attNo s c
      | (.ok img, s, _) =>
        if shaBytes img ≠ fwDigest st then attNo s Ac.fwDigest
        else
          let c := fwChecks s st
          let tag := (fwBind s st).getD 0#128
          let v : FwMeas := { version := fwVersion st, digest := fwDigest st }
          if c ≠ 0#8 then attNo s c
          else attLogged s "firmware binding tag" (fun f => { f with fwTags := tput f.fwTags (fwComp st) (blkBytes tag) })
            (accPlain s (if stage then 18 else 17) (fwSigner st) (fwComp st + fwVersion st * 2 ^ 32) (shaBytes st)) flashOk fun s =>
              let s := { s with att := { s.att with fwTag := tag } }
              if stage then { s with att := { s.att with fwStg := tput s.att.fwStg (fwComp st) v } }
              else { s with att := { s.att with fwCur := tput s.att.fwCur (fwComp st) v } }

/-- FW_ACTIVATE: staged becomes current. -/
def fwActivate (b : List Byte) (s : State) (_ : MemIn) : AttRes :=
  if 4 ≤ aoArg b then attNo s Ac.attMalformed
  else match tget s.att.fwStg (aoArg b) with
    | some v => attDone { s with att := { s.att with fwCur := tput s.att.fwCur (aoArg b) v, fwStg := tdel s.att.fwStg (aoArg b) } }
    | none => attNo s Ac.fwState

/-- FW_ABANDON: the staged entry is cleared. -/
def fwAbandon (b : List Byte) (s : State) (_ : MemIn) : AttRes :=
  if 4 ≤ aoArg b then attNo s Ac.attMalformed
  else if (tget s.att.fwStg (aoArg b)).isNone then attNo s Ac.fwState
  else attDone { s with att := { s.att with fwStg := tdel s.att.fwStg (aoArg b) } }

/-! ### ENDORSE and CERT_STORE (12 R367, R369) -/

/-- ENDORSE: the maker in PROVING, the installer in ISSUED (13 Table 13-9). -/
def endorse (flashOk : Bool) (b : List Byte) : State → MemIn → AttRes :=
  attIn b (· == 112) fun r s _ =>
    let e := fld r 0 1
    if !(e == 1 || e == 2) ∨ !zeroBytes (slice r 1 15) then attNo s Ac.attMalformed
    else match s.key.idPub, roleKey s e with
      | some p, some k =>
        if (identity s).isNone then attNo s Ac.noIdentity
        else if s.lcs.st ≠ e ∨ !sigOk k (bytes96 p ++ leBytes 8 (serialOf s.fuse.shadow)) (slice r 16 96) then attNo s Ac.endorseFail
        else attLogged s "endorsement" (fun f => { f with endorse := some r }) (accPlain s 20 e 0 (shaBytes r)) flashOk id
      | none, _ => attNo s Ac.noIdentity
      | _, none => attNo s Ac.endorseFail

/-- CERT_STORE: the chain as supplied, where its leaf key is the identity key. It is not logged (13 R413). -/
def certStore (flashOk : Bool) (b : List Byte) : State → MemIn → AttRes :=
  attIn b (fun n => decide (1 ≤ n) && decide (n ≤ 16384)) fun c s _ =>
    match identity s, s.key.idPub with
    | some _, some p =>
      if 2 ^ 32 ≤ aoArg b ∨ slice c (aoArg b) 97 ≠ 0x04#8 :: bytes96 p then attNo s Ac.endorseFail
      else
        let s := emit s (.flashOp "certificate chain")
        if !flashOk then attNo (flashFail s) Ac.attFlashFailed
        else attDone (userKeyed { s with flash := { s.flash with certChain := some (leBytes 4 (aoArg b) ++ c) } })
    | _, _ => attNo s Ac.noIdentity

/-! ### The commands (12 Table 12-9) -/

/-- COLOPHON. -/
def execColophon (m : MemIn) (s : State) : Host.Outcome State Fault Refusal := .next (ctlWriteBy s 0x11000 fun s => attCmd s false m colophon)

/-- ENLIST_NONCE. -/
def execEnlistNonce (m : MemIn) (s : State) : Host.Outcome State Fault Refusal := .next (ctlWriteBy s 0x11000 fun s => attCmd s true m enlistNonce)

/-- ENLIST_NONCE_EXPIRE: 10 s after it was drawn. -/
def execEnlistNonceExpire (position : Nat) (s : State) : Host.Outcome State Fault Refusal := .next (nonceExpire s position)

/-- ENLIST. -/
def execEnlist (m : MemIn) (s : State) : Host.Outcome State Fault Refusal := .next (ctlWriteBy s 0x11000 fun s => attCmd s true m enlist)

/-- DELIST. -/
def execDelist (m : MemIn) (s : State) : Host.Outcome State Fault Refusal := .next (ctlWriteBy s 0x11000 fun s => attCmd s true m delist)

/-- LOCK_ADMISSION. -/
def execLockAdmission (m : MemIn) (s : State) : Host.Outcome State Fault Refusal := .next (ctlWriteBy s 0x11000 fun s => attCmd s true m lockAdmission)

/-- ROSTER_SIGN. -/
def execRosterSign (m : MemIn) (s : State) : Host.Outcome State Fault Refusal := .next (ctlWriteBy s 0x11000 fun s => attCmd s true m rosterSign)

/-- ROSTER_LOAD. -/
def execRosterLoad (m : MemIn) (s : State) : Host.Outcome State Fault Refusal := .next (ctlWriteBy s 0x11000 fun s => attCmd s false m rosterLoad)

/-- APPOINT. -/
def execAppoint (m : MemIn) (flashOk : Bool) (s : State) : Host.Outcome State Fault Refusal :=
  .next (ctlWriteBy s 0x11000 fun s => attCmd s false m (appoint flashOk))

/-- WRAP_DOMAIN. -/
def execWrapDomain (m : MemIn) (s : State) : Host.Outcome State Fault Refusal := .next (ctlWriteBy s 0x11000 fun s => attCmd s true m wrapDomain)

/-- GEN_PAIR. -/
def execGenPair (m : MemIn) (s : State) : Host.Outcome State Fault Refusal := .next (ctlWriteBy s 0x11000 fun s => attCmd s true m genPair)

/-- REKEY_ISSUE. -/
def execRekeyIssue (m : MemIn) (s : State) : Host.Outcome State Fault Refusal := .next (ctlWriteBy s 0x11000 fun s => attCmd s true m rekeyIssue)

/-- REKEY_APPLY. -/
def execRekeyApply (m : MemIn) (s : State) : Host.Outcome State Fault Refusal := .next (ctlWriteBy s 0x11000 fun s => attCmd s false m rekeyApply)

/-- FW_MEASURE. -/
def execFwMeasure (m : MemIn) (flashOk : Bool) (s : State) : Host.Outcome State Fault Refusal :=
  .next (ctlWriteBy s 0x11000 fun s => attCmd s false m (fwLoad false flashOk))

/-- FW_STAGE. -/
def execFwStage (m : MemIn) (flashOk : Bool) (s : State) : Host.Outcome State Fault Refusal :=
  .next (ctlWriteBy s 0x11000 fun s => attCmd s false m (fwLoad true flashOk))

/-- FW_ACTIVATE. -/
def execFwActivate (m : MemIn) (s : State) : Host.Outcome State Fault Refusal := .next (ctlWriteBy s 0x11000 fun s => attCmd s false m fwActivate)

/-- FW_ABANDON. -/
def execFwAbandon (m : MemIn) (s : State) : Host.Outcome State Fault Refusal := .next (ctlWriteBy s 0x11000 fun s => attCmd s false m fwAbandon)

/-- ENDORSE. -/
def execEndorse (m : MemIn) (flashOk : Bool) (s : State) : Host.Outcome State Fault Refusal :=
  .next (ctlWriteBy s 0x11000 fun s => attCmd s false m (endorse flashOk))

/-- CERT_STORE. -/
def execCertStore (m : MemIn) (flashOk : Bool) (s : State) : Host.Outcome State Fault Refusal :=
  .next (ctlWriteBy s 0x11000 fun s => attCmd s false m (certStore flashOk))

end Sys2Proof.Machine
end

