-- ==== Sys2Proof/Machine/Checks.lean ====
section
/-!
DEFINITION. The block's own checks: what a failing check, an uncorrectable word or a crossing's parity error does (11 R327 to R329, Tables 11-1, 11-2, 11-7;
06 R226, R227; 07 R246), and PORT_SELECT, the row of a CCLK, which carries it (10 R313).
-/
namespace Sys2Proof.Machine

/-! ### Engines (11 Table 11-1) -/

/-- A check of a running job fails: its segment is repeated, and a second failure ends it FAILED with BULK_CHECK_FAIL (07 R246). A compare of
the CHECK field needs DUAL. -/
def jobCheck (s : State) (id : Nat) (ghash twice : Bool) : State :=
  match s.bce.jobs.find? fun j => j.id == id && j.engine.isSome with
  | none => s
  | some j =>
    if !ghash && !(jdCheck j.desc == 1 || (jdCheck j.desc == 0 && bit (globCtl s) 7)) then s
    else
      let s := checkRecord s (if ghash then Flc.ghashResidue else Flc.bulkCheck) 4 (if ghash then 24 else j.engine.getD 0) 4 Bc.bulkCheckFail
        (some (jobWho j (jdKeyShelf j.desc) j.addr)) (j.op + 2 ^ 8 * j.seg) twice
      if twice then endJob s j 1 Bc.bulkCheckFail 0 else s

/-- The operations that wait for a derivation end with a reason. -/
def derivationFails (s : State) (h : KeyHandle) (c : Code) : State :=
  (s.ime.ents.filter fun e => e.phase == .keyWait && (entHandles s e).contains h).foldl (fun s e => noKey s e c) s

/-- A check of key services fails: the operation is done again, and a second failure ends it with KEY_CHECK: a key command that waits, else the
derivation under way. -/
def keyCheckFails (s : State) (twice : Bool) : State :=
  let s := checkRecord s Flc.keysvcCheck 5 0 4 Rsn.keyCheck none 0 twice
  if !twice then s
  else
    if s.key.genWait.isSome then keyEnd s Rsn.keyCheck
    else match s.key.missq with
      | [] => s
      | (h, _) :: r => afterMem (derivationFails { s with key := { s.key with missq := r } } h Rsn.keyCheck)

/-- A GHASH unit fails over a frame of a port: a second failure withholds an outgoing frame and resets the port, and drops an incoming one, which
is answered with NAK (05 R165). -/
def frameCheck (s : State) (e : Nat) (out twice : Bool) : State :=
  if !portOpen s e then s
  else
    let s := checkRecord s Flc.ghashResidue 2 (qpOfLnk e) (if out then 5 else 4) 0#8 none 0 twice
    if !twice then s else if out then startRung s 1 (qpOfLnk e) Flc.ghashResidue else sendNak s e

/-! ### Arrays (11 R328, Table 11-2) -/

/-- The record of an uncorrectable word: LOCATION is the place of its holder in Table 11-2. -/
def arrayRecord (s : State) (u holder act : Nat) (rsn : Code) (who : Option Who) (detail : Nat) : State :=
  record s Flc.arrayUncorrectable u holder act rsn who detail

/-- A clean cache entry is invalidated: it is derived or fetched again. In the IME the entries of the counter cache come before those of the
catalogue cache. -/
def cleanLost (s : State) (unit entry : Nat) : State :=
  let s := arrayRecord s unit 0 2 0#8 none 0
  if unit = 5 then { s with key := { s.key with dkc := s.key.dkc.eraseIdx entry } }
  else if unit = 0 then { s with lane := { s.lane with ctx := tdel s.lane.ctx entry } }
  else
    let clean := fun (x : Nat × Nat × Nat) => !(x.2.1 == 0 && s.ime.dirty.any fun d => d.1 == x.1 && d.2.1 == x.2.2)
    match s.ime.cached[entry]? with
    | some x => if clean x then { s with ime := { s.ime with cached := s.ime.cached.eraseIdx entry } } else s
    | none => { s with ime := { s.ime with catCache := s.ime.catCache.eraseIdx (entry - s.ime.cached.length) } }

/-- A dirty counter line is lost: it is counted, its region's RENEW is set, and memory keeps what it held (04 R134). -/
def counterLost (s : State) (ix page : Nat) : State :=
  match s.ime.dirty.find? fun d => d.1 == ix && d.2.1 == page with
  | none => s
  | some d =>
    let s := setCtr (arrayRecord s 1 1 0 0#8 none (2 ^ 32)) ix page d.2.2
    let s := { s with ime := { s.ime with
      dirty := s.ime.dirty.filter fun x => !(x.1 == ix && x.2.1 == page)
      cached := s.ime.cached.filter fun x => x != (ix, 0, page)
      lostCounters := satAdd 32 s.ime.lostCounters 1 } }
    if ix = catIx then renewCatalogue s
    else { s with ime := { s.ime with
      cat := tmod s.ime.cat ix fun r => if r.state ≠ 0 then { r with renew := true, state := 2, sweepPtr := 0 } else r
      renewed := s.ime.renewed.filter fun x => x.1 != ix } }

/-- A vault half is zeroised; what waits on it completes REFUSED with KEY_REVOKED (03 R95). -/
def halfLost (s : State) (slot half : Nat) : State :=
  match slotAt s slot with
  | none => s
  | some v =>
    if (halfOf v half).isNone then s
    else afterMem (zeroHalf (jobsRevoked (arrayRecord s 5 2 4 Rsn.keyRevoked none slot) slot half) slot half)

/-- A request completes with ARRAY_ERROR. -/
def requestLost (s : State) (seq : Nat) : State :=
  match entAt s seq with
  | none => s
  | some e =>
    let s := arrayRecord s 1 5 4 Rsn.arrayError (some e.who) e.who.tag
    afterMem
      (if e.answered then dropEnt s seq
       else if e.kind = .cread ∨ e.kind = .cwrite then blkLine (dropEnt s seq) e.n e.lineIx 0#512 Rsn.arrayError
       else refuseEnt s e Rsn.arrayError false (needsRd e.kind && !needsWr e.kind))

/-- Any other CORE state: a CORE warm reset (11 Table 11-2). -/
def coreLost (s : State) (unit : Nat) : State := startRung (arrayRecord s unit 7 7 0#8 none 0) 3 0 Flc.arrayUncorrectable

/-- A crossing FIFO's parity: a port reset, a HOST reset or a block warm recovery, as the crossing is (11 Table 11-7). -/
def fifoParity (s : State) (d : Nat) : State :=
  if d = 0 then startRung (recordPlain s Flc.fifoParity 8 0 8) 4 0 Flc.fifoParity
  else if d = 1 then startRung (recordPlain s Flc.fifoParity 8 1 6) 2 0 Flc.fifoParity
  else if portPresent s (d - 2) then startRung (recordPlain s Flc.fifoParity 8 d 5) 1 (d - 2) Flc.fifoParity
  else s

/-! ### One CCLK -/

/-- What the checks of a CCLK do, at the port of the row. -/
def upsetTakes (s : State) (q : Nat) : Upset → State
  | .none_ => s
  | .frameOut twice => if 4 ≤ q then frameCheck s (q - 4) true twice else s
  | .frameIn twice => if 4 ≤ q then frameCheck s (q - 4) false twice else s
  | .sreData dual twice => { s with sre := { s.sre with flaw := some (dual, twice) } }
  | .sreChunk ix twice => collCheck s ix Flc.ghashResidue 25 twice
  | .bulk id ghash twice => jobCheck s id ghash twice
  | .keys twice => keyCheckFails s twice
  | .corrected unit array => recordPlain s Flc.arrayCorrected unit array 1
  | .cleanLost unit entry => cleanLost s unit entry
  | .counterLost ix page => counterLost s ix page
  | .halfLost slot half => halfLost s slot half
  | .earlyLost i =>
    match s.sre.eab[i]? with
    | some e =>
      let s := arrayRecord s 3 3 0 0#8 none 0
      { s with sre := { s.sre with eab := s.sre.eab.set i { e with lost := true } } }
    | none => s
  | .chunkLost ix =>
    match tget s.sre.colls ix with
    | some c => abortColl (arrayRecord s 3 3 4 Rsn.arrayError (some (collWho c (cdRedShelf c.desc) 0)) (cdGroup c.desc + 2 ^ 32 * cdColl c.desc)) ix Rsn.arrayError 0 c.me
    | none => s
  | .segmentLost id =>
    match s.bce.jobs.find? fun j => j.id == id && j.opened with
    | some j => endJob (arrayRecord s 4 4 4 Rsn.arrayError (some (jobWho j (jdKeyShelf j.desc) j.addr)) 0) j 1 Rsn.arrayError 0
    | none => s
  | .copyLost ix => if (tget s.bce.cuts ix).isSome then cutFails (arrayRecord s 4 4 4 Rsn.arrayError none 0) ix Rsn.arrayError else s
  | .requestLost seq => requestLost s seq
  | .origLost ix =>
    match tget s.ile.orig ix with
    | some o => endOrig (arrayRecord s 2 5 4 Rsn.arrayError (some o.who) o.who.tag) ix o Rsn.arrayError []
    | none => s
  | .frameLost =>
    if 4 ≤ q then startRung (arrayRecord s 2 5 5 0#8 none 0) 1 q Flc.arrayUncorrectable else s
  | .hostLost => startRung (arrayRecord s 7 6 6 0#8 none 0) 2 0 Flc.arrayUncorrectable
  | .coreLost unit => coreLost s unit
  | .parity d => fifoParity s d
  | .lane i twice => { s with lane := { s.lane with flaw := tput s.lane.flaw i twice } }
  | .cclk mhz => { s with gen := { s.gen with cclkMhz := mhz } }

/-- One CCLK at a present port: what its checks show, then its selection; a frame withheld is not sent (10 R313; 11 Table 11-1). -/
def portCycle (s : State) (q : Nat) (u : Upset) : State :=
  if !portPresent s q || !s.pin.pwrok || coreDown s then s
  else
    let t := upsetTakes s q u
    endFailed (if u = .frameOut true ∧ 4 ≤ q ∧ portOpen s (q - 4) = true then t else portSelect t q)

/-- PORT_SELECT (10 R313; 11 R327 to R329). -/
def execPortSelect (port : Nat) (u : Upset) (s : State) : Host.Outcome State Fault Refusal := .next (portCycle s port u)

end Sys2Proof.Machine
end

