-- ==== Sys2Proof/Machine/Ide.lean ====
section
/-!
DEFINITION. The host link IDE key commands (12 R387 to R390).
-/
namespace Sys2Proof.Machine

/-- Whether an operand names a stream, and another is in range. -/
def ideArgs (b : List Byte) (limit : Nat) : Bool := decide (aoArg b < 28) && decide (aoArg2 b < limit)

/-- IDE_BIND: no stream open, and a valid point. -/
def ideBind (b : List Byte) : State → MemIn → AttRes :=
  attIn b (· == 96) fun r s _ =>
    if (List.range 28).any fun k => ideState s k != 0 then attNo s Ac.ideBusy
    else if !Config.onCurve (b768 r) then attNo s Ac.attMalformed
    else attDone { s with att := { s.att with ideRecv := some (b768 r) } }

/-- Place the secret of an exchange: current in an EMPTY slot, staged beside a current half (12 R388). -/
def idePlace (k stream : Nat) (key : BitVec 256) (s : State) : State :=
  let s := if (slotAt s (ideSlot k)).isNone then fillSlot s (ideSlot k) 4 (tenantClass s) 0 0 ownMasks key else stageHalf s (ideSlot k) ownMasks key
  { s with att := { s.att with ide := tput s.att.ide k { streamId := stream, keySet := ((tget s.att.ide k).map (·.keySet)).getD 0 } } }

/-- The reply of an exchange before its signature. -/
def ideReply (s : State) (k stream : Nat) (host nonce pub : List Byte) : List Byte :=
  leBytes 1 1 ++ leBytes 1 k ++ leBytes 1 stream ++ zeros 5 ++ leBytes 8 (instId s) ++ nonce ++ host ++ pub

/-- The reply of IDE_KEYEX, with the key it places. -/
def drawKeyex (k arg : Nat) (r b : List Byte) (s : State) (m : MemIn) : AttRes :=
  match identity s with
  | none => attNo s Ac.noIdentity
  | some d =>
    let host := r.take 96
    let (e, s) := drbgTake 384 s
    let key := sha256of (bytes48 (Config.ecdhX e (b768 host)))
    let body := ideReply s k arg host (slice r 96 32) (bytes96 (Config.pubOf e))
    attOut b (body ++ idSign d body) (idePlace k arg key) s m

/-- IDE_KEYEX. -/
def ideKeyex (b : List Byte) : State → MemIn → AttRes :=
  attIn b (· == 128) fun r s m =>
    let k := aoArg b
    if (identity s).isNone then attNo s Ac.noIdentity
    else if !ideArgs b 256 ∨ !Config.onCurve (b768 (r.take 96)) then attNo s Ac.attMalformed
    else if ideState s k = 2 then attNo s Ac.ideState
    else attSeed b (.keyex k (aoArg2 b) r) (drawKeyex k (aoArg2 b) r) s m

/-- QUALIFIER of an IDE_STREAM key (12 R389). -/
def ideQual (stream sub dir set : Nat) : Nat := stream + sub * 2 ^ 8 + dir * 2 ^ 16 + set * 2 ^ 24

/-- The derivation of an IDE_STREAM key from a half (03 Table 3-10). -/
def ideHandle (k half qual : Nat) : KeyHandle :=
  { slot := ideSlot k, half := half, purpose := 0x0501, volume := 0xFF, bits := 256, tenant := 0, folio := 0, instId := 0, qualifier := qual, generation := 0 }

/-- The six keys of a half, direction 0 first: posted, non-posted, completion. -/
def ideKeys (s : State) (k half stream set : Nat) : List Byte :=
  (List.range 6).flatMap fun i => (derive s (ideHandle k half (ideQual stream (i % 3) (i / 3) set))).getD (zeros 32)

/-- The half that IDE_DELIVER names, where it is present. -/
def ideHalf (s : State) (k : Nat) (staged : Bool) : Option Nat :=
  (slotAt s (ideSlot k)).bind fun v => if !staged then some (curHalf v) else if v.staged.isSome then some ((v.genCur + 1) % 2) else none

/-- The record that seals six keys to the receiver. -/
def ideRecord (s : State) (k stream set : Nat) (recv : BitVec 768) (keys : List Byte) : List Byte × State :=
  let n := s.att.delivery + 1
  let (e, s) := drbgTake 384 s
  let (iv, s) := drbgTake 96 s
  let head := leBytes 1 1 ++ leBytes 1 k ++ leBytes 1 stream ++ leBytes 1 set ++ leBytes 4 n ++ (shaBytes (bytes96 recv)).take 16 ++ zeros 8
    ++ bytes96 (Config.pubOf e) ++ leBytes 12 iv.toNat ++ zeros 4
  (head ++ gcmSeal (wrapKey s (Config.ecdhX e recv) 0 (domainId s) n) (leBytes 12 iv.toNat) head keys, s)

/-- The record of IDE_DELIVER, and the DELIVERY count it takes. -/
def drawDeliver (k h set : Nat) (b : List Byte) (s : State) (m : MemIn) : AttRes :=
  match s.att.ideRecv, tget s.att.ide k with
  | some recv, some v =>
    let (r, s) := ideRecord s k v.streamId set recv (ideKeys s k h v.streamId set)
    attOut b r (fun s => { s with att := { s.att with delivery := s.att.delivery + 1, ide := tput s.att.ide k { v with keySet := set } } }) s m
  | _, _ => attNo s Ac.ideState

/-- IDE_DELIVER. -/
def ideDeliver (b : List Byte) (s : State) (m : MemIn) : AttRes :=
  let k := aoArg b
  let set := bits (aoArg2 b) 1 1
  if !ideArgs b 4 then attNo s Ac.attMalformed
  else match ideHalf s k (bit (aoArg2 b) 0), s.att.ideRecv, tget s.att.ide k with
    | some h, some _, some _ => attSeed b (.deliver k h set) (drawDeliver k h set) s m
    | _, _, _ => attNo s Ac.ideState

/-- IDE_SWITCH: the staged half becomes current and the previous one is zeroised. -/
def ideSwitch (b : List Byte) (s : State) (_ : MemIn) : AttRes :=
  if 28 ≤ aoArg b then attNo s Ac.attMalformed
  else if ideState s (aoArg b) ≠ 2 then attNo s Ac.ideState
  else
    let g := ((slotAt s (ideSlot (aoArg b))).map (·.genCur)).getD 0
    attDone (genReached (retireHalf (activateHalf s (ideSlot (aoArg b))) (ideSlot (aoArg b))) (ideSlot (aoArg b)) g (g + 1))

/-- IDE_CLOSE: both halves zeroised. -/
def ideClose (b : List Byte) (s : State) (_ : MemIn) : AttRes :=
  if 28 ≤ aoArg b then attNo s Ac.attMalformed
  else attDone { emptySlot s (ideSlot (aoArg b)) with att := { s.att with ide := tdel s.att.ide (aoArg b) } }

/-- IDE_BIND. -/
def execIdeBind (m : MemIn) (s : State) : Host.Outcome State Fault Refusal := .next (ctlWriteBy s 0x11000 fun s => attCmd s false m ideBind)

/-- IDE_KEYEX. -/
def execIdeKeyex (m : MemIn) (s : State) : Host.Outcome State Fault Refusal := .next (ctlWriteBy s 0x11000 fun s => attCmd s false m ideKeyex)

/-- IDE_DELIVER. -/
def execIdeDeliver (m : MemIn) (s : State) : Host.Outcome State Fault Refusal := .next (ctlWriteBy s 0x11000 fun s => attCmd s false m ideDeliver)

/-- IDE_SWITCH. -/
def execIdeSwitch (m : MemIn) (s : State) : Host.Outcome State Fault Refusal := .next (ctlWriteBy s 0x11000 fun s => attCmd s false m ideSwitch)

/-- IDE_CLOSE. -/
def execIdeClose (m : MemIn) (s : State) : Host.Outcome State Fault Refusal := .next (ctlWriteBy s 0x11000 fun s => attCmd s false m ideClose)

end Sys2Proof.Machine
end

