-- ==== Sys2Proof/Machine/Lcs.lean ====
section
/-!
DEFINITION. The life-cycle commands: action records, transitions, debug, the floor and the standing list, and the fuse blows they wait for (13 R401 to R414; 14 R445).
-/
namespace Sys2Proof.Machine

/-- A command of LCS_CMD ends: CODE, and the LCS source (13 Table 13-12; 15 Table 15-5). -/
def lcsEnd (s : State) (c : Code) : State := raiseIrq { s with lcs := { s.lcs with cmdBusy := false, code := c, act := none } } 7

/-! ### Fuse blows (13 R402, R412; 14 R445) -/

/-- The bits to blow so that a field of `n` bits from bit `lo` on holds a value. -/
def onesOf (lo n v : Nat) : List Nat := ((List.range n).filter fun i => bit v i).map (lo + ·)

/-- The first bit to blow is asked for; none is left where the list is empty. -/
def askBlow (s : State) (a : LcsAct) : State :=
  match a.bits with
  | b :: _ => emit { s with lcs := { s.lcs with act := some a, cmdBusy := true } } (.fuseBlow b)
  | [] => s

/-- Whether a field of T2 already has a blown bit (13 R402). -/
def t2Dirty (f : BitVec 8192) : Bool := decide (0 < countBits f 0 512 + countBits f 512 384 + countBits f 1024 64)

/-- The bits T2 blows: the serial, the maker key hash, and one drawn value in both copies of the bedrock. -/
def t2Bits (b : List Byte) (draw : Nat) : List Nat :=
  onesOf 1024 64 (arSerial b) ++ onesOf 512 384 (Config.sha384 (arKey b)).toNat ++ onesOf 0 256 draw ++ onesOf 256 256 draw

/-- The bits that raise CHR_FLOOR to a count, the lowest unblown first (13 R412). -/
def floorBits (f : BitVec 8192) (to_ : Nat) : List Nat :=
  (((List.range 128).filter fun i => !f.getLsbD (896 + i)).take (to_ - floorCount f)).map (896 + ·)

/-! ### Transitions (13 Table 13-5) -/

/-- T3 and T4: the intent, the TRANSITION entry, DONE and the block warm recovery. An entry that cannot be appended takes the intent with it. -/
def t3 (s : State) (b : List Byte) (flashOk : Bool) : State :=
  let st := s.lcs.st
  let to_ := arArg b
  let s := emit s (.flashOp "intent")
  if !flashOk then lcsEnd (flashFail s) Lc.lcsFlashFailed
  else
    let c := accRoom s (decide (4 ≤ to_))
    match accKeyNow s with
    | none => lcsEnd (emit s (.flashOp "erase intent")) Rsn.bedrockFail
    | some k =>
      if c ≠ 0#8 then lcsEnd (emit s (.flashOp "erase intent")) c
      else
        let body := intentBody st to_ s.lcs.accCount (forerunner s) (arDigest b)
        let s := { s with flash := { s.flash with intent := some { bytes := body ++ blkBytes (cmac k.1 body) } }, lcs := { s.lcs with intentPending := true } }
        let s := (accWrite s k { action := 1, role := arRole b, before := st, after := to_, arg := to_, subject := arDigest b } true).2
        startRung (lcsEnd s 0#8) 4 0 0xFF

/-- T2: the value is drawn and its bits are blown; it waits, as an action without bits, while the entropy tests repeat (13 R402; 03 R100). -/
def t2 (s : State) (b : List Byte) (flashOk : Bool) : State :=
  let a : LcsAct := { record := b, bits := [], tries := 0, flashOk := flashOk }
  if drbgWaits s then { s with lcs := { s.lcs with cmdBusy := true, act := some a } }
  else if !drbgServes s then lcsEnd s Rsn.drbgFail
  else if t2Dirty s.fuse.blown then lcsEnd s Lc.fuseDirty
  else
    let (v, s) := drbgTake 256 s
    askBlow s { a with bits := t2Bits b v.toNat }

/-- T1 after the record's own checks. -/
def transition (s : State) (b : List Byte) (flashOk : Bool) : State :=
  let st := s.lcs.st
  if s.lcs.debug ∧ st ≠ 0 ∧ st ≠ 4 then lcsEnd s Lc.debugActive
  else if s.key.bedrockFail then lcsEnd s Rsn.bedrockFail
  else if !(st = 0 ∧ arArg b = 1) then t3 s b flashOk
  else t2 s b flashOk

/-! ### The other actions (13 R408, R412) -/

/-- An action is logged before it takes effect (13 R413). -/
def lcsLogged (s : State) (i : AccInfo) (flashOk : Bool) (k : State → State) : State :=
  let (c, s) := accAppend s i false flashOk
  if c ≠ 0#8 then lcsEnd s c else k s

/-- DEBUG_ENABLE: only scopes the state grants (13 R407, Table 13-14). -/
def debugEnable (s : State) (b : List Byte) (flashOk : Bool) : State :=
  if Nat.land (arArg b) (scopesOf s.lcs.st) ≠ arArg b then lcsEnd s Lc.debugLocked
  else lcsLogged s (accPlain s 2 (arRole b) (arArg b) (arDigest b)) flashOk fun s =>
    startRung (lcsEnd { s with lcs := { s.lcs with debugPending := true, pendingScope := arArg b } } 0#8) 4 0 0xFF

/-- FLOOR_EPOCH of the charter in use (02 Table 2-1). -/
def floorEpoch (s : State) : Nat := bits (chrSeq s) 48 16

/-- RAISE_FLOOR. -/
def raiseFloor (s : State) (b : List Byte) (flashOk : Bool) : State :=
  if arArg b ≤ floorCount s.fuse.shadow ∨ floorEpoch s < arArg b then lcsEnd s Lc.floorOrder
  else lcsLogged s (accPlain s 4 (arRole b) (arArg b) (arDigest b)) flashOk fun s =>
    askBlow s { record := b, bits := floorBits s.fuse.shadow (arArg b), tries := 0, flashOk := flashOk }

/-- The standing list without the named entry, or empty; PERMANENT falls with an empty list (13 R412). -/
def clearStanding (s : State) (arg : Nat) : State :=
  let l := if arg = 0xFFFF then [] else s.flash.standing.eraseIdx arg
  emit { s with flash := { s.flash with standing := l }, flt := { s.flt with permanent := s.flt.permanent && !l.isEmpty } } (.flashOp "standing list")

/-- CLEAR_STANDING. -/
def clearStandingAct (s : State) (b : List Byte) (flashOk : Bool) : State :=
  lcsLogged s (accPlain s 5 (arRole b) (arArg b) (arDigest b)) flashOk fun s => lcsEnd (clearStanding s (arArg b)) 0#8

/-- DEBUG_DISABLE: no record and no subject (13 R408, R413). -/
def debugDisable (s : State) (flashOk : Bool) : State :=
  lcsLogged s (accPlain s 3 0 0 []) flashOk fun s =>
    startRung (lcsEnd { s with lcs := { s.lcs with debugPending := false, pendingScope := 0 } } 0#8) 4 0 0xFF

/-! ### LCS_CMD (13 R414) -/

/-- A record that reached its check: R410 steps 1 to 5, a charter load under way, and the action (log 77). -/
def lcsAct (s : State) (b : List Byte) (flashOk : Bool) : State :=
  let c := arChecks s b
  if c ≠ 0#8 then lcsEnd s c
  else if s.gen.chrBusy ∨ s.att.cmdBusy then lcsEnd s Lc.lcsBusy
  else if arAction b = 1 then transition s b flashOk
  else if arAction b = 2 then debugEnable s b flashOk
  else if arAction b = 4 then raiseFloor s b flashOk
  else clearStandingAct s b flashOk

/-- A command is taken, unless one runs: then OVERRUN rises and nothing else changes (13 R414). -/
def lcsTake (s : State) (f : State → State) : State :=
  if s.lcs.cmdBusy then { s with lcs := { s.lcs with overrun := true } }
  else
    let s := { s with lcs := { s.lcs with overrun := false } }
    if coreDown s ∨ s.lcs.intentPending then lcsEnd s Lc.lcsBusy else f s

/-- SUBMIT: the record of the LCS_STAGE window, or the one at LCS_CMD_ADDR. -/
def lcsSubmit (s : State) (source : Bool) (m : MemIn) (flashOk : Bool) : State :=
  lcsTake s fun s =>
    if source then lcsAct s (bufBytes s.lcs.stage 0 304) flashOk
    else if s.gen.unchartered then lcsEnd s Lc.lcsBusy
    else match ctlRead s s.lcs.cmdShelf.toNat s.lcs.cmdAddr.toNat 304 m with
      | (.error c, s, _) => lcsEnd s c
      | (.ok b, s, _) => lcsAct s b flashOk

/-- A write to LCS_CMD (13 Table 13-11). -/
def lcsCmd (s : State) (v : Word) (m : MemIn) (flashOk : Bool) : State :=
  let op := bits v.toNat 0 8
  if op = 1 then lcsSubmit s (bit v.toNat 8) m flashOk
  else if op = 2 then lcsTake s fun s => debugDisable s flashOk
  else lcsTake s fun s => lcsEnd s Lc.lcsMalformed

/-! ### The end of a blow (14 R445) -/

/-- The action whose blows are over goes on: T3, or DONE. -/
def blowsDone (s : State) (a : LcsAct) : State := if arAction a.record = 1 then t3 s a.record a.flashOk else lcsEnd s 0#8

/-- FUSE_PGM_ACK: the word is read back into the shadow; a bit still unblown is blown again, in 8 slots at most. -/
def fuseAck (s : State) (blown : Bool) : State :=
  if !s.pin.pwrok then s
  else match s.lcs.act with
  | none => s
  | some a =>
    match a.bits with
    | [] => s
    | b :: rest =>
      let s := if blown then { s with fuse := { s.fuse with blown := s.fuse.blown ||| (1#8192 <<< b) } } else s
      let w := b / 32 * 32
      let word := (s.fuse.blown.extractLsb' w 32).zeroExtend 8192 <<< w
      let s := { s with fuse := { s.fuse with shadow := s.fuse.shadow ||| word } }
      let next : LcsAct := if blown ∨ 7 ≤ a.tries then { a with bits := rest, tries := 0 } else { a with tries := a.tries + 1 }
      if next.bits = [] then blowsDone s next else askBlow s next

/-- TRANSITION: LCS_CMD submits a record (13 R401). -/
def execTransition (source : Bool) (m : MemIn) (flashOk : Bool) (s : State) : Host.Outcome State Fault Refusal :=
  .next (ctlWriteBy s 0x14000 fun s => lcsSubmit s source m flashOk)

/-- DEBUG_ENABLE: LCS_CMD submits a record (13 R408). -/
def execDebugEnable (source : Bool) (m : MemIn) (flashOk : Bool) (s : State) : Host.Outcome State Fault Refusal :=
  .next (ctlWriteBy s 0x14000 fun s => lcsSubmit s source m flashOk)

/-- DEBUG_DISABLE (13 R408). -/
def execDebugDisable (flashOk : Bool) (s : State) : Host.Outcome State Fault Refusal :=
  .next (ctlWriteBy s 0x14000 fun s => lcsTake s fun s => debugDisable s flashOk)

/-- RAISE_FLOOR: LCS_CMD submits a record (13 R412). -/
def execRaiseFloor (source : Bool) (m : MemIn) (flashOk : Bool) (s : State) : Host.Outcome State Fault Refusal :=
  .next (ctlWriteBy s 0x14000 fun s => lcsSubmit s source m flashOk)

/-- CLEAR_STANDING: LCS_CMD submits a record (13 R412). -/
def execClearStanding (source : Bool) (m : MemIn) (flashOk : Bool) (s : State) : Host.Outcome State Fault Refusal :=
  .next (ctlWriteBy s 0x14000 fun s => lcsSubmit s source m flashOk)

/-- FUSE_PGM_ACK (14 R445). -/
def execFusePgmAck (blown : Bool) (s : State) : Host.Outcome State Fault Refusal := .next (fuseAck s blown)

end Sys2Proof.Machine
end

