-- ==== Sys2Proof/Machine/Regs.lean ====
section
/-!
DEFINITION. The register window: what every register reads as, what a plain write sets, wide registers, and the commit pairs (00 R10, R11; 14 R438, R439; 15 R451 to
R471). Offsets are byte offsets in the window.
-/
namespace Sys2Proof.Machine

/-! ### Commit pairs (15 R467, R468) -/

/-- A commit ends: PAIR, PORT and CODE, and the COMMIT source. -/
def commitEnd (s : State) (pair port code : Nat) : State :=
  raiseIrq { s with gen := { s.gen with commitCode := BitVec.ofNat 8 code, commitPair := pair, commitPort := port } } 10

/-- TIMEOUT_MS of an SRE_CTRL value, HOLD_MS of an SRE_EAB_CTRL value. -/
def sreTimeout (w : Word) : Nat := bits w.toNat 16 16
def sreHold (w : Word) : Nat := bits w.toNat 0 16

/-- A commit of pair 1, SRE_TIMING: HOLD_MS is at least TIMEOUT_MS. -/
def commitSre (s : State) : State :=
  if sreHold s.sre.eabShadow < sreTimeout s.sre.ctrlShadow then commitEnd s 1 0 1
  else commitEnd { s with sre := { s.sre with ctrl := s.sre.ctrlShadow, eabCtrl := s.sre.eabShadow } } 1 0 0

/-- The shaping shadows of a port. -/
def shadowOf (s : State) (e : Nat) : ShapeRegs := ((lportAt s e).shadow).getD (shapeOf s e)

/-- Whether every VC with a cadence is CONSTANT. -/
def shapeAgrees (r : ShapeRegs) : Bool := (List.range 8).all fun v => bits r.cad.toNat (8 * v) 8 == 0 || bits r.mode.toNat (2 * v) 2 == 2

/-- Whether a QOS_STAT_SEL.PORT code is a present link or D2D port. -/
def linkCode (s : State) (q : Nat) : Bool := decide (4 ≤ q) && decide (q < 24) && lnkPresent s (q - 4)

/-- A commit of pair 2, SHAPE, of a port. -/
def commitShape (s : State) (q : Nat) : State :=
  if !linkCode s q then commitEnd s 2 q 2
  else if !shapeAgrees (shadowOf s (q - 4)) then commitEnd s 2 q 1
  else
    let v := shadowOf s (q - 4)
    commitEnd (setLport s (q - 4) { lportAt s (q - 4) with shape := some v, shadow := some v }) 2 q 0

/-- A write to GEN_COMMIT. -/
def commitWrite (s : State) (v : Word) : State :=
  let pair := bits v.toNat 0 4
  let port := bits v.toNat 8 5
  if pair = 1 then commitSre s else if pair = 2 then commitShape s port else commitEnd s pair port 2

/-! ### Windows (11 R335, R351; 13 R413; 15 R456, R470, R471) -/

/-- A standing entry as FLT_ANNALS_DATA shows it: its fields where a record has them (log 78). -/
def standingBytes (x : Nat × Nat × Nat) : List Byte := leBytes 1 x.1 ++ zeros 2 ++ leBytes 1 x.2.1 ++ leBytes 2 x.2.2

/-- FLT_ANNALS_DATA. -/
def annalsData (s : State) : List Byte :=
  let u := bits s.flt.annalsSel.toNat 16 4
  let i := bits s.flt.annalsSel.toNat 0 10
  if u = 15 then ((s.flash.standing[i]?).map standingBytes).getD []
  else (((dget [] s.flash.rings u)[i]?).map recordBytes).getD []

/-- FLT_DUMP_DATA. -/
def dumpData (s : State) : List Byte :=
  let w := s.flt.dumpSel.toNat
  let d := if bit w 17 then s.flt.dump else tget s.flash.dumps (bits w 16 1)
  (d.map fun d => slice (dumpBytes d) (64 * bits w 0 10) 64).getD []

/-- LCS_ACC_DATA; zeros beyond the count, and where a position is void. -/
def accData (s : State) : List Byte :=
  let i := bits s.lcs.accSel.toNat 0 16
  if s.lcs.accCount ≤ i then [] else (tget s.flash.accession i).getD []

/-- LCS_ACC_HEAD. -/
def accHead (s : State) : Nat := s.lcs.accCount % 2 ^ 32 + s.lcs.accChain.toNat % 2 ^ 64 * 2 ^ 32

/-- The word of a response buffer. -/
def bytesWord (b : List Byte) (off : Nat) : Nat := fld b off 4

/-! ### What registers read as (15 Tables 15-2 to 15-14) -/

/-- GEN_VER_DATA (15 Table 15-3). -/
def verData (s : State) : Nat :=
  let c := bits s.gen.verSel.toNat 0 3
  if c = 0 then 0 else nativeMask c + foreMask c + (if s.gen.unchartered then 0 else offerNow s c) * 2 ^ 16

/-- QOS_STAT_DATA (10 R326). Selectors 24 to 26 have no budget counter. -/
def statData (s : State) : Nat :=
  let w := s.qos.statSel.toNat
  let q := bits w 8 5
  let c := bits w 0 4
  let k := bits w 13 3
  let v := statAt s q c
  if 24 ≤ q ∧ (k = 0 ∨ k = 1 ∨ k = 5 ∨ k = 6) then 0
  else if k = 0 then v.tier0 else if k = 1 then v.tier1 else if k = 2 then v.served else if k = 3 then v.late else if k = 4 then v.refused
  else if k = 5 then v.agedN else if k = 6 then creditAt s q c else v.lateMax

/-- GEN_ registers. -/
def genReg (s : State) (off : Nat) : Option Nat :=
  if off = 0x00 then some 0x53483438
  else if off = 0x04 then some s.cfg.hwRev.toNat
  else if off = 0x08 then some s.cfg.configId.toNat
  else if off = 0x0C then some (s.cfg.lanes * 2 ^ 24 + s.cfg.sreLog2 * 2 ^ 20 + s.cfg.memPorts * 2 ^ 17 + s.cfg.lnkPorts * 2 ^ 12 + s.cfg.d2dPorts * 2 ^ 9)
  else if off = 0x10 then some (s.cfg.catLog2 * 2 ^ 16 + s.cfg.ctrLog2 * 2 ^ 8 + s.cfg.eabLog2)
  else if off = 0x14 then some s.gen.verSel.toNat
  else if off = 0x18 then some (verData s)
  else if off = 0x20 then some (genStatus s)
  else if off = 0x24 then some (startStatus s)
  else if off = 0x28 then some (compatWord s)
  else if off = 0x2C then some (cclkFreq s)
  else if off = 0x40 then some s.gen.chrBase.toNat
  else if off = 0x48 then some s.gen.chrShelf.toNat
  else if off = 0x4C then some s.gen.chrLen.toNat
  else if off = 0x50 then some 0
  else if off = 0x54 then some (chrStatus s)
  else if off = 0x58 then some (chrSeq s)
  else if off = 0x60 then some s.gen.funcStop.toNat
  else if off = 0x64 then some s.gen.funcState.toNat
  else if off = 0x80 then some s.gen.irqStatus.toNat
  else if off = 0x84 then some s.gen.irqEnable.toNat
  else if off = 0xA0 then some 0
  else if off = 0xA4 then some (commitStatus s)
  else if 0x100 ≤ off ∧ off < 0x154 then some (laneWord s ((off - 0x100) / 4))
  else if off = 0x180 then some s.gen.portSel.toNat
  else if off = 0x188 then some (portInfo s)
  else none

/-- KEY_ and IME_ registers. -/
def keyImeReg (s : State) (off : Nat) : Option Nat :=
  let sel := bits s.key.slotSel.toNat 0 10
  let v := slotAt s sel
  if off = 0x1000 then some (keyStatus s)
  else if off = 0x1008 then some (geodeStatus s)
  else if off = 0x100C then some 0
  else if off = 0x1010 then some s.key.cmdAddr.toNat
  else if off = 0x1018 then some s.key.cmdShelf.toNat
  else if off = 0x1020 then some s.key.cmdArg.toNat
  else if off = 0x1028 then some (keyCmdStatus s)
  else if off = 0x1040 then some s.key.slotSel.toNat
  else if off = 0x1048 then some (slotAttr s sel)
  else if off = 0x1050 then some ((v.map (·.genCur)).getD 0)
  else if off = 0x1058 then some ((v.map (·.cnt0)).getD 0)
  else if off = 0x1060 then some ((v.map (·.cnt1)).getD 0)
  else if off = 0x2000 then some (imeStatus s)
  else if off = 0x2008 then some 0
  else if off = 0x200C then some (regionStatus s)
  else if off = 0x2010 then some s.ime.cmdAddr.toNat
  else if off = 0x2018 then some s.ime.cmdShelf.toNat
  else if off = 0x2020 then some s.ime.shelveCtrl.toNat
  else if off = 0x2024 then some s.ime.calCtrl.toNat
  else if off = 0x2028 then some (s.ime.formatEpoch % 65536)
  else none

/-- Registers of a link or D2D port's block (15 R462, Table 15-9). -/
def portReg (s : State) (e k : Nat) : Option Nat :=
  let p := lportAt s e
  if !lnkPresent s e then none
  else if k = 0x00 then some (portState s e)
  else if k = 0x04 then some (portStatus s e)
  else if k = 0x08 then some 0
  else if k = 0x0C then some p.rekeyCtrl.toNat
  else if k = 0x10 then some (fb (p.peerInst != 0) 31 + p.peerRole % 2 * 2 ^ 30 + p.peerMember)
  else if k = 0x14 then some p.session
  else if k = 0x18 then some p.txSeq
  else if k = 0x20 then some p.rxSeq
  else if k = 0x28 then some (shapeOf s e).mode.toNat
  else if k = 0x30 then some (shapeOf s e).cad.toNat
  else none

/-- ILE_ registers. -/
def ileReg (s : State) (off : Nat) : Option Nat :=
  if off = 0x4000 then some (ileStatus s)
  else if off = 0x4008 then some s.ile.vcMap.toNat
  else if off = 0x4010 then some s.ile.routeAddr.toNat
  else if off = 0x4014 then some (routeOf s (bits s.ile.routeAddr.toNat 0 14)).toNat
  else if off = 0x4018 then some s.ile.calCtrl.toNat
  else match ileBlock off with
    | some (e, k) => portReg s e k
    | none => none

/-- SRE_, BCE_, QOS_ and HOB_ registers. -/
def engReg (s : State) (off : Nat) : Option Nat :=
  if off = 0x5000 then some s.sre.ctrl.toNat
  else if off = 0x5004 then some s.sre.eabCtrl.toNat
  else if off = 0x5008 then some (sreStatus s)
  else if off = 0x5010 then some 0
  else if off = 0x5014 then some s.sre.groupStatus.toNat
  else if off = 0x5018 then some s.sre.floor
  else if off = 0x6000 then some (bceStatus s)
  else if off = 0x6008 then some s.bce.stratumCtrl.toNat
  else if off = 0x7000 then some s.qos.ctrl.toNat
  else if off = 0x7004 then some s.qos.statSel.toNat
  else if off = 0x7008 then some (statData s)
  else if off = 0x8000 then some s.hob.ctrl.toNat
  else if off = 0x8008 then some (hobStatus s)
  else if off = 0x8010 then some 0
  else if off = 0x8014 then some 0
  else if off = 0x8018 then some s.hob.cmdAddr.toNat
  else if off = 0x8020 then some s.hob.cmdShelf.toNat
  else if off = 0x8024 then some s.hob.cmdArg.toNat
  else if off = 0x8028 then some (hobCmdStatus s)
  else if off = 0x8030 then some s.hob.objSel.toNat
  else if off = 0x8038 then some (objInfo s (bits s.hob.objSel.toNat 0 13))
  else if off = 0x8040 then some s.hob.evtSel.toNat
  else if off = 0x8048 then some (((tget s.hob.events (bits s.hob.evtSel.toNat 0 14)).map (·.value)).getD 0)
  else none

/-- FLT_, ATT_ and LCS_ registers and their data windows read as one value. -/
def aonReg (s : State) (off : Nat) : Option Nat :=
  if off = 0x10000 then some (fltStatus s)
  else if off = 0x10004 then some s.flt.escCtrl.toNat
  else if off = 0x10008 then some s.flt.hangCtrl.toNat
  else if off = 0x1000C then some 0
  else if off = 0x10010 then some (s.flt.waitUs * 2 ^ 16)
  else if off = 0x10014 then some 0
  else if off = 0x10018 then some 0
  else if off = 0x10020 then some s.flt.annalsSel.toNat
  else if off = 0x10024 then some s.flt.dumpSel.toNat
  else if off = 0x10028 then some s.flt.epochSel.toNat
  else if off = 0x10030 then
    let d := domAt s (bits s.flt.epochSel.toNat 0 5)
    some (d.epoch.toNat + d.drops * 2 ^ 32)
  else if off = 0x10040 then some (leNat (annalsData s))
  else if off = 0x10080 then some (leNat (dumpData s))
  else if off = 0x11000 then some 0
  else if off = 0x11004 then some (attCmdStatus s)
  else if off = 0x11008 then some s.att.cmdAddr.toNat
  else if off = 0x11010 then some s.att.cmdShelf.toNat
  else if off = 0x11020 then some s.att.fwTag.toNat
  else if off = 0x11040 then some 0
  else if off = 0x11044 then some (mbxStatus s.att.mbxCtl)
  else if off = 0x14000 then some 0
  else if off = 0x14004 then some (lcsCmdStatus s)
  else if off = 0x14008 then some s.lcs.cmdAddr.toNat
  else if off = 0x14010 then some s.lcs.cmdShelf.toNat
  else if off = 0x14014 then some (lcsState s)
  else if off = 0x14018 then some s.lcs.accSel.toNat
  else if off = 0x14020 then some (accHead s)
  else if off = 0x14080 then some (leNat (accData s))
  else none

/-- The value of the register at a base offset, none where no register is. A write-only register reads zero (00 R10). -/
def regValue (s : State) (off : Nat) : Option Nat :=
  if off < 0x1000 then genReg s off
  else if off < 0x3000 then keyImeReg s off
  else if 0x4000 ≤ off ∧ off < 0x5000 then ileReg s off
  else if 0x5000 ≤ off ∧ off < 0x9000 then engReg s off
  else if 0x10000 ≤ off ∧ off < 0x15000 then aonReg s off
  else none

/-- Registers and data windows of more than one word, with their words; the port blocks' are in `regBase`. -/
def wideRegs : List (Nat × Nat) :=
  [(0x40, 2), (0x58, 2), (0x188, 2), (0x1000, 2), (0x1010, 2), (0x1020, 2), (0x1048, 2), (0x1058, 2), (0x1060, 2), (0x2000, 2), (0x2010, 2),
   (0x4000, 2), (0x4008, 2), (0x5008, 2), (0x6000, 2), (0x7008, 2), (0x8000, 2), (0x8008, 2), (0x8018, 2), (0x8038, 2), (0x8048, 2)]
  ++ [(0x10030, 2), (0x10040, 16), (0x10080, 16), (0x11008, 2), (0x11020, 4), (0x14008, 2), (0x14020, 3), (0x14080, 32)]

/-- The base and width in words of the register an offset falls in. -/
def regBase (off : Nat) : Nat × Nat :=
  match wideRegs.find? fun r => decide (r.1 ≤ off) && decide (off < r.1 + 4 * r.2) with
  | some r => r
  | none =>
    match ileBlock off with
    | some (_, k) => if 0x18 ≤ k ∧ k < 0x38 then (off / 8 * 8, 2) else (off, 1)
    | none => (off, 1)

/-- The plain windows: GEN_CHR_WINDOW, ATT_MBX_REQ, ATT_MBX_RSP, LCS_STAGE (15 R456, R471; log 79). -/
def windowWord (s : State) (off : Nat) : Option Nat :=
  if 0x20000 ≤ off ∧ off < 0x30000 then some (bufWord s.gen.chrWindow (off - 0x20000)).toNat
  else if 0x12000 ≤ off ∧ off < 0x13000 then some (bufWord s.att.mbxCtl.req (off - 0x12000)).toNat
  else if 0x13000 ≤ off ∧ off < 0x14000 then some (bytesWord s.att.mbxCtl.rsp (off - 0x13000))
  else if 0x14100 ≤ off ∧ off < 0x14230 then some (bufWord s.lcs.stage (off - 0x14100)).toNat
  else none

/-- The snapshot of a wide register, taken as its lowest word is read (14 R439). -/
def snapReg (s : State) (base words v : Nat) : State :=
  { s with gen := { s.gen with rlatch := (List.range words).foldl (fun t i => tput t (base + 4 * i) (BitVec.ofNat 32 (bits v (32 * i) 32))) s.gen.rlatch } }

/-- A read of the word at an offset: its value, and the state with the snapshot it leaves. -/
def regRead (s : State) (off : Nat) : Word × State :=
  match windowWord s off with
  | some v => (BitVec.ofNat 32 v, s)
  | none =>
    let (base, words) := regBase off
    match regValue s base with
    | none => (0#32, s)
    | some v =>
      let w := BitVec.ofNat 32 (bits v (8 * (off - base)) 32)
      if words = 1 then (w, s)
      else if off = base then (w, snapReg s base words v)
      else ((tget s.gen.rlatch off).getD w, s)

/-! ### What a write sets (00 R10, R11) -/

/-- A field of a register: its lowest bit, its width, and the values it takes. -/
abbrev RegField := Nat × Nat × (Nat → Bool)

/-- A field that takes every value. -/
def anyValue (_ : Nat) : Bool := true

/-- A field whose values lie in a range. -/
def inRange (lo hi x : Nat) : Bool := decide (lo ≤ x) && decide (x ≤ hi)

/-- The fields of a written value placed in the old one; a reserved encoding leaves its field, and is told. -/
def putFields (old new : Nat) (fs : List RegField) : Nat × Bool :=
  fs.foldl (fun a f => if f.2.2 (bits new f.1 f.2.1) then (putBits a.1 f.1 f.2.1 (bits new f.1 f.2.1), a.2) else (a.1, true)) (old, false)

/-- Write a register's fields, and record an ignored one at the offset of the access. -/
def setFields (s : State) (off old new : Nat) (fs : List RegField) (k : State → Nat → State) : State :=
  let r := putFields old new fs
  let s := k s r.1
  if r.2 then ignoreWrite s (off / 4) else s

/-- An address register (15 R454). -/
def addrFields : List RegField := [(0, 52, anyValue)]

/-- A shelfmark register (15 R454). -/
def shelfFields : List RegField := [(0, 24, anyValue)]

/-- A KEY_CMD by its OP (03 Table 3-12). -/
def keyCmd (s : State) (v : Word) (m : MemIn) : State :=
  let op := bits v.toNat 0 8
  let slot := bits v.toNat 16 10
  if op = 1 then keyRun s (loadWrapped slot m) else if op = 2 then keyRun s (activate slot) else if op = 3 then keyRun s (retirePrev slot)
  else if op = 4 then keyRun s (discardStaged slot) else if op = 5 then keyRun s (zeroise slot) else if op = 6 then genEphemeral s slot
  else keyReserved s

/-- A HOB_CMD by its OP (09 Tables 9-9, 9-10). -/
def hobCmd (s : State) (v : Word) (m : MemIn) : State :=
  let op := bits v.toNat 28 4
  let mode := bit v.toNat 27
  let sl := bits v.toNat 18 9
  let ix := bits v.toNat 0 16
  if op = 11 then sliceReset s sl mode
  else if mode ∨ op = 0 ∨ 11 < op then hobRun s sl true 32 fun s => (Hc.cmdMalformed, s)
  else if op = 1 then hobRun s sl false 2 (ctxCreate sl ix)
  else if op = 2 then hobRun s sl false 0 (ctxDestroy sl ix)
  else if op = 3 then hobRun s sl false 0 (switchCtx sl ix)
  else if op = 4 then hobRun s sl true 0 (queueCreate sl ix m)
  else if op = 5 then hobRun s sl false 0 (queueDestroy sl ix)
  else if op = 6 then hobRun s sl true 0 (eventCreate sl ix m)
  else if op = 7 then hobRun s sl false 0 (eventDestroy sl ix)
  else if op = 8 then objCreate s sl ix m
  else if op = 9 then hobRun s sl false 21 (objAdopt sl ix)
  else hobRun s sl false 0 (objFree sl ix m)

/-- An OP that Table 12-9 reserves. -/
def attReserved (_ : List Byte) (s : State) (_ : MemIn) : AttRes := attNo s Ac.attMalformed

/-- An ATT_CMD by its OP (12 Table 12-9). -/
def attWrite (s : State) (v : Word) (m : MemIn) : State :=
  let op := bits v.toNat 0 8
  if op = 1 then attCmd s false m colophon
  else if op = 2 then attCmd s true m enlistNonce
  else if op = 3 then attCmd s true m enlist
  else if op = 4 then attCmd s true m delist
  else if op = 5 then attCmd s true m lockAdmission
  else if op = 6 then attCmd s true m rosterSign
  else if op = 7 then attCmd s false m rosterLoad
  else if op = 8 then attCmd s false m (appoint true)
  else if op = 9 then attCmd s true m wrapDomain
  else if op = 10 then attCmd s true m genPair
  else if op = 11 then attCmd s true m rekeyIssue
  else if op = 12 then attCmd s false m rekeyApply
  else if op = 13 then attCmd s false m (fwLoad false true)
  else if op = 14 then attCmd s false m (fwLoad true true)
  else if op = 15 then attCmd s false m fwActivate
  else if op = 16 then attCmd s false m fwAbandon
  else if op = 17 then attCmd s false m (endorse true)
  else if op = 18 then attCmd s false m (certStore true)
  else if op = 19 then attCmd s false m ideBind
  else if op = 20 then attCmd s false m ideKeyex
  else if op = 21 then attCmd s false m ideDeliver
  else if op = 22 then attCmd s false m ideSwitch
  else if op = 23 then attCmd s false m ideClose
  else attCmd s false m attReserved

/-- FLT_RESET_REQ: a reset asked for; an encoding without a reset, or an absent port, is ignored (11 R361). -/
def resetReq (s : State) (v : Word) : State :=
  let rung := bits v.toNat 0 3
  let q := bits v.toNat 8 5
  if rung = 0 ∨ 5 < rung ∨ (rung = 1 ∧ !portPresent s q) then ignoreWrite s (0x1000C / 4) else startRung s rung (if rung = 1 then q else 0) 0xFF

/-- FLT_DUMP_CTRL: WAIT_US, and a dump taken on TAKE. -/
def dumpCtrl (s : State) (v : Word) : State :=
  let w := bits v.toNat 16 10
  let s := if inRange 1 1000 w then { s with flt := { s.flt with waitUs := w } } else ignoreWrite s (0x10010 / 4)
  if bit v.toNat 0 then takeDump s 5 0xFF else s

/-- FLT_STATUS: ones clear PERMANENT, DUMP_READY, ANNALS_LOST and IGNORED_WRITE (11 Table 11-10). -/
def fltClear (s : State) (v : Nat) : State :=
  { s with flt := { s.flt with
    permanent := s.flt.permanent && !bit v 31, dumpReady := s.flt.dumpReady && !bit v 29
    annalsLost := s.flt.annalsLost && !bit v 28, ignoredWrite := s.flt.ignoredWrite && !bit v 27 } }

/-- GEN_ registers written. -/
def genWrite (s : State) (off v : Nat) (m : MemIn) (base : Nat) : Option State :=
  let w := BitVec.ofNat 32 v
  let set := fun (old : Nat) (fs : List RegField) (k : State → Nat → State) => some (setFields s off old v fs k)
  if base = 0x14 then set s.gen.verSel.toNat [(0, 3, anyValue)] fun s n => { s with gen := { s.gen with verSel := BitVec.ofNat 32 n } }
  else if base = 0x40 then set s.gen.chrBase.toNat addrFields fun s n => { s with gen := { s.gen with chrBase := BitVec.ofNat 64 n } }
  else if base = 0x48 then set s.gen.chrShelf.toNat shelfFields fun s n => { s with gen := { s.gen with chrShelf := BitVec.ofNat 32 n } }
  else if base = 0x4C then set s.gen.chrLen.toNat [(0, 17, inRange 16 65536)] fun s n => { s with gen := { s.gen with chrLen := BitVec.ofNat 32 n } }
  else if base = 0x50 then some (if bit v 0 then charterLoad s (bit v 1) m true else s)
  else if base = 0x60 then some (funcStopWrite s w)
  else if base = 0x80 then some { s with gen := { s.gen with irqStatus := s.gen.irqStatus &&& ~~~w } }
  else if base = 0x84 then set s.gen.irqEnable.toNat [(0, 11, anyValue)] fun s n => { s with gen := { s.gen with irqEnable := BitVec.ofNat 32 n } }
  else if base = 0xA0 then some (commitWrite s w)
  else if base = 0x180 then set s.gen.portSel.toNat [(0, 5, inRange 0 24)] fun s n => { s with gen := { s.gen with portSel := BitVec.ofNat 32 n } }
  else none

/-- KEY_ and IME_ registers written. -/
def keyImeWrite (s : State) (off v : Nat) (m : MemIn) (base : Nat) : Option State :=
  let w := BitVec.ofNat 32 v
  let set := fun (old : Nat) (fs : List RegField) (k : State → Nat → State) => some (setFields s off old v fs k)
  if base = 0x100C then some (keyCmd s w m)
  else if base = 0x1010 then set s.key.cmdAddr.toNat addrFields fun s n => { s with key := { s.key with cmdAddr := BitVec.ofNat 64 n } }
  else if base = 0x1018 then set s.key.cmdShelf.toNat shelfFields fun s n => { s with key := { s.key with cmdShelf := BitVec.ofNat 32 n } }
  else if base = 0x1020 then
    set s.key.cmdArg.toNat [(0, 9, anyValue), (38, 7, anyValue), (46, 7, anyValue), (54, 10, anyValue)] fun s n =>
      { s with key := { s.key with cmdArg := BitVec.ofNat 64 n } }
  else if base = 0x1040 then set s.key.slotSel.toNat [(0, 10, anyValue)] fun s n => { s with key := { s.key with slotSel := BitVec.ofNat 32 n } }
  else if base = 0x2008 then some (regionCmd s (bits v 28 4) (bits v 0 21) m)
  else if base = 0x2010 then set s.ime.cmdAddr.toNat addrFields fun s n => { s with ime := { s.ime with cmdAddr := BitVec.ofNat 64 n } }
  else if base = 0x2018 then set s.ime.cmdShelf.toNat shelfFields fun s n => { s with ime := { s.ime with cmdShelf := BitVec.ofNat 32 n } }
  else if base = 0x2020 then
    set s.ime.shelveCtrl.toNat [(8, 4, anyValue), (0, 7, inRange 1 64)] fun s n => { s with ime := { s.ime with shelveCtrl := BitVec.ofNat 32 n } }
  else if base = 0x2024 then
    set s.ime.calCtrl.toNat [(16, 7, inRange 1 64), (0, 7, inRange 1 64)] fun s n => { s with ime := { s.ime with calCtrl := BitVec.ofNat 32 n } }
  else none

/-- The fields of ILE_SHAPE_MODE (15 Table 15-9). MODE 1 is a reserved encoding under forerunner compatibility (05 R190). -/
def shapeFields (s : State) : List RegField :=
  (List.range 8).flatMap fun c => [(16 + 3 * c, 3, inRange 0 5), (2 * c, 2, fun n => inRange 0 2 n && !(forerunner s && n == 1))]

/-- ILE_ registers of a port written. -/
def portWrite (s : State) (off v e k : Nat) : Option State :=
  let p := lportAt s e
  let set := fun (old : Nat) (fs : List RegField) (k : State → Nat → State) => some (setFields s off old v fs k)
  if !lnkPresent s e then none
  else if k = 0x08 then some (if bit v 0 then startRung (setLport s e { p with resetAsked := true }) 1 (qpOfLnk e) 0xFF else s)
  else if k = 0x0C then
    (set p.rekeyCtrl.toNat [(0, 6, inRange 24 48)] fun s n => setLport s e { lportAt s e with rekeyCtrl := BitVec.ofNat 32 n }).map fun s =>
      if bit v 8 then startRekey s e else s
  else if k = 0x28 then
    set (shadowOf s e).mode.toNat (shapeFields s) fun s n =>
      setLport s e { lportAt s e with shadow := some { shadowOf s e with mode := BitVec.ofNat 64 n } }
  else if k = 0x30 then some (setLport s e { lportAt s e with shadow := some { shadowOf s e with cad := BitVec.ofNat 64 v } })
  else none

/-- ILE_ registers written. -/
def ileWrite (s : State) (off v base : Nat) : Option State :=
  let set := fun (old : Nat) (fs : List RegField) (k : State → Nat → State) => some (setFields s off old v fs k)
  if base = 0x4000 then some { s with ile := { s.ile with postedLost := s.ile.postedLost && !bit v 16 } }
  else if base = 0x4008 then
    set s.ile.vcMap.toNat ((List.range 16).map fun c => (3 * c, 3, inRange 0 5)) fun s n => { s with ile := { s.ile with vcMap := BitVec.ofNat 64 n } }
  else if base = 0x4010 then set s.ile.routeAddr.toNat [(0, 14, anyValue)] fun s n => { s with ile := { s.ile with routeAddr := BitVec.ofNat 32 n } }
  else if base = 0x4014 then some (routeWrite s (BitVec.ofNat 32 v))
  else if base = 0x4018 then set s.ile.calCtrl.toNat [(0, 7, inRange 1 64)] fun s n => { s with ile := { s.ile with calCtrl := BitVec.ofNat 32 n } }
  else match ileBlock base with
    | some (e, k) => portWrite s off v e k
    | none => none

/-- SRE_, BCE_ and QOS_ registers written; a CMT field sets its shadow (15 R467). -/
def engWrite (s : State) (off v base : Nat) : Option State :=
  let set := fun (old : Nat) (fs : List RegField) (k : State → Nat → State) => some (setFields s off old v fs k)
  if base = 0x5000 then
    set s.sre.ctrlShadow.toNat [(16, 16, inRange 1 60000), (0, 5, inRange 2 16)] fun s n => { s with sre := { s.sre with ctrlShadow := BitVec.ofNat 32 n } }
  else if base = 0x5004 then set s.sre.eabShadow.toNat [(0, 16, inRange 1 60000)] fun s n => { s with sre := { s.sre with eabShadow := BitVec.ofNat 32 n } }
  else if base = 0x5010 then some (groupRetire s (v % 2 ^ 32))
  else if base = 0x6008 then
    set s.bce.stratumCtrl.toNat [(0, 16, inRange 1 60000)] fun s n => { s with bce := { s.bce with stratumCtrl := BitVec.ofNat 32 n } }
  else if base = 0x7000 then
    set s.qos.ctrl.toNat [(16, 10, inRange 1 1023), (8, 4, inRange 8 16), (5, 3, anyValue), (0, 4, anyValue)] fun s n =>
      { s with qos := { s.qos with ctrl := BitVec.ofNat 32 n } }
  else if base = 0x7004 then
    set s.qos.statSel.toNat [(13, 3, anyValue), (8, 5, inRange 0 26), (0, 4, anyValue)] fun s n =>
      { s with qos := { s.qos with statSel := BitVec.ofNat 32 n } }
  else none

/-- Whether a HOSTIF value is in the effective offer (09 R291). -/
def hostifOk (s : State) (x : Nat) : Bool := bit (offerNow s 7) x

/-- HOB_ registers written. -/
def hobWrite (s : State) (off v : Nat) (m : MemIn) (base : Nat) : Option State :=
  let w := BitVec.ofNat 32 v
  let set := fun (old : Nat) (fs : List RegField) (k : State → Nat → State) => some (setFields s off old v fs k)
  if base = 0x8000 then
    set s.hob.ctrl.toNat [(48, 16, inRange 1 60000), (32, 16, inRange 1 60000), (0, 3, hostifOk s)] fun s n =>
      { s with hob := { s.hob with ctrl := BitVec.ofNat 64 n } }
  else if base = 0x8010 then some (doorbell s w)
  else if base = 0x8014 then some (hobCmd s w m)
  else if base = 0x8018 then set s.hob.cmdAddr.toNat addrFields fun s n => { s with hob := { s.hob with cmdAddr := BitVec.ofNat 64 n } }
  else if base = 0x8020 then set s.hob.cmdShelf.toNat shelfFields fun s n => { s with hob := { s.hob with cmdShelf := BitVec.ofNat 32 n } }
  else if base = 0x8024 then some { s with hob := { s.hob with cmdArg := w } }
  else if base = 0x8030 then set s.hob.objSel.toNat [(0, 13, anyValue)] fun s n => { s with hob := { s.hob with objSel := BitVec.ofNat 32 n } }
  else if base = 0x8040 then set s.hob.evtSel.toNat [(0, 14, anyValue)] fun s n => { s with hob := { s.hob with evtSel := BitVec.ofNat 32 n } }
  else none

/-- FLT_, ATT_ and LCS_ registers written. -/
def aonWrite (s : State) (off v : Nat) (m : MemIn) (base : Nat) : Option State :=
  let w := BitVec.ofNat 32 v
  let set := fun (old : Nat) (fs : List RegField) (k : State → Nat → State) => some (setFields s off old v fs k)
  if base = 0x10000 then some (fltClear s v)
  else if base = 0x10004 then
    set s.flt.escCtrl.toNat [(28, 4, anyValue), (24, 4, anyValue), (20, 4, anyValue), (16, 4, inRange 5 15), (9, 7, inRange 10 127), (3, 6, inRange 1 63)]
      fun s n => { s with flt := { s.flt with escCtrl := BitVec.ofNat 32 n } }
  else if base = 0x10008 then
    set s.flt.hangCtrl.toNat [(26, 6, inRange 1 63), (22, 4, inRange 1 15), (16, 6, inRange 1 63), (8, 8, inRange 1 255), (0, 8, inRange 1 255)]
      fun s n => { s with flt := { s.flt with hangCtrl := BitVec.ofNat 32 n } }
  else if base = 0x1000C then some (resetReq s w)
  else if base = 0x10010 then some (dumpCtrl s w)
  else if base = 0x10014 then some (driverFence s w)
  else if base = 0x10018 then some (driverUnfence s w)
  else if base = 0x10020 then
    set s.flt.annalsSel.toNat [(16, 4, fun x => decide (x ≤ 9) || x == 15), (0, 10, anyValue)] fun s n =>
      { s with flt := { s.flt with annalsSel := BitVec.ofNat 32 n } }
  else if base = 0x10024 then
    set s.flt.dumpSel.toNat [(16, 2, anyValue), (0, 10, anyValue)] fun s n => { s with flt := { s.flt with dumpSel := BitVec.ofNat 32 n } }
  else if base = 0x10028 then set s.flt.epochSel.toNat [(0, 5, inRange 0 25)] fun s n => { s with flt := { s.flt with epochSel := BitVec.ofNat 32 n } }
  else if base = 0x11000 then some (attWrite s w m)
  else if base = 0x11008 then set s.att.cmdAddr.toNat addrFields fun s n => { s with att := { s.att with cmdAddr := BitVec.ofNat 64 n } }
  else if base = 0x11010 then set s.att.cmdShelf.toNat shelfFields fun s n => { s with att := { s.att with cmdShelf := BitVec.ofNat 32 n } }
  else if base = 0x11040 then some (mbxCtrl s w)
  else if base = 0x14000 then some (lcsCmd s w m true)
  else if base = 0x14008 then set s.lcs.cmdAddr.toNat addrFields fun s n => { s with lcs := { s.lcs with cmdAddr := BitVec.ofNat 64 n } }
  else if base = 0x14010 then set s.lcs.cmdShelf.toNat shelfFields fun s n => { s with lcs := { s.lcs with cmdShelf := BitVec.ofNat 32 n } }
  else if base = 0x14014 then some { s with lcs := { s.lcs with discarded := s.lcs.discarded && !bit v 19 } }
  else if base = 0x14018 then set s.lcs.accSel.toNat [(0, 16, anyValue)] fun s n => { s with lcs := { s.lcs with accSel := BitVec.ofNat 32 n } }
  else none

/-- The plain windows written, a word at a time. -/
def windowWrite (s : State) (off : Nat) (w : Word) : Option State :=
  if 0x20000 ≤ off ∧ off < 0x30000 then some { s with gen := { s.gen with chrWindow := bufPutWord s.gen.chrWindow (off - 0x20000) w } }
  else if 0x12000 ≤ off ∧ off < 0x13000 then
    some { s with att := { s.att with mbxCtl := { s.att.mbxCtl with req := bufPutWord s.att.mbxCtl.req (off - 0x12000) w } } }
  else if 0x14100 ≤ off ∧ off < 0x14230 then some { s with lcs := { s.lcs with stage := bufPutWord s.lcs.stage (off - 0x14100) w } }
  else none

/-- A whole value written to the register at a base offset; `off` is the offset of the access. A register without a writable field ignores it
(00 R10); where no register is, the ignored write is recorded (14 R438; 15 R455). -/
def regPut (s : State) (off base v : Nat) (m : MemIn) : State :=
  let r :=
    if base < 0x1000 then genWrite s off v m base
    else if base < 0x3000 then keyImeWrite s off v m base
    else if 0x4000 ≤ base ∧ base < 0x5000 then ileWrite s off v base
    else if 0x5000 ≤ base ∧ base < 0x8000 then engWrite s off v base
    else if 0x8000 ≤ base ∧ base < 0x9000 then hobWrite s off v m base
    else if 0x10000 ≤ base ∧ base < 0x15000 then aonWrite s off v m base
    else none
  match r with
  | some s => s
  | none => if (regValue s base).isSome ∨ (windowWord s off).isSome then s else ignoreWrite s (off / 4)

/-- The lower words of a wide register as written since it last took effect, else as it holds them (14 R439; log 79); of ILE_STATUS, whose bits a 1
clears, what is not written is 0 (00 R10). -/
def latchedBelow (s : State) (base words : Nat) : Nat :=
  let v := if base = 0x4000 then 0 else (regValue s base).getD 0
  ((List.range (words - 1)).map fun i => ((tget s.gen.wlatch (base + 4 * i)).map (·.toNat)).getD (bits v (32 * i) 32) * 2 ^ (32 * i)).sum

/-- A write of a word: a wide register takes effect when its highest word is written (14 R439). -/
def regWrite (s : State) (off : Nat) (w : Word) (m : MemIn) : State :=
  match windowWrite s off w with
  | some s => s
  | none =>
    let (base, words) := regBase off
    if words = 1 then regPut s off base w.toNat m
    else if off < base + 4 * (words - 1) then { s with gen := { s.gen with wlatch := tput s.gen.wlatch off w } }
    else
      let v := latchedBelow s base words + w.toNat * 2 ^ (32 * (words - 1))
      let s := { s with gen := { s.gen with wlatch := s.gen.wlatch.filter fun x => !(decide (base ≤ x.1) && decide (x.1 < base + 4 * words)) } }
      regPut s off base v m

/-- REGISTER_WRITE: a CTLPORT write at a word-aligned byte offset (00 R10; 14 R437). -/
def execRegisterWrite (offset : BitVec 16) (value : Word) (m : MemIn) (s : State) : Host.Outcome State Fault Refusal :=
  .next (ctlWriteBy s (4 * offset.toNat) fun s => regWrite s (4 * offset.toNat) value m)

/-- GEN_COMMIT_SRE_TIMING (15 R468). -/
def execGenCommitSreTiming (s : State) : Host.Outcome State Fault Refusal := .next (ctlWriteBy s 0xA0 commitSre)

/-- GEN_COMMIT_SHAPE: the port as QOS_STAT_SEL.PORT codes it, in the field's 5 bits (15 R468). -/
def execGenCommitShape (port : Nat) (s : State) : Host.Outcome State Fault Refusal := .next (ctlWriteBy s 0xA0 fun s => commitShape s (port % 32))

end Sys2Proof.Machine
end

