-- ==== Sys2Proof/Machine/Debug.lean ====
section
/-!
DEFINITION. The debug access path: its mailbox, the register window, the staged record, FABDBG and scan (14 R448 to R450; 13 R407, R413). Each row is one
Update-DR of its instruction, and what the data register captures next.
-/
namespace Sys2Proof.Machine

/-- Whether requests of the debug path cross to ACLK (12 R364; 14 R448). -/
def dbgUp (s : State) : Bool := s.pin.pwrok && !s.dom.aclkLost

/-- Whether a debug scope is granted: 0 REGS, 1 MASTER, 2 SCAN (13 Table 13-7). -/
def scopeHas (s : State) (i : Nat) : Bool := s.lcs.debug && bit s.lcs.scope i

/-- A request is posted under an instruction. -/
def posted (s : State) (ir : Nat) (f : State → State) : State :=
  if !dbgUp s then s else f { s with dbg := { s.dbg with ir := BitVec.ofNat 8 ir } }

/-- DEBUG_PATH_RESET: IDCODE selected; a request in flight completes and its result is discarded (14 R448, R449). -/
def debugReset (s : State) : State :=
  { s with dbg := { Dbg.reset with fabPending := s.dbg.fabPending, fabDiscard := s.dbg.fabPending } }

/-! ### MBOX (14 Table 14-16) -/

/-- What MBOX captures: STATUS, the response bytes left, a byte. -/
def mboxCapture (s : State) (status byte : Nat) : State :=
  let m := s.att.mbxDbg
  let left := if m.rspReady then m.rsp.length - m.pos else 0
  { s with dbg := { s.dbg with mbox := BitVec.ofNat 32 (status * 2 ^ 30 + left * 2 ^ 16 + byte) } }

/-- PUT byte: NOT_READY while a request is served, ERROR beyond 4096 bytes (log 80). -/
def mboxPut (s : State) (b : Byte) : State :=
  let m := s.att.mbxDbg
  if m.busy then mboxCapture s 1 0
  else if 4096 ≤ m.reqLen then mboxCapture s 3 0
  else mboxCapture (setMbx s true { m with req := bufWrite m.req m.reqLen b, reqLen := m.reqLen + 1 }) 0 0

/-- SEND request: NOT_READY while a request is served or a response unread, ERROR without a byte (log 80). -/
def mboxSend (s : State) : State :=
  let m := s.att.mbxDbg
  if m.busy ∨ m.rspReady then mboxCapture s 1 0
  else if m.reqLen = 0 then mboxCapture s 3 0
  else mboxCapture (mbxHand s true m.reqLen) 0 0

/-- GET byte: the response is kept until its last byte is read (12 R364). -/
def mboxGet (s : State) : State :=
  let m := s.att.mbxDbg
  if m.busy then mboxCapture s 1 0
  else if !m.rspReady then mboxCapture s 2 0
  else
    let b := ((m.rsp[m.pos]?).getD 0#8).toNat
    mboxCapture (setMbx s true { m with pos := m.pos + 1, rspReady := decide (m.pos + 1 < m.rsp.length) }) 0 b

/-! ### REGS (14 Table 14-16; 13 R413) -/

/-- What a locked debug path reaches: the ATT_ mailbox, GEN_ID to GEN_COMPAT, the LCS_ group, and the annals and dump selectors and data. -/
def lockedReach (off : Nat) : Bool :=
  decide (off < 0x2C) || (decide (0x11040 ≤ off) && decide (off < 0x14000)) || (decide (0x14000 ≤ off) && decide (off < 0x15000))
    || off == 0x10020 || off == 0x10024 || (decide (0x10040 ≤ off) && decide (off < 0x10080)) || (decide (0x10080 ≤ off) && decide (off < 0x100C0))

/-- STATUS of an access: 0 OK, 2 ERROR, 3 DENIED. The window admits what it admits of CTLPORT, but answers AON registers while HOST is in reset. -/
def regsStatus (s : State) (off : Nat) (write : Bool) : Nat :=
  if !(scopeHas s 0 || lockedReach off) then 3
  else if hostDown s ∧ regDomain off = 1 then 2
  else if quiescing s ∧ !(isIdent off || isStatusReg off) then 3
  else if s.gen.unchartered ∧ !unchartedOk off write then 3
  else if regDomain off = 0 ∧ coreDown s then 3
  else 0

/-- What REGS captures: the word offset, the data, and STATUS. -/
def regsCapture (s : State) (off : Nat) (data : Word) (status : Nat) : State :=
  { s with dbg := { s.dbg with regs := BitVec.ofNat 52 (off / 4 * 2 ^ 34 + data.toNat * 2 ^ 2 + status) } }

/-- A read of the window. -/
def regsRead (s : State) (off : Nat) : State :=
  let st := regsStatus s off false
  if st ≠ 0 then regsCapture s off 0#32 st
  else
    let (w, s) := regRead s off
    regsCapture s off w 0

/-- A write of the window. -/
def regsWrite (s : State) (off : Nat) (w : Word) (m : MemIn) : State :=
  let st := regsStatus s off true
  if st ≠ 0 then regsCapture s off 0#32 st else regsCapture (regWrite s off w m) off 0#32 0

/-- The LCS_STAGE window takes a record of 304 bytes. -/
def lcsStage (s : State) (b : List Byte) : State := { s with lcs := { s.lcs with stage := bufFill [] 0 (padTo 304 (b.take 304)) } }

/-! ### FABDBG (14 R450) -/

/-- The requester of a FABDBG access. -/
def dbgWho (shelf : BitVec 24) (addr : BitVec 52) : Who :=
  { master := 2, world := 3, agent := 63, pasid := none, slice := none, context := none, shelf := shelf.toNat, addr := addr.toNat, tag := 0 }

/-- A capture whose RESULT the manual does not code: a free value, with PENDING as it stands (14 R449, R450; log 80). -/
def fabdbgOdd (s : State) (reason : Code) : State :=
  let (r, s) := freshBits 2 s
  { s with dbg := { s.dbg with fab := BitVec.ofNat 704 (r.toNat + 8 * b2n s.dbg.fabPending + 16 * reason.toNat) } }

/-- A FABDBG access is refused. -/
def fabdbgRefuse (s : State) (c : Code) : State := finishMem s .dbg 0 0 none c true [(0#576, false)]

/-- A FABDBG access: one at a time, under the MASTER scope and the checks of the IME. -/
def fabdbg (s : State) (k : MemKind) (shelf : BitVec 24) (addr : BitVec 52) (d : Stored) (m : MemIn) : State :=
  let w := dbgWho shelf addr
  let port := memPort s (w.addr / 64)
  if s.dbg.fabPending then fabdbgOdd s 0#8
  else if !scopeHas s 1 then fabdbgOdd s Lc.debugLocked
  else
    let s := { s with dbg := { s.dbg with fabPending := true, fab := 8#704 } }
    if fabClosed s then fabdbgRefuse s Rsn.resetAbort
    else if w.addr % 64 ≠ 0 then fabdbgRefuse s Rsn.opDenied
    else if s.key.tampered then fabdbgRefuse s Rsn.tampered
    else if s.gen.unchartered then fabdbgRefuse s Rsn.unchartered
    else if portStopped s port then fabdbgRefuse s Rsn.portStopped
    else if noLanes s port then fabdbgRefuse s Rsn.noLanes
    else match memGate s w k 0 m with
      | (.error c, s, _) => fabdbgRefuse s c
      | (.ok (ix, r), s, m) =>
        if !portRoom s port 0 (readCost k) (writeCost k) then fabdbgRefuse s Rsn.queueFull
        else settle (fabEntries s .dbg k w ix r 0 none 1 (BitVec.allOnes 64) [d] m)

/-! ### SCAN (13 R407; 14 R449) -/

/-- A word that a scan chain has passed through: what it holds then is a free value (log 80). -/
def scanned (s : State) (k w : Nat) (old : BitVec w) : BitVec w := BitVec.ofNat w (Config.scanShift (s.freeIx + k) old.toNat)

/-- The CORE registers after a scan. -/
def scanCore (s : State) : State :=
  { s with
    gen := { s.gen with
      chrBase := scanned s 0 64 s.gen.chrBase, chrShelf := scanned s 1 32 s.gen.chrShelf, chrLen := scanned s 2 32 s.gen.chrLen
      portSel := scanned s 3 32 s.gen.portSel }
    key := { s.key with
      cmdAddr := scanned s 4 64 s.key.cmdAddr, cmdShelf := scanned s 5 32 s.key.cmdShelf, cmdArg := scanned s 6 64 s.key.cmdArg
      slotSel := scanned s 7 32 s.key.slotSel }
    ime := { s.ime with
      cmdAddr := scanned s 8 64 s.ime.cmdAddr, cmdShelf := scanned s 9 32 s.ime.cmdShelf, shelveCtrl := scanned s 10 32 s.ime.shelveCtrl
      calCtrl := scanned s 11 32 s.ime.calCtrl }
    ile := { s.ile with vcMap := scanned s 12 64 s.ile.vcMap, routeAddr := scanned s 13 32 s.ile.routeAddr, calCtrl := scanned s 14 32 s.ile.calCtrl }
    sre := { s.sre with ctrl := scanned s 15 32 s.sre.ctrl, eabCtrl := scanned s 16 32 s.sre.eabCtrl }
    bce := { s.bce with stratumCtrl := scanned s 17 32 s.bce.stratumCtrl }
    qos := { s.qos with ctrl := scanned s 18 32 s.qos.ctrl, statSel := scanned s 19 32 s.qos.statSel } }

/-- The HOST registers after a scan. -/
def scanHost (s : State) : State :=
  { s with
    gen := { s.gen with verSel := scanned s 20 32 s.gen.verSel, irqStatus := scanned s 21 32 s.gen.irqStatus }
    hob := { s.hob with
      ctrl := scanned s 22 64 s.hob.ctrl, cmdAddr := scanned s 23 64 s.hob.cmdAddr, cmdShelf := scanned s 24 32 s.hob.cmdShelf
      cmdArg := scanned s 25 32 s.hob.cmdArg, objSel := scanned s 26 32 s.hob.objSel, evtSel := scanned s 27 32 s.hob.evtSel } }

/-- What a granted scan captures: free bits, as many as were shifted in. -/
def scanBits (s : State) (n : Nat) : List Bool := (List.range n).map fun i => bit (Config.scanShift s.freeIx i) 0

/-- SCAN: the chain shifts where the scope is granted, never a register of AON; else BYPASS. -/
def scanRun (s : State) (b : List Bool) : State :=
  if !scopeHas s 2 then { s with dbg := { s.dbg with scan := [false] } }
  else
    let s' := scanHost (scanCore s)
    { s' with dbg := { s'.dbg with scan := scanBits s b.length }, freeIx := s.freeIx + 28 }

/-! ### The rows -/

/-- DEBUG_PATH_RESET. -/
def execDebugPathReset (s : State) : Host.Outcome State Fault Refusal := .next (debugReset s)

/-- MBOX_PUT. -/
def execMboxPut (b : Byte) (s : State) : Host.Outcome State Fault Refusal := .next (posted s 0x10 fun s => mboxPut s b)

/-- MBOX_SEND. -/
def execMboxSend (s : State) : Host.Outcome State Fault Refusal := .next (posted s 0x10 mboxSend)

/-- MBOX_GET. -/
def execMboxGet (s : State) : Host.Outcome State Fault Refusal := .next (posted s 0x10 mboxGet)

/-- REGS_READ. -/
def execRegsRead (offset : BitVec 16) (s : State) : Host.Outcome State Fault Refusal := .next (posted s 0x11 fun s => regsRead s (4 * offset.toNat))

/-- REGS_WRITE. -/
def execRegsWrite (offset : BitVec 16) (value : Word) (m : MemIn) (s : State) : Host.Outcome State Fault Refusal :=
  .next (posted s 0x11 fun s => regsWrite s (4 * offset.toNat) value m)

/-- LCS_STAGE. -/
def execLcsStage (record : List Byte) (s : State) : Host.Outcome State Fault Refusal := .next (posted s 0x12 fun s => lcsStage s record)

/-- FABDBG_READ. -/
def execFabdbgRead (shelf : BitVec 24) (addr : BitVec 52) (m : MemIn) (s : State) : Host.Outcome State Fault Refusal :=
  .next (posted s 0x13 fun s => fabdbg s .read shelf addr 0#576 m)

/-- FABDBG_WRITE. -/
def execFabdbgWrite (shelf : BitVec 24) (addr : BitVec 52) (d : Line) (cat tree : MemIn) (s : State) : Host.Outcome State Fault Refusal :=
  .next (posted s 0x13 fun s => fabdbg s .write shelf addr (d.zeroExtend 576) (catThenTree cat tree))

/-- FABDBG_RAW_READ. -/
def execFabdbgRawRead (shelf : BitVec 24) (addr : BitVec 52) (m : MemIn) (s : State) : Host.Outcome State Fault Refusal :=
  .next (posted s 0x13 fun s => fabdbg s .rawRead shelf addr 0#576 m)

/-- FABDBG_RAW_WRITE. -/
def execFabdbgRawWrite (shelf : BitVec 24) (addr : BitVec 52) (d : Stored) (m : MemIn) (s : State) : Host.Outcome State Fault Refusal :=
  .next (posted s 0x13 fun s => fabdbg s .rawWrite shelf addr d m)

/-- SCAN. -/
def execScan (bits : List Bool) (s : State) : Host.Outcome State Fault Refusal := .next (posted s 0x14 fun s => scanRun s bits)

end Sys2Proof.Machine
end

