-- ==== Sys2Proof/Machine/Seed.lean ====
section
/-!
DEFINITION. The DRBG's start, its reseed, and the repeats of the entropy tests, with what waits for random numbers meanwhile (03 R100, R101; 02 Table 2-11 C12).
-/
namespace Sys2Proof.Machine

/-- What is left of an attestation command that waited (12 R377, R381, R382, R387, R389). -/
def attDraw : AttJob → List Byte → State → MemIn → AttRes
  | .nonce => drawNonce
  | .wrap slot half tenant gen mk kex => drawWrap slot half tenant gen mk kex
  | .pair tenant gen kex => drawPair tenant gen kex
  | .keyex k arg r => drawKeyex k arg r
  | .deliver k h set => drawDeliver k h set

/-- An attestation command that waited is served, or refused with DRBG_FAIL. -/
def serveAtt (s : State) : State :=
  match s.att.wait with
  | none => s
  | some w =>
    let s := { s with att := { s.att with wait := none } }
    attEnd (if drbgServes s then attDraw w.job w.block s w.m else attNo s Rsn.drbgFail)

/-- A transition whose step T2 waited is served, or refused with DRBG_FAIL. -/
def serveLcs (s : State) : State :=
  match s.lcs.act with
  | some a => if a.bits = [] then t2 s a.record a.flashOk else s
  | none => s

/-- A GEN_EPHEMERAL that waited is served, or refused with DRBG_FAIL. -/
def serveGen (s : State) : State :=
  match s.key.genWait with
  | some slot =>
    let (c, s) := genNow slot s
    keyEnd s c
  | none => s

/-- All that waited for a seed: a refresh of the vault masks, GEN_EPHEMERAL, the ports, an attestation command, a transition. A collective and an
enrolment wait in their own rows. -/
def serveSeed (s : State) : State := serveLcs (serveAtt (wakeLinks (serveGen (if bit s.key.seedWait 2 then maskRefresh s else s))))

/-- The repeats have ended: the DRBG is instantiated or reseeded where that waited, and what waited for it follows. -/
def seedServed (s : State) : State :=
  let s := if bit s.key.seedWait 0 then instantiate s else s
  serveSeed (if bit s.key.seedWait 1 then reseed s else s)

/-- DRBG_INSTANTIATE: after C6 and C10; it waits while the start-up tests repeat. Under TAMPERED it makes no key (03 R105). -/
def drbgInstantiate (s : State) : State :=
  if !s.gen.c6Done || !s.gen.c10Done || s.gen.c12Done || coreDown s then s
  else if s.key.tampered then { s with gen := { s.gen with c12Done := true } }
  else if 0 < s.key.retries then { s with key := { s.key with seedWait := putBits s.key.seedWait 0 1 1 } }
  else serveSeed (instantiate s)

/-- ENTROPY_RETEST: a repeat of the start-up tests has passed or failed; the third failure reports DRBG_FAIL. -/
def entropyRetest (s : State) (pass : Bool) : State :=
  if s.key.retries = 0 || !s.gen.released || s.key.drbgFail then s
  else if pass then seedServed { s with key := { s.key with retries := 0 } }
  else if 1 < s.key.retries then { s with key := { s.key with retries := s.key.retries - 1 } }
  else seedServed (drbgFailNow s)

/-- DRBG_INSTANTIATE (02 R66; 03 R100). -/
def execDrbgInstantiate (s : State) : Host.Outcome State Fault Refusal := .next (drbgInstantiate s)

/-- DRBG_RESEED (03 R101). -/
def execDrbgReseed (s : State) : Host.Outcome State Fault Refusal := .next (drbgReseed s)

/-- ENTROPY_RETEST (03 R100). -/
def execEntropyRetest (pass : Bool) (s : State) : Host.Outcome State Fault Refusal := .next (entropyRetest s pass)

end Sys2Proof.Machine
end

