-- ==== Sys2Proof/Machine/Dispatch.lean ====
section
/-!
DEFINITION. The effect of every command: one arm per row of spec/opcode_table.json.
-/
namespace Sys2Proof.Machine

def exec (i : Instr) (s : State) : Host.Outcome State Fault Refusal :=
  match i with
  | .powerGood e => Sys2Proof.Machine.execPowerGood e s
  | .coldPowerLoss => Sys2Proof.Machine.execColdPowerLoss s
  | .geodeRegenerate puf flashOk => Sys2Proof.Machine.execGeodeRegenerate puf flashOk s
  | .drbgInstantiate => Sys2Proof.Machine.execDrbgInstantiate s
  | .startReady => Sys2Proof.Machine.execStartReady s
  | .tamperZeroise vaultClean => Sys2Proof.Machine.execTamperZeroise vaultClean s
  | .clockLost domain => Sys2Proof.Machine.execClockLost domain s
  | .clockReturn c => Sys2Proof.Machine.execClockReturn c s
  | .aclkLost => Sys2Proof.Machine.execAclkLost s
  | .laneBeat lane b miscompare replayMiscompare => Sys2Proof.Machine.execLaneBeat lane b miscompare replayMiscompare s
  | .laneReplace lane failing => Sys2Proof.Machine.execLaneReplace lane failing s
  | .fenceTestDone lane pass => Sys2Proof.Machine.execFenceTestDone lane pass s
  | .spareSelfTest lane pass => Sys2Proof.Machine.execSpareSelfTest lane pass s
  | .keyDerivationDone => Sys2Proof.Machine.execKeyDerivationDone s
  | .charterLoad source m flashOk => Sys2Proof.Machine.execCharterLoad source m flashOk s
  | .charterStored w => Sys2Proof.Machine.execCharterStored w s
  | .funcStopWrite value => Sys2Proof.Machine.execFuncStopWrite value s
  | .functionDrained function => Sys2Proof.Machine.execFunctionDrained function s
  | .loadWrapped slot m => Sys2Proof.Machine.execLoadWrapped slot m s
  | .activate slot => Sys2Proof.Machine.execActivate slot s
  | .retirePrev slot => Sys2Proof.Machine.execRetirePrev slot s
  | .discardStaged slot => Sys2Proof.Machine.execDiscardStaged slot s
  | .zeroise slot => Sys2Proof.Machine.execZeroise slot s
  | .genEphemeral slot => Sys2Proof.Machine.execGenEphemeral slot s
  | .vaultMaskRefresh => Sys2Proof.Machine.execVaultMaskRefresh s
  | .entropyTestFail => Sys2Proof.Machine.execEntropyTestFail s
  | .entropyRetest pass => Sys2Proof.Machine.execEntropyRetest pass s
  | .drbgReseed => Sys2Proof.Machine.execDrbgReseed s
  | .fabRead q m => Sys2Proof.Machine.execFabRead q m s
  | .fabWrite q cat tree => Sys2Proof.Machine.execFabWrite q cat tree s
  | .fabWritePartial q m => Sys2Proof.Machine.execFabWritePartial q m s
  | .fabCread q m => Sys2Proof.Machine.execFabCread q m s
  | .fabCwrite q m => Sys2Proof.Machine.execFabCwrite q m s
  | .fabRawRead q m => Sys2Proof.Machine.execFabRawRead q m s
  | .fabRawWrite q m => Sys2Proof.Machine.execFabRawWrite q m s
  | .fabLoad q => Sys2Proof.Machine.execFabLoad q s
  | .fabStore q => Sys2Proof.Machine.execFabStore q s
  | .fabStorePartial q => Sys2Proof.Machine.execFabStorePartial q s
  | .fabStoreFlagged q => Sys2Proof.Machine.execFabStoreFlagged q s
  | .fabStorePartialFlagged q => Sys2Proof.Machine.execFabStorePartialFlagged q s
  | .fabAtomic q => Sys2Proof.Machine.execFabAtomic q s
  | .fabAtomicFetch q => Sys2Proof.Machine.execFabAtomicFetch q s
  | .fabReservedOp q => Sys2Proof.Machine.execFabReservedOp q s
  | .memReadData port tag epoch a m tagMismatches => Sys2Proof.Machine.execMemReadData port tag epoch a m tagMismatches s
  | .memWriteAck port tag epoch => Sys2Proof.Machine.execMemWriteAck port tag epoch s
  | .memTrained port => Sys2Proof.Machine.execMemTrained port s
  | .catalogueFormat flashOk => Sys2Proof.Machine.execCatalogueFormat flashOk s
  | .create index m => Sys2Proof.Machine.execCreate index m s
  | .destroy r => Sys2Proof.Machine.execDestroy r s
  | .setRights index m => Sys2Proof.Machine.execSetRights index m s
  | .pageReencrypt index page m => Sys2Proof.Machine.execPageReencrypt index page m s
  | .sweepStep index m => Sys2Proof.Machine.execSweepStep index m s
  | .sweepVerifyDone index m => Sys2Proof.Machine.execSweepVerifyDone index m s
  | .memCalRequest port => Sys2Proof.Machine.execMemCalRequest port s
  | .memCalGrant port => Sys2Proof.Machine.execMemCalGrant port s
  | .memCalEnd port => Sys2Proof.Machine.execMemCalEnd port s
  | .memCalOverrun port => Sys2Proof.Machine.execMemCalOverrun port s
  | .memSrAck port => Sys2Proof.Machine.execMemSrAck port s
  | .linkUp port => Sys2Proof.Machine.execLinkUp port s
  | .hello port f => Sys2Proof.Machine.execHello port f s
  | .identity port f => Sys2Proof.Machine.execIdentity port f s
  | .keyShare port f => Sys2Proof.Machine.execKeyShare port f s
  | .keyConfirm port f => Sys2Proof.Machine.execKeyConfirm port f s
  | .bringupTimeout port => Sys2Proof.Machine.execBringupTimeout port s
  | .bringupRetry port => Sys2Proof.Machine.execBringupRetry port s
  | .data port f m => Sys2Proof.Machine.execData port f m s
  | .idle port f => Sys2Proof.Machine.execIdle port f s
  | .nak port f => Sys2Proof.Machine.execNak port f s
  | .rekey port f => Sys2Proof.Machine.execRekey port f s
  | .rekeyDone port f => Sys2Proof.Machine.execRekeyDone port f s
  | .rekeyThreshold port => Sys2Proof.Machine.execRekeyThreshold port s
  | .rekeyOverdue port => Sys2Proof.Machine.execRekeyOverdue port s
  | .seqExhausted port => Sys2Proof.Machine.execSeqExhausted port s
  | .rekeyTimeout port => Sys2Proof.Machine.execRekeyTimeout port s
  | .rekeyNow port => Sys2Proof.Machine.execRekeyNow port s
  | .creditIdleTimer port => Sys2Proof.Machine.execCreditIdleTimer port s
  | .cadenceTick port vc => Sys2Proof.Machine.execCadenceTick port vc s
  | .retryResend dest vc => Sys2Proof.Machine.execRetryResend dest vc s
  | .atomicLineIdle line => Sys2Proof.Machine.execAtomicLineIdle line s
  | .deadTargetTimeout tag => Sys2Proof.Machine.execDeadTargetTimeout tag s
  | .routeWrite value => Sys2Proof.Machine.execRouteWrite value s
  | .lnkCalRequest port => Sys2Proof.Machine.execLnkCalRequest port s
  | .lnkCalGrant port => Sys2Proof.Machine.execLnkCalGrant port s
  | .lnkCalEnd port => Sys2Proof.Machine.execLnkCalEnd port s
  | .lnkCalOverrun port => Sys2Proof.Machine.execLnkCalOverrun port s
  | .contextOpen m => Sys2Proof.Machine.execContextOpen m s
  | .eabExpire position => Sys2Proof.Machine.execEabExpire position s
  | .collTimeout group coll => Sys2Proof.Machine.execCollTimeout group coll s
  | .chunkResend group coll => Sys2Proof.Machine.execChunkResend group coll s
  | .groupRetire group => Sys2Proof.Machine.execGroupRetire group s
  | .jobStart m flashOk => Sys2Proof.Machine.execJobStart m flashOk s
  | .jobResume m => Sys2Proof.Machine.execJobResume m s
  | .cut m flashOk => Sys2Proof.Machine.execCut m flashOk s
  | .cutFlushDone entry m => Sys2Proof.Machine.execCutFlushDone entry m s
  | .restore m => Sys2Proof.Machine.execRestore m s
  | .cutTimeout entry => Sys2Proof.Machine.execCutTimeout entry s
  | .doorbell value => Sys2Proof.Machine.execDoorbell value s
  | .commandFetch sq m => Sys2Proof.Machine.execCommandFetch sq m s
  | .commandDispatch sq m => Sys2Proof.Machine.execCommandDispatch sq m s
  | .commandComplete flight m => Sys2Proof.Machine.execCommandComplete flight m s
  | .ctxCreate slice index => Sys2Proof.Machine.execCtxCreate slice index s
  | .ctxDestroy slice index => Sys2Proof.Machine.execCtxDestroy slice index s
  | .switch slice index => Sys2Proof.Machine.execSwitch slice index s
  | .qCreate slice index m => Sys2Proof.Machine.execQCreate slice index m s
  | .qDestroy slice index => Sys2Proof.Machine.execQDestroy slice index s
  | .eventCreate slice index m => Sys2Proof.Machine.execEventCreate slice index m s
  | .eventDestroy slice index => Sys2Proof.Machine.execEventDestroy slice index s
  | .objCreate slice index m => Sys2Proof.Machine.execObjCreate slice index m s
  | .objAdopt slice index => Sys2Proof.Machine.execObjAdopt slice index s
  | .objFree slice o => Sys2Proof.Machine.execObjFree slice o s
  | .objDestroyRetry o => Sys2Proof.Machine.execObjDestroyRetry o s
  | .sliceResetDrain slice => Sys2Proof.Machine.execSliceResetDrain slice s
  | .sliceResetSquash slice => Sys2Proof.Machine.execSliceResetSquash slice s
  | .sliceResetSettle slice => Sys2Proof.Machine.execSliceResetSettle slice s
  | .drainTimeout slice => Sys2Proof.Machine.execDrainTimeout slice s
  | .squashTimeout slice => Sys2Proof.Machine.execSquashTimeout slice s
  | .portSelect port u => Sys2Proof.Machine.execPortSelect port u s
  | .requestAged port seq => Sys2Proof.Machine.execRequestAged port seq s
  | .watchdogHang watchdog => Sys2Proof.Machine.execWatchdogHang watchdog s
  | .portReset port => Sys2Proof.Machine.execPortReset port s
  | .hostReset => Sys2Proof.Machine.execHostReset s
  | .coreWarmReset e => Sys2Proof.Machine.execCoreWarmReset e s
  | .blockWarmRecovery e => Sys2Proof.Machine.execBlockWarmRecovery e s
  | .coldStartRequest flashOk => Sys2Proof.Machine.execColdStartRequest flashOk s
  | .rungTimerExpiry rung port => Sys2Proof.Machine.execRungTimerExpiry rung port s
  | .quiesceDrainDone => Sys2Proof.Machine.execQuiesceDrainDone s
  | .dumpTake => Sys2Proof.Machine.execDumpTake s
  | .dumpUnitTimeout unit got => Sys2Proof.Machine.execDumpUnitTimeout unit got s
  | .dumpCopy flashOk => Sys2Proof.Machine.execDumpCopy flashOk s
  | .annalsWrite flashOk => Sys2Proof.Machine.execAnnalsWrite flashOk s
  | .hourTick flashOk => Sys2Proof.Machine.execHourTick flashOk s
  | .driverLaneFence value => Sys2Proof.Machine.execDriverLaneFence value s
  | .driverLaneUnfence value => Sys2Proof.Machine.execDriverLaneUnfence value s
  | .getVersion mailbox => Sys2Proof.Machine.execGetVersion mailbox s
  | .getCapabilities mailbox => Sys2Proof.Machine.execGetCapabilities mailbox s
  | .negotiateAlgorithms mailbox => Sys2Proof.Machine.execNegotiateAlgorithms mailbox s
  | .getDigests mailbox => Sys2Proof.Machine.execGetDigests mailbox s
  | .getCertificate mailbox => Sys2Proof.Machine.execGetCertificate mailbox s
  | .challenge mailbox => Sys2Proof.Machine.execChallenge mailbox s
  | .getMeasurements mailbox => Sys2Proof.Machine.execGetMeasurements mailbox s
  | .spdmUnsupported mailbox => Sys2Proof.Machine.execSpdmUnsupported mailbox s
  | .mbxSend value => Sys2Proof.Machine.execMbxSend value s
  | .mbxRelease => Sys2Proof.Machine.execMbxRelease s
  | .colophon m => Sys2Proof.Machine.execColophon m s
  | .enlistNonce m => Sys2Proof.Machine.execEnlistNonce m s
  | .enlistNonceExpire position => Sys2Proof.Machine.execEnlistNonceExpire position s
  | .enlist m => Sys2Proof.Machine.execEnlist m s
  | .delist m => Sys2Proof.Machine.execDelist m s
  | .lockAdmission m => Sys2Proof.Machine.execLockAdmission m s
  | .rosterSign m => Sys2Proof.Machine.execRosterSign m s
  | .rosterLoad m => Sys2Proof.Machine.execRosterLoad m s
  | .appoint m flashOk => Sys2Proof.Machine.execAppoint m flashOk s
  | .wrapDomain m => Sys2Proof.Machine.execWrapDomain m s
  | .genPair m => Sys2Proof.Machine.execGenPair m s
  | .rekeyIssue m => Sys2Proof.Machine.execRekeyIssue m s
  | .rekeyApply m => Sys2Proof.Machine.execRekeyApply m s
  | .fwMeasure m flashOk => Sys2Proof.Machine.execFwMeasure m flashOk s
  | .fwStage m flashOk => Sys2Proof.Machine.execFwStage m flashOk s
  | .fwActivate m => Sys2Proof.Machine.execFwActivate m s
  | .fwAbandon m => Sys2Proof.Machine.execFwAbandon m s
  | .endorse m flashOk => Sys2Proof.Machine.execEndorse m flashOk s
  | .certStore m flashOk => Sys2Proof.Machine.execCertStore m flashOk s
  | .ideBind m => Sys2Proof.Machine.execIdeBind m s
  | .ideKeyex m => Sys2Proof.Machine.execIdeKeyex m s
  | .ideDeliver m => Sys2Proof.Machine.execIdeDeliver m s
  | .ideSwitch m => Sys2Proof.Machine.execIdeSwitch m s
  | .ideClose m => Sys2Proof.Machine.execIdeClose m s
  | .transition source m flashOk => Sys2Proof.Machine.execTransition source m flashOk s
  | .debugEnable source m flashOk => Sys2Proof.Machine.execDebugEnable source m flashOk s
  | .debugDisable flashOk => Sys2Proof.Machine.execDebugDisable flashOk s
  | .raiseFloor source m flashOk => Sys2Proof.Machine.execRaiseFloor source m flashOk s
  | .clearStanding source m flashOk => Sys2Proof.Machine.execClearStanding source m flashOk s
  | .fusePgmAck blown => Sys2Proof.Machine.execFusePgmAck blown s
  | .flashGrantTimeout => Sys2Proof.Machine.execFlashGrantTimeout s
  | .genCommitSreTiming => Sys2Proof.Machine.execGenCommitSreTiming s
  | .genCommitShape port => Sys2Proof.Machine.execGenCommitShape port s
  | .registerWrite offset value m => Sys2Proof.Machine.execRegisterWrite offset value m s
  | .debugPathReset => Sys2Proof.Machine.execDebugPathReset s
  | .mboxPut b => Sys2Proof.Machine.execMboxPut b s
  | .mboxSend => Sys2Proof.Machine.execMboxSend s
  | .mboxGet => Sys2Proof.Machine.execMboxGet s
  | .regsRead offset => Sys2Proof.Machine.execRegsRead offset s
  | .regsWrite offset value m => Sys2Proof.Machine.execRegsWrite offset value m s
  | .lcsStage record => Sys2Proof.Machine.execLcsStage record s
  | .fabdbgRead shelf addr m => Sys2Proof.Machine.execFabdbgRead shelf addr m s
  | .fabdbgWrite shelf addr d cat tree => Sys2Proof.Machine.execFabdbgWrite shelf addr d cat tree s
  | .fabdbgRawRead shelf addr m => Sys2Proof.Machine.execFabdbgRawRead shelf addr m s
  | .fabdbgRawWrite shelf addr d m => Sys2Proof.Machine.execFabdbgRawWrite shelf addr d m s
  | .scan bits => Sys2Proof.Machine.execScan bits s
  | .linkDown port => Sys2Proof.Machine.execLinkDown port s
  | .flashGrantLost => Sys2Proof.Machine.execFlashGrantLost s
  | .aclkReturn => Sys2Proof.Machine.execAclkReturn s

end Sys2Proof.Machine
end

