-- ==== Sys2Proof/Safety.lean ====
section
/-!
DEFINITION. What the claims are stated with: a CTLPORT write the block admits, its OKAY answer, and the invariants that every step keeps.
-/
namespace Sys2Proof.Safety

open Sys2Proof.Machine

/-- A CTLPORT write at a byte offset is admitted: power is good and no rule of 14 R438, 15 R453 or 02 R56 turns it away. -/
def admitted (s : State) (off : Nat) : Prop := s.pin.pwrok = true ∧ ctlErr s off true = 0

/-- The OKAY answer of a CTLPORT write (14 R438). -/
def okay (s : State) : State := emit s (.ctlRsp 0#32 0)

/-- No memory operation and no remote operation waits, no region is being destroyed, and no ingress credit is held back: nothing goes on of itself
(04 R108, R118; 05 R181, R182). -/
def memIdle (s : State) : Prop := s.ime.ents = [] ∧ s.ile.ingress = [] ∧ s.ime.dying = [] ∧ heldCredits s = 0

/-- FABPORT takes a request aligned to `align` bytes, no gate refuses it, and its memory port has lanes, is not stopped and holds nothing (14 R424 to
R426; 10 R318, Table 10-5). -/
def fabPasses (s : State) (q : FabReq) (align : Nat) : Prop :=
  fabClosed s = false ∧ fabGate s q (whoOf s q) (decide (q.addr.toNat % align = 0)) = none
    ∧ portStopped s (memPort s (q.addr.toNat / 64)) = false ∧ noLanes s (memPort s (q.addr.toNat / 64)) = false ∧ s.ime.ents = []

/-- The IME holds no operation, block, held page or resident line. -/
def imeQuiet (s : State) : Prop := s.ime.ents = [] ∧ s.ime.blks = [] ∧ s.ile.resident = [] ∧ s.ime.pageHeld = []

/-- No key command, attestation command, transition, port or service of key services waits for a random number (03 R100). -/
def nothingWaitsForSeed (s : State) : Prop :=
  s.key.seedWait = 0 ∧ s.key.genWait = none ∧ s.att.wait = none ∧ s.lcs.act = none
    ∧ ∀ e, (lportAt s e).helloDue = false ∧ (lportAt s e).shareDue = false ∧ (lportAt s e).rekeyDue = false

/-- A region's working keys are at hand: none in P0, else all derivable and cached (03 K7, R86; 04 R121 to R126). -/
def keysReady (s : State) (ix : Nat) (r : Region) : Prop :=
  r.mode = 0 ∨ ∃ slot v, regionSlot s ix r = some slot ∧ slotAt s slot = some v
    ∧ ∀ h ∈ lineHandles s ix r slot (curHalf v), (derive s h).isSome = true ∧ dkcHas s h = true

/-- A fabric opcode passes to the ILE: its gate, its route, its port and room in the origination table; no cut holds outgoing writes (05 R175,
R185; 08 R261; 14 R425). -/
def fabricPasses (s : State) (q : FabReq) : Prop :=
  fabClosed s = false ∧ fabGate s q (whoOf s q) (decide (q.addr.toNat % 64 = 0)) = none ∧ routeCode s q.dest.toNat true = 0#8
    ∧ portStopped s (qpOfLnk (routeEgress (routeOf s q.dest.toNat))) = false
    ∧ noLanes s (qpOfLnk (routeEgress (routeOf s q.dest.toNat))) = false
    ∧ s.ile.orig = [] ∧ s.ile.heldOut = [] ∧ holdsOutgoing s = false

/-- The fabric opcodes with the OP, FLAGGED and FETCH they carry and their data (05 Table 5-9, Table 5-10; 14 Table 14-5). -/
def fabricRows (q : FabReq) : List (Instr × Nat × Bool × Bool × List Byte) :=
  let line := lineBytes (storedData (q.data.headD 0#576))
  [(.fabLoad q, 1, false, false, []), (.fabStore q, 2, false, false, line), (.fabStorePartial q, 3, false, false, leBytes 8 q.mask.toNat ++ line),
    (.fabStoreFlagged q, 2, true, false, line), (.fabStorePartialFlagged q, 3, true, false, leBytes 8 q.mask.toNat ++ line),
    (.fabAtomic q, 4, false, false, line.take 32), (.fabAtomicFetch q, 4, false, true, line.take 32)]

/-- Every FABPORT command on a request, with the number of beats its response has (14 Table 14-5). -/
def fabCommands (q : FabReq) (m tree : MemIn) : List (Instr × Nat) :=
  [(.fabRead q m, 1), (.fabWrite q m tree, 1), (.fabWritePartial q m, 1), (.fabCread q m, q.count.toNat + 1), (.fabCwrite q m, 1),
    (.fabRawRead q m, 1), (.fabRawWrite q m, 1), (.fabLoad q, 1), (.fabStore q, 1), (.fabStorePartial q, 1), (.fabStoreFlagged q, 1),
    (.fabStorePartialFlagged q, 1), (.fabAtomic q, 1), (.fabAtomicFetch q, 1), (.fabReservedOp q, 1)]

/-- A bring-up frame around a message (05 R157, R162). -/
def bringFrame (b : List Byte) : Frame :=
  { version := 0#8, kind := 1#8, payloadLen := BitVec.ofNat 16 b.length, session := 0#32, sequence := 0#64, payload := b, tag := 0#128 }

/-- A HELLO whose form is right for a port (05 Table 5-3, R158). -/
def helloForm (e : Nat) (b : List Byte) : Prop :=
  b.length = 64 ∧ fld b 0 1 = 1 ∧ fld b 1 1 < 2 ∧ fld b 2 2 < 16384 ∧ fld b 5 1 = portKind e ∧ fld b 6 2 = 0 ∧ fld b 0x1C 4 = 0

/-- A sealed frame that an open port takes: no lane about to fail its compare, the frame verified at the expected sequence, its inner header well
formed, of a type, with content (01 R23; 05 R163, R164, Table 5-6). -/
def opens (s : State) (e : Nat) (f : Frame) (b : List Byte) (ftype : Nat) (content : List Byte) : Prop :=
  rxTakes s e = true ∧ portOpen s e = true ∧ s.lane.flaw = [] ∧ f.kind = 0#8 ∧ openFrame s e f = some b ∧ innerOk b = true ∧ fld b 0 1 = ftype
    ∧ slice b 16 (fld b 2 2) = content

/-- The port after a verified frame: its lanes passed, the next sequence expected, its credits taken back (01 R17; 05 R163, R170). -/
def received (s : State) (e : Nat) (b : List Byte) : State :=
  takeCredits (setLport (formPass s e false none 0).2 e { lportAt s e with rxSeq := (lportAt s e).rxSeq + 1 }) e (fld b 4 12)

/-- A control command of the host objects unit is taken: admitted, none running, and the checks it starts with pass (09 R281, R300). -/
def hobTakes (s : State) (slice : Nat) (usesAddr : Bool) (argBits : Nat) : Prop :=
  admitted s 0x8014 ∧ s.hob.cmdBusy = false ∧ s.hob.busyHit = false ∧ hobGate s slice usesAddr argBits = 0#8

/-- A control command has ended with no error: its code is 0, BUSY clear, the HOB source set, and CTLPORT answered (09 R300; 15 R459). -/
def hobDone (s : State) : State :=
  okay { s with
    hob := { s.hob with cmdBusy := false, busyHit := false, cmdCode := 0#8, cmdDetail := 0, cmdWait := none }
    gen := { s.gen with irqStatus := s.gen.irqStatus ||| 0x20#32 } }

/-- A mailbox holds a request, and its turn has come (12 R364). -/
def asked (s : State) (dbg : Bool) (q : List Byte) : Prop :=
  s.pin.pwrok = true ∧ s.dom.aclkLost = false ∧ (mbxOf s dbg).busy = true ∧ s.att.mbxOrder.head?.map (·.1) = some dbg ∧ mbxReq (mbxOf s dbg) = q

/-- A mailbox has been answered: the whole response posted, BUSY clear, the next request's turn, and for CTLPORT the ATT source set; the other
mailbox and all else stay (12 R364; 15 R471). -/
def replied (s t : State) (dbg : Bool) (r : List Byte) (m : Mbx) : Prop :=
  mbxOf t dbg = { m with rsp := r, rspReady := true, busy := false, pos := 0, reqLen := if dbg then 0 else m.reqLen }
    ∧ mbxOf t (!dbg) = mbxOf s (!dbg) ∧ t.att.mbxOrder = s.att.mbxOrder.tail
    ∧ t.gen.irqStatus = (if dbg then s.gen.irqStatus else s.gen.irqStatus ||| 0x40#32) ∧ t.key = s.key ∧ t.flash = s.flash ∧ t.out = s.out

/-- An attestation command is taken: admitted, none running, not tampered, its role held, and its operand block read with reserved fields 0 (12 R391,
R392). `s1` and `m1` are the state and the answers left after the read. -/
def attTakes (s : State) (archivist : Bool) (m : MemIn) (b : List Byte) (s1 : State) (m1 : MemIn) : Prop :=
  admitted s 0x11000 ∧ attBusy s = false ∧ s.att.wait = none ∧ s.key.tampered = false ∧ (archivist = true → roleOf s = 2)
    ∧ ctlRead s s.att.cmdShelf.toNat s.att.cmdAddr.toNat 64 m = (.ok b, s1, m1) ∧ aoOk b = true

/-- An attestation command is taken, and so is its input. -/
def attTakesIn (s : State) (archivist : Bool) (m : MemIn) (b x : List Byte) (s1 : State) (m1 : MemIn) : Prop :=
  ∃ s0 m0, attTakes s archivist m b s0 m0 ∧ ctlRead s0 (aoShelf b) (aoAddr b) (aoLen b) m0 = (.ok x, s1, m1)

/-- The output of an attestation command is written whole, in a buffer that holds it (12 R391). -/
def attPuts (s : State) (b out : List Byte) (m : MemIn) (s1 : State) : Prop :=
  out.length ≤ aoOutLen b ∧ ∃ m1, ctlWrite s (aoOutShelf b) (aoOutAddr b) out m = (.ok (), s1, m1)

/-- An attestation command has ended: its code and detail, BUSY clear, the ATT source set, and CTLPORT answered (12 R391; 15 R459). -/
def attEnds (s : State) (c : Code) (d : Nat) : State :=
  okay { s with
    att := { s.att with cmdBusy := false, cmdCode := c, cmdDetail := d }
    gen := { s.gen with irqStatus := s.gen.irqStatus ||| 0x40#32 } }

/-- LCS_CMD takes a record from its window or from memory: admitted, none running, CORE up, no intent (13 R414). `s1` is the state left after the
read. -/
def lcsTakes (s : State) (source : Bool) (m : MemIn) (b : List Byte) (s1 : State) : Prop :=
  admitted s 0x14000 ∧ s.lcs.cmdBusy = false ∧ coreDown s = false ∧ s.lcs.intentPending = false
    ∧ (source = true → b = bufBytes s.lcs.stage 0 304 ∧ s1 = { s with lcs := { s.lcs with overrun := false } })
    ∧ (source = false → s.gen.unchartered = false
      ∧ ∃ m1, ctlRead { s with lcs := { s.lcs with overrun := false } } s.lcs.cmdShelf.toNat s.lcs.cmdAddr.toNat 304 m = (.ok b, s1, m1))

/-- A record passes R410 but for its signature, and no charter load or attestation command runs (13 R410, R414). -/
def recordFits (s : State) (b : List Byte) : Prop :=
  arForm b = true ∧ arLcs b = s.lcs.st ∧ (s.lcs.st = 0 → arSerial b ≠ 0) ∧ (s.lcs.st ≠ 0 → arSerial b = serialOf s.fuse.shadow)
    ∧ arCount b = s.lcs.accCount ∧ (arAction b = 1 → (transOf s.lcs.st (arArg b)).map (·.1) = some (arRole b))
    ∧ (arAction b ≠ 1 → (arRights (arAction b) s.lcs.st).contains (arRole b) = true) ∧ s.gen.chrBusy = false ∧ s.att.cmdBusy = false

/-- A command of LCS_CMD has ended: its code, BUSY clear, the LCS source set, and CTLPORT answered (13 R414; 15 R459). -/
def lcsEnds (s : State) (c : Code) : State :=
  okay { s with
    lcs := { s.lcs with cmdBusy := false, code := c, act := none }
    gen := { s.gen with irqStatus := s.gen.irqStatus ||| 0x80#32 } }

/-- The versions of Table 2-6: interface code, native version, forerunner-only version. -/
def versions : List (Nat × Nat × Option Nat) := [(1, 3, some 2), (2, 2, some 1), (3, 2, some 1), (4, 2, some 1), (5, 1, none), (6, 2, some 1), (7, 3, some 2)]

/-- The reset values of the register tables (15 Tables 15-2 to 15-12): offset, value. -/
def resetValues : List (Nat × Nat) :=
  [(0x0, 0x53483438), (0x4, 0x10000), (0x8, 0x1), (0xc, 0xd0a90800), (0x10, 0xd1715), (0x2020, 0x2), (0x2024, 0x80004),
   (0x4008, 0x688b1a22c688), (0x4018, 0x8), (0x5000, 0x7d00004), (0x5004, 0x7d0), (0x6008, 0x2710), (0x7000, 0x400c80),
   (0x8000, 0x64006400000003), (0x10004, 0x2346c990), (0x10008, 0x2a8a6414), (0x10010, 0x320000)]
  ++ ([0x14, 0x20, 0x24, 0x28, 0x2c, 0x40, 0x48, 0x4c, 0x50, 0x54, 0x58, 0x60, 0x64, 0x80, 0x84, 0xa0, 0xa4, 0x180, 0x188, 0x1000, 0x1008, 0x100c,
    0x1010, 0x1018, 0x1020, 0x1028, 0x1040, 0x1048, 0x1050, 0x1058, 0x1060, 0x2000, 0x2008, 0x200c, 0x2010, 0x2018, 0x2028, 0x4000, 0x4010,
    0x4014, 0x5008, 0x5010, 0x5014, 0x5018, 0x6000, 0x7004, 0x7008, 0x8008, 0x8010, 0x8014, 0x8018, 0x8020, 0x8024, 0x8028, 0x8030, 0x8038,
    0x8040, 0x8048, 0x10000, 0x1000c, 0x10014, 0x10018, 0x10020, 0x10024, 0x10028, 0x10030, 0x11000, 0x11004, 0x11008, 0x11010, 0x11040,
    0x11044, 0x14000, 0x14004, 0x14008, 0x14010, 0x14014, 0x14018].map fun a => (a, 0))

/-- The commands that may change the fuses or their shadow: a start, a loss of power, the end of a transition, and a blow (13 R394; 14 R444). -/
def changesFuses : Instr → Bool
  | .powerGood .. | .coldPowerLoss | .memSrAck .. | .quiesceDrainDone | .fusePgmAck .. => true
  | _ => false

/-- The commands that may change the life-cycle state, its debug settings, its command registers or the accession position (13 R396, R401, R413). -/
def changesLifeCycle : Instr → Bool
  | .powerGood .. | .coldPowerLoss | .drbgInstantiate | .tamperZeroise .. | .clockReturn .. | .charterLoad .. | .entropyRetest .. | .memSrAck ..
    | .quiesceDrainDone | .appoint .. | .fwMeasure .. | .fwStage .. | .endorse .. | .transition .. | .debugEnable .. | .debugDisable .. |
    .raiseFloor .. | .clearStanding .. | .fusePgmAck .. | .registerWrite .. | .regsWrite .. | .lcsStage .. => true
  | _ => false

/-- The commands that may change the signer, its mailboxes, the roster state or the firmware measurements (12 R364 to R393). -/
def changesAttestation : Instr → Bool
  | .powerGood .. | .coldPowerLoss | .drbgInstantiate | .tamperZeroise .. | .clockReturn .. | .entropyRetest .. | .memSrAck .. | .portReset .. |
    .quiesceDrainDone | .getVersion .. | .getCapabilities .. | .negotiateAlgorithms .. | .getDigests .. | .getCertificate .. | .challenge .. |
    .getMeasurements .. | .spdmUnsupported .. | .mbxSend .. | .mbxRelease | .colophon .. | .enlistNonce .. | .enlistNonceExpire .. | .enlist ..
    | .delist .. | .lockAdmission .. | .rosterSign .. | .rosterLoad .. | .appoint .. | .wrapDomain .. | .genPair .. | .rekeyIssue .. |
    .rekeyApply .. | .fwMeasure .. | .fwStage .. | .fwActivate .. | .fwAbandon .. | .endorse .. | .certStore .. | .ideBind .. | .ideKeyex .. |
    .ideDeliver .. | .ideSwitch .. | .ideClose .. | .registerWrite .. | .mboxPut .. | .mboxSend | .mboxGet | .regsWrite .. => true
  | _ => false

/-- The commands that may change a vault slot: its halves, its generation, or what it has encrypted (03 R87 to R97). -/
def changesVault : Instr → Bool
  | .powerGood .. | .coldPowerLoss | .drbgInstantiate | .tamperZeroise .. | .clockLost .. | .clockReturn .. | .keyDerivationDone |
    .charterStored .. | .loadWrapped .. | .activate .. | .retirePrev .. | .discardStaged .. | .zeroise .. | .genEphemeral .. | .vaultMaskRefresh
    | .entropyRetest .. | .fabRead .. | .fabWrite .. | .fabWritePartial .. | .fabCread .. | .fabCwrite .. | .fabRawRead .. | .fabRawWrite .. |
    .memReadData .. | .memWriteAck .. | .catalogueFormat .. | .create .. | .destroy .. | .setRights .. | .pageReencrypt .. | .sweepStep .. |
    .sweepVerifyDone .. | .memSrAck .. | .linkUp .. | .hello .. | .identity .. | .keyShare .. | .keyConfirm .. | .bringupTimeout .. |
    .bringupRetry .. | .data .. | .idle .. | .nak .. | .rekey .. | .rekeyDone .. | .rekeyThreshold .. | .rekeyNow .. | .atomicLineIdle .. |
    .deadTargetTimeout .. | .lnkCalEnd .. | .contextOpen .. | .collTimeout .. | .jobStart .. | .jobResume .. | .cut .. | .cutFlushDone .. |
    .restore .. | .cutTimeout .. | .commandDispatch .. | .commandComplete .. | .objCreate .. | .objFree .. | .objDestroyRetry .. |
    .sliceResetDrain .. | .sliceResetSquash .. | .drainTimeout .. | .portSelect .. | .portReset .. | .coreWarmReset .. | .blockWarmRecovery .. |
    .quiesceDrainDone | .colophon .. | .enlistNonce .. | .enlist .. | .delist .. | .lockAdmission .. | .rosterSign .. | .rosterLoad .. |
    .wrapDomain .. | .genPair .. | .rekeyIssue .. | .rekeyApply .. | .ideKeyex .. | .ideDeliver .. | .ideSwitch .. | .ideClose .. |
    .flashGrantTimeout | .registerWrite .. | .regsWrite .. | .fabdbgRead .. | .fabdbgWrite .. | .fabdbgRawRead .. | .fabdbgRawWrite .. |
    .linkDown .. | .flashGrantLost | .aclkReturn => true
  | _ => false

/-- A slot just loaded: no previous and no staged half, no key yet placed in it, both counters at 0 (03 R88, R92). -/
def newSlot (kind rootClass tenant gen : Nat) (m : Masks) : Slot :=
  { kind := kind, rootClass := rootClass, tenant := tenant, masks := m, genCur := gen, prevLive := false, staged := none, half0 := none,
    half1 := none, cnt0 := 0, cnt1 := 0 }

/-- The addressed buffers hold their canonical form: the charter window, the staged life-cycle record, and both mailboxes' requests. -/
def buffersWf (s : State) : Prop :=
  bufWf s.gen.chrWindow = true ∧ bufWf s.lcs.stage = true ∧ bufWf s.att.mbxCtl.req = true ∧ bufWf s.att.mbxDbg.req = true

/-- No fuse reads blown in the shadow that the macro does not hold blown (03 R75; 13 R394). -/
def shadowWithin (s : State) : Prop := ∀ i : Nat, s.fuse.shadow.getLsbD i = true → s.fuse.blown.getLsbD i = true

/-- The instance's parameters are those its integrator fixed (01 R44; 15 R456, R457). -/
def instanceFixed (s : State) : Prop := s.cfg = Cfg.relrik

/-- The invariant of the block's fixed and addressed state. -/
def Inv (s : State) : Prop := instanceFixed s ∧ buffersWf s ∧ shadowWithin s

/-- Without power nothing of a start is left; after a tamper the kill bank is empty and no entropy test that could refill it is under way (03 R99,
R103, R105; 14 R418). -/
def KillInv (s : State) : Prop :=
  (s.pin.pwrok = false → s.gen.released = false ∧ s.gen.c6Done = false ∧ s.key.kill = KillBank.empty ∧ s.key.retries = 0)
  ∧ (s.key.killed = true ↔ s.key.tampered = true)
  ∧ (s.key.tampered = true → s.key.kill = KillBank.empty ∧ s.key.retries = 0)

end Sys2Proof.Safety
end

