-- ==== Sys2Proof/Certificates/Slice0/Obligations.lean ====
section
/-!
DEFINITION. The statements about the block: what each family of commands does and leaves alone, and what every step keeps.
-/

open Sys2Proof Sys2Proof.Machine

/-- A step takes the front command and runs it with the rest of the queue (the block's interface; log 5). -/
def Obligations.StepRunsFrontCommand : Prop :=
  ∀ (s : State) (c : Instr) (r : List Instr), s.pending = c :: r → step s = exec c { s with pending := r }

/-- An empty queue is one ACLK period: the AON counts advance (the model's choice, log 5; 10 R309, 11 R331). -/
def Obligations.IdleStepCountsTime : Prop :=
  ∀ s : State, s.pending = [] →
    step s = .next (if s.pin.pwrok = true ∧ s.dom.aclkLost = false then
      { s with tm := { ns := s.tm.ns + 10, aclk := s.tm.aclk + 1 } } else s)

/-- Whatever a command does, the queue of waiting commands and the parameters of the instance stay (01 R44; 15 R456, R457). -/
def Obligations.CommandsLeaveQueue : Prop :=
  ∀ (c : Instr) (s t : State), exec c s = .next t → t.pending = s.pending ∧ t.cfg = s.cfg

/-- Both invariants hold of the block without power. -/
def Obligations.ResetKeepsInv : Prop := Safety.Inv State.reset ∧ Safety.KillInv State.reset

/-- The invariant of the fixed and addressed state is kept by every step, whatever the command. -/
def Obligations.StepKeepsInv : Prop :=
  ∀ s t : State, Safety.Inv s → step s = .next t → Safety.Inv t

/-- A blown fuse stays blown through every step, cold power loss and wipes included (13 R394; 14 R444). -/
def Obligations.BlownFusesStay : Prop :=
  ∀ (s t : State) (i : Nat), s.fuse.blown.getLsbD i = true → step s = .next t → t.fuse.blown.getLsbD i = true

/-- KILLED and an empty kill bank stay together through every step until power is lost (03 R99, R103, R105). -/
def Obligations.TamperKeepsKeysDead : Prop :=
  ∀ s t : State, Safety.KillInv s → step s = .next t → Safety.KillInv t

/-- A cold start from power off, and the loss of power (02 R66, R62; 14 R418; 13 R396; 01 R39). -/
def Obligations.PowerOnAndOff : Prop :=
  (∀ (e : StartIn) (s : State) (st : Nat) (g : Bool), s.pin.pwrok = false → s.flash.intent = none →
    decodeLcs s.fuse.blown = .state st g → st ≠ 5 → e.cclkMhz ≠ 0#12 → e.hclk = true →
    ∃ t, exec (.powerGood e) s = .next t ∧ t.pin.pwrok = true ∧ t.gen.released = true ∧ t.gen.lastStart = 1
      ∧ coreDown t = false ∧ hostDown t = false ∧ epochOf t 0 = 1#32 ∧ epochOf t 1 = 1#32
      ∧ t.fuse = { blown := s.fuse.blown, shadow := s.fuse.blown } ∧ t.lcs.st = st ∧ t.lcs.disagree = g)
  ∧ (∀ (e : StartIn) (s : State) (st : Nat) (g : Bool), s.pin.pwrok = false → s.flash.intent = none →
    decodeLcs s.fuse.blown = .state st g → st ≠ 5 → e.cclkMhz = 0#12 ∨ e.hclk = false →
    ∃ t, exec (.powerGood e) s = .next t ∧ t.pin.pwrok = true ∧ t.gen.released = s.gen.released ∧ t.gen.c5Wait = some e
      ∧ coreDown t = true ∧ hostDown t = true)
  ∧ (∀ s : State, s.pin.pwrok = true →
    ∃ t, exec .coldPowerLoss s = .next t ∧ t.pin = Pin.reset ∧ t.key = Key.reset ∧ t.ime = Ime.reset ∧ t.ile = Ile.reset ∧ t.sre = Sre.reset
      ∧ t.bce = Bce.reset ∧ t.hob = Hob.reset ∧ t.qos = Qos.reset ∧ t.flt = Flt.reset ∧ t.att = Att.reset ∧ t.lcs = Lcs.reset
      ∧ t.lane = LanePool.reset ∧ t.fuse = { blown := s.fuse.blown, shadow := 0#8192 }
      ∧ (s.gen.load = none → t.flash = s.flash)
      ∧ (∀ l, s.gen.load = some l → t.flash = { s.flash with slots := tdel s.flash.slots l.slot }))

/-- Steps C6, C12 and C13 of a start (02 R66; 03 R78, R79, R98, R101). -/
def Obligations.StartStepsComplete : Prop :=
  (∀ (puf : BitVec 20460) (flashOk : Bool) (h : Helper) (s : State), s.gen.released = true → s.gen.c6Done = false → s.key.pufRead = false →
    coreDown s = false → s.key.slateOn = false → s.key.tampered = false → s.flash.helper = some h →
    ∃ t, exec (.geodeRegenerate puf flashOk) s = .next t ∧ t.gen.c6Done = true ∧ t.key.pufRead = true
      ∧ (∀ root, regenFrom s h puf = .ok root →
          t.key.kill = { s.key.kill with geode := some root } ∧ t.key.geodeFail = false ∧ t.key.geodeCause = 0)
      ∧ (∀ c, regenFrom s h puf = .error c → t.key.kill = s.key.kill ∧ t.key.geodeFail = true ∧ t.key.geodeCause = c))
  ∧ (∀ s : State, s.gen.c6Done = true → s.gen.c10Done = true → s.gen.c12Done = false → coreDown s = false → s.key.tampered = false →
    s.key.retries = 0 → Safety.nothingWaitsForSeed s →
    ∃ t, exec .drbgInstantiate s = .next t ∧ t.gen.c12Done = true ∧ t.key.drbgUp = !s.key.drbgFail
      ∧ (maskKey t t.key.maskCur).isSome = true ∧ t.key.kill.scramble.isSome = true
      ∧ (s.key.kill.geode = t.key.kill.geode ∧ s.key.kill.bedrock = t.key.kill.bedrock))
  ∧ (∀ s : State, s.pin.pwrok = true → s.gen.released = true → s.gen.halted = false → s.gen.c10Done = true → s.gen.c12Done = true →
    s.gen.ready = false → coreDown s = false → s.flt.coldReq = false → portsTrained s = true →
    (∀ r ∈ s.flt.running, ¬(r.rung = 4 ∧ r.phase = .restart)) →
    exec .startReady s = .next { s with gen := { s.gen with ready := true } })

/-- Tamper zeroisation from every powered state (03 R99, R103 to R105). -/
def Obligations.TamperZeroises : Prop :=
  ∀ (vaultClean : Bool) (s : State), s.pin.pwrok = true →
    ∃ t, exec (.tamperZeroise vaultClean) s = .next t ∧ t.key.kill = KillBank.empty ∧ t.key.killed = true ∧ t.key.tampered = true
      ∧ (s.key.tampered = false → t.key.dkc = [] ∧ t.key.missq = [] ∧ t.lane.ctx = [] ∧ t.key.drbgUp = false ∧ t.ile.resident = []
          ∧ (s.dom.aclkLost = false → t.key.slots = [])
          ∧ t.key.zeroised = !((domAt s 0).clockLost || s.dom.aclkLost) ∧ t.key.coreWipeDue = ((domAt s 0).clockLost || s.dom.aclkLost))
      ∧ (s.key.tampered = true → t = { s with pin := { s.pin with tmpHigh := false }
                                              key := { s.key with kill := KillBank.empty, killed := true } })

/-- Clocks lost and returned (01 R36, R38, R39; 02 R66). -/
def Obligations.ClockLossAndReturn : Prop :=
  (∀ (d : Nat) (s : State), s.pin.pwrok = true → d < 26 → (2 ≤ d → portPresent s (d - 2) = true) → (domAt s d).clockLost = false →
    ∃ t, exec (.clockLost d) s = .next t ∧ (domAt t d).clockLost = true
      ∧ (s.gen.released = true → s.flt.coldReq = false → (domAt t d).inReset = true))
  ∧ (∀ (d : Nat) (bad : List Nat) (s : State), s.pin.pwrok = true → (domAt s d).clockLost = true → s.gen.released = true → s.flt.coldReq = false →
      s.gen.c5Wait = none → epochOf s d ≠ 0xFFFFFFFF#32 →
    ∃ t, exec (.clockReturn ⟨d, bad⟩) s = .next t
      ∧ (d = 1 → t.dom = (setDom s 1 { domAt s 1 with clockLost := false, inReset := false, first := false, epoch := epochOf s 1 + 1#32 }).dom)
      ∧ (d = 0 → (∀ r ∈ s.flt.running, r.rung ≠ 3 ∧ r.rung ≠ 4) →
          (domAt t 0).clockLost = false ∧ coreDown t = false ∧ epochOf t 0 = epochOf s 0 + 1#32 ∧ t.gen.lastStart = 3)
      ∧ (2 ≤ d → portPresent s (d - 2) = true → (domAt s d).inReset = true → coreDown s = false → s.gen.unchartered = false →
          (domAt t d).clockLost = false ∧ (domAt t d).inReset = false
            ∧ epochOf t d = if (domAt s d).first then epochOf s d else epochOf s d + 1#32)
      ∧ (2 ≤ d → coreDown s = true → t.dom = (setDom s d { domAt s d with clockLost := false }).dom))
  ∧ (∀ (d : Nat) (bad : List Nat) (e : StartIn) (s : State), s.pin.pwrok = true → d < 2 → (domAt s d).clockLost = true →
      (domAt s (1 - d)).clockLost = false → s.flt.coldReq = false → s.gen.halted = false → s.gen.c5Wait = some e →
    ∃ t, exec (.clockReturn ⟨d, bad⟩) s = .next t ∧ t.gen.released = true ∧ t.gen.c5Wait = none ∧ coreDown t = false ∧ hostDown t = false)
  ∧ (∀ s : State, s.gen.released = true → coreDown s = false → s.dom.aclkLost = false →
    ∃ t, exec .aclkLost s = .next t ∧ t.dom = { s.dom with aclkLost := true, aclkWait := true })
  ∧ (∀ s : State, s.pin.pwrok = true → s.dom.aclkLost = true →
    ∃ t, exec .aclkReturn s = .next t ∧ t.dom = { s.dom with aclkLost := false }
      ∧ (s.flt.running = [] → (∀ d, d < 26 → epochOf s d ≠ 0xFFFFFFFF#32) → s.flt.history = [] →
          (t.flt.running.any fun r => r.rung == 4) = true ∧ t.flt.recovery = s.flt.recovery + 1))

/-- A beat through a lane (01 R21 to R24; 11 R327, R336). -/
def Obligations.LaneBeatReleasesOrFences : Prop :=
  ∀ (i g : Nat) (b : Beat) (k : List Byte) (s : State), groupOf (laneAt s i).st = some g → s.key.tampered = false → coreDown s = false →
    dkcHas s b.key = true → derive s b.key = some k → (∀ x ∈ s.lane.done, ¬(x.group = g ∧ x.req = b.reqTag)) →
    (nextBeat s g b.reqTag = b.index →
      (∀ r, ∃ t, exec (.laneBeat i b false r) s = .next t ∧ t.lane.l = s.lane.l ∧ t.lane.done = s.lane.done
        ∧ nextBeat t g b.reqTag = (if b.last then 0 else b.index + 1)
        ∧ t.out = s.out ++ [.lane i (beatOut b.op k b.tweak b.data) b.reqTag])
      ∧ (∃ t, exec (.laneBeat i b true false) s = .next t ∧ (laneAt t i).st = .fenced ∧ (laneAt t i).fenceMark = true ∧ (laneAt t i).testing = true
        ∧ t.out = s.out ++ [.lane (replayLane s i g) (beatOut b.op k b.tweak b.data) b.reqTag]))
    ∧ (nextBeat s g b.reqTag ≠ b.index → ∀ r, ∃ t, exec (.laneBeat i b false r) s = .next t ∧ t.lane.l = s.lane.l ∧ t.out = s.out
        ∧ t.lane.done = s.lane.done ++ [{ group := g, req := b.reqTag, index := b.index, last := b.last, lane := i, data := beatOut b.op k b.tweak b.data }])
    ∧ (∃ t, exec (.laneBeat i b true true) s = .next t ∧ (laneAt t i).st = .fenced ∧ t.out = s.out
        ∧ t.ime = (poisonReq s g b.reqTag Rsn.laneCheck).ime ∧ t.ile = (poisonReq s g b.reqTag Rsn.laneCheck).ile
        ∧ t.bce = (poisonReq s g b.reqTag Rsn.laneCheck).bce)

/-- The lane commands (01 R26, R29 to R31; 11 R336, R338). -/
def Obligations.LaneCommandsComplete : Prop :=
  (∀ (v : Vacancy) (j : Nat) (failing : List Nat) (s : State), nextVacant s = some v →
    (v.group < 24 → (members s v.group).length < charteredSize s v.group) → replacementFor s v.group failing = some j →
    ∃ t, exec (.laneReplace v.lane failing) s = .next t ∧ (laneAt t j).st = inGroup v.group
      ∧ t.lane.vacant = s.lane.vacant.filter (fun x => x != v)
      ∧ ∀ f ∈ failing, (laneAt s f).st = .spare → (laneAt t f).st = .fenced)
  ∧ (∀ (v : Vacancy) (failing : List Nat) (s : State), nextVacant s = some v →
    (v.group < 24 → charteredSize s v.group ≤ (members s v.group).length →
      exec (.laneReplace v.lane failing) s = .next { s with lane := { s.lane with vacant := s.lane.vacant.filter fun x => x != v } })
    ∧ ∀ i, i ≠ v.lane → exec (.laneReplace i failing) s = .next s)
  ∧ (∀ (i : Nat) (s : State), (laneAt s i).testing = true →
    (∃ t, exec (.fenceTestDone i false) s = .next t ∧ laneAt t i = { laneAt s i with testing := false, selfOk := false })
    ∧ ((laneAt s i).testByDriver = false → (laneAt s i).verdict = 1 → (laneAt s i).driverHeld = false → s.gen.charter = none →
        ∃ t, exec (.fenceTestDone i true) s = .next t ∧ (laneAt t i).st = .spare ∧ (laneAt t i).testing = false ∧ (laneAt t i).selfOk = true)
    ∧ ((laneAt s i).testByDriver = false → ((laneAt s i).verdict ≠ 1 ∨ (laneAt s i).driverHeld = true) →
        exec (.fenceTestDone i true) s = .next (setLane s i { laneAt s i with testing := false, selfOk := true })))
  ∧ (∀ (i : Nat) (s : State), (laneAt s i).st = .spare →
    exec (.spareSelfTest i true) s = .next (setLane s i { laneAt s i with selfOk := true })
    ∧ ∃ t, exec (.spareSelfTest i false) s = .next t ∧ laneAt t i = { laneAt s i with st := .fenced, fenceMark := true, selfOk := false })
  ∧ (∀ (v : Word) (s : State), Safety.admitted s 0x10014 → bits v.toNat 0 8 < s.cfg.lanes → (laneAt s (bits v.toNat 0 8)).st ≠ .fenced →
    ∃ t, exec (.driverLaneFence v) s = .next t
      ∧ laneAt t (bits v.toNat 0 8) = { laneAt s (bits v.toNat 0 8) with st := .fenced, fenceMark := true, driverHeld := true }
      ∧ t.out = s.out ++ [.ctlRsp 0#32 0])
  ∧ (∀ (v : Word) (s : State), Safety.admitted s 0x10018 → bits v.toNat 0 8 < s.cfg.lanes → (laneAt s (bits v.toNat 0 8)).st = .fenced →
    laneStanding s (bits v.toNat 0 8) = false → (laneAt s (bits v.toNat 0 8)).testing = false → (laneAt s (bits v.toNat 0 8)).driverHeld = true →
    exec (.driverLaneUnfence v) s = .next (Safety.okay (setLane s (bits v.toNat 0 8)
      { laneAt s (bits v.toNat 0 8) with driverHeld := false, testing := true, testByDriver := true })))

/-- What the lane commands leave alone. -/
def Obligations.LaneCommandsFrame : Prop :=
  ∀ (c : Instr) (s t : State), ((∃ l f, c = .laneReplace l f) ∨ (∃ l p, c = .fenceTestDone l p) ∨ (∃ l p, c = .spareSelfTest l p)
      ∨ (∃ v, c = .driverLaneFence v) ∨ (∃ v, c = .driverLaneUnfence v)) → exec c s = .next t →
    t.pin = s.pin ∧ t.dom = s.dom ∧ t.tm = s.tm ∧ t.fuse = s.fuse ∧ t.key = s.key ∧ t.ime = s.ime ∧ t.ile = s.ile ∧ t.qos = s.qos ∧ t.hob = s.hob
      ∧ t.sre = s.sre ∧ t.bce = s.bce ∧ t.lcs = s.lcs ∧ t.att = s.att ∧ t.dbg = s.dbg

/-- LOAD_WRAPPED and GEN_EPHEMERAL once their checks pass (03 R90, R92, Table 3-13). -/
def Obligations.KeyLoadsComplete : Prop :=
  (∀ (slot : BitVec 10) (m m1 : MemIn) (b : List Byte) (s s1 : State), Safety.admitted s 0x100C → s.key.cmdBusy = false → s.key.tampered = false →
    ctlRead s s.key.cmdShelf.toNat s.key.cmdAddr.toNat 192 m = (.ok b, s1, m1) → wrOk b = true → wrDomain b ≠ 0 → wrDomain b = domainId s1 →
    64 ≤ slot.toNat → tenantAvail s1 = true →
    (slotAt s1 slot.toNat = none → tenantTaken s1 (wrKind b) (wrTenant b) = false →
      ∃ t, exec (.loadWrapped slot m) s = .next t ∧ t.key.cmdBusy = false
        ∧ (unwrap s1 b = none → t.key.cmdResult = Kc.unwrapFail ∧ t.key.slots = s1.key.slots)
        ∧ (∀ k, unwrap s1 b = some k → t.key.cmdResult = Kc.done
            ∧ slotAt t slot.toNat = some (withHalf (Safety.newSlot (wrKind b) (tenantClass s1) (wrTenant b) (wrGen b) (attrMasks (wrAttr b))) (wrGen b)
                (maskHalf s1 slot.toNat (wrGen b % 2) k))))
    ∧ (∀ v, slotAt s1 slot.toNat = some v → v.kind = wrKind b → v.tenant = wrTenant b → v.staged = none → v.prevLive = false →
        v.genCur ≠ 0xFFFFFFFF → wrGen b = v.genCur + 1 →
      ∃ t, exec (.loadWrapped slot m) s = .next t ∧ t.key.cmdBusy = false
        ∧ (unwrap s1 b = none → t.key.cmdResult = Kc.unwrapFail ∧ t.key.slots = s1.key.slots)
        ∧ (∀ k, unwrap s1 b = some k → t.key.cmdResult = Kc.done
            ∧ ∃ w, slotAt t slot.toNat = some w ∧ w.staged = some (attrMasks (wrAttr b)) ∧ w.genCur = v.genCur ∧ w.masks = v.masks
              ∧ halfOf w (v.genCur + 1) = maskHalf s1 slot.toNat ((v.genCur + 1) % 2) k ∧ halfOf w v.genCur = halfOf v v.genCur)))
  ∧ (∀ (slot : BitVec 10) (s : State), Safety.admitted s 0x100C → s.key.cmdBusy = false → drbgServes s = true → drbgWaits s = false →
    bits s.key.cmdArg.toNat 9 23 = 0 → attrOk (bits s.key.cmdArg.toNat 32 32) = true → 64 ≤ slot.toNat → tenantAvail s = true →
    slotAt s slot.toNat = none → tenantTaken s 3 (bits s.key.cmdArg.toNat 0 9) = false →
    ∃ t k, exec (.genEphemeral slot) s = .next t ∧ t.key.cmdResult = Kc.done ∧ t.key.cmdBusy = false
      ∧ slotAt t slot.toNat = some { Safety.newSlot 3 (tenantClass s) (bits s.key.cmdArg.toNat 0 9) 0 (attrMasks (bits s.key.cmdArg.toNat 32 32)) with
          half0 := maskHalf s slot.toNat 0 k })

/-- The commands on a slot's halves (03 R90, R93, R95, Table 3-12). -/
def Obligations.KeyHalvesMove : Prop :=
  ∀ (slot : BitVec 10) (s : State), Safety.admitted s 0x100C → s.key.cmdBusy = false → s.key.tampered = false → 64 ≤ slot.toNat →
    (∀ v mk, slotAt s slot.toNat = some v → v.staged = some mk →
      ∃ t, exec (.activate slot) s = .next t ∧ t.key.cmdResult = Kc.done ∧ t.gen.irqStatus.getLsbD 4 = true
        ∧ slotAt t slot.toNat = some { v with genCur := v.genCur + 1, prevLive := true, masks := mk, staged := none })
    ∧ (∀ v, slotAt s slot.toNat = some v → v.prevLive = true → prevUsers s slot.toNat = 0 → s.bce.jobs = [] → Safety.memIdle s →
      ∃ t w, exec (.retirePrev slot) s = .next t ∧ t.key.cmdResult = Kc.done ∧ t.gen.irqStatus.getLsbD 4 = true ∧ slotAt t slot.toNat = some w
        ∧ w.prevLive = false ∧ w.genCur = v.genCur ∧ halfOf w (v.genCur + 1) = none ∧ halfOf w v.genCur = halfOf v v.genCur)
    ∧ (∀ v mk, slotAt s slot.toNat = some v → v.staged = some mk → s.bce.jobs = [] →
      ∃ t w, exec (.discardStaged slot) s = .next t ∧ t.key.cmdResult = Kc.done ∧ t.gen.irqStatus.getLsbD 4 = true ∧ slotAt t slot.toNat = some w
        ∧ w.staged = none ∧ w.genCur = v.genCur ∧ halfOf w (v.genCur + 1) = none ∧ halfOf w v.genCur = halfOf v v.genCur)
    ∧ (s.bce.jobs = [] → Safety.memIdle s →
      ∃ t, exec (.zeroise slot) s = .next t ∧ t.key.cmdResult = Kc.done ∧ t.gen.irqStatus.getLsbD 4 = true ∧ slotAt t slot.toNat = none
        ∧ ∀ e ∈ t.key.dkc, e.tag.slot ≠ slot.toNat)

/-- A mask refresh changes every mask and no key (03 R98). -/
def Obligations.MaskRefreshKeepsKeys : Prop :=
  ∀ s : State, drbgServes s = true → drbgWaits s = false → s.gen.released = true →
    ∃ t, exec .vaultMaskRefresh s = .next t ∧ t.key.maskCur = !s.key.maskCur ∧ t.key.maskEpoch = s.key.maskEpoch + 1
      ∧ (∀ slot h, halfKey t slot h = halfKey s slot h)

/-- Derivations, the entropy tests and the reseed (03 R85, R86, R100, R101). -/
def Obligations.DerivationsAndEntropy : Prop :=
  (∀ (h : KeyHandle) (gs : List Nat) (r : List (KeyHandle × List Nat)) (s : State), s.key.missq = (h, gs) :: r → coreDown s = false →
    (scrambled s h).isSome = true → Safety.memIdle s →
    ∃ t, exec .keyDerivationDone s = .next t ∧ t.key.missq = r ∧ dkcHas t h = true ∧ ∀ g ∈ gs, ctxHas t g h = true)
  ∧ (∀ s : State, s.gen.released = true → s.key.drbgFail = false → s.key.retries = 0 → s.key.tampered = false →
    exec .entropyTestFail s = .next { s with key := { s.key with retries := 3 } })
  ∧ (∀ s : State, s.gen.released = true → s.key.drbgFail = false → Safety.nothingWaitsForSeed s →
    (s.key.retries ≠ 0 → exec (.entropyRetest true) s = .next { s with key := { s.key with retries := 0 } })
    ∧ (1 < s.key.retries → exec (.entropyRetest false) s = .next { s with key := { s.key with retries := s.key.retries - 1 } })
    ∧ (s.key.retries = 1 → ∃ t, exec (.entropyRetest false) s = .next t ∧ t.key = { s.key with drbgFail := true, retries := 0 }))
  ∧ (∀ s : State, drbgServes s = true → s.key.reseedDue = true → s.key.retries = 0 →
    ∃ t, exec .drbgReseed s = .next t ∧ t.key.drbgReqs = 0 ∧ t.key.reseedDue = false ∧ t.key.slots = s.key.slots ∧ t.key.kill = s.key.kill)

/-- A charter load from its checks to its store (02 R52 to R54, R60, R473). -/
def Obligations.CharterLoadsAndStores : Prop :=
  (∀ (m : MemIn) (flashOk : Bool) (s s' : State) (b : List Byte), Safety.admitted s 0x50 → s.gen.chrBusy = false → isRunning s 4 0 = false →
    s.lcs.act = none → s.lcs.intentPending = false → s.key.tampered = false →
    s' = { s with gen := { s.gen with chrBusy := true, chrOverrun := false } } → b = bufBytes s.gen.chrWindow 0 (bits s.gen.chrLen.toNat 0 17) →
    ∃ t, exec (.charterLoad true m flashOk) s = .next t ∧ t.gen.charter = s.gen.charter
      ∧ ((chChecks s' b).1 ≠ 0#8 → t.gen.chrCode = (chChecks s' b).1 ∧ t.gen.chrBusy = false ∧ t.gen.load = none ∧ t.flash = s.flash)
      ∧ (∀ tag, (chChecks s' b).1 = 0#8 → chBind s' (chMerge s' b (chChecks s' b).2) = some tag →
          (accAppend s' (accPlain s' 16 (chMerge s' b (chChecks s' b).2).signer (chMerge s' b (chChecks s' b).2).sequence
            ((shaBytes (mergedImage (chMerge s' b (chChecks s' b).2))).take 32)) false flashOk).1 = 0#8 →
          t.gen.chrBusy = true ∧ ∃ l, t.gen.load = some l ∧ l.merged = chMerge s' b (chChecks s' b).2 ∧ l.bind = tag
            ∧ l.slot = (if s.gen.charter.isSome then 1 - s.gen.slotInUse else 0)))
  ∧ (∀ (l : ChrLoad) (bad : List Nat) (s : State), s.gen.load = some l → s.gen.chrBusy = true → coreDown s = false → s.key.tampered = false →
    (∃ t, exec (.charterStored ⟨false, bad⟩) s = .next t ∧ t.gen.chrCode = Chr.storeFailed ∧ t.gen.chrBusy = false ∧ t.gen.load = none
      ∧ t.gen.charter = s.gen.charter ∧ t.flash.slots = tdel s.flash.slots l.slot)
    ∧ (∃ t, exec (.charterStored ⟨true, bad⟩) s = .next t ∧ t.gen.charter = some l.merged ∧ t.gen.slotInUse = l.slot ∧ t.gen.unchartered = false
      ∧ t.flash.slots = tput s.flash.slots l.slot { chr := l.merged, sequence := l.merged.sequence, bind := l.bind }
      ∧ (4 ∉ l.carried → (s.hob.slices.any fun x => x.2.resetting && x.2.charter) = false → t.gen.chrCode = 0#8 ∧ t.gen.chrBusy = false)))

/-- Stopping and draining functions (02 R60, R61). -/
def Obligations.FunctionsStopAndDrain : Prop :=
  (∀ (v : Word) (s : State), Safety.admitted s 0x60 →
    ∃ t, exec (.funcStopWrite v) s = .next t ∧ t.gen.funcStop = v &&& funcPresent s
      ∧ (s.gen.chrBusy = false → t.gen.funcHeld = 0#32 ∧ t.gen.funcState = s.gen.funcState &&& (v &&& funcPresent s))
      ∧ (s.gen.chrBusy = true → ∀ i, (s.gen.funcStop.getLsbD i = true ∨ s.gen.funcHeld.getLsbD i = true) → (t.gen.funcStop ||| t.gen.funcHeld).getLsbD i = true)
      ∧ ((v &&& funcPresent s).getLsbD 24 = true → ∀ j ∈ t.bce.jobs, j.engine = none)
      ∧ ((v &&& funcPresent s).getLsbD 24 = false → t.bce = s.bce)
      ∧ t.out = s.out ++ [.ctlRsp 0#32 0]
      ∧ t.pin = s.pin ∧ t.dom = s.dom ∧ t.tm = s.tm ∧ t.fuse = s.fuse ∧ t.flash = s.flash ∧ t.lane = s.lane ∧ t.key = s.key ∧ t.ime = s.ime
      ∧ t.ile = s.ile ∧ t.qos = s.qos ∧ t.hob = s.hob ∧ t.lcs = s.lcs ∧ t.sre = s.sre ∧ t.att = s.att ∧ t.dbg = s.dbg)
  ∧ (∀ (f : Nat) (s : State), coreDown s = false → (funcStops s).getLsbD f = true → s.gen.funcState.getLsbD f = false → funcIdle s f = true →
    exec (.functionDrained f) s = .next { s with gen := { s.gen with funcState := s.gen.funcState ||| (1#32 <<< f) } })

/-- What FABPORT turns away (14 R425 to R427; 03 R105; 02 R56). -/
def Obligations.FabRequestsRefused : Prop :=
  ∀ (q : FabReq) (m tree : MemIn) (c : Instr) (n : Nat) (s : State), (c, n) ∈ Safety.fabCommands q m tree →
    (fabClosed s = true → exec c s = .next s)
    ∧ (fabClosed s = false → q.epoch ≠ epochOf s 0 →
        ∃ v, exec c s = .next { emits s (fabBeats s q.ch q.tag q.epoch 2 Rsn.resetAbort (deadlineOf s q.budget) (List.replicate n (0#576, false))) with qos := v }
          ∧ { v with stats := s.qos.stats } = s.qos)
    ∧ (fabClosed s = false → q.epoch = epochOf s 0 → q.addr.toNat % 1024 = 0 → s.key.tampered = true → c ≠ .fabReservedOp q →
        ∃ v, exec c s = .next { emits (keyReason s Rsn.tampered) (fabBeats s q.ch q.tag q.epoch 2 Rsn.tampered (deadlineOf s q.budget) (List.replicate n (0#576, false))) with qos := v }
          ∧ { v with stats := s.qos.stats } = s.qos)
    ∧ (fabClosed s = false → q.epoch = epochOf s 0 → c = .fabReservedOp q →
        ∃ t, exec c s = .next t
          ∧ t.out = s.out ++ fabBeats s q.ch q.tag q.epoch 2 Rsn.opDenied (deadlineOf s q.budget) (List.replicate n (0#576, false))
          ∧ t.ile = s.ile ∧ t.hob = s.hob ∧ t.flt = s.flt ∧ t.ime.ents = s.ime.ents ∧ t.key.slots = s.key.slots)

/-- Reading requests in the IME's queue (04 R108, R114, R119, R137, R144, R145, R148). -/
def Obligations.FabReadsAccepted : Prop :=
  (∀ (q : FabReq) (m m1 : MemIn) (c : Instr) (k : MemKind) (ix : Nat) (r : Region) (s s1 : State),
    (c, k) ∈ [(Instr.fabRead q m, MemKind.read), (Instr.fabWritePartial q m, MemKind.partial_), (Instr.fabRawRead q m, MemKind.rawRead)] →
    Safety.fabPasses s q 64 → memGate s (whoOf s q) k q.cls.toNat m = (.ok (ix, r), s1, m1) → Safety.imeQuiet s1 → snapState r = 0 →
    Safety.keysReady s1 ix r →
    ∃ t e, exec c s = .next t ∧ t.ime.ents = [e] ∧ e.kind = k ∧ e.phase = .ready ∧ e.line = q.addr.toNat / 64
      ∧ e.port = memPort s (q.addr.toNat / 64) ∧ e.region = ix ∧ e.src = .fab q.ch q.tag q.epoch ∧ e.who = whoOf s q ∧ e.cls = q.cls.toNat
      ∧ e.deadline = deadlineOf s q.budget ∧ e.mask = q.mask ∧ e.plain = storedData (q.data.headD 0#576) ∧ t.out = s1.out
      ∧ t.key = s1.key ∧ t.ile = s1.ile ∧ t.hob = s1.hob ∧ t.flt = s1.flt ∧ t.flash = s1.flash ∧ t.ime.cat = s1.ime.cat ∧ t.ime.ctr = s1.ime.ctr)
  ∧ (∀ (q : FabReq) (m m1 : MemIn) (ix : Nat) (r : Region) (s s1 : State), Safety.fabPasses s q 1024 →
    memGate s (whoOf s q) .cread q.cls.toNat m = (.ok (ix, r), s1, m1) → Safety.imeQuiet s1 → snapState r = 0 → Safety.keysReady s1 ix r →
    ∃ t b, exec (.fabCread q m) s = .next t ∧ t.ime.blks = [b] ∧ b.n = q.count.toNat + 1 ∧ b.s = blkLines r.shape (q.count.toNat + 1)
      ∧ b.src = .fab q.ch q.tag q.epoch ∧ b.write = false
      ∧ t.ime.ents.map (fun e => e.line) = (List.range b.s).map (fun i => q.addr.toNat / 64 + i)
      ∧ (∀ e ∈ t.ime.ents, e.phase = .ready ∧ e.kind = .cread) ∧ t.out = s1.out)

/-- Writing requests in the IME's queue (04 R109, R121 to R126, R137, R138, R146, R148). -/
def Obligations.FabWritesAccepted : Prop :=
  (∀ (q : FabReq) (m m1 cat tree : MemIn) (ix : Nat) (r : Region) (s s1 : State), Safety.fabPasses s q 64 → m = catThenTree cat tree →
    memGate s (whoOf s q) .write q.cls.toNat m = (.ok (ix, r), s1, m1) → Safety.imeQuiet s1 → snapState r = 0 → Safety.keysReady s1 ix r →
    s1.lane.flaw = [] → r.mode ≠ 3 →
    ∃ t e, exec (.fabWrite q cat tree) s = .next t ∧ t.ime.ents = [e] ∧ e.phase = .writeReady ∧ e.line = q.addr.toNat / 64 ∧ e.region = ix
      ∧ e.port = memPort s (q.addr.toNat / 64)
      ∧ (r.mode = 0 → e.stored = withSide (storedData (q.data.headD 0#576)) 0#56 false 0)
      ∧ (∀ slot v, regionSlot s1 ix r = some slot → slotAt s1 slot = some v → r.mode ≠ 0 →
          sealLine s1 ix r slot (curHalf v) (q.addr.toNat / 64) 0 0 (storedData (q.data.headD 0#576)) = some e.stored)
      ∧ t.out = s1.out ++ fabBeats s q.ch q.tag q.epoch 0 0#8 (deadlineOf s q.budget) [(0#576, false)])
  ∧ (∀ (q : FabReq) (m m1 cat tree : MemIn) (ix slot : Nat) (r : Region) (v : Slot) (c : CtrLine) (n : Nat) (s s1 : State), Safety.fabPasses s q 64 → m = catThenTree cat tree →
    memGate s (whoOf s q) .write q.cls.toNat m = (.ok (ix, r), s1, m1) → Safety.imeQuiet s1 → snapState r = 0 → Safety.keysReady s1 ix r →
    s1.lane.flaw = [] → r.mode = 3 → regionSlot s1 ix r = some slot → slotAt s1 slot = some v →
    (fetchPath s1 ix r (pageOf r (q.addr.toNat / 64)) q.cls.toNat m1).1 = true → c = ctrOf s1 ix r (pageOf r (q.addr.toNat / 64)) →
    n = dget 0 c.minors (lineInPage r (q.addr.toNat / 64)) → c.parity = decide (curHalf v = 1) → c.ended = false → n < 127 →
    renewDue s1 ix r (pageOf r (q.addr.toNat / 64)) = false →
    ∃ t e, exec (.fabWrite q cat tree) s = .next t ∧ e ∈ t.ime.ents ∧ e.phase = .writeReady ∧ e.line = q.addr.toNat / 64
      ∧ e.major = c.major ∧ e.minor = n + 1 ∧ ctrOf t ix r (pageOf r (q.addr.toNat / 64)) = { c with minors := tput c.minors (lineInPage r (q.addr.toNat / 64)) (n + 1) }
      ∧ sealLine s1 ix r slot (curHalf v) (q.addr.toNat / 64) e.major e.minor (storedData (q.data.headD 0#576)) = some e.stored
      ∧ ∀ o ∈ fabBeats s q.ch q.tag q.epoch 0 0#8 (deadlineOf s q.budget) [(0#576, false)], o ∈ t.out)
  ∧ (∀ (q : FabReq) (m m1 : MemIn) (ix : Nat) (r : Region) (s s1 : State), Safety.fabPasses s q 64 →
    memGate s (whoOf s q) .rawWrite q.cls.toNat m = (.ok (ix, r), s1, m1) → Safety.imeQuiet s1 → snapState r = 0 →
    ∃ t e, exec (.fabRawWrite q m) s = .next t ∧ t.ime.ents = [e] ∧ e.phase = .writeReady ∧ e.line = q.addr.toNat / 64
      ∧ e.stored = q.data.headD 0#576 ∧ t.key = s1.key
      ∧ t.out = s1.out ++ fabBeats s q.ch q.tag q.epoch 0 0#8 (deadlineOf s q.budget) [(0#576, false)])
  ∧ (∀ (q : FabReq) (m m1 : MemIn) (ix : Nat) (r : Region) (s s1 : State), Safety.fabPasses s q 1024 →
    memGate s (whoOf s q) .cwrite q.cls.toNat m = (.ok (ix, r), s1, m1) → Safety.imeQuiet s1 → snapState r = 0 → Safety.keysReady s1 ix r →
    bits (q.data.headD 0#576).toNat 0 4 = q.count.toNat →
    ∃ t b, exec (.fabCwrite q m) s = .next t ∧ t.ime.blks = [b] ∧ b.n = q.count.toNat + 1 ∧ b.s = blkLines r.shape (q.count.toNat + 1)
      ∧ b.write = true ∧ b.checked = false
      ∧ t.ime.ents.map (fun e => e.line) = (List.range b.s).map (fun i => q.addr.toNat / 64 + i)
      ∧ (∀ e ∈ t.ime.ents, (e.line = q.addr.toNat / 64 → e.kind = .cwHead ∧ e.phase = .ready)
          ∧ (e.line ≠ q.addr.toNat / 64 → e.kind = .cwrite ∧ e.phase = .lineWait))
      ∧ t.out = s1.out)

/-- Originating at FABPORT (05 R173, R175 to R178, R185). -/
def Obligations.FabricOpsOriginate : Prop :=
  ∀ (q : FabReq) (c : Instr) (op : Nat) (fl fe : Bool) (data : List Byte) (s : State), (c, op, fl, fe, data) ∈ Safety.fabricRows q →
    Safety.fabricPasses s q → (op = 4 → fld data 0 1 = 11 → (lportAt s (routeEgress (routeOf s q.dest.toNat))).fabVer ≠ 1) →
    ∃ t o, exec c s = .next t ∧ tget t.ile.orig 0 = some o ∧ o.op.op = op ∧ o.op.flagged = fl ∧ o.op.fetch = fe ∧ o.op.data = data
      ∧ o.op.address = q.addr.toNat ∧ o.op.shelf = q.shelf.toNat ∧ o.op.cls = q.cls.toNat ∧ o.op.dest = q.dest.toNat
      ∧ o.op.world = (whoOf s q).world ∧ o.op.ttl = 7 ∧ o.op.epoch = epochOf s (domLnk (routeEgress (routeOf s q.dest.toNat)))
      ∧ o.src = .fab q.ch q.tag q.epoch q.mid ∧ o.egress = routeEgress (routeOf s q.dest.toNat) ∧ o.vc = vcOfClass s q.cls.toNat
      ∧ o.deadline = deadlineOf s q.budget ∧ o.held = false
      ∧ (∃ x ∈ (lportAt t o.egress).txq, x.orig = some 0 ∧ x.vc = o.vc ∧ x.op = o.op)
      ∧ t.out = s.out ++ (if (op = 2 ∨ op = 3 ∨ op = 4) ∧ fl = false ∧ fe = false then
          fabBeats s q.ch q.tag q.epoch 0 0#8 (deadlineOf s q.budget) [(0#576, false)] else [])
      ∧ t.key = s.key ∧ t.ime = s.ime ∧ t.hob = s.hob ∧ t.flt = s.flt

/-- What the memory controllers' answers do (01 R39; 04 R106 to R109, R131, R136, R137, R148; 14 R431). -/
def Obligations.MemoryAnswersComplete : Prop :=
  (∀ (p tag tm : Nat) (ep : Word) (a : MemAnswer) (m : MemIn) (s : State), memTakes s p = true → ep ≠ epochOf s (domMem p) →
    exec (.memReadData p tag ep a m tm) s = .next (countDrop s (domMem p)) ∧ exec (.memWriteAck p tag ep) s = .next (countDrop s (domMem p)))
  ∧ (∀ (p mism ch : Nat) (tg : BitVec 16) (fe : Word) (a : MemAnswer) (m : MemIn) (e e' : MemEnt) (r : Region) (s : State), memTakes s p = true →
    s.ime.ents = [e] → e.port = p → e.phase = .readOut → e.src = .fab ch tg fe → s.ile.ingress = [] → s.ime.dying = [] → heldCredits s = 0 →
    r = entRegion s e → e' = { e with fetches := [], stored := a.data, mism := mism } → e.fail = 0#8 → s.lane.flaw = [] →
    (∀ h ∈ openHandles s e.region r a.data, dkcHas s h = true) →
    (e.kind = .read → r.verify ≠ 2 → r.mode ≠ 3 →
      ∃ t, exec (.memReadData p e.tag (epochOf s (domMem p)) a m mism) s = .next t ∧ t.ime.ents = []
        ∧ t.out = s.out ++ (if (openEnt s e' a.data a.poison).code = 0#8 then
            fabBeats s ch tg fe 0 0#8 e.deadline [(withSide (openEnt s e' a.data a.poison).plain 0#56 false 0, false)]
          else fabBeats s ch tg fe 1 (openEnt s e' a.data a.poison).code e.deadline [(0#576, true)]))
    ∧ (e.kind = .read → r.verify ≠ 2 → r.mode = 3 → a.poison = false →
      ∃ t, exec (.memReadData p e.tag (epochOf s (domMem p)) a m mism) s = .next t
        ∧ ((pathArrived s e.region r (pageOf r e.line) m).1 = false →
            ∀ b ∈ fabBeats s ch tg fe 1 Rsn.treeFail e.deadline [(0#576, true)], b ∈ t.out)
        ∧ ((pathArrived s e.region r (pageOf r e.line) m).1 = true → (openEnt s e' a.data false).code = 0#8 →
            ∀ b ∈ fabBeats s ch tg fe 0 0#8 e.deadline [(withSide (openEnt s e' a.data false).plain 0#56 false 0, false)], b ∈ t.out)
        ∧ ((pathArrived s e.region r (pageOf r e.line) m).1 = true → (openEnt s e' a.data false).code ≠ 0#8 →
            ∀ b ∈ fabBeats s ch tg fe 1 (openEnt s e' a.data false).code e.deadline [(0#576, true)], b ∈ t.out))
    ∧ (e.kind = .rawRead →
      ∃ t, exec (.memReadData p e.tag (epochOf s (domMem p)) a m mism) s = .next t ∧ t.ime.ents = []
        ∧ t.out = s.out ++ (if a.poison = true then fabBeats s ch tg fe 1 Rsn.memPoison e.deadline [(0#576, true)]
          else fabBeats s ch tg fe 0 0#8 e.deadline [(a.data, false)]))
    ∧ (e.kind = .partial_ → e.answered = false → r.mode = 0 → a.poison = false →
      ∃ t w, exec (.memReadData p e.tag (epochOf s (domMem p)) a m mism) s = .next t ∧ t.ime.ents = [w] ∧ w.phase = .writeReady ∧ w.line = e.line
        ∧ w.stored = withSide (mergeLine e.mask (storedData a.data) e.plain) 0#56 false 0
        ∧ t.out = s.out ++ fabBeats s ch tg fe 0 0#8 e.deadline [(0#576, false)])
    ∧ (∀ (b : Blk) (slot : Nat) (v : Slot), e.kind = .cwHead → s.ime.blks = [b] → b.id = e.n → b.write = true → b.s = 1 → b.got = [] → e.lineIx = 0 →
        b.src = e.src → e.answered = false → r.mode = 1 ∨ r.mode = 2 → regionSlot s e.region r = some slot → slotAt s slot = some v → e.gen = v.genCur →
        (∀ h ∈ lineHandles s e.region r slot (curHalf v), (derive s h).isSome = true) →
      ((openEnt s e' a.data a.poison).code = 0#8 →
        ∃ t w, exec (.memReadData p e.tag (epochOf s (domMem p)) a m mism) s = .next t ∧ t.ime.blks = [] ∧ t.ime.ents = [w] ∧ w.phase = .writeReady
          ∧ sealLine s e.region r slot (curHalf v) e.line 0 0 e.plain = some w.stored
          ∧ t.out = s.out ++ fabBeats s ch tg fe 0 0#8 b.deadline [(0#576, false)])
      ∧ ((openEnt s e' a.data a.poison).code ≠ 0#8 →
        ∃ t, exec (.memReadData p e.tag (epochOf s (domMem p)) a m mism) s = .next t ∧ t.ime.blks = [] ∧ t.ime.ents = []
          ∧ t.out = s.out ++ fabBeats s ch tg fe 1 (openEnt s e' a.data a.poison).code b.deadline [(0#576, false)])))
  ∧ (∀ (p : Nat) (e : MemEnt) (s : State), memTakes s p = true → s.ime.ents = [e] → e.port = p → e.phase = .writeOut → s.ile.ingress = [] →
    s.ime.dying = [] → heldCredits s = 0 →
    exec (.memWriteAck p e.tag (epochOf s (domMem p))) s = .next { s with ime := { s.ime with ents := [] } })

/-- The handshakes of a memory port (04 R150 to R152; 14 R432 to R434). -/
def Obligations.MemoryPortHandshakes : Prop :=
  (∀ (p : Nat) (s : State), s.pin.pwrok = true → memPresent s p = true → (memPin s p).init = true → (memPin s p).trained = false →
    (memPin s p).srReq = false →
    ∃ t, exec (.memTrained p) s = .next t ∧ memPin t p = { memPin s p with trained := true, calSeenLow := !(memPin s p).calReq }
      ∧ (∀ c < 16, creditAt t p c = ceiling s p c) ∧ isRunning t 1 p = false ∧ t.ime = s.ime ∧ t.key = s.key ∧ t.ile = s.ile ∧ t.out = s.out)
  ∧ (∀ (p : Nat) (s : State), s.pin.pwrok = true → memPresent s p = true → (memPin s p).calReq = false →
    ∃ t, exec (.memCalRequest p) s = .next t ∧ memPin t p = { memPin s p with calReq := true }
      ∧ t.ime.cals = (if (memPin s p).calSeenLow = true then
          putCal { port := p, open_ := false, at_ := s.tm.ns, limit := memCalLimit s } s.ime.cals else s.ime.cals)
      ∧ t.ime.ents = s.ime.ents ∧ t.lane = s.lane ∧ t.key = s.key)
  ∧ (∀ (p : Nat) (s : State), (∀ c ∈ s.ime.cals, c.open_ = false) → s.ime.cals.head?.map (·.port) = some p →
    (∀ e ∈ s.ime.ents, (e.port = p → e.phase ≠ .readOut ∧ e.phase ≠ .writeOut) ∧ ∀ x ∈ e.fetches, x.1 ≠ p) → s.lane.vacant = [] → (memPin s p).trained = true →
    (memPin s p).init = true → (memPin s p).srReq = false → coreDown s = false →
    ∃ t, exec (.memCalGrant p) s = .next t ∧ memPin t p = { memPin s p with calGnt := true }
      ∧ t.ime.cals = s.ime.cals.map (fun c => if c.port = p then { c with open_ := true, at_ := s.tm.ns } else c) ∧ t.lane.lent = s.lane.lent ++ [p]
      ∧ t.lane.l = s.lane.l ∧ t.ime.ents = s.ime.ents)
  ∧ (∀ (p : Nat) (s : State), s.pin.pwrok = true → (memPin s p).calReq = true →
    ∃ t, exec (.memCalEnd p) s = .next t ∧ memPin t p = { memPin s p with calReq := false, calGnt := false, calSeenLow := true }
      ∧ t.ime.cals = s.ime.cals.filter (fun c => c.port != p) ∧ t.lane.lent = s.lane.lent.filter (fun x => x != p) ∧ t.ime.ents = s.ime.ents)
  ∧ (∀ (p : Nat) (s : State), (∀ c ∈ s.ime.cals, c.port = p → c.open_ = true → s.tm.ns < c.at_ + c.limit) → exec (.memCalOverrun p) s = .next s)
  ∧ (∀ (p : Nat) (c : CalWin) (s : State), c ∈ s.ime.cals → c.port = p → c.open_ = true → c.at_ + c.limit ≤ s.tm.ns → s.flt.queue.length < 256 →
    ∃ t, exec (.memCalOverrun p) s = .next t ∧ t.flt.queue = s.flt.queue ++ [mkRecord s Flc.calOverrun 1 p 5 0#8 none 0] ∧ t.ime = s.ime
      ∧ (s.flt.running = [] → s.flt.history = [] → coreDown s = false → epochOf s (2 + p) ≠ 0xFFFFFFFF#32 →
          t.flt.running = [{ rung := 1, port := p, phase := .requested, cls := Flc.calOverrun, start := StartIn.plain }]))
  ∧ (∀ (p p' : Nat) (r : Running) (s : State), runAt s 4 0 .selfRefresh = some r → s.gen.released = true → (memPin s p).srReq = true → p' ∈ memPortsOf s → p' ≠ p →
    (memPin s p').srReq = true → (memPin s p').srAck = false →
    exec (.memSrAck p) s = .next (setMemPin s p { memPin s p with srAck := true }))

/-- The region commands and the formatting of the catalogue (04 R110 to R118). -/
def Obligations.RegionCommandsComplete : Prop :=
  (∀ (ix : BitVec 21) (m m1 m2 : MemIn) (b : List Byte) (s s1 s2 : State) (r : Region), Safety.admitted s 0x2008 → s.ime.cmdBusy = false →
    s.ime.formatted = true → Safety.memIdle s →
    ctlRead { s with ime := { s.ime with cmdOp := 1, cmdIndex := ix.toNat } } s.ime.cmdShelf.toNat s.ime.cmdAddr.toNat 64 m = (.ok b, s1, m1) →
    recordForm b = true → catLook s1 ix.toNat 0 m1 = (0#8, s2, m2) → catEnded s2 ix.toNat = false →
    r = recordRegion s2 (entryAt s2 ix.toNat) b →
    (createChecks s2 ix.toNat (entryAt s2 ix.toNat) r = Rc.done →
      ∃ t, exec (.create ix m) s = .next t ∧ t.ime.cmdCode = Rc.done ∧ t.ime.cmdBusy = false ∧ t.gen.irqStatus.getLsbD 3 = true
        ∧ regionAt t ix.toNat = some { r with
            baseGen := if r.mode = 0 then 0 else (((slotFor s2 (ix.toNat / 4096) r.volume).bind (slotAt s2)).map (·.genCur)).getD 0
            rootIx := if r.mode = 3 then (freeRoot s2).getD 0 else 0 }
        ∧ ∀ j, j ≠ ix.toNat → regionAt t j = regionAt s2 j)
    ∧ (createChecks s2 ix.toNat (entryAt s2 ix.toNat) r ≠ Rc.done →
      ∃ t, exec (.create ix m) s = .next t ∧ t.ime.cmdCode = createChecks s2 ix.toNat (entryAt s2 ix.toNat) r ∧ t.ime.cmdBusy = false
        ∧ t.gen.irqStatus.getLsbD 3 = true ∧ t.ime.cat = s2.ime.cat))
  ∧ (∀ (ix : BitVec 21) (m m1 m2 : MemIn) (b : List Byte) (s s1 s2 : State) (r : Region), Safety.admitted s 0x2008 → s.ime.cmdBusy = false →
    s.ime.formatted = true → Safety.memIdle s →
    ctlRead { s with ime := { s.ime with cmdOp := 3, cmdIndex := ix.toNat } } s.ime.cmdShelf.toNat s.ime.cmdAddr.toNat 64 m = (.ok b, s1, m1) →
    recordForm b = true → catLook s1 ix.toNat 0 m1 = (0#8, s2, m2) → catEnded s2 ix.toNat = false → regionAt s2 ix.toNat = some r →
    ∃ t, exec (.setRights ix m) s = .next t ∧ t.ime.cmdCode = Rc.done ∧ t.ime.cmdBusy = false ∧ t.gen.irqStatus.getLsbD 3 = true
      ∧ regionAt t ix.toNat = some { r with
          lcs := BitVec.ofNat 6 (bits (fld b 0x14 4) 26 6), world := BitVec.ofNat 4 (bits (fld b 0x14 4) 22 4)
          rd := BitVec.ofNat 8 (bits (fld b 0x14 4) 14 8), wr := BitVec.ofNat 8 (bits (fld b 0x14 4) 6 8), release := fld b 0x32 2 }
      ∧ ∀ j, j ≠ ix.toNat → regionAt t j = regionAt s2 j)
  ∧ (∀ (ix : BitVec 21) (r : Region) (m m1 : MemIn) (s s1 : State), Safety.admitted s 0x2008 → s.ime.cmdBusy = false → s.ime.formatted = true →
    Safety.imeQuiet s → Safety.memIdle s →
    catLook { s with ime := { s.ime with cmdOp := 2, cmdIndex := ix.toNat } } ix.toNat 0 m = (0#8, s1, m1) → catEnded s1 ix.toNat = false →
    regionAt s ix.toNat = some r → snapState r = 0 →
    ∃ t, exec (.destroy ⟨ix, m⟩) s = .next t ∧ t.ime.cmdCode = Rc.done ∧ t.ime.cmdBusy = false ∧ t.gen.irqStatus.getLsbD 3 = true
      ∧ regionAt t ix.toNat = none ∧ (tget t.ime.cat ix.toNat).map (·.creations) = some r.creations
      ∧ ∀ j, j ≠ ix.toNat → regionAt t j = regionAt s j)
  ∧ (∀ (flashOk : Bool) (s : State), s.ime.formatDue = true → (slotAt s 2).isSome = true → coreDown s = false →
    ((memPortsOf s).all fun p => (memPin s p).trained) = true → s.ime.cmdWait = none →
    ∃ t, exec (.catalogueFormat flashOk) s = .next t ∧ t.ime.formatted = true ∧ t.ime.formatDue = false ∧ (∀ ix, regionAt t ix = none)
      ∧ (s.flash.formatEpoch ≠ 0xFFFF → flashOk = true →
          t.flash.formatEpoch = s.flash.formatEpoch + 1 ∧ t.ime.formatEpoch = s.flash.formatEpoch + 1 ∧ t.ime.createLimit = 0)
      ∧ ((s.flash.formatEpoch = 0xFFFF ∨ flashOk = false) → t.flash.formatEpoch = s.flash.formatEpoch ∧ t.ime.createLimit ≠ 0))

/-- Re-encryption of a page and the passes of a sweep (04 R132 to R134, R139 to R143). -/
def Obligations.PagesAndSweeps : Prop :=
  (∀ (ix page slot cls : Nat) (r : Region) (v : Slot) (m m1 : MemIn) (s s1 : State), anyRegion s ix = some r → s.ime.pageHeld.contains (ix, page) = true →
    coreDown s = false → pageBusy s ix r page = false → pageStopped s (r.base / 64 + 64 * page) = false → regionSlot s ix r = some slot →
    slotAt s slot = some v → (halfKey s slot (curHalf v)).isSome = true →
    cls = ((s.ime.ents.find? fun e => e.phase == .pageHeld && e.region == ix && pageOf r e.line == page).map (·.cls)).getD 0 →
    (fetchPath s ix r page cls m = (false, s1, m1) → exec (.pageReencrypt ix page m) s = .next (releasePage (failPage s1 ix r page) ix page))
    ∧ (fetchPath s ix r page cls m = (true, s1, m1) → s.lane.flaw = [] →
      ∃ failed s2 m2, reencrypt s1 ix r page slot v cls false m1 = (some failed, s2, m2)
        ∧ exec (.pageReencrypt ix page m) s = .next (releasePage (markRenewed s2 ix r page) ix page)))
  ∧ (∀ (ix page slot cls : Nat) (paced : Bool) (r : Region) (v : Slot) (m m1 : MemIn) (failed : List Nat) (s s1 : State),
    reencrypt s ix r page slot v cls paced m = (some failed, s1, m1) →
    ctrOf s1 ix r page =
      if (ctrOf s ix r page).parity ≠ decide (curHalf v = 1) then
        { major := regionGen s r * 2 ^ 32, minors := [], parity := decide (curHalf v = 1), ended := false }
      else if (ctrOf s ix r page).major % 2 ^ 32 = 0xFFFFFFFF then { ctrOf s ix r page with ended := true }
      else { major := (ctrOf s ix r page).major + 1, minors := [], parity := decide (curHalf v = 1), ended := false })
  ∧ (∀ (ix slot : Nat) (r : Region) (v : Slot) (w : Sweep) (a : MemAnswer) (m : MemIn) (s : State), anyRegion s ix = some r → sweepOf s ix r = some w →
    w.region = ix → w.verifying = false → sweepReady s w r = true → r.mode = 1 ∨ r.mode = 2 → regionSlot s ix r = some slot → slotAt s slot = some v →
    m.lines.head? = some a → a.poison = false → Safety.memIdle s →
    (storedParity a.data = decide (curHalf v = 1) → w.ptr + 1 < r.size / 64 → (w.ptr + 1) % 4096 ≠ 0 →
      exec (.sweepStep ix m) s =
        .next (putSweep (shelveReads s [r.base / 64 + w.ptr] (shelveClass s) true) { w with ptr := w.ptr + 1, skipped := w.skipped + 1 }))
    ∧ (∀ p d, storedParity a.data ≠ decide (curHalf v = 1) → s.lane.flaw = [] → catEnded s ix = false →
      ownOpen s ix r slot (r.base / 64 + w.ptr) (0, 0) a = .ok p →
      sealLine s ix r slot (curHalf v) (r.base / 64 + w.ptr) 0 0 p = some d →
      ∃ t e, exec (.sweepStep ix m) s = .next t ∧ e ∈ t.ime.ents ∧ e.line = r.base / 64 + w.ptr ∧ e.phase = .writeReady ∧ e.stored = d
        ∧ (w.ptr + 1 < r.size / 64 → { w with ptr := w.ptr + 1 } ∈ t.ime.sweeps)
        ∧ (r.size / 64 ≤ w.ptr + 1 → anyRegion t ix = some { r with state := 3, sweepPtr := w.ptr + 1 }
            ∧ { w with ptr := 0, verifying := true } ∈ t.ime.sweeps)))
  ∧ (∀ (ix slot : Nat) (r : Region) (v : Slot) (w : Sweep) (m m1 : MemIn) (s s1 : State), anyRegion s ix = some r → sweepOf s ix r = some w → w.region = ix →
    w.verifying = false → w.failed = [] → sweepReady s w r = true → r.mode = 3 → regionSlot s ix r = some slot → slotAt s slot = some v →
    fetchPath s ix r (w.ptr / 64) (shelveClass s) m = (true, s1, m1) → (ctrOf s1 ix r (w.ptr / 64)).parity = decide (curHalf v = 1) →
    renewDue s1 ix r (w.ptr / 64) = false → anyRegion s1 ix = some r → w.ptr + 64 < r.size / 64 → (w.ptr + 64) % 4096 ≠ 0 →
    exec (.sweepStep ix m) s = .next (afterMem (putSweep s1 { w with ptr := w.ptr + 64, skipped := w.skipped + 64 })))
  ∧ (∀ (ix : Nat) (r : Region) (w w1 : Sweep) (m : MemIn) (s s1 : State), anyRegion s ix = some r → sweepOf s ix r = some w → w.verifying = true →
    verifyRest ix r (r.size / 64) s w m = (s1, w1) → r.size / 64 ≤ w1.ptr → anyRegion s1 ix = some r → catEnded s1 ix = false → s1.ile.ingress = [] →
    heldCredits s1 = 0 → s1.ime.dying = [] → (∀ e ∈ s1.ime.ents, e.phase = .writeReady ∨ e.phase = .writeOut) →
    ∃ t, exec (.sweepVerifyDone ix m) s = .next t
      ∧ (ix ≠ catIx → regionAt t ix = some { r with state := 1, renew := false
                                                    baseGen := (((regionSlot s1 ix r).bind (slotAt s1)).map (·.genCur)).getD r.baseGen })
      ∧ (ix = catIx → t.ime.catSt = 1 ∧ t.ime.catRenew = false)
      ∧ ∀ x ∈ t.ime.sweeps, x.region ≠ ix)

/-- The bring-up commands that no frame brings (05 R155, R156, R159). -/
def Obligations.BringUpSends : Prop :=
  (∀ (e : Nat) (s : State), s.pin.pwrok = true → lnkPresent s e = true → (lnkPin s e).en = true → coreDown s = false →
    (domAt s (domLnk e)).inReset = false → s.key.tampered = false → (lportAt s e).st = .down → drbgServes s = true →
    (∃ t n, exec (.linkUp e) s = .next t ∧ (lnkPin t e).up = true ∧ (lportAt t e).st = .hello ∧ msgAt t e 0 = helloBytes s e n
      ∧ t.out = s.out ++ [.frame e (Safety.bringFrame (helloBytes s e n))] ∧ t.ime = s.ime ∧ t.hob = s.hob)
    ∧ ((lnkPin s e).up = true → ((lportAt s e).fail = 8 ∨ (lportAt s e).fail = 9) → (lportAt s e).stepAt + 100000000 ≤ s.tm.ns →
      ∃ t n, exec (.bringupRetry e) s = .next t ∧ (lportAt t e).st = .hello ∧ msgAt t e 0 = helloBytes s e n
        ∧ t.out = s.out ++ [.frame e (Safety.bringFrame (helloBytes s e n))] ∧ t.ime = s.ime ∧ t.hob = s.hob))
  ∧ (∀ (e : Nat) (s : State), s.pin.pwrok = true → lnkPresent s e = true → (lportAt s e).st ≠ .failed →
    ∃ t, exec (.linkDown e) s = .next t ∧ (lnkPin t e).up = false ∧ (lportAt t e).st = .down ∧ (lportAt t e).session = 0
      ∧ (lportAt t e).replay = [] ∧ (lportAt t e).rekey = none ∧ slotAt t (sessSlot e) = none ∧ (lportAt t e).txq = (lportAt s e).txq
      ∧ t.out = s.out ∧ ∀ x, x ≠ e → lportAt t x = lportAt s x)
  ∧ (∀ (e : Nat) (s : State), ((lportAt s e).st = .hello ∨ (lportAt s e).st = .keying) → (lportAt s e).stepAt + 10000000 ≤ s.tm.ns → s.flt.queue.length < 256 →
    ∃ t, exec (.bringupTimeout e) s = .next t ∧ (lportAt t e).st = .down ∧ (lportAt t e).fail = 8 ∧ (lportAt t e).session = 0
      ∧ slotAt t (sessSlot e) = none ∧ t.flt.queue = s.flt.queue ++ [mkRecord s Flc.linkBringup 2 (qpOfLnk e) 0 0#8 none 0]
      ∧ t.out = s.out ∧ ∀ x, x ≠ e → lportAt t x = lportAt s x)

/-- The messages of a bring-up (05 R156 to R161). -/
def Obligations.BringUpMessages : Prop :=
  (∀ (e : Nat) (b : List Byte) (pub : BitVec 768) (s : State), rxTakes s e = true → (lportAt s e).st = .hello → Safety.helloForm e b →
    tget (lportAt s e).msgs 1 = none → s.key.idPub = some pub →
    (domainId s = 0 → ∃ t, exec (.hello e (Safety.bringFrame b)) s = .next t ∧ (lportAt t e).st = .failed ∧ (lportAt t e).fail = 1 ∧ (lnkPin t e).en = false)
    ∧ (domainId s ≠ 0 → fld b 0x10 8 ≠ domainId s →
        ∃ t, exec (.hello e (Safety.bringFrame b)) s = .next t ∧ (lportAt t e).st = .failed ∧ (lportAt t e).fail = 2 ∧ (lnkPin t e).en = false)
    ∧ (domainId s ≠ 0 → fld b 0x10 8 = domainId s →
        (maskAnd (offerNow s (portKind e)) (fld b 0x18 2) = 0 ∨ maskAnd (offerNow s 3) (fld b 0x1A 2) = 0) →
        ∃ t, exec (.hello e (Safety.bringFrame b)) s = .next t ∧ (lportAt t e).st = .failed ∧ (lportAt t e).fail = 3 ∧ (lnkPin t e).en = false)
    ∧ (domainId s ≠ 0 → fld b 0x10 8 = domainId s → maskAnd (offerNow s (portKind e)) (fld b 0x18 2) ≠ 0 →
        maskAnd (offerNow s 3) (fld b 0x1A 2) ≠ 0 →
        (fld b 8 8 = instId s → ∃ t, exec (.hello e (Safety.bringFrame b)) s = .next t ∧ (lportAt t e).st = .failed ∧ (lportAt t e).fail = 4)
        ∧ (fld b 8 8 ≠ instId s →
          ∃ t, exec (.hello e (Safety.bringFrame b)) s = .next t ∧ (lportAt t e).st = .hello ∧ (lportAt t e).peerInst = fld b 8 8
            ∧ (lportAt t e).peerMember = fld b 2 2 ∧ (lportAt t e).peerRole = fld b 1 1 ∧ (lportAt t e).peerPort = fld b 4 1
            ∧ (lportAt t e).portVer = topVersion (maskAnd (offerNow s (portKind e)) (fld b 0x18 2))
            ∧ (lportAt t e).fabVer = topVersion (maskAnd (offerNow s 3) (fld b 0x1A 2)) ∧ msgAt t e 1 = b
            ∧ t.out = s.out ++ [.frame e (Safety.bringFrame (2#8 :: (zeros 15 ++ bytes96 pub)))])))
  ∧ (∀ (e : Nat) (b : List Byte) (id : BitVec 384) (s : State), rxTakes s e = true → (lportAt s e).st = .hello → (tget (lportAt s e).msgs 1).isSome = true →
    (tget (lportAt s e).msgs 2).isSome = true → b.length = 112 → fld b 0 1 = 2 → zeroBytes (slice b 1 15) = true → identity s = some id →
    drbgServes s = true →
    ∃ t d n share, exec (.identity e (Safety.bringFrame b)) s = .next t ∧ (lportAt t e).st = .keying ∧ msgAt t e 3 = b
      ∧ (lportAt t e).ephPriv = some d ∧ share = 3#8 :: (zeros 15 ++ bytes96 (Config.pubOf d))
      ∧ msgAt t e 4 = share ++ bytes96 (Config.ecdsaSign id (transcript t e ++ share) n)
      ∧ t.out = s.out ++ [.frame e (Safety.bringFrame (msgAt t e 4))])
  ∧ (∀ (e : Nat) (b x all own : List Byte) (pub eph : BitVec 768) (s : State), rxTakes s e = true → (lportAt s e).st = .keying →
    tget (lportAt s e).msgs 4 = some own → (tget (lportAt s e).msgs 5).isNone = true → b.length = 208 → fld b 0 1 = 3 → zeroBytes (slice b 1 15) = true →
    pub = b768 (slice (msgAt s e 3) 16 96) → eph = b768 (slice b 16 96) →
    all = transcript s e ++ (if sideA s e = true then own.take 112 ++ b.take 112 else b.take 112 ++ own.take 112) →
    x = bytes48 (Config.ecdhX ((lportAt s e).ephPriv.getD 0#384) eph) → (lportAt s e).rekey = none →
    ∃ t, exec (.keyShare e (Safety.bringFrame b)) s = .next t
      ∧ (Config.onCurve pub = true → Config.onCurve eph = true → instanceOf pub = (lportAt s e).peerInst →
          Config.ecdsaVerify pub (transcript s e ++ b.take 112) (b768 (slice b 112 96)) = true →
          ((tget s.ile.roster (lportAt s e).peerMember).any fun r => r.inst == (lportAt s e).peerInst && r.kind == (lportAt s e).peerRole) = true →
          (lportAt t e).session = 1 ∧ (lportAt t e).rxSeq = 0 ∧ (lportAt t e).ephPriv = none ∧ (lportAt t e).thash = Config.sha384 all
            ∧ msgAt t e 5 = b ∧ (∃ v, slotAt t (sessSlot e) = some v ∧ v.half0 = maskHalf s (sessSlot e) 0 (sha256of x))
            ∧ ((maskHalf s (sessSlot e) 0 (sha256of x)).isSome = true →
                (lportAt t e).txSeq = 1 ∧ ∃ f, t.out = s.out ++ [.frame e f] ∧ f.kind = 0#8 ∧ f.session = 1#32 ∧ f.sequence = 0#64))
      ∧ ((tget (lportAt s e).msgs 3).isSome = true → (Config.onCurve pub = false ∨ Config.onCurve eph = false ∨ instanceOf pub ≠ (lportAt s e).peerInst) →
          (lportAt t e).st = .failed ∧ (lportAt t e).fail = 5))
  ∧ (∀ (e : Nat) (f : Frame) (s : State), rxTakes s e = true → (lportAt s e).st = .keying → (lportAt s e).session ≠ 0 → f.kind = 0#8 →
    ∃ t, exec (.keyConfirm e f) s = .next t
      ∧ (∀ b, s.lane.flaw = [] → ((lportAt s e).fabVer = 1 → ∀ x ∈ (lportAt s e).txq, needsFadd x.op.op x.op.data = false) →
          openFrame s e f = some b → innerOk b = true → fld b 0 1 = 3 → slice b 16 (fld b 2 2) = bytes48 (lportAt s e).thash →
          (lportAt t e).st = .open_ ∧ (lportAt t e).fail = 0 ∧ (lportAt t e).msgs = [] ∧ (lportAt t e).rxSeq = (lportAt s e).rxSeq + 1
            ∧ ∀ c < 16, creditAt t (qpOfLnk e) c = ceiling s (qpOfLnk e) c)
      ∧ (openFrame s e f = none → (lportAt t e).st = .failed ∧ (lportAt t e).fail = 6 ∧ (lportAt t e).session = 0))

/-- Sealed frames at an open port (05 R163, R165, R167, R170, R173, R175, R180 to R187). -/
def Obligations.SealedFramesTaken : Prop :=
  (∀ (e : Nat) (f : Frame) (b content : List Byte) (op : FabOp) (m : MemIn) (s : State), Safety.opens s e f b 0 content →
    readOps (content.length / 32 + 1) content = [(op, true)] → s.ile.ingress.length < 1536 → freedCredits (lportAt s e) < 15 →
    (some op.dest ≠ ownMember s → op.ttl ≠ 0 → routeValid (routeOf s op.dest) = true → routeEgress (routeOf s op.dest) < 20 →
      lnkPresent s (routeEgress (routeOf s op.dest)) = true →
      (needsFadd op.op op.data = false ∨ (lportAt s (routeEgress (routeOf s op.dest))).fabVer ≠ 1) →
      ∃ t x, exec (.data e f m) s = .next t ∧ x ∈ (lportAt t (routeEgress (routeOf s op.dest))).txq ∧ x.op = { op with ttl := op.ttl - 1 }
        ∧ x.vc = fld b 1 1 ∧ (lportAt t e).rxSeq = (lportAt s e).rxSeq + 1
        ∧ dget 0 (lportAt t e).freed (fld b 1 1) = dget 0 (lportAt s e).freed (fld b 1 1) + 1)
    ∧ (some op.dest = ownMember s → 0x10 ≤ op.op → origOf s op.tag = none →
      ∃ t, exec (.data e f m) s = .next t ∧ t.ile.staleDrops = satAdd 32 s.ile.staleDrops 1 ∧ (lportAt t e).rxSeq = (lportAt s e).rxSeq + 1
        ∧ dget 0 (lportAt t e).freed (fld b 1 1) = dget 0 (lportAt s e).freed (fld b 1 1) + 1 ∧ t.ile.orig = s.ile.orig ∧ t.ime = s.ime)
    ∧ (some op.dest = ownMember s → op.op = 5 → op.last = false → lenOk s op = true → nackedAhead s (fld b 1 1) op = false →
      ∃ t g, exec (.data e f m) s = .next t ∧ g ∈ t.ile.msgs ∧ g.src = op.src ∧ g.queue = sendQueueNo op ∧ g.message = sendMessageNo op
        ∧ g.bytes = joinSegment (gathered s op) op ∧ (lportAt t e).rxSeq = (lportAt s e).rxSeq + 1)
    ∧ (∀ (ix : Nat) (r : Region), some op.dest = ownMember s → op.op = 1 → op.data = [] → op.address % 64 = 0 → op.address < 2 ^ 52 → s.ile.nacked = [] →
      Safety.memIdle s → s.ile.resident = [] → s.ime.catCache.contains (regionIx op.shelf) = true →
      memChecks s { engWho 5 op.world none none op.shelf op.address with agent := op.src, tag := op.tag } .read = .ok (ix, r) → r.mode = 0 →
      8 ≤ classShare s 1024 →
      ∃ t x, exec (.data e f m) s = .next t ∧ t.ime.ents = [x] ∧ x.kind = .read ∧ x.src = .remote op e ∧ x.phase = .ready
        ∧ x.line = op.address / 64 ∧ x.region = ix ∧ x.deadline = deadlineOf s op.deadline ∧ (lportAt t e).rxSeq = (lportAt s e).rxSeq + 1))
  ∧ (∀ (e : Nat) (f : Frame) (b content : List Byte) (s : State), Safety.opens s e f b 1 content → exec (.idle e f) s = .next (Safety.received s e b))
  ∧ (∀ (e n : Nat) (f g : Frame) (b content : List Byte) (s : State), Safety.opens s e f b 2 content → content.length = 8 → leNat content = n →
    (n, g) ∈ (lportAt s e).replay → g.session.toNat = (sessUse s e true).2 → ((lportAt s e).nakCount < 3 ∨ (lportAt s e).nakSeq ≠ n) →
    ∃ t, exec (.nak e f) s = .next t ∧ (lportAt t e).nakSeq = n ∧ (lportAt t e).replay = (lportAt s e).replay
      ∧ t.out = s.out ++ ((lportAt s e).replay.dropWhile fun x => !(x.1 == n && x.2.session.toNat == (sessUse s e true).2)).map (fun x => .frame e x.2))
  ∧ (∀ (e : Nat) (f : Frame) (b content : List Byte) (r : Rekey) (v : Slot) (s : State), Safety.opens s e f b 4 content → content.length = 96 →
    (lportAt s e).rekey = some r → r.peer = none → r.rxDone = false → r.txDone = false → slotAt s (sessSlot e) = some v →
    (∀ c ∈ s.ile.cals, c.port ≠ e) →
    ∃ t, exec (.rekey e f) s = .next t
      ∧ (Config.onCurve (b768 content) = false → (lportAt t e).st = .failed ∧ (lportAt t e).fail = 5)
      ∧ (Config.onCurve (b768 content) = true → ∃ r' w, (lportAt t e).rekey = some r' ∧ r'.peer = some (b768 content) ∧ r'.priv = none ∧ r'.txDone = true
          ∧ r'.rxDone = false ∧ (lportAt t e).txSeq = 0 ∧ slotAt t (sessSlot e) = some w ∧ w.staged.isSome = true ∧ w.genCur = v.genCur
          ∧ halfOf w (v.genCur + 1) = maskHalf s (sessSlot e) ((v.genCur + 1) % 2)
              (sha256of (bytes48 (Config.ecdhX (r.priv.getD 0#384) (b768 content)) ++ bytes48 (lportAt s e).thash))
          ∧ halfOf w v.genCur = halfOf v v.genCur))
  ∧ (∀ (e : Nat) (f : Frame) (b content : List Byte) (r : Rekey) (v : Slot) (s : State), Safety.opens s e f b 5 content →
    (lportAt s e).rekey = some r → r.peer.isSome = true → r.txDone = true → r.rxDone = false → slotAt s (sessSlot e) = some v →
    ∃ t w, exec (.rekeyDone e f) s = .next t ∧ (lportAt t e).st = .open_ ∧ (lportAt t e).session = (lportAt s e).session + 1
      ∧ (lportAt t e).rekey = none ∧ (lportAt t e).rxSeq = 0 ∧ (lportAt t e).thash = r.hash ∧ (lportAt t e).thresh = threshOf (lportAt s e)
      ∧ slotAt t (sessSlot e) = some w ∧ w.genCur = v.genCur + 1 ∧ w.prevLive = false ∧ halfOf w v.genCur = none
      ∧ halfOf w (v.genCur + 1) = halfOf v (v.genCur + 1))

/-- Rekeys, sequence limits, credit and cadence frames (05 R163, R166, R167, R170, R189). -/
def Obligations.RekeysAndSequences : Prop :=
  (∀ (e : Nat) (s : State), (lportAt s e).st = .open_ → (lportAt s e).rekey = none → coreDown s = false → (lportAt s e).session ≠ 0xFFFFFFFF →
    drbgServes s = true →
    (2 ^ (lportAt s e).thresh ≤ max (lportAt s e).txSeq (lportAt s e).rxSeq →
      ∃ t d, exec (.rekeyThreshold e) s = .next t ∧ (lportAt t e).st = .rekeying
        ∧ (lportAt t e).rekey = some { priv := some d, pub := Config.pubOf d, peer := none, hash := 0#384, txDone := false, rxDone := false, since := s.tm.ns }
        ∧ (lportAt t e).session = (lportAt s e).session ∧ t.key.slots = s.key.slots)
    ∧ (Safety.admitted s (0x440C + 0x40 * e) → lnkPresent s e = true →
      ∃ t d, exec (.rekeyNow e) s = .next t ∧ (lportAt t e).st = .rekeying
        ∧ (lportAt t e).rekey = some { priv := some d, pub := Config.pubOf d, peer := none, hash := 0#384, txDone := false, rxDone := false, since := s.tm.ns }))
  ∧ (∀ (e : Nat) (s : State), portOpen s e = true → (lportAt s e).overdue = false →
    3 * 2 ^ (lportAt s e).thresh / 2 ≤ max (lportAt s e).txSeq (lportAt s e).rxSeq → s.flt.queue.length < 256 →
    ∃ t, exec (.rekeyOverdue e) s = .next t ∧ (lportAt t e) = { lportAt s e with overdue := true }
      ∧ t.flt.queue = s.flt.queue ++ [mkRecord s Flc.keyExhausted 2 (qpOfLnk e) 0 Rsn.keyExhausted none (sessSlot e)]
      ∧ t.gen.irqStatus.getLsbD 1 = true ∧ t.out = s.out)
  ∧ (∀ (e : Nat) (s : State), portOpen s e = true → 2 ^ ((lportAt s e).thresh + 1) + 16 ≤ max (lportAt s e).txSeq (lportAt s e).rxSeq →
    s.flt.queue.length < 256 →
    ∃ t, exec (.seqExhausted e) s = .next t ∧ (lportAt t e).st = .failed ∧ (lportAt t e).fail = 12 ∧ (lnkPin t e).en = false
      ∧ mkRecord s Flc.linkFault 2 (qpOfLnk e) 5 0#8 none 0 ∈ t.flt.queue
      ∧ (s.flt.running = [] → s.flt.history = [] → coreDown s = false → epochOf s (2 + qpOfLnk e) ≠ 0xFFFFFFFF#32 → isRunning t 1 (qpOfLnk e) = true))
  ∧ (∀ (e : Nat) (r : Rekey) (s : State), (lportAt s e).rekey = some r → r.since + 100000000 ≤ s.tm.ns → s.flt.queue.length < 256 →
    ∃ t, exec (.rekeyTimeout e) s = .next t ∧ (lportAt t e).st = .failed ∧ (lportAt t e).fail = 13 ∧ (lnkPin t e).en = false
      ∧ mkRecord s Flc.linkFault 2 (qpOfLnk e) 5 0#8 none 0 ∈ t.flt.queue)
  ∧ (∀ (e : Nat) (s : State), linkIssues s e = true → (lportAt s e).freed.any (fun x => x.2 != 0) = true → (sessKey s e true).isSome = true →
    ∃ t f, exec (.creditIdleTimer e) s = .next t ∧ t.out = s.out ++ [.frame e f] ∧ f.kind = 0#8
      ∧ f.sequence = BitVec.ofNat 64 (lportAt s e).txSeq ∧ (lportAt t e).txSeq = (lportAt s e).txSeq + 1 ∧ (lportAt t e).freed = []
      ∧ (∃ k, sessKey s e true = some k ∧ gcmCrypt k.1 (frameIv k.2 (lportAt s e).txSeq) (innerBytes 1 0 0 (creditField (lportAt s e))) = f.payload))
  ∧ (∀ (e vc : Nat) (s : State), linkIssues s e = true → vcPaced s e vc = true → vc < 8 → (∀ x ∈ (lportAt s e).txq, x.vc ≠ vc) →
    (sessKey s e true).isSome = true →
    ∃ t f, exec (.cadenceTick e vc) s = .next t ∧ t.out = s.out ++ [.frame e f] ∧ f.payloadLen = BitVec.ofNat 16 (payloadMax s)
      ∧ (lportAt t e).txSeq = (lportAt s e).txSeq + 1 ∧ (lportAt t e).txq = (lportAt s e).txq)

/-- Windows, routes, resends and dead targets (05 R174, R183, R186 to R188; 14 R436). -/
def Obligations.LinkWindowsRoutesResends : Prop :=
  (∀ (e : Nat) (s : State), s.pin.pwrok = true → lnkPresent s e = true → (lnkPin s e).calReq = false →
    ∃ t, exec (.lnkCalRequest e) s = .next t ∧ lnkPin t e = { lnkPin s e with calReq := true }
      ∧ t.ile.cals = (if (lnkPin s e).calSeenLow = true then putCal { port := e, open_ := false, at_ := s.tm.ns, limit := lnkCalLimit s } s.ile.cals
          else s.ile.cals)
      ∧ t.ile.ports = s.ile.ports
      ∧ t.lane = s.lane)
  ∧ (∀ (e : Nat) (s : State), (s.ile.cals.filter (·.open_)).length < 4 → (s.ile.cals.find? fun c => !c.open_).map (·.port) = some e →
    portOpen s e = true → coreDown s = false → linkQuiet s e = true →
    ∃ t, exec (.lnkCalGrant e) s = .next t ∧ (lnkPin t e).calGnt = true ∧ lportAt t e = { lportAt s e with st := .retrain, resume := (lportAt s e).st }
      ∧ t.ile.cals = s.ile.cals.map (fun c => if c.port = e then { c with open_ := true, at_ := s.tm.ns } else c) ∧ t.lane.lent = s.lane.lent ++ [qpOfLnk e])
  ∧ (∀ (e : Nat) (s : State), s.pin.pwrok = true → (lnkPin s e).calReq = true → (lportAt s e).st = .retrain → (lportAt s e).resume ≠ .retrain →
    ∃ t, exec (.lnkCalEnd e) s = .next t ∧ lnkPin t e = { lnkPin s e with calReq := false, calGnt := false, calSeenLow := true }
      ∧ ((lportAt s e).ctlq = [] → lportAt t e = { lportAt s e with st := (lportAt s e).resume })
      ∧ t.ile.cals = s.ile.cals.filter (fun c => c.port != e) ∧ t.lane.lent = s.lane.lent.filter (fun x => x != qpOfLnk e))
  ∧ (∀ (e : Nat) (s : State), (s.ile.cals.any fun c => c.port == e && c.open_ && decide (c.at_ + c.limit ≤ s.tm.ns)) = true → s.flt.queue.length < 256 →
    ∃ t, exec (.lnkCalOverrun e) s = .next t ∧ (lportAt t e).st = .failed ∧ (lportAt t e).fail = 14 ∧ (lnkPin t e).en = false
      ∧ mkRecord s Flc.calOverrun 2 (qpOfLnk e) 5 0#8 none 0 ∈ t.flt.queue)
  ∧ (∀ (v : Word) (s : State), Safety.admitted s 0x4014 →
    ∃ t, exec (.routeWrite v) s = .next t ∧ routeValid (routeOf t (bits s.ile.routeAddr.toNat 0 14)) = v.getLsbD 31
      ∧ routeStage (routeOf t (bits s.ile.routeAddr.toNat 0 14)) =
          (if bits v.toNat 29 2 = 3 then routeStage (routeOf s (bits s.ile.routeAddr.toNat 0 14)) else bits v.toNat 29 2)
      ∧ routeEgress (routeOf t (bits s.ile.routeAddr.toNat 0 14)) =
          (if 20 ≤ bits v.toNat 0 5 then routeEgress (routeOf s (bits s.ile.routeAddr.toNat 0 14)) else bits v.toNat 0 5)
      ∧ (∀ m, m % 16384 ≠ bits s.ile.routeAddr.toNat 0 14 → routeOf t m = routeOf s m) ∧ t.out = s.out ++ [.ctlRsp 0#32 0]
      ∧ t.ile.ports = s.ile.ports ∧ t.ile.orig = s.ile.orig ∧ t.key = s.key ∧ t.ime = s.ime)
  ∧ (∀ (dest vc ix : Nat) (o : Orig) (s : State), s.ile.orig = [(ix, o)] → o.resend = true → o.op.dest = dest → o.vc = vc →
    ∃ t x, exec (.retryResend dest vc) s = .next t ∧ t.ile.orig = [(ix, { o with resend := false })] ∧ x ∈ (lportAt t o.egress).txq ∧ x.op = o.op
      ∧ x.vc = vc ∧ x.orig = some ix ∧ x.deadline = o.deadline ∧ t.out = s.out ∧ t.ime = s.ime ∧ t.hob = s.hob)
  ∧ (∀ (tag ch : Nat) (tg : BitVec 16) (ep mid : Word) (o : Orig) (s : State), coreDown s = false → s.ile.orig = [(tag % 4096, o)] → o.op.tag = tag →
    o.src = .fab ch tg ep mid → o.op.op = 1 → o.op.flagged = false → o.posted = false → o.msg = none →
    o.accepted + deadNs s ≤ s.tm.ns → s.ile.heldOut = [] → s.ile.sendq = [] →
    ∃ t, exec (.deadTargetTimeout tag) s = .next t ∧ t.ile.orig = []
      ∧ t.out = s.out ++ fabBeats s ch tg ep 1 Rsn.deadTarget o.deadline [(BitVec.ofNat 576 (2 ^ 512 - 1), true)])

/-- Service at the ports (10 R313, R314; 05 R163, R169, R170, R179). -/
def Obligations.PortsServe : Prop :=
  (∀ (p : Nat) (e : MemEnt) (s : State), p < 4 → portPresent s p = true → memIssues s p = true → dget 0 s.qos.carry p < groupLanes s p →
    s.ime.ents = [e] → e.port = p → e.fetches = [] → (∀ x ∈ s.ile.orig, x.2.fail = 0#8) →
    (e.phase = .ready → (isRaw e.kind = true ∨ (entRegion s e).mode ≠ 3) → ∃ t, exec (.portSelect p .none_) s = .next t ∧ t.ime.ents = [{ e with phase := .readOut, tag := 0, due := s.tm.ns + 10000 * hangField s 0 8 }]
      ∧ t.out = s.out ++ [.memCmd p false e.line 0 (epochOf s (domMem p)) e.cls 0#576])
    ∧ (e.phase = .ready → isRaw e.kind = false → (entRegion s e).mode = 3 →
      ∃ t f l, exec (.portSelect p .none_) s = .next t ∧ t.ime.ents = [{ e with phase := .readOut, tag := 0, due := s.tm.ns + 10000 * hangField s 0 8, fetches := f }]
        ∧ f.length = (treeReads s (entRegion s e) (missingOf s e.region (entRegion s e) (pageOf (entRegion s e) e.line))).length
        ∧ t.out = s.out ++ .memCmd p false e.line 0 (epochOf s (domMem p)) e.cls 0#576 :: l ∧ l.length = f.length)
    ∧ (e.phase = .writeReady → ∃ t, exec (.portSelect p .none_) s = .next t ∧ t.ime.ents = [{ e with phase := .writeOut, tag := 0, due := s.tm.ns + 10000 * hangField s 0 8 }]
      ∧ t.out = s.out ++ [.memCmd p true e.line 0 (epochOf s (domMem p)) e.cls e.stored]))
  ∧ (∀ (e v : Nat) (x : TxOp) (s : State), e < 20 → lnkPresent s e = true → linkIssues s e = true → (lportAt s e).txq = [x] → x.vc = v → v < 8 →
    dget 0 (lportAt s e).used v < 64 → vcPaced s e v = false → drrAt (lportAt s e) = (v, false) → (sessKey s e true).isSome = true →
    s.lane.flaw = [] → (∀ y ∈ s.ile.orig, y.2.fail = 0#8) →
    32 + txPayload s e x ≤ dget 0 (lportAt s e).deficit v + vcWeight s e v * 64 → dget 0 s.qos.carry (qpOfLnk e) < groupLanes s (qpOfLnk e) →
    ∃ t f, exec (.portSelect (qpOfLnk e) .none_) s = .next t ∧ t.out = s.out ++ [.frame e f] ∧ f.kind = 0#8 ∧ f.payloadLen = BitVec.ofNat 16 (txPayload s e x)
      ∧ f.sequence = BitVec.ofNat 64 (lportAt s e).txSeq ∧ (lportAt t e).txq = [] ∧ dget 0 (lportAt t e).used v = dget 0 (lportAt s e).used v + 1
      ∧ (lportAt t e).txSeq = (lportAt s e).txSeq + 1)
  ∧ (∀ (q ix : Nat) (dual : Bool) (c : Coll) (s : State), portPresent s q = true → s.pin.pwrok = true → coreDown s = false → tget s.sre.colls ix = some c →
    s.lane.flaw = [] → (∀ y ∈ s.ile.orig, y.2.fail = 0#8) →
    (∀ twice, ∃ t, exec (.portSelect q (.sreData dual twice)) s = .next t ∧ t.sre = { s.sre with flaw := some (dual, twice) })
    ∧ (∃ t, exec (.portSelect q (.sreChunk ix false)) s = .next t ∧ t.sre = s.sre)
    ∧ ∃ t, exec (.portSelect q (.sreChunk ix true)) s = .next t ∧ tget t.sre.colls ix = none ∧ t.sre.lastReason = Sc.checkFail)
  ∧ (∀ (ix n : Nat) (dual twice : Bool) (c : Coll) (s : State), tget s.sre.colls ix = some c → s.sre.flaw = some (dual, twice) → n ≠ 0 →
    (twice = false → (sreWork s ix n).sre = { s.sre with flaw := none })
    ∧ (twice = true → tget (sreWork s ix n).sre.colls ix = none ∧ (sreWork s ix n).sre.flaw = none ∧ (sreWork s ix n).sre.lastReason = Sc.checkFail))
  ∧ (∀ (q unit : Nat) (s : State), portPresent s q = true → s.pin.pwrok = true → coreDown s = false → topRung s = 0 → climbTo s 0 4 3 = 3 →
    ∃ t, exec (.portSelect q (.coreLost unit)) s = .next t ∧ isRunning t 3 0 = true)
  ∧ (∀ (p k n : Nat) (s : State), p < 4 → k < 16 → n ≤ 64 →
    (fabRoomRd s).getLsbD (16 * p + k) = (memPresent s p && roomFor s p k 64 1024 readCost)
    ∧ (fabRoomWr s).getLsbD (16 * p + k) = (memPresent s p && roomFor s p k 64 512 writeCost)
    ∧ (fabRoomOrg s).getLsbD k = origRoom s k 64
    ∧ ((fabRoomRd s).getLsbD (16 * p + k) = true → portRoom s p k n 0 = true) ∧ ((fabRoomWr s).getLsbD (16 * p + k) = true → portRoom s p k 0 n = true)
    ∧ ((fabRoomOrg s).getLsbD k = true → origRoom s k n = true))
  ∧ (∀ (q mhz : Nat) (s : State), portPresent s q = true → s.pin.pwrok = true → coreDown s = false →
    ∃ t, exec (.portSelect q (.cclk mhz)) s = .next t ∧ t.gen.cclkMhz = mhz)
  ∧ (∀ (q i : Nat) (s : State),
    (q < 4 → exec (.requestAged q i) s = .next { s with
      ime := { s.ime with ents := s.ime.ents.map fun e => if e.port = q ∧ e.seq = i ∧ e.entered + e.age ≤ s.tm.ns then { e with aged := true } else e } })
    ∧ (∀ x, 4 ≤ q → (lportAt s (q - 4)).txq[i]? = some x → x.entered + x.age ≤ s.tm.ns →
      ∃ t, exec (.requestAged q i) s = .next t ∧ (lportAt t (q - 4)).txq = (lportAt s (q - 4)).txq.set i { x with aged := true }
        ∧ t.out = s.out ∧ t.ime = s.ime ∧ t.qos = s.qos))
  ∧ (∀ (line : Nat) (v : Resident) (reg : Region) (s : State), residentAt s line = some v → v.dirty = true → anyRegion s v.region = some reg →
    reg.mode = 0 → Safety.memIdle s →
    ∃ t w, exec (.atomicLineIdle line) s = .next t ∧ residentAt t line = none ∧ t.ime.ents = [w] ∧ w.line = line ∧ w.phase = .writeReady
      ∧ w.stored = withSide v.data 0#56 false 0 ∧ t.out = s.out)

/-- The commands of the reduction engine (06 R204 to R213, R221 to R224). -/
def Obligations.CollectivesOpenAndEnd : Prop :=
  (∀ (l : Launch) (r : List Launch) (f : Flight) (m m1 : MemIn) (d : List Byte) (s s0 s1 : State), s.sre.launch = l :: r → s.sre.colls = [] → s.sre.eab = [] →
    s.pin.pwrok = true → coreDown s = false → s0 = { s with sre := { s.sre with launch := r } } →
    readBytes s0 (engWho 3 l.world (some l.slice) (some l.context) l.shelf l.addr) (flightCls s0 l.flight) 144 m = (.ok d, s1, m1) → tget s1.hob.flight l.flight = some f →
    (cdCheck (forerunner s1) d ≠ 0#8 →
      ∃ t, exec (.contextOpen m) s = .next t ∧ t.sre.launch = r ∧ t.sre.colls = [] ∧ t.sre.groups = s.sre.groups
        ∧ tget t.hob.flight l.flight = some { f with stage := .ended, result := 2, reason := cdCheck (forerunner s1) d, detail := refusedDetail s (cdRank d) })
    ∧ (∀ (s2 s3 : State) (m2 : MemIn) (ks : Nat × Nat × Nat × List (Nat × Nat × Nat)) (table : List Byte) (mem : List Nat),
      cdCheck (forerunner s1) d = 0#8 → cdBarrier d = true → groupCheck s1 d = .ok s2 → collKeys s2 l d = .ok ks →
      readBytes s2 (engWho 3 l.world (some l.slice) (some l.context) (cdGroupShelf d) (cdTable d)) (cdClass d) (2 * cdSize d) m1 = (.ok table, s3, m2) →
      groupMembers s3 d table = some mem → (cdMasked d = true → drbgWaits s = false ∧ drbgServes s3 = true) →
      (cdSize d = 1 →
        ∃ t, exec (.contextOpen m) s = .next t ∧ t.sre.launch = r ∧ t.sre.colls = [] ∧ t.sre.groups = s2.sre.groups
          ∧ tget t.hob.flight l.flight = some { f with stage := .ended, result := 0, reason := 0#8, detail := collDetail 0 0 0 0 0 0 })
      ∧ (∀ (v : Slot) (half : Nat), cdSize d = 2 → cdRank d = 0 → liveHalf s3 ks.1 ks.2.2.1 = some half → slotAt s3 ks.1 = some v → k6 v half 2 = true →
        (halfKey s3 ks.1 half).isSome = true → s.lane.flaw = [] → sendCode s3 (mem.getD 1 0) (cdShape d) 96 = 0#8 →
        ∃ t c, exec (.contextOpen m) s = .next t ∧ t.sre.launch = r ∧ t.sre.colls = [(0, c)] ∧ c.desc = d ∧ c.members = mem
          ∧ c.digests = cdDigests d table ∧ c.owedIn = 1 ∧ c.owedOut = 1 ∧ c.slot = ks.1 ∧ c.gen = ks.2.2.1
          ∧ c.unacked.map (fun u => (u.rank, u.chunk)) = [(1, false)] ∧ c.ins.map (fun x => (x.rank, x.limit)) = [(1, sreWindow s - 1)]
          ∧ tget t.hob.flight l.flight = some f)))
  ∧ (∀ (ix : Nat) (c : Coll) (f : Flight) (s : State), s.sre.colls = [(ix, c)] → tget s.hob.flight c.flight = some f →
    c.started + 1000000 * c.timeoutMs ≤ s.tm.ns →
    ∃ t, exec (.collTimeout c.gkey (cdColl c.desc)) s = .next t ∧ t.sre.colls = [] ∧ t.sre.lastReason = Sc.collTimeout
      ∧ tget t.hob.flight c.flight = some { f with
          stage := .ended, result := 1, reason := Sc.collTimeout
          detail := collDetail 0 (memberOf c c.me) (memberOf c (waitedOn c)) (waitedOn c) c.nonfinite c.overflow })
  ∧ (∀ (ix at_ : Nat) (c : Coll) (u : Unacked) (s : State), s.sre.colls = [(ix, c)] → c.unacked = [u] → u.due = some at_ → at_ ≤ s.tm.ns → s.ile.orig = [] → s.ile.sendq = [] →
    segCount s (sreSendOf c (.sre c.gkey (cdColl c.desc) u.id) u.rank u.bytes) ≤ 4096 →
    ∃ t, exec (.chunkResend c.gkey (cdColl c.desc)) s = .next t ∧ t.sre.colls = [(ix, { c with unacked := [{ u with due := none }] })]
      ∧ t.ile.sendq = [] ∧ t.ile.orig ≠ [] ∧ ∀ o ∈ t.ile.orig, o.2.src = .sre c.gkey (cdColl c.desc) u.id ∧ o.2.op.op = 5 ∧ o.2.op.dest = memberOf c u.rank)
  ∧ (∀ (i : Nat) (e : EabMsg) (s : State), s.sre.eab[i]? = some e →
    (e.until_ < s.tm.ns →
      exec (.eabExpire i) s = .next { s with sre := { s.sre with eab := s.sre.eab.eraseIdx i, eabExpired := satAdd 16 s.sre.eabExpired 1 } })
    ∧ (s.tm.ns ≤ e.until_ → exec (.eabExpire i) s = .next s))
  ∧ (∀ (g : Word) (s : State), Safety.admitted s 0x5010 →
    (∀ i e, groupEnt s g.toNat = some (i, e) → (∀ x ∈ s.sre.colls, cdGroup x.2.desc ≠ g.toNat) →
      exec (.groupRetire g) s = .next (Safety.okay { s with sre := { s.sre with
        groupStatus := 0#32, groups := tdel s.sre.groups i, floor := max s.sre.floor (min 0xFFFFFFFF (e.epoch + 1)) } }))
    ∧ ((∃ x ∈ s.sre.colls, cdGroup x.2.desc = g.toNat) →
      exec (.groupRetire g) s = .next (Safety.okay { s with sre := { s.sre with groupStatus := 1#32 } }))
    ∧ (groupEnt s g.toNat = none → (∀ x ∈ s.sre.colls, cdGroup x.2.desc ≠ g.toNat) →
      exec (.groupRetire g) s = .next (Safety.okay { s with sre := { s.sre with groupStatus := 2#32 } })))

/-- The commands of the bulk cipher engine (07 R230 to R232, R249). The memory lines brought with the command, and JOB_RESUME on a running job,
are the model's choices (logs 7 and 14). -/
def Obligations.BulkJobsRun : Prop :=
  (∀ (m m1 : MemIn) (fo : Bool) (j : Job) (fl : Nat) (f : Flight) (s s1 : State), bceRuns s = true → s.bce.jobs = [j] → j.op ≠ 16 →
    j.opened = false → j.engine = none → j.flight = some fl → tget s1.hob.flight fl = some f →
    (∀ (c : Code) (pos : Nat) (k : Job), openJob s { j with engine := some 0 } fo m = (.error (c, pos, k), s1, m1) → k.flight = some fl →
      ∃ t, exec (.jobStart m fo) s = .next t ∧ t.bce.jobs = s1.bce.jobs.filter (fun x => x.id != k.id)
        ∧ tget t.hob.flight fl = some { f with
            stage := .ended, result := if k.consumed = true ∨ k.wrote = true then 1 else 2, reason := c, detail := jobDetail k pos })
    ∧ (∀ k : Job, openJob s { j with engine := some 0 } fo m = (.ok k, s1, m1) → k.fail = 0#8 → m1.lines = [] → k.op ≠ 5 → k.seg < k.segs →
      k.off < (segIn k).bytes →
      ∃ t, exec (.jobStart m fo) s = .next t ∧ t.bce.jobs = s1.bce.jobs.map (fun x => if x.id = k.id then k else x) ∧ t.hob = s1.hob
        ∧ t.ime = s1.ime ∧ t.flash = s1.flash))
  ∧ (∀ (m : MemIn) (j : Job) (fl : Nat) (f : Flight) (s : State), bceRuns s = true → s.bce.jobs = [j] → j.op ≠ 16 → j.op ≠ 5 → j.opened = true →
    j.fail = 0#8 → j.flight = some fl → tget s.hob.flight fl = some f →
    (j.engine = none → j.seg < j.segs → j.off < (segIn j).bytes → m.lines = [] →
      ∃ t, exec (.jobResume m) s = .next t ∧ t.bce.jobs = [{ j with engine := some 0 }] ∧ t.hob = s.hob ∧ t.out = s.out)
    ∧ (∀ e, e < 4 → j.engine = some e → j.segs ≤ j.seg →
      (j.op = 1 ∨ j.op = 2 ∨ j.op = 3 →
        ∃ t, exec (.jobResume m) s = .next t ∧ t.bce.jobs = [] ∧ t.bce.owners = s.bce.owners
          ∧ tget t.hob.flight fl = some { f with stage := .ended, result := 0, reason := 0#8, detail := jobDetail j 0 })
      ∧ (j.op = 4 →
        ∃ t, exec (.jobResume m) s = .next t ∧ t.bce.jobs = []
          ∧ match ownerKeys j.plain with
            | some ks => t.bce.owners = tput s.bce.owners (jdOwnerSet j.desc) (shTenant (jdKeyShelf j.desc), ks)
                ∧ tget t.hob.flight fl = some { f with stage := .ended, result := 0, reason := 0#8, detail := jobDetail j 0 }
            | none => t.bce.owners = s.bce.owners
                ∧ tget t.hob.flight fl = some { f with stage := .ended, result := 2, reason := Bc.parcelMalformed, detail := jobDetail j 0 }))
    ∧ (∀ (e : Nat) (s0 s1 : State) (m1 : MemIn), e < 4 → j.engine = some e → j.seg < j.segs → m.lines ≠ [] →
      s0 = { s with lane := { s.lane with turn := (e + 1) % 4 } } →
      (∀ k : Job, (j.off < (segIn j).bytes ∧ readPiece s0 j m = (.ok k, s1, m1)) ∨ ((segIn j).bytes ≤ j.off ∧ segEnd s0 j m = (.ok k, s1, m1)) →
        k.fail = 0#8 → k.op ≠ 5 → k.seg < k.segs → k.off < (segIn k).bytes → m1.lines = [] →
        ∃ t, exec (.jobResume m) s = .next t ∧ t.bce.jobs = s1.bce.jobs.map (fun x => if x.id = k.id then k else x) ∧ t.hob = s1.hob
          ∧ t.ime = s1.ime ∧ t.key = s1.key)
      ∧ (∀ (c : Code) (k : Job) (g : Flight), (j.off < (segIn j).bytes ∧ readPiece s0 j m = (.error c, s1, m1) ∧ k = j)
          ∨ ((segIn j).bytes ≤ j.off ∧ segEnd s0 j m = (.error (c, k), s1, m1)) → k.flight = some fl → tget s1.hob.flight fl = some g →
        ∃ t, exec (.jobResume m) s = .next t ∧ t.bce.jobs = s1.bce.jobs.filter (fun x => x.id != k.id)
          ∧ tget t.hob.flight fl = some { g with
              stage := .ended, reason := c, detail := jobDetail k 0
              result := if (c = Bc.parcelAuth ∧ k.op ≠ 4) ∨ c = Bc.bulkCheckFail ∨ k.consumed = true ∨ k.wrote = true then 1 else 2 })))

/-- The commands of the stratum controller (08 R258 to R273). -/
def Obligations.StrataOpenFlushEnd : Prop :=
  (∀ (m m1 m2 : MemIn) (j : Job) (s s1 s2 : State) (d : List Byte) (list : List CutRegion) (ranks : List Nat), nextStratum s = some j →
    s.pin.pwrok = true → coreDown s = false → bceStopped s = false → readStratum s j m = (.ok (d, list, ranks), s1, m1) → sdOp d = 1 →
    s2.bce.early = [] → s2.ime.catRenew = false →
    ∀ (ix slot : Nat) (v : Slot) (regions : List CutRegion), cutEntry s1 (shTenant (sdKeyShelf d)) = some ix →
      dget 0 s1.flash.stratumHigh (shTenant (sdKeyShelf d)) < sdStratum d →
      resolve s1 (engWho 4 j.world (some j.slice) (some j.context) (sdKeyShelf d) 0) [3] = .ok slot → slotAt s1 slot = some v →
      k6Room s1 slot v 3 ((list.filterMap fun r => regionAt s1 (regionIx r.shelf)).map fun g => shardBlocks g.size).sum = true →
      cutRegionsOk s1 { j with desc := d } (shTenant (sdKeyShelf d)) list m1 list = (.ok regions, s2, m2) →
      (∀ r ∈ regions, dget 0 (ctrOf s2 catIx (catRegion s2) (regionIx r.shelf / 64)).minors (regionIx r.shelf % 64) < 127) →
      ∃ t c, exec (.cut m true) s = .next t ∧ tget t.bce.cuts ix = some c
        ∧ c = { newCut s2 j d regions ranks slot (curHalf v) v.genCur with
            flush := outgoingStores s2
            reserved := ((list.filterMap fun r => regionAt s1 (regionIx r.shelf)).map fun g => shardBlocks g.size).sum }
        ∧ t.bce.jobs = s2.bce.jobs.filter (fun x => x.id != j.id)
        ∧ t.flash.stratumHigh = tput s2.flash.stratumHigh (shTenant (sdKeyShelf d)) (sdStratum d) ∧ t.hob = s2.hob
        ∧ (∀ r ∈ regions, ∀ g, regionAt t (regionIx r.shelf) = some g → snapState g = 1)
        ∧ ∀ e ∈ s2.ime.ents, e.region ∈ c.indices → ∃ e' ∈ t.ime.ents, e'.seq = e.seq ∧ e'.line = e.line ∧ e'.cutOk = true)
  ∧ (∀ (m m1 : MemIn) (fo : Bool) (j : Job) (fl : Nat) (f : Flight) (e : Code) (d : List Byte) (s s1 : State), nextStratum s = some j → j.flight = some fl →
    s.pin.pwrok = true → coreDown s = false → bceStopped s = false → readStratum s j m = (.error (e, d), s1, m1) → tget s1.hob.flight fl = some f →
    ∀ c ∈ [Instr.cut m fo, .restore m], ∃ t, exec c s = .next t ∧ t.bce.jobs = s1.bce.jobs.filter (fun x => x.id != j.id)
      ∧ (tget t.hob.flight fl).map (fun g => (g.stage, g.result, g.reason)) = some (.ended, 2, e)
      ∧ t.bce.lastReason = (if e = 0#8 then s1.bce.lastReason else e))
  ∧ (∀ (m : MemIn) (ix : Nat) (c : Cut) (s : State), s.bce.cuts = [(ix, c)] → c.restore = false → c.step = .flush →
    (∀ q ∈ c.flush, ∀ o ∈ s.ile.orig, o.2.seq ≠ q) →
    (∀ (v : Slot), sdArch c.desc = false → slotAt s c.slot = some v → k6 v (curHalf v) 3 = true → (manifestKey s c.slot (curHalf v) c.stratum).isSome = true →
      sendCode s (sdArchIdx c.desc) 0 64 = 0#8 → s.ile.orig = [] → s.ile.sendq = [] →
      s.lane.flaw = [] →
      ∃ t, exec (.cutFlushDone ix m) s = .next t ∧ t.bce.cuts = [(ix, { c with step := .waitGo })] ∧ t.hob = s.hob
        ∧ t.ile.orig ≠ [] ∧ ∀ o ∈ t.ile.orig, o.2.src = .stratum ix ∧ o.2.op.op = 5 ∧ o.2.op.dest = sdArchIdx c.desc)
    ∧ (∀ r, sdArch c.desc = true → r < sdMembers c.desc → r ≠ sdRank c.desc → r ∉ c.ready →
      exec (.cutFlushDone ix m) s = .next { s with bce := { s.bce with cuts := [(ix, { c with step := .waitGo, ready := c.ready ++ [sdRank c.desc] })] } }))
  ∧ (∀ (ix : Nat) (c : Cut) (f : Flight) (s : State), s.bce.cuts = [(ix, c)] → c.restore = false → sdArch c.desc = false → c.regions = [] →
    tget s.hob.flight c.flight = some f → Safety.memIdle s → s.ile.heldOut = [] →
    (s.tm.ns < c.started + 1000000 * c.timeoutMs → exec (.cutTimeout ix) s = .next s)
    ∧ (c.started + 1000000 * c.timeoutMs ≤ s.tm.ns → ∃ t, exec (.cutTimeout ix) s = .next t ∧ t.bce.cuts = [] ∧ t.bce.lastReason = Str.cutTimeout
      ∧ tget t.hob.flight c.flight = some { f with
          stage := .ended, result := 1, reason := Str.cutTimeout, detail := cutDetail (sdArchIdx c.desc) 0 c.sealed_ 0 c.copied }))
  ∧ (∀ (m m1 m2 : MemIn) (j : Job) (fl : Nat) (f : Flight) (s s1 s2 : State) (d b : List Byte) (slot half ix : Nat), nextStratum s = some j →
    j.flight = some fl → s.pin.pwrok = true → coreDown s = false → bceStopped s = false → readStratum s j m = (.ok (d, [], []), s1, m1) → sdOp d = 2 →
    sdRegions d = 0 → cutEntry s1 (shTenant (sdKeyShelf d)) = some ix →
    readBytes s1 (engWho 4 j.world (some j.slice) (some j.context) (sdManShelf d) (sdManAddr d)) (sdClass d) (min (sdManLen d) (80 + 2 ^ 28)) m1 = (.ok b, s2, m2) →
    sdManLen d = b.length → manifestOk s2 d b = true →
    resolve s2 (engWho 4 j.world (some j.slice) (some j.context) (sdKeyShelf d) 0) [3] = .ok slot → liveHalf s2 slot (fld b 0x0C 4) = some half →
    fld b 0x28 2 = sdMembers d → (∀ k < fld b 0x2C 4, fld (manEntry b k) 0 2 ≠ sdRank d) → tget s2.hob.flight fl = some f →
    ∃ t, exec (.restore m) s = .next t ∧ t.bce.jobs = s2.bce.jobs.filter (fun x => x.id != j.id)
      ∧ (tget t.hob.flight fl).map (fun g => (g.stage, g.result, g.reason))
        = some (if ((manifestKey s2 slot half (sdStratum d)).bind fun k => gcmOpen k manifestIv (b.take (b.length - 16)) (b.drop (b.length - 16))).isSome
            then (.ended, 0, 0#8) else (.ended, 2, Str.manifestAuth)))

/-- The control commands on host objects (09 R280 to R301). -/
def Obligations.HostObjectsMade : Prop :=
  (∀ (slc i : Nat) (s : State), Safety.hobTakes s slc false 2 → i < 4096 → tget s.hob.ctxs i = none →
    exec (.ctxCreate slc i) s = .next (Safety.hobDone { s with hob := { s.hob with
      ctxs := tput s.hob.ctxs i { slice := slc, world := bits s.hob.cmdArg.toNat 0 2 } } }))
  ∧ (∀ (slc i : Nat) (c : HCtx) (s : State), Safety.hobTakes s slc false 0 → tget s.hob.ctxs i = some c → c.slice = slc →
    ((sliceAt s slc).live ≠ some i → (∀ q ∈ s.hob.queues, q.2.ctx ≠ i) →
      exec (.ctxDestroy slc i) s = .next (Safety.hobDone { s with hob := { s.hob with ctxs := tdel s.hob.ctxs i } }))
    ∧ (i ≠ 0xFFFF → exec (.switch slc i) s = .next (Safety.hobDone (setSlice s slc { sliceAt s slc with live := some i }))))
  ∧ (∀ (slc : Nat) (s : State), Safety.hobTakes s slc false 0 →
    exec (.switch slc 0xFFFF) s = .next (Safety.hobDone (setSlice s slc { sliceAt s slc with live := none })))
  ∧ (∀ (slc i : Nat) (m m1 : MemIn) (b : List Byte) (s s1 : State), Safety.hobTakes s slc true 0 →
    (i < 4096 → tget s.hob.queues i = none → ctlRead s s.hob.cmdShelf.toNat s.hob.cmdAddr.toNat 64 m = (.ok b, s1, m1) →
      queueForm b = true → ctxOf s1 slc (fld b 0x10 2) = true →
      (fld b 1 1 = 2 ∨ ∃ c, tget s1.hob.queues (fld b 0x12 2) = some c ∧ c.kind = 2 ∧ c.slice = slc) →
      ∀ (w : Who) (len : Nat) (x y : Nat × Region) (s2 s3 : State) (m2 m3 : MemIn),
      w = hobWho (ctxWorld s1 (fld b 0x10 2)) slc (fld b 0x10 2) (fld b 4 3) (fld b 8 8) →
      len = (if fld b 1 1 = 3 then 2 ^ (fld b 2 1 + fld b 3 1) else 64 * 2 ^ fld b 2 1) →
      admitted s1 w len .read (hostClass s1) m1 = (.ok x, s2, m2) → admitted s2 w len .write (hostClass s2) m2 = (.ok y, s3, m3) →
      ∃ t, exec (.qCreate slc i m) s = .next t ∧ t.hob.cmdCode = 0#8 ∧ t.hob.cmdBusy = false ∧ t.gen.irqStatus.getLsbD 5 = true
        ∧ tget t.hob.queues i = some
            { kind := fld b 1 1, ctx := fld b 0x10 2, slice := slc, sizeLog2 := fld b 2 1, slotLog2 := fld b 3 1, shelf := fld b 4 3, addr := fld b 8 8,
              cq := fld b 0x12 2, notify := bit (fld b 0x14 1) 0, head := 0, tail := 0, reserved := 0 }
        ∧ ∀ j, j ≠ i → tget t.hob.queues j = tget s1.hob.queues j)
    ∧ (i < 16384 → tget s.hob.events i = none → ctlRead s s.hob.cmdShelf.toNat s.hob.cmdAddr.toNat 32 m = (.ok b, s1, m1) →
      fld b 0 1 = 1 → fld b 1 1 < 2 → fld b 2 2 = 0 → fld b 7 1 = 0 → fld b 0x10 8 % 8 = 0 → fld b 0x10 8 < 2 ^ 52 → fld b 0x18 8 = 0 →
      (fld b 1 1 = 0 → fld b 0x10 8 = 0) →
      ∃ t, exec (.eventCreate slc i m) s = .next t ∧ t.hob.cmdCode = 0#8 ∧ t.hob.cmdBusy = false ∧ t.gen.irqStatus.getLsbD 5 = true
        ∧ tget t.hob.events i = some
            { slice := slc, value := fld b 8 8, ignored := 0, mirror := bit (fld b 1 1) 0, mShelf := fld b 4 3, mAddr := fld b 0x10 8 }
        ∧ ∀ j, j ≠ i → tget t.hob.events j = tget s1.hob.events j))
  ∧ (∀ (slc i : Nat) (s : State), Safety.hobTakes s slc false 0 → s.hob.flight = [] →
    (∀ q, tget s.hob.queues i = some q → q.slice = slc → (∀ x ∈ s.hob.queues, x.2.cq = i → x.2.kind = 2) → (∀ g ∈ s.ile.msgs, g.queue ≠ i) →
      exec (.qDestroy slc i) s = .next (Safety.hobDone { s with hob := { s.hob with queues := tdel s.hob.queues i } }))
    ∧ (∀ e, tget s.hob.events i = some e → e.slice = slc →
      exec (.eventDestroy slc i) s = .next (Safety.hobDone { s with hob := { s.hob with events := tdel s.hob.events i } })))
  ∧ (∀ (slc h : Nat) (s : State), h < 8192 → tget s.hob.objs h = none → sliceTenant s slc = some (bits s.hob.cmdArg.toNat 0 21 / 4096) →
    (∀ (m m1 : MemIn) (b : List Byte) (s1 s2 : State), Safety.hobTakes s slc true 21 → s.ime.formatted = true →
      ctlRead s s.hob.cmdShelf.toNat s.hob.cmdAddr.toNat 64 m = (.ok b, s1, m1) →
      regionCreate s1 (bits s1.hob.cmdArg.toNat 0 21) b m1 = (Rc.done, s2) →
      ∃ t, exec (.objCreate slc h m) s = .next t ∧ t.hob.cmdBusy = false ∧ t.gen.irqStatus.getLsbD 5 = true
        ∧ (tget t.hob.objs h).map (fun o => (o.slice, o.state, o.hold, o.refs)) = some (slc, 1, true, 1))
    ∧ (∀ r, Safety.hobTakes s slc false 21 → regionAt s (bits s.hob.cmdArg.toNat 0 21) = some r →
      exec (.objAdopt slc h) s = .next (Safety.hobDone { s with hob := { s.hob with
        objs := tput s.hob.objs h { slice := slc, cat := bits s.hob.cmdArg.toNat 0 21, state := 1, hold := true, refs := 1 } } })))
  ∧ (∀ (slc h : Nat) (o : HObj) (s : State), tget s.hob.objs h = some o →
    (∀ (m : MemIn), Safety.hobTakes s slc false 0 → o.slice = slc → o.state = 1 → 1 < o.refs →
      exec (.objFree slc ⟨h, m⟩) s = .next (Safety.hobDone { s with hob := { s.hob with
        objs := tput s.hob.objs h { o with hold := false, refs := o.refs - 1, state := 2 } } }))
    ∧ (∀ (o' : HObj) (s0 : State), Safety.hobTakes s slc false 0 → o.slice = slc → o.state = 1 → o.refs = 1 → Safety.memIdle s →
      o' = { o with hold := false, refs := 0, state := 2, tried := s.tm.ns } → s0 = { s with hob := { s.hob with objs := tput s.hob.objs h o' } } →
      (∀ (c : Code) (m m1 : MemIn) (s1 : State), regionDestroy s0 o.cat false m = (c, s1, m1) → c ≠ Rc.done →
        ∃ t, exec (.objFree slc ⟨h, m⟩) s = .next t ∧ t.hob.cmdBusy = false ∧ t.gen.irqStatus.getLsbD 5 = true ∧ tget t.hob.objs h = some o')
      ∧ (∀ (r : Region) (m m1 : MemIn) (s1 : State), Safety.imeQuiet s → catLook s0 o.cat 0 m = (0#8, s1, m1) → catEnded s1 o.cat = false →
        regionAt s o.cat = some r → snapState r = 0 →
        ∃ t, exec (.objFree slc ⟨h, m⟩) s = .next t ∧ t.hob.cmdBusy = false ∧ t.gen.irqStatus.getLsbD 5 = true ∧ tget t.hob.objs h = none
          ∧ regionAt t o.cat = none))
    ∧ (∀ (m : MemIn), s.tm.ns < o.tried + 100000 → exec (.objDestroyRetry ⟨h, m⟩) s = .next s)
    ∧ (∀ (r : Region) (m m1 : MemIn) (s1 : State), hobUp s = true → o.state = 2 → o.refs = 0 → o.tried + 100000 ≤ s.tm.ns → Safety.memIdle s →
      Safety.imeQuiet s → catLook { s with hob := { s.hob with objs := tput s.hob.objs h { o with tried := s.tm.ns } } } o.cat 0 m = (0#8, s1, m1) →
      catEnded s1 o.cat = false → regionAt s o.cat = some r → snapState r = 0 →
      ∃ t, exec (.objDestroyRetry ⟨h, m⟩) s = .next t ∧ tget t.hob.objs h = none ∧ regionAt t o.cat = none))

/-- A command from its doorbell to its completion (09 R283 to R293). -/
def Obligations.HostCommandsFlow : Prop :=
  (∀ (v : Word) (q : HQueue) (s : State), Safety.admitted s 0x8010 → tget s.hob.queues (bits v.toNat 0 12) = some q →
    (∀ q', q' = (if q.kind = 1 then { q with tail := bits v.toNat 16 16 } else { q with head := bits v.toNat 16 16 }) →
      ((q'.tail + 65536 - q'.head) % 65536 ≤ 2 ^ q.sizeLog2 →
        exec (.doorbell v) s = .next (Safety.okay { s with hob := { s.hob with queues := tput s.hob.queues (bits v.toNat 0 12) q' } }))
      ∧ (2 ^ q.sizeLog2 < (q'.tail + 65536 - q'.head) % 65536 →
        exec (.doorbell v) s = .next (Safety.okay { s with hob := { s.hob with badDoorbell := min 255 (s.hob.badDoorbell + 1) } }))))
  ∧ (∀ (sq : Nat) (q : HQueue) (l : Line) (m m1 : MemIn) (s s1 : State), tget s.hob.queues sq = some q → mayFetch s sq = true → q.cq ≠ sq →
    readLine s (hobWho (ctxWorld s q.ctx) q.slice q.ctx q.shelf (q.addr + 64 * (q.head % 2 ^ q.sizeLog2))) (hostClass s) .live m = (.ok l, s1, m1) →
    ∃ t f, exec (.commandFetch sq m) s = .next t ∧ tget t.hob.flight s1.hob.nextFlight = some f ∧ t.hob.nextFlight = s1.hob.nextFlight + 1
      ∧ f.record = lineBytes l ∧ f.sq = sq ∧ f.slice = q.slice ∧ f.ctx = q.ctx ∧ f.sqHead = (q.head + 1) % 65536
      ∧ t.hob.turn = turnNow s ++ [sq]
      ∧ tget t.hob.queues sq = some { q with head := (q.head + 1) % 65536 }
      ∧ (tget t.hob.queues q.cq).map (·.reserved) = (tget s1.hob.queues q.cq).map (·.reserved + 1)
      ∧ (crOk (lineBytes l) = false → f.stage = .ended ∧ f.result = 2 ∧ f.reason = Hc.cmdMalformed ∧ t.hob.lastReason = Hc.cmdMalformed)
      ∧ (crOk (lineBytes l) = true → crWait (lineBytes l) = false → crSignal (lineBytes l) = false → crObjA (lineBytes l) = 0xFFFF →
          crObjB (lineBytes l) = 0xFFFF → f.stage = .fetched ∧ f.result = 0 ∧ f.reason = 0#8 ∧ f.refs = []))
  ∧ (∀ (sq id : Nat) (f : Flight) (m : MemIn) (s : State), fetchedOf s sq = some (id, f) → tget s.hob.flight id = some f → mayDispatch s id f = true →
    (crOp f.record = 0 → exec (.commandDispatch sq m) s = .next { s with hob := { s.hob with
        flight := tput s.hob.flight id { f with stage := .ended, result := 0, reason := 0#8, detail := zeros 32 } } })
    ∧ (crOp f.record = 1 → s.sre.launch.length < 256 →
        exec (.commandDispatch sq m) s = .next { s with
          hob := { s.hob with flight := tput s.hob.flight id { f with stage := .dispatched, engaged := true } }
          sre := { s.sre with launch := s.sre.launch ++ [{ flight := id, world := f.world, slice := f.slice, context := f.ctx, addr := crArg0 f.record,
                                                           shelf := crArg1 f.record, deadline := f.deadline, entered := s.tm.ns }] } })
    ∧ (crOp f.record = 2 ∨ crOp f.record = 3 → (s.bce.jobs.filter fun j => !j.opened).length < 256 →
        ∃ t j, exec (.commandDispatch sq m) s = .next t ∧ tget t.hob.flight id = some { f with stage := .dispatched, engaged := true }
          ∧ t.bce.jobs = s.bce.jobs ++ [j] ∧ j.op = (if crOp f.record = 3 then 16 else 0) ∧ j.flight = some id ∧ j.opened = false ∧ j.engine = none
          ∧ j.addr = crArg0 f.record ∧ j.shelf = crArg1 f.record ∧ j.world = f.world ∧ j.slice = f.slice ∧ j.context = f.ctx ∧ j.deadline = f.deadline)
    ∧ (∀ c, crOp f.record = 4 → c ≠ 0#8 → sendCode s (bits (crArg2 f.record) 0 14) (bits (crArg1 f.record) 49 2) (bits (crArg1 f.record) 32 17) = c →
        ∃ t, exec (.commandDispatch sq m) s = .next t ∧ t.ile.lastReason = c ∧ t.ile.orig = s.ile.orig
          ∧ (tget t.hob.flight id).map (fun g => (g.stage, g.result, g.reason)) = some (.ended, 2, c))
    ∧ (∀ q, crOp f.record = 5 → tget s.hob.queues (crArg1 f.record) = some q → q.slice ≠ f.slice →
        ∃ t, exec (.commandDispatch sq m) s = .next t ∧ t.hob.lastReason = Hc.foreign
          ∧ (tget t.hob.flight id).map (fun g => (g.stage, g.result, g.reason)) = some (.ended, 2, Hc.foreign))
    ∧ (crOp f.record = 5 → (∀ q, tget s.hob.queues (crArg1 f.record) = some q → q.slice = f.slice) → (∀ x ∈ s.hob.flight, x.1 ≠ id → ¬(x.2.slice = f.slice ∧ x.2.sq = crArg1 f.record ∧ crTag x.2.record = crArg0 f.record)) →
        ∃ t, exec (.commandDispatch sq m) s = .next t ∧ t.hob.lastReason = Hc.cancelMiss
          ∧ (tget t.hob.flight id).map (fun g => (g.stage, g.result, g.reason)) = some (.ended, 2, Hc.cancelMiss))
    ∧ (∀ (n : Nat) (g : Flight), crOp f.record = 5 → (∀ q, tget s.hob.queues (crArg1 f.record) = some q → q.slice = f.slice) → s.hob.flight = [(id, f), (n, g)] → n ≠ id → g.stage = .fetched → g.slice = f.slice →
        g.sq = crArg1 f.record → crTag g.record = crArg0 f.record →
        ∃ t, exec (.commandDispatch sq m) s = .next t
          ∧ (tget t.hob.flight n).map (fun x => (x.stage, x.result, x.reason)) = some (.ended, 2, Sc.cancelled)
          ∧ (tget t.hob.flight id).map (fun x => (x.stage, x.target, x.result, x.reason)) = some (.dispatched, some n, 0, 0#8)))
  ∧ (∀ (id : Nat) (f : Flight) (q c : HQueue) (m : MemIn) (s : State), tget s.hob.flight id = some f → f.stage = .ended → f.untilCore = false →
    hobUp s = true → f.refs = [] →
    tget s.hob.queues f.sq = some q → tget s.hob.queues q.cq = some c →
    (∀ (ix : Nat) (r : Region) (m1 : MemIn) (s1 : State), crSignal f.record = false → f.engaged = false → f.reason ≠ Rsn.queueFull → Safety.imeQuiet s →
      memGate s (hobWho (ctxWorld s c.ctx) c.slice c.ctx c.shelf (c.addr + 64 * (c.tail % 2 ^ c.sizeLog2))) .write (hostClass s) m = (.ok (ix, r), s1, m1) →
      r.mode = 0 → snapState r = 0 →
      ∃ t e, exec (.commandComplete id m) s = .next t ∧ tget t.hob.flight id = none
        ∧ tget t.hob.queues q.cq = some { c with tail := (c.tail + 1) % 65536, reserved := c.reserved - 1 }
        ∧ (c.notify = true → t.gen.irqStatus.getLsbD 0 = true) ∧ (c.notify = false → t.gen.irqStatus = s1.gen.irqStatus) ∧ t.hob.events = s.hob.events
        ∧ t.ime.ents = [e] ∧ e.line = (c.addr + 64 * (c.tail % 2 ^ c.sizeLog2)) / 64
        ∧ e.plain = bytesLine (cqRecord s (!c.tail.testBit c.sizeLog2) (crTag f.record) (crOp f.record) 0
            (serviceOf s (decide (f.result = 2)) f.deadline) f.result f.reason.toNat f.sq f.sqHead
            (if f.result = 2 then 0 else min 0xFFFFFFFF (latenessOf s f.deadline)) f.slice f.ctx 0 f.detail))
    ∧ (∀ e, crSignal f.record = true → f.result = 0 ∨ crAlways f.record = true → tget s.hob.events (crSigEvent f.record) = some e → e.slice = f.slice →
      e.mirror = false → e.value < crSigValue f.record → e.value ≠ 2 ^ 64 - 1 →
      ∃ t, exec (.commandComplete id m) s = .next t ∧ tget t.hob.flight id = none
        ∧ tget t.hob.events (crSigEvent f.record) = some { e with value := crSigValue f.record }))

/-- The reset of a slice (09 R303, R304; 11 R341). -/
def Obligations.SliceResetsRun : Prop :=
  (∀ (i : Nat) (s : State), Safety.hobTakes s i false 0 →
    ∀ c ∈ [(Instr.sliceResetDrain i, false), (.sliceResetSquash i, true)],
      (s.hob.flight = [] → s.ile.orig = [] → s.ile.sendq = [] →
        exec c.1 s = .next (Safety.okay (setSlice { s with hob := { s.hob with cmdBusy := true } } i
          { live := (sliceAt s i).live, resets := (sliceAt s i).resets, resetting := true, squash := c.2, driver := true, charter := false, since := s.tm.ns
            drainMs := bits s.hob.ctrl.toNat 32 16, squashMs := bits s.hob.ctrl.toNat 48 16 })))
      ∧ (∀ (id : Nat) (f : Flight), s.hob.flight = [(id, f)] → f.slice = i → f.stage = .fetched → s.ile.orig = [] → s.ile.sendq = [] →
        ∃ t, exec c.1 s = .next t ∧ (sliceAt t i).resetting = true ∧ (sliceAt t i).squash = c.2 ∧ t.hob.cmdBusy = true
          ∧ t.hob.flight = [(id, { f with stage := .ended, result := 2, reason := Hc.sliceReset, detail := zeros 32 })])
      ∧ (∀ (ix : Nat) (o : Orig) (ch : Nat) (tag : BitVec 16) (ep mid : Word), s.hob.flight = [] → s.ile.sendq = [] → s.ile.orig = [(ix, o)] →
        o.who.slice = some i → o.src = .fab ch tag ep mid → o.posted = false →
        ∃ t, exec c.1 s = .next t ∧ (sliceAt t i).resetting = true ∧ (c.2 = true → t.ile.orig = []) ∧ (c.2 = false → t.ile.orig = s.ile.orig)))
  ∧ (∀ (i : Nat) (s : State), Safety.admitted s 0x8014 → s.hob.cmdBusy = true → (sliceAt s i).driver = true → (sliceAt s i).resetting = true →
    ∀ c ∈ [Instr.sliceResetDrain i, .sliceResetSquash i], ∃ t, exec c s = .next t ∧ t.hob.cmdCode = Hc.sliceResetting ∧ t.hob.lastReason = Hc.sliceResetting
      ∧ t.hob.cmdBusy = true ∧ t.gen.irqStatus.getLsbD 5 = true ∧ t.hob.slices = s.hob.slices ∧ t.hob.flight = s.hob.flight)
  ∧ (∀ (i : Nat) (s : State), (sliceAt s i).resetting = true → sliceQuiet s i = true → hobUp s = true →
    s.hob.busyHit = false → s.gen.chrBusy = false →
    ∃ t, exec (.sliceResetSettle i) s = .next t ∧ sliceAt t i = { resets := (sliceAt s i).resets + 1 }
      ∧ ((sliceAt s i).driver = true → t.hob.cmdBusy = false ∧ t.hob.cmdCode = 0#8 ∧ t.gen.irqStatus.getLsbD 5 = true)
      ∧ ((sliceAt s i).driver = false → t.hob.cmdBusy = s.hob.cmdBusy ∧ t.hob.cmdCode = s.hob.cmdCode ∧ t.gen.irqStatus = s.gen.irqStatus)
      ∧ t.hob.queues = s.hob.queues.filter (fun q => q.2.slice != i)
      ∧ t.hob.events = s.hob.events.filter (fun e => e.2.slice != i) ∧ t.hob.ctxs = s.hob.ctxs.filter (fun c => c.2.slice != i)
      ∧ t.hob.objs = s.hob.objs ∧ ∀ j, j ≠ i → sliceAt t j = sliceAt s j)
  ∧ (∀ (i : Nat) (s : State), s.tm.ns < (sliceAt s i).since + 1000000 * (sliceAt s i).drainMs → exec (.drainTimeout i) s = .next s)
  ∧ (∀ (i : Nat) (s : State), (sliceAt s i).resetting = true → (sliceAt s i).squash = false → hobUp s = true → sliceQuiet s i = false →
    (sliceAt s i).since + 1000000 * (sliceAt s i).drainMs ≤ s.tm.ns → s.hob.flight = [] → s.ile.orig = [] →
    s.ile.sendq = [] → exec (.drainTimeout i) s = .next (setSlice s i { sliceAt s i with squash := true, since := s.tm.ns }))
  ∧ (∀ (i : Nat) (s : State), (sliceAt s i).resetting = true → (sliceAt s i).squash = true → hobUp s = true → sliceQuiet s i = false →
    (sliceAt s i).since + 1000000 * (sliceAt s i).squashMs ≤ s.tm.ns → s.flt.running = [] →
    s.flt.history = [] →
    (∀ p, hangPort s i = some p → (∀ d ∈ rungDomains 1 p, epochOf s d ≠ 0xFFFFFFFF#32) → ∃ t, exec (.squashTimeout i) s = .next t
        ∧ t.flt.running = [{ rung := 1, port := p, phase := .requested, cls := Flc.sliceHang, start := StartIn.plain }] ∧ t.hob = s.hob)
    ∧ (hangPort s i = none → (∀ d ∈ rungDomains 3 0, epochOf s d ≠ 0xFFFFFFFF#32) → ∃ t, exec (.squashTimeout i) s = .next t
        ∧ t.flt.running = [{ rung := 3, port := 0, phase := .requested, cls := Flc.sliceHang, start := StartIn.plain }] ∧ t.hob = s.hob
        ∧ t.gen.irqStatus.getLsbD 8 = true))

/-- The reset rungs (11 R339 to R347; 09 R305). -/
def Obligations.ResetsRun : Prop :=
  (∀ (w : Nat) (s : State), s.gen.released = true → watchCan s w = true → s.flt.running = [] → s.flt.history = [] → s.flt.queue.length < 256 →
    (∀ d ∈ rungDomains (watchRung w) w, epochOf s d ≠ 0xFFFFFFFF#32) →
    ∃ t r, exec (.watchdogHang w) s = .next t ∧ t.flt.queue = s.flt.queue ++ [r] ∧ r.cls = Flc.hang ∧ r.unit = watchUnit w ∧ r.loc = w
      ∧ r.reason = Rsn.resetAbort ∧ r.action = watchRung w + 4
      ∧ t.flt.running = [{ rung := watchRung w, port := if watchRung w = 1 then w else 0, phase := .requested, cls := Flc.hang, start := StartIn.plain,
                           due := rungDue s (watchRung w) }])
  ∧ (∀ (q : Nat) (s : State), s.gen.released = true → portPresent s q = true → s.flt.coldReq = false → s.flt.running = [] → s.flt.history = [] →
    (coreDown s = true → s.flt.portWait = [] → exec (.portReset q) s = .next { s with flt := { s.flt with portWait := [(q, 0xFF)] } })
    ∧ (epochOf s (2 + q) ≠ 0xFFFFFFFF#32 → mayRelease s q = true → (domAt s (2 + q)).inReset = false → (4 ≤ q → failHeld s (q - 4) = false) →
    ∃ t, exec (.portReset q) s = .next t ∧ t.flt.running = [{ rung := 1, port := q, phase := .restart, cls := 0xFF, start := StartIn.plain, due := rungDue s 1 }]
      ∧ epochOf t (2 + q) = epochOf s (2 + q) + 1#32 ∧ (domAt t (2 + q)).inReset = false ∧ (∀ d, d ≠ 2 + q → epochOf t d = epochOf s d)
      ∧ (q < 4 → (memPin t q).init = true ∧ (memPin t q).trained = false
          ∧ t.ime.ents = s.ime.ents.map fun e =>
              if e.port = q ∧ e.phase = .readOut then { e with phase := .ready }
              else if e.port = q ∧ e.phase = .writeOut then { e with phase := .writeReady } else e)
      ∧ (4 ≤ q → (lportAt t (q - 4)).session = 0 ∧ t.ime = s.ime)))
  ∧ (∀ s : State, s.gen.released = true → s.flt.coldReq = false → (domAt s 1).clockLost = false → s.flt.running = [] → s.flt.history = [] →
    epochOf s 1 ≠ 0xFFFFFFFF#32 → s.gen.chrBusy = false →
    ∃ t, exec .hostReset s = .next t ∧ t.flt.running = [] ∧ epochOf t 1 = epochOf s 1 + 1#32 ∧ hostDown t = false
      ∧ t.hob = { Hob.reset with orphans := s.hob.orphans + (s.hob.flight.filter fun f => f.2.stage == .dispatched && crOp f.2.record != 5).length, nextFlight := s.hob.nextFlight }
      ∧ t.gen.irqStatus = 0#32 ∧ t.gen.irqEnable = s.gen.irqEnable ∧ t.key = s.key ∧ t.ime = s.ime ∧ t.ile = s.ile ∧ t.sre = s.sre ∧ t.bce = s.bce)
  ∧ (∀ (e : StartIn) (s : State), s.gen.released = true → s.flt.coldReq = false → s.flt.running = [] → s.flt.history = [] →
    (∀ d, d < 26 → epochOf s d ≠ 0xFFFFFFFF#32) → s.bce.cuts = [] → s.bce.jobs = [] → Safety.imeQuiet s → s.ile.orig = [] → s.ile.sendq = [] →
    ∀ c ∈ [(Instr.coreWarmReset e, 3), (.blockWarmRecovery e, 4)],
      ∃ t, exec c.1 s = .next t ∧ t.flt.running = [{ rung := c.2, port := 0, phase := .drain, cls := 0xFF, start := e, due := rungDue s c.2, drainBy := drainDue s }]
        ∧ t.flt.recovery = s.flt.recovery + (if c.2 = 4 then 1 else 0) ∧ t.gen.irqStatus = s.gen.irqStatus ||| 0x100#32
        ∧ t.hob = { s.hob with flight := s.hob.flight.map fun x =>
            (x.1, { x.2 with untilCore := x.2.untilCore || (x.2.stage == .ended && x.2.reason == Bc.jobAbandoned) }) } ∧ t.ime = s.ime
        ∧ t.dom = s.dom ∧ t.out = s.out)
  ∧ (∀ s : State, s.gen.released = true → s.flt.coldReq = false → s.flt.running = [] → s.flt.history = [] → s.key.tampered = false →
    ∃ t, exec (.coldStartRequest true) s = .next t ∧ t.pin.coldreq = true ∧ t.flt.coldReq = true ∧ t.gen.released = false ∧ t.gen.ready = false
      ∧ (∀ d, d < 26 → (domAt t d).inReset = true) ∧ t.flt.dumpDue = false
      ∧ (tget t.flash.dumps s.flt.dumpNext).map (fun d => (d.cause, d.time)) = some (4, s.tm.aclk))
  ∧ (∀ (r : Running) (s : State), s.flt.running = [r] → r.due ≤ s.tm.ns → 0 < r.rung → r.rung < 5 → s.flt.history = [] → s.flt.queue.length < 256 →
    (∀ d, d < 26 → epochOf s d ≠ 0xFFFFFFFF#32) →
    ∃ t x, exec (.rungTimerExpiry r.rung r.port) s = .next t
      ∧ t.flt.running = [{ rung := nextRung r.rung, port := 0, phase := .requested, cls := Flc.resetHang, start := StartIn.plain,
                           due := rungDue s (nextRung r.rung) }]
      ∧ t.flt.queue = s.flt.queue ++ [x] ∧ x.cls = Flc.resetHang ∧ x.unit = 6)
  ∧ (∀ (r : Running) (s : State), s.flt.running = [r] → r.phase = .drain → s.gen.released = true → s.ile.resident = [] → s.ime.ents = [] →
    s.ime.blks = [] → s.ime.dirty = [] →
    (r.rung = 3 → s.flt.portWait = [] → s.hob.cmdWait = none → (domAt s 0).clockLost = true →
      ∃ t, exec .quiesceDrainDone s = .next t ∧ t.flt.running = [{ r with phase := .restart }] ∧ coreDown t = true ∧ epochOf t 0 = epochOf s 0
        ∧ t.ile.orig = [] ∧ t.sre.colls = [] ∧ t.bce.jobs = [] ∧ t.key.dkc = [])
    ∧ (r.rung = 3 → s.flt.portWait = [] → s.hob.cmdWait = none → (domAt s 0).clockLost = false → (∀ d, 2 ≤ d → d < 26 → (domAt s d).inReset = false) →
      ∃ t, exec .quiesceDrainDone s = .next t ∧ t.flt.running = [] ∧ epochOf t 0 = epochOf s 0 + 1#32 ∧ coreDown t = false
        ∧ (∀ d, d ≠ 0 → epochOf t d = epochOf s d) ∧ t.flt.coreResets = s.flt.coreResets + 1 ∧ t.gen.ready = false ∧ t.gen.lastStart = 3
        ∧ t.key.slots = s.key.slots ∧ t.key.dkc = [] ∧ t.key.drbgUp = false ∧ t.ile.orig = [] ∧ t.ile.ingress = [] ∧ t.sre.colls = [] ∧ t.sre.launch = []
        ∧ t.sre.groups = s.sre.groups ∧ t.bce.jobs = [] ∧ t.bce.cuts = [] ∧ t.hob.queues = s.hob.queues ∧ t.ime.cat = s.ime.cat ∧ t.att.contEvent = 1)
    ∧ (r.rung = 4 → ((memPortsOf s).any fun p => (memPin s p).init) = true →
      ∃ t, exec .quiesceDrainDone s = .next t ∧ t.flt.running = [{ r with phase := .selfRefresh }] ∧ t.hob = s.hob ∧ t.dom = s.dom
        ∧ ∀ p ∈ memPortsOf s, (memPin s p).init = true → (memPin t p).srReq = true ∧ (memPin t p).srAck = false))

/-- Crash dumps, the annals logger and the power-on hours (11 R332, R333, R348 to R351; 14 R442). Which operation a grant row fails is the
model's choice (log 73). -/
def Obligations.DumpsAnnalsHours : Prop :=
  (∀ s : State, Safety.admitted s 0x10010 → s.flt.queue.length < 256 →
    (s.key.tampered = false →
      ∃ t d r, exec .dumpTake s = .next t ∧ t.flt.dump = some d ∧ d.cause = 5 ∧ d.time = s.tm.aclk ∧ d.hours = s.flt.hours ∧ d.boot = s.flash.boot
        ∧ d.recovery = s.flt.recovery ∧ t.flt.dumpDue = true ∧ t.flt.queue = s.flt.queue ++ [r] ∧ r.cls = Flc.dump ∧ t.flash.dumps = s.flash.dumps)
    ∧ (s.key.tampered = true → exec .dumpTake s = .next (Safety.okay s)))
  ∧ (∀ (u got : Nat) (d : Dump) (s : State), s.flt.dump = some d → s.flt.dumpDue = true →
    ∃ t, exec (.dumpUnitTimeout u got) s = .next t ∧ t.flash = s.flash ∧ t.gen = s.gen
      ∧ ∃ e, t.flt.dump = some e ∧ e.cause = d.cause ∧ e.secs.length = d.secs.length
        ∧ ∀ x ∈ d.secs, (x.unit ≠ u ∨ x.status = 3 → x ∈ e.secs)
          ∧ (x.unit = u → x.status ≠ 3 → ∃ y ∈ e.secs, y.unit = u ∧ y.status = (if got = 0 then 1 else 2) ∧ y.words = x.words.take (got / 8 * 2)))
  ∧ (∀ (d : Dump) (s : State), s.flt.dump = some d → s.flt.dumpDue = true → quiescing s = false → s.pin.pwrok = true →
    (∃ t, exec (.dumpCopy true) s = .next t ∧ t.flt.dumpDue = false ∧ t.flt.dumpReady = true ∧ t.flt.dumpNext = 1 - s.flt.dumpNext
      ∧ tget t.flash.dumps s.flt.dumpNext = some d ∧ t.gen.irqStatus = s.gen.irqStatus ||| 0x100#32 ∧ t.flt.dump = some d)
    ∧ (s.flt.queue.length < 256 → ∃ t r, exec (.dumpCopy false) s = .next t ∧ t.flt.dumpDue = false ∧ t.flt.dumpReady = s.flt.dumpReady
      ∧ t.flash.dumps = s.flash.dumps ∧ t.flt.queue = s.flt.queue ++ [r] ∧ r.cls = Flc.flashFail))
  ∧ (∀ (r : FaultRec) (q : List FaultRec) (s : State), s.flt.queue = r :: q → s.flt.stalled = [] → s.pin.pwrok = true →
    (exec (.annalsWrite true) s = .next { s with
      flt := { s.flt with queue := q }
      flash := { s.flash with rings := tput s.flash.rings r.unit ((r :: dget [] s.flash.rings r.unit).take 1024) }
      out := s.out ++ [.flashOp "annals record"] })
    ∧ (s.flt.queue.length < 256 → ∀ c ∈ [Instr.annalsWrite false, .flashGrantTimeout, .flashGrantLost],
        (c = .annalsWrite false ∨ (s.gen.load = none ∧ s.flt.dumpDue = false)) →
        ∃ t x, exec c s = .next t ∧ t.flt.queue = s.flt.queue ++ [x] ∧ x.cls = Flc.flashFail ∧ t.flash.rings = s.flash.rings)
    ∧ (∀ d, s.flt.queue.length < 256 → s.gen.load = none → s.flt.dump = some d → s.flt.dumpDue = true → quiescing s = false →
        ∀ c ∈ [Instr.flashGrantTimeout, .flashGrantLost],
          ∃ t x, exec c s = .next t ∧ t.flt.dumpDue = false ∧ t.flt.queue = s.flt.queue ++ [x] ∧ x.cls = Flc.flashFail ∧ t.flash.dumps = s.flash.dumps
            ∧ t.flash.rings = s.flash.rings))
  ∧ (∀ s : State, s.pin.pwrok = true →
    (exec (.hourTick true) s = .next { s with
      flt := { s.flt with hours := s.flt.hours + 1 }, flash := { s.flash with hours := s.flt.hours + 1 }, out := s.out ++ [.flashOp "hours"] })
    ∧ ∃ t, exec (.hourTick false) s = .next t ∧ t.flt.hours = s.flt.hours + 1 ∧ t.flash = s.flash)

/-- The signer's requests (12 R363 to R368; 15 R471). The layout of the messages is the model's (log 75), a nonce a free value (log 3). -/
def Obligations.SignerAnswers : Prop :=
  (∀ (b : Bool) (q : List Byte) (s : State) (m : Mbx), Safety.asked s b q → m = mbxOf s b →
    (fld q 0 1 = 0x10 → fld q 1 1 = 0x84 → q.length = 4 →
      ∃ t r, exec (.getVersion b) s = .next t
        ∧ r = leBytes 1 0x10 ++ leBytes 1 0x04 ++ zeros 3 ++ leBytes 1 ((List.range 16).filter fun n => bit (spdmOffer s) n).length
            ++ ((List.range 16).filter fun n => bit (spdmOffer s) n).flatMap (fun n => leBytes 2 (0x1000 + n * 0x100))
        ∧ Safety.replied s t b r { m with version := 0, caps := false, algs := false, vca := q ++ r, meas := [], auth := [] })
    ∧ (∀ v, v = fld q 0 1 → fld q 1 1 = 0xE1 → m.vca ≠ [] → m.caps = false → v / 16 = 1 → bit (spdmOffer s) (v % 16) = true →
        q.length = (if v = 0x11 then 12 else 20) →
        ∃ t r, exec (.getCapabilities b) s = .next t ∧ r.take 12 = leBytes 1 v ++ leBytes 1 0x61 ++ zeros 3 ++ leBytes 1 15 ++ zeros 2 ++ leBytes 4 (capFlags s)
          ∧ Safety.replied s t b r { m with version := v % 16, caps := true, vca := m.vca ++ q ++ r })
    ∧ (fld q 1 1 = 0xE3 → m.vca ≠ [] → m.caps = true → m.algs = false → fld q 0 1 = 0x10 + m.version → 32 ≤ q.length → fld q 4 2 = q.length →
        (bit (fld q 6 1) 0 = true → bit (fld q 8 4) 7 = true → bit (fld q 12 4) 1 = true →
        ∃ t r, exec (.negotiateAlgorithms b) s = .next t
          ∧ r = leBytes 1 (0x10 + m.version) ++ leBytes 1 0x63 ++ zeros 2 ++ leBytes 2 36 ++ leBytes 1 1 ++ zeros 1 ++ leBytes 4 4 ++ leBytes 4 0x80
              ++ leBytes 4 2 ++ zeros 16
          ∧ Safety.replied s t b r { m with algs := true, vca := m.vca ++ q ++ r })
        ∧ (bit (fld q 6 1) 0 = false ∨ bit (fld q 8 4) 7 = false ∨ bit (fld q 12 4) 1 = false →
          ∃ t, exec (.negotiateAlgorithms b) s = .next t ∧ Safety.replied s t b (leBytes 1 (0x10 + m.version) ++ leBytes 1 0x7F ++ leBytes 1 1 ++ leBytes 1 0) m))
    ∧ (∀ (d : BitVec 384) (c : List Byte), identity s = some d → m.vca ≠ [] → m.caps = true → m.algs = true → fld q 0 1 = 0x10 + m.version →
        chainOf s = some c →
        (fld q 1 1 = 0x81 →
          ∃ t r, exec (.getDigests b) s = .next t ∧ r = leBytes 1 (0x10 + m.version) ++ leBytes 1 1 ++ zeros 1 ++ leBytes 1 1 ++ shaBytes c
            ∧ Safety.replied s t b r { m with auth := m.auth ++ q ++ r, meas := [] })
        ∧ (∀ n, n = min (fld q 6 2) (min 4088 (c.length - fld q 4 2)) → fld q 1 1 = 0x82 → q.length = 8 → fld q 2 1 = 0 → fld q 4 2 < c.length →
          ∃ t r, exec (.getCertificate b) s = .next t
            ∧ r = leBytes 1 (0x10 + m.version) ++ leBytes 1 2 ++ zeros 2 ++ leBytes 2 n ++ leBytes 2 (c.length - fld q 4 2 - n) ++ slice c (fld q 4 2) n
            ∧ Safety.replied s t b r { m with auth := m.auth ++ q ++ r, meas := [] })
        ∧ (fld q 1 1 = 0x83 → q.length = 36 → fld q 2 1 = 0 → fld q 3 1 = 0 →
          ∃ t r n, exec (.challenge b) s = .next t
            ∧ r = leBytes 1 (0x10 + m.version) ++ leBytes 1 3 ++ leBytes 1 0 ++ leBytes 1 1 ++ shaBytes c ++ leBytes 32 n ++ zeros 2
            ∧ Safety.replied s t b (r ++ bytes96 (Config.ecdsaSign d (spdmSigned m.version "responder-challenge_auth signing" (m.vca ++ m.auth ++ q ++ r)) 0))
                { m with auth := [], meas := [] })
        ∧ (fld q 1 1 = 0xE0 → q.length = 37 → fld q 2 1 = 1 → fld q 3 1 = 1 → fld q 36 1 = 0 →
          ∃ t r n, exec (.getMeasurements b) s = .next t
            ∧ r = leBytes 1 (0x10 + m.version) ++ leBytes 1 0x60 ++ leBytes 1 0 ++ leBytes 1 0 ++ leBytes 1 1 ++ leBytes 3 (measBlock s 1).length
                ++ measBlock s 1 ++ leBytes 32 n ++ zeros 2
            ∧ Safety.replied s t b (r ++ bytes96 (Config.ecdsaSign d (spdmSigned m.version "responder-measurements signing"
                ((if m.version < 2 then [] else m.vca) ++ m.meas ++ q ++ r)) 0)) { m with auth := [], meas := [] }))
    ∧ (m.vca ≠ [] → m.caps = true → m.algs = true → fld q 0 1 = 0x10 + m.version → fld q 1 1 = 0xE0 → q.length = 4 → bit (fld q 2 1) 0 = false →
        (fld q 2 1 ≠ 0 → ∃ t, exec (.getMeasurements b) s = .next t
          ∧ Safety.replied s t b (leBytes 1 (0x10 + m.version) ++ leBytes 1 0x7F ++ leBytes 1 1 ++ leBytes 1 0) m)
        ∧ (fld q 2 1 = 0 → fld q 3 1 = 0 →
        ∃ t r n, exec (.getMeasurements b) s = .next t
          ∧ r = leBytes 1 (0x10 + m.version) ++ leBytes 1 0x60 ++ leBytes 1 16 ++ leBytes 1 0 ++ leBytes 1 0 ++ leBytes 3 0 ++ leBytes 32 n ++ zeros 2
          ∧ Safety.replied s t b r { m with meas := m.meas ++ q ++ r, auth := [] }))
    ∧ (identity s = none → ∀ c ∈ [(Instr.getDigests b, 0x81), (.getCertificate b, 0x82), (.challenge b, 0x83)], fld q 1 1 = c.2 →
        ∃ t, exec c.1 s = .next t ∧ Safety.replied s t b (leBytes 1 (0x10 + m.version) ++ leBytes 1 0x7F ++ leBytes 1 5 ++ leBytes 1 (keyState s)) m)
    ∧ (spdmCodes.contains (fld q 1 1) = false →
        ∃ t, exec (.spdmUnsupported b) s = .next t ∧ Safety.replied s t b
          (if (identity s).isSome then leBytes 1 (0x10 + m.version) ++ leBytes 1 0x7F ++ leBytes 1 7 ++ leBytes 1 (fld q 1 1)
           else leBytes 1 (0x10 + m.version) ++ leBytes 1 0x7F ++ leBytes 1 5 ++ leBytes 1 (keyState s)) m))
  ∧ (∀ (v : Word) (s : State), Safety.admitted s 0x11040 →
    (s.att.mbxCtl.busy = false → s.att.mbxCtl.rspReady = false → 1 ≤ bits v.toNat 0 13 → bits v.toNat 0 13 ≤ 4096 → bit v.toNat 31 = true → s.att.mbxOrder = [] →
      exec (.mbxSend v) s = .next (Safety.okay { s with att := { s.att with
        mbxCtl := { s.att.mbxCtl with busy := true, reqLen := bits v.toNat 0 13 }, mbxOrder := [(false, s.tm.aclk)] } }))
    ∧ exec .mbxRelease s = .next (Safety.okay { s with att := { s.att with mbxCtl := { s.att.mbxCtl with rspReady := false } } }))

/-- The roster and the appointment (12 R376 to R380, R391, R392). -/
def Obligations.RosterKept : Prop :=
  (∀ (m m1 : MemIn) (b : List Byte) (s s1 : State), Safety.attTakes s true m b s1 m1 →
    (∀ (n : BitVec 256) (s2 s3 : State), drbgServes s1 = true → drbgTake 256 s1 = (n, s2) → Safety.attPuts s2 b (leBytes 32 n.toNat) m1 s3 →
      exec (.enlistNonce m) s = .next (Safety.attEnds { s3 with att := { s3.att with
        nonces := (s2.att.nonces ++ [(leBytes 32 n.toNat, s2.tm.ns + 10000000000)]).drop (s2.att.nonces.length + 1 - 64) } } 0#8 0))
    ∧ (∀ e, aoArg b < 16384 → tget s1.ile.roster (aoArg b) = some e →
      ∃ u, exec (.delist m) s = .next u ∧ u.att.cmdCode = 0#8 ∧ u.att.cmdBusy = false ∧ u.att.rosterEpoch = s1.att.rosterEpoch + 1
        ∧ u.ile.roster = tdel s1.ile.roster (aoArg b)
        ∧ ((∀ p ∈ lnkPortsOf s1, (lportAt s1 p).st = .down → (lportAt s1 p).fail ≠ 7) → u = Safety.attEnds { s1 with
          ile := { s1.ile with roster := tdel s1.ile.roster (aoArg b) }, att := { s1.att with rosterEpoch := s1.att.rosterEpoch + 1 } } 0#8 0))
    ∧ exec (.lockAdmission m) s = .next (Safety.attEnds { s1 with
        att := { s1.att with locked := true, rosterEpoch := s1.att.rosterEpoch + if s1.att.locked then 0 else 1 } } 0#8 0)
    ∧ (∀ (d : BitVec 384) (s2 : State), identity s1 = some d → s1.ile.roster ≠ [] →
      Safety.attPuts s1 b (rosterBody s1 ++ bytes96 (Config.ecdsaSign d (rosterBody s1) 0)) m1 s2 →
      exec (.rosterSign m) s = .next (Safety.attEnds s2 0#8 0)))
  ∧ (∀ (i : Nat) (x : List Byte × Nat) (s : State), s.att.nonces[i]? = some x → exec (.enlistNonceExpire i) s = .next (
    if x.2 ≤ s.tm.ns then { s with att := { s.att with nonces := s.att.nonces.eraseIdx i } } else s))
  ∧ (∀ (m m1 : MemIn) (b c : List Byte) (v : Nat) (t : Tbl (List Byte)) (s s1 s2 : State), Safety.attTakesIn s true m b c s1 m1 →
    32 ≤ aoLen b → aoLen b ≤ 8192 → capParse s1 c = some (v, t) →
    s2 = { s1 with att := { s1.att with nonces := s1.att.nonces.filter fun x => x.1 != slice (capReq c) 4 32 } } →
    ∃ u, exec (.enlist m) s = .next u
      ∧ ((∀ x ∈ s1.att.nonces, x.1 = slice (capReq c) 4 32 → x.2 ≤ s1.tm.ns) → u = Safety.attEnds s2 Ac.nonceStale 0)
      ∧ (∀ x ∈ s1.att.nonces, x.1 = slice (capReq c) 4 32 → s1.tm.ns < x.2 →
        (enlistChecks s2 c v t ≠ 0#8 → u = Safety.attEnds s2 (enlistChecks s2 c v t) 0)
        ∧ (enlistChecks s2 c v t = 0#8 →
          u.att.cmdCode = 0#8 ∧ u.att.cmdBusy = false ∧ u.att.nonces = s2.att.nonces
          ∧ ∃ ix e, enlistIndex s2 (capInst t) = some ix ∧ tget u.ile.roster ix = some e ∧ e.inst = capInst t ∧ e.kind = capKind t
            ∧ u.att.admitted[e.admitted]? = some (admissionDigest t) ∧ ix < u.att.nextIx ∧ ∀ j, j ≠ ix → tget u.ile.roster j = tget s1.ile.roster j)))
  ∧ (∀ (m m1 : MemIn) (b r : List Byte) (s s1 : State), Safety.attTakesIn s false m b r s1 m1 → 168 < aoLen b → aoLen b ≤ 525216 →
    rosterOk r = true → appointFits s1 r 8 0x10 0x18 = true →
    ∃ t, exec (.rosterLoad m) s = .next t
      ∧ (sigOk (archivistPub s1) (r.take (r.length - 96)) (r.drop (r.length - 96)) = false → t = Safety.attEnds s1 Ac.capsuleAuth 0)
      ∧ (sigOk (archivistPub s1) (r.take (r.length - 96)) (r.drop (r.length - 96)) = true →
        (fld r 0x14 4 < s1.att.rosterEpoch → t = Safety.attEnds s1 Ac.rosterStale 0)
        ∧ (s1.att.rosterEpoch ≤ fld r 0x14 4 →
          t.att.cmdCode = 0#8 ∧ t.att.cmdBusy = false ∧ t.ile.roster = rosterTable r ∧ t.att.rosterEpoch = fld r 0x14 4
          ∧ t.att.listed = (rosterTable r).any (fun x => x.2.inst == instId s1) ∧ t.att.locked = (s1.att.locked || bit (fld r 0x20 1) 0)
          ∧ t.att.admitted = (List.range (fld r 5 1)).map fun k => slice r (0x40 + 48 * k) 48)))
  ∧ (∀ (m m1 : MemIn) (b r : List Byte) (s s1 : State), Safety.attTakesIn s false m b r s1 m1 → aoLen b = 224 →
    fld r 0 4 = 0x54505041 → fld r 4 1 = 1 → zeroBytes (slice r 5 3) = true → zeroBytes (slice r 0x14 4) = true →
    ∃ t, exec (.appoint m true) s = .next t
      ∧ (fld r 8 8 = 0 ∨ fld r 8 8 ≠ domainId s1 ∨ fld r 0x10 4 ≤ fld (appointment s1) 0x10 4 → t = Safety.attEnds s1 Ac.appointStale 0)
      ∧ (fld r 8 8 ≠ 0 → fld r 8 8 = domainId s1 → fld (appointment s1) 0x10 4 < fld r 0x10 4 →
        (Config.onCurve (b768 (slice r 0x20 96)) = false → t = Safety.attEnds s1 Ac.endorseFail 0)
        ∧ (∀ k, Config.onCurve (b768 (slice r 0x20 96)) = true → instanceOf (b768 (slice r 0x20 96)) = fld r 0x18 8 →
          s1.lcs.st = 2 ∨ s1.lcs.st = 3 → roleKey s1 3 = some k → sigOk k (r.take 0x80) (slice r 0x80 96) = true → accRoom s1 false = 0#8 →
          t.att.cmdCode = 0#8 ∧ t.att.cmdBusy = false ∧ t.flash.appoint = some r ∧ t.ile.roster = [] ∧ t.att.admitted = [] ∧ t.att.locked = false
            ∧ t.att.listed = false ∧ t.att.rosterEpoch = 0 ∧ t.att.rekeyEpoch = 0 ∧ t.lcs.accCount = s1.lcs.accCount + 1)))

/-- Records, notices and certificates (12 R367, R369, R375, R381 to R383). -/
def Obligations.TenantKeysIssued : Prop :=
  (∀ (m m1 : MemIn) (b nonce c : List Byte) (s s1 s2 s3 : State), Safety.attTakesIn s false m b nonce s1 m1 → aoLen b = 32 → (identity s1).isSome = true →
    capsule s1 nonce = (c, s2) → Safety.attPuts s2 b c m1 s3 → exec (.colophon m) s = .next (Safety.attEnds s3 0#8 0))
  ∧ (∀ (m m1 : MemIn) (b kex r : List Byte) (e : RosterEnt) (i h gen : Nat) (v : Slot) (mk : Masks) (k : BitVec 256) (s s1 s2 s3 : State),
    Safety.attTakesIn s true m b kex s1 m1 → aoLen b = 96 → aoArg b < 16384 → bits (aoArg2 b) 9 7 = 0 → aoArg2 b < 2 ^ 17 → s1.att.locked = true →
    tget s1.ile.roster (aoArg b) = some e → e.kind = 0 → slotFor s1 (bits (aoArg2 b) 0 9) 0 = some i → slotAt s1 i = some v →
    wrapHalf v (bit (aoArg2 b) 16) = some (h, mk, gen) → halfKey s1 i h = some k → drbgServes s1 = true →
    wrapRecord s1 1 (bits (aoArg2 b) 0 9) gen mk kex k = (r, s2) → Safety.attPuts s2 b r m1 s3 →
    exec (.wrapDomain m) s = .next (if (shaBytes kex).take 16 = e.kex then Safety.attEnds s3 0#8 0 else Safety.attEnds s1 Ac.kexMismatch 0))
  ∧ (∀ (m m1 : MemIn) (b kex r0 r1 : List Byte) (e0 e1 : RosterEnt) (i : Nat) (k : BitVec 256) (s s1 s2 s3 s4 s5 : State),
    Safety.attTakesIn s true m b kex s1 m1 → aoLen b = 192 → bits (aoArg b) 14 2 = 0 → aoArg b < 2 ^ 30 → bits (aoArg2 b) 9 23 = 0 → s1.att.locked = true →
    tget s1.ile.roster (bits (aoArg b) 0 14) = some e0 → e0.kind = 0 → tget s1.ile.roster (bits (aoArg b) 16 14) = some e1 → e1.kind = 0 →
    slotFor s1 (bits (aoArg2 b) 0 9) 0 = some i → drbgServes s1 = true → drbgTake 256 s1 = (k, s2) →
    wrapRecord s2 2 (bits (aoArg2 b) 0 9) (bits (aoArg2 b) 32 32) pairMasks (kex.take 96) k = (r0, s3) →
    wrapRecord s3 2 (bits (aoArg2 b) 0 9) (bits (aoArg2 b) 32 32) pairMasks (kex.drop 96) k = (r1, s4) → Safety.attPuts s4 b (r0 ++ r1) m1 s5 →
    exec (.genPair m) s = .next (
      if (shaBytes (kex.take 96)).take 16 ≠ e0.kex then Safety.attEnds s1 Ac.kexMismatch 0
      else if (shaBytes (kex.drop 96)).take 16 ≠ e1.kex then Safety.attEnds s1 Ac.kexMismatch 1
      else Safety.attEnds s5 0#8 0))
  ∧ (∀ (m m1 : MemIn) (b : List Byte) (d : BitVec 384) (s s1 s2 : State), Safety.attTakes s true m b s1 m1 → identity s1 = some d →
    Safety.attPuts s1 b (noticeBody s1 ++ bytes96 (Config.ecdsaSign d (noticeBody s1) 0)) m1 s2 →
    exec (.rekeyIssue m) s = .next (Safety.attEnds
      ((lnkPortsOf s2).foldl startRekey { s2 with att := { s2.att with rekeyEpoch := s2.att.rekeyEpoch + 1 } }) 0#8 0))
  ∧ (∀ (m m1 : MemIn) (b r : List Byte) (s s1 : State), Safety.attTakesIn s false m b r s1 m1 → aoLen b = 128 → fld r 0 4 = 0x594B4552 → fld r 4 1 = 1 →
    zeroBytes (slice r 5 3) = true → appointFits s1 r 8 0x10 0x18 = true →
    exec (.rekeyApply m) s = .next (
      if sigOk (archivistPub s1) (r.take 0x20) (slice r 0x20 96) = false then Safety.attEnds s1 Ac.capsuleAuth 0
      else if fld r 0x14 4 ≤ s1.att.rekeyEpoch then Safety.attEnds s1 Ac.rosterStale 0
      else Safety.attEnds ((lnkPortsOf s1).foldl startRekey { s1 with att := { s1.att with rekeyEpoch := fld r 0x14 4 } }) 0#8 0))
  ∧ (∀ (m m1 : MemIn) (b r k : List Byte) (p : BitVec 768) (s s1 : State), Safety.attTakesIn s false m b r s1 m1 → aoLen b = 112 →
    fld r 0 1 = 1 ∨ fld r 0 1 = 2 → zeroBytes (slice r 1 15) = true → s1.key.idPub = some p → roleKey s1 (fld r 0 1) = some k →
    (identity s1).isSome = true → s1.lcs.st = fld r 0 1 → accRoom s1 false = 0#8 →
    ∃ t, exec (.endorse m true) s = .next t
      ∧ (sigOk k (bytes96 p ++ leBytes 8 (serialOf s1.fuse.shadow)) (slice r 16 96) = false → t = Safety.attEnds s1 Ac.endorseFail 0)
      ∧ (sigOk k (bytes96 p ++ leBytes 8 (serialOf s1.fuse.shadow)) (slice r 16 96) = true →
        t.att.cmdCode = 0#8 ∧ t.att.cmdBusy = false ∧ t.gen.irqStatus.getLsbD 6 = true ∧ t.flash.endorse = some r
          ∧ t.lcs.accCount = s1.lcs.accCount + 1 ∧ t.key = s1.key ∧ t.fuse = s1.fuse))
  ∧ (∀ (ok : Bool) (m m1 : MemIn) (b c : List Byte) (p : BitVec 768) (s s1 : State), Safety.attTakesIn s false m b c s1 m1 → 1 ≤ aoLen b →
    aoLen b ≤ 16384 → (identity s1).isSome = true → s1.key.idPub = some p → aoArg b < 2 ^ 32 → slice c (aoArg b) 97 = 0x04#8 :: bytes96 p →
    ∃ t, exec (.certStore m ok) s = .next t ∧ t.att.cmdBusy = false ∧ t.att.cmdCode = (if ok then 0#8 else Ac.attFlashFailed)
      ∧ t.flash.certChain = (if ok then some (leBytes 4 (aoArg b) ++ c) else s1.flash.certChain) ∧ t.lcs = s1.lcs ∧ t.key = s1.key)

/-- Firmware measurements (12 R371, R372). -/
def Obligations.FirmwareMeasured : Prop :=
  (∀ (stage ok : Bool) (m m1 m2 : MemIn) (b st img : List Byte) (s s1 s2 : State), Safety.attTakesIn s false m b st s1 m1 → aoLen b = 176 →
    fwOk st = true → aoOutLen b = fwLen st → (tget s1.att.fwCur (fwComp st)).isSome = stage →
    ctlRead s1 (aoOutShelf b) (aoOutAddr b) (fwLen st) m1 = (.ok img, s2, m2) →
    ∃ t, exec (if stage then .fwStage m ok else .fwMeasure m ok) s = .next t
      ∧ (shaBytes img ≠ fwDigest st → t = Safety.attEnds s2 Ac.fwDigest 0)
      ∧ (shaBytes img = fwDigest st →
        (fwAuth s2 st = false → t = Safety.attEnds s2 Ac.fwAuth 0)
        ∧ (fwAuth s2 st = true →
          (∀ v, tget s2.att.fwCur (fwComp st) = some v → fwVersion st < v.version → t = Safety.attEnds s2 Ac.fwRollback 0)
          ∧ ((∀ v, tget s2.att.fwCur (fwComp st) = some v → v.version ≤ fwVersion st) → accRoom s2 false = 0#8 →
            t.att.cmdBusy = false
            ∧ (ok = true →
              t.att.cmdCode = 0#8 ∧ t.att.fwTag = (fwBind s2 st).getD 0#128 ∧ t.lcs.accCount = s2.lcs.accCount + 1
              ∧ (stage = true → t.att.fwCur = s2.att.fwCur
                ∧ t.att.fwStg = tput s2.att.fwStg (fwComp st) { version := fwVersion st, digest := fwDigest st })
              ∧ (stage = false → t.att.fwStg = s2.att.fwStg
                ∧ t.att.fwCur = tput s2.att.fwCur (fwComp st) { version := fwVersion st, digest := fwDigest st }))
            ∧ (ok = false → t.att.cmdCode = Ac.attFlashFailed ∧ t.att.fwCur = s2.att.fwCur ∧ t.att.fwStg = s2.att.fwStg ∧ t.lcs = s2.lcs
              ∧ t.flash.fwTags = s2.flash.fwTags ∧ t.flash.accession = s2.flash.accession)))))
  ∧ (∀ (m m1 : MemIn) (b : List Byte) (v : FwMeas) (s s1 : State), Safety.attTakes s false m b s1 m1 → aoArg b < 4 →
    tget s1.att.fwStg (aoArg b) = some v →
    exec (.fwActivate m) s = .next (Safety.attEnds { s1 with att := { s1.att with
      fwCur := tput s1.att.fwCur (aoArg b) v, fwStg := tdel s1.att.fwStg (aoArg b) } } 0#8 0)
    ∧ exec (.fwAbandon m) s = .next (Safety.attEnds { s1 with att := { s1.att with fwStg := tdel s1.att.fwStg (aoArg b) } } 0#8 0))

/-- The host link IDE key commands (12 R387 to R390). -/
def Obligations.HostLinkKeys : Prop :=
  (∀ (m m1 : MemIn) (b r : List Byte) (s s1 : State), Safety.attTakesIn s false m b r s1 m1 → aoLen b = 96 → (∀ k, k < 28 → ideState s1 k = 0) →
    exec (.ideBind m) s = .next (
      if Config.onCurve (b768 r) then Safety.attEnds { s1 with att := { s1.att with ideRecv := some (b768 r) } } 0#8 0
      else Safety.attEnds s1 Ac.attMalformed 0))
  ∧ (∀ (m m1 : MemIn) (b r body : List Byte) (d e : BitVec 384) (s s1 s2 s3 : State), Safety.attTakesIn s false m b r s1 m1 → aoLen b = 128 →
    identity s1 = some d → aoArg b < 28 → aoArg2 b < 256 → ideState s1 (aoArg b) ≠ 2 → drbgServes s1 = true → drbgTake 384 s1 = (e, s2) →
    body = ideReply s2 (aoArg b) (aoArg2 b) (r.take 96) (slice r 96 32) (bytes96 (Config.pubOf e)) →
    Safety.attPuts s2 b (body ++ bytes96 (Config.ecdsaSign d body 0)) m1 s3 →
    ∃ t, exec (.ideKeyex m) s = .next t
      ∧ (Config.onCurve (b768 (r.take 96)) = false → t = Safety.attEnds s1 Ac.attMalformed 0)
      ∧ (Config.onCurve (b768 (r.take 96)) = true →
        t.att.cmdCode = 0#8 ∧ t.att.cmdBusy = false ∧ t.gen.irqStatus.getLsbD 6 = true
        ∧ ideState t (aoArg b) = (if ideState s3 (aoArg b) = 0 then 1 else 2)
        ∧ (tget t.att.ide (aoArg b)).map (·.streamId) = some (aoArg2 b)
        ∧ ∀ j, j ≠ ideSlot (aoArg b) → slotAt t j = slotAt s3 j))
  ∧ (∀ (m m1 : MemIn) (b r : List Byte) (h : Nat) (recv : BitVec 768) (v : IdeStream) (s s1 s2 s3 : State), Safety.attTakes s false m b s1 m1 →
    aoArg b < 28 → aoArg2 b < 4 → ideHalf s1 (aoArg b) (bit (aoArg2 b) 0) = some h → s1.att.ideRecv = some recv → tget s1.att.ide (aoArg b) = some v →
    drbgServes s1 = true →
    ideRecord s1 (aoArg b) v.streamId (bits (aoArg2 b) 1 1) recv (ideKeys s1 (aoArg b) h v.streamId (bits (aoArg2 b) 1 1)) = (r, s2) →
    Safety.attPuts s2 b r m1 s3 →
    exec (.ideDeliver m) s = .next (Safety.attEnds { s3 with att := { s3.att with
      delivery := s3.att.delivery + 1, ide := tput s3.att.ide (aoArg b) { v with keySet := bits (aoArg2 b) 1 1 } } } 0#8 0))
  ∧ (∀ (m m1 : MemIn) (b : List Byte) (s s1 : State), Safety.attTakes s false m b s1 m1 → aoArg b < 28 →
    (∀ v mk, slotAt s1 (ideSlot (aoArg b)) = some v → v.staged = some mk →
      ∃ t w, exec (.ideSwitch m) s = .next t ∧ t.att.cmdCode = 0#8 ∧ t.att.cmdBusy = false ∧ slotAt t (ideSlot (aoArg b)) = some w
        ∧ w.genCur = v.genCur + 1 ∧ w.masks = mk ∧ w.staged = none ∧ w.prevLive = false ∧ halfOf w v.genCur = none
        ∧ halfOf w (v.genCur + 1) = halfOf v (v.genCur + 1))
    ∧ ∃ t, exec (.ideClose m) s = .next t ∧ t.att.cmdCode = 0#8 ∧ t.att.cmdBusy = false ∧ slotAt t (ideSlot (aoArg b)) = none
        ∧ tget t.att.ide (aoArg b) = none ∧ ∀ j, j ≠ ideSlot (aoArg b) → slotAt t j = slotAt s1 j)

/-- The life-cycle commands (13 R401 to R414; 14 R445). -/
def Obligations.LifeCycleActs : Prop :=
  (∀ (source : Bool) (m : MemIn) (b : List Byte) (s s1 : State), Safety.lcsTakes s source m b s1 → Safety.recordFits s1 b →
    (arAuth s1 b = false → exec (.transition source m true) s = .next (Safety.lcsEnds s1 Lc.lcsAuth))
    ∧ (arAction b = 1 → (s1.lcs.debug = true → s1.lcs.st = 0 ∨ s1.lcs.st = 4) → s1.key.bedrockFail = false →
      (¬(s1.lcs.st = 0 ∧ arArg b = 1) → accRoom s1 (decide (4 ≤ arArg b)) = 0#8 →
        ∃ t, exec (.transition source m true) s = .next t ∧ (arAuth s1 b = true →
          t.lcs.code = 0#8 ∧ t.lcs.cmdBusy = false ∧ t.gen.irqStatus.getLsbD 7 = true ∧ t.flash.intent.isSome = true ∧ t.lcs.intentPending = true
            ∧ t.lcs.st = s1.lcs.st ∧ t.lcs.accCount = s1.lcs.accCount + 1 ∧ 4 ≤ topRung t))
      ∧ (∀ (v : BitVec 256) (s2 : State), s1.lcs.st = 0 → arArg b = 1 → drbgServes s1 = true → t2Dirty s1.fuse.blown = false →
        drbgTake 256 s1 = (v, s2) →
        ∃ t, exec (.transition source m true) s = .next t ∧ (arAuth s1 b = true →
          t.lcs.cmdBusy = true ∧ t.lcs.act = some { record := b, bits := t2Bits b v.toNat, tries := 0, flashOk := true } ∧ t.lcs.st = 0
            ∧ t.fuse = s1.fuse)))
    ∧ (arAction b = 2 → accRoom s1 false = 0#8 →
      ∃ t, exec (.debugEnable source m true) s = .next t ∧ (arAuth s1 b = true →
        (Nat.land (arArg b) (scopesOf s1.lcs.st) ≠ arArg b → t = Safety.lcsEnds s1 Lc.debugLocked)
        ∧ (Nat.land (arArg b) (scopesOf s1.lcs.st) = arArg b →
          t.lcs.code = 0#8 ∧ t.lcs.cmdBusy = false ∧ t.gen.irqStatus.getLsbD 7 = true ∧ t.lcs.debugPending = true ∧ t.lcs.pendingScope = arArg b
            ∧ t.lcs.debug = s1.lcs.debug ∧ t.lcs.accCount = s1.lcs.accCount + 1 ∧ 4 ≤ topRung t)))
    ∧ (arAction b = 4 → floorCount s1.fuse.shadow < arArg b → arArg b ≤ floorEpoch s1 → accRoom s1 false = 0#8 →
      ∃ t, exec (.raiseFloor source m true) s = .next t ∧ (arAuth s1 b = true →
        t.lcs.cmdBusy = true ∧ t.lcs.accCount = s1.lcs.accCount + 1 ∧ t.fuse = s1.fuse
          ∧ t.lcs.act = some { record := b, bits := floorBits s1.fuse.shadow (arArg b), tries := 0, flashOk := true }))
    ∧ (arAction b = 5 → accRoom s1 false = 0#8 →
      ∃ t, exec (.clearStanding source m true) s = .next t ∧ (arAuth s1 b = true →
        t.lcs.code = 0#8 ∧ t.lcs.cmdBusy = false ∧ t.gen.irqStatus.getLsbD 7 = true ∧ t.lcs.accCount = s1.lcs.accCount + 1
          ∧ t.flash.standing = (if arArg b = 0xFFFF then [] else s1.flash.standing.eraseIdx (arArg b))
          ∧ t.flt.permanent = (s1.flt.permanent && !t.flash.standing.isEmpty))))
  ∧ (∀ s : State, Safety.admitted s 0x14000 → s.lcs.cmdBusy = false → coreDown s = false → s.lcs.intentPending = false → accRoom s false = 0#8 →
    ∃ t, exec (.debugDisable true) s = .next t ∧ t.lcs.code = 0#8 ∧ t.lcs.cmdBusy = false ∧ t.gen.irqStatus.getLsbD 7 = true
      ∧ t.lcs.debugPending = false ∧ t.lcs.pendingScope = 0 ∧ t.lcs.debug = s.lcs.debug ∧ t.lcs.accCount = s.lcs.accCount + 1 ∧ 4 ≤ topRung t)
  ∧ (∀ (a : LcsAct) (x : Nat) (rest : List Nat) (s : State), s.pin.pwrok = true → s.lcs.act = some a → a.bits = x :: rest →
    (rest ≠ [] ∨ arAction a.record ≠ 1 →
      ∃ t, exec (.fusePgmAck true) s = .next t ∧ t.fuse.blown = (s.fuse.blown ||| (1#8192 <<< x))
        ∧ (∀ i, t.fuse.shadow.getLsbD i = (s.fuse.shadow.getLsbD i || (decide (i / 32 = x / 32) && t.fuse.blown.getLsbD i)))
        ∧ (rest ≠ [] → t.lcs.act = some { a with bits := rest, tries := 0 } ∧ t.lcs.cmdBusy = true)
        ∧ (rest = [] → t.lcs.act = none ∧ t.lcs.cmdBusy = false ∧ t.lcs.code = 0#8 ∧ t.gen.irqStatus.getLsbD 7 = true))
    ∧ (a.tries < 7 →
      ∃ t, exec (.fusePgmAck false) s = .next t ∧ t.fuse.blown = s.fuse.blown ∧ t.lcs.act = some { a with tries := a.tries + 1 }
        ∧ t.lcs.cmdBusy = true)
    ∧ (rest = [] → arAction a.record = 1 → a.flashOk = true → accRoom s (decide (4 ≤ arArg a.record)) = 0#8 →
      ∃ t, exec (.fusePgmAck true) s = .next t ∧ t.lcs.code = 0#8 ∧ t.lcs.cmdBusy = false ∧ t.flash.intent.isSome = true
        ∧ t.lcs.intentPending = true ∧ t.lcs.accCount = s.lcs.accCount + 1 ∧ 4 ≤ topRung t))

/-- Register writes and commits (00 R10, R11; 14 R437 to R439; 15 R451 to R468). -/
def Obligations.RegisterWritesTake : Prop :=
  (∀ (o : BitVec 16) (v : Word) (m : MemIn) (s : State), s.pin.pwrok = true → ctlErr s (4 * o.toNat) true = 0 →
    (∀ x ∈ [(0x14, 0, 3), (0x48, 0, 24), (0x84, 0, 11), (0x1018, 0, 24), (0x1040, 0, 10), (0x2018, 0, 24), (0x4010, 0, 14), (0x8020, 0, 24),
        (0x8024, 0, 32), (0x8030, 0, 13), (0x8040, 0, 14), (0x10024, 16, 2), (0x10024, 0, 10), (0x11010, 0, 24), (0x14010, 0, 24), (0x14018, 0, 16)],
      4 * o.toNat = x.1 →
      ∃ t n, exec (.registerWrite o v m) s = .next t ∧ regValue t x.1 = some n ∧ bits n x.2.1 x.2.2 = bits v.toNat x.2.1 x.2.2
        ∧ t.out = s.out ++ [.ctlRsp 0#32 0] ∧ t.flt.ignoredWrite = s.flt.ignoredWrite ∧ t.key.slots = s.key.slots ∧ t.flash = s.flash ∧ t.fuse = s.fuse)
    ∧ (∀ x ∈ [(0x4C, 17, 16, 65536), (0x180, 5, 0, 24), (0x4018, 7, 1, 64), (0x6008, 16, 1, 60000), (0x10028, 5, 0, 25)],
      4 * o.toNat = x.1 →
      ∃ t n, exec (.registerWrite o v m) s = .next t ∧ regValue t x.1 = some n ∧ t.out = s.out ++ [.ctlRsp 0#32 0] ∧ t.flash = s.flash ∧ t.key = s.key
        ∧ (x.2.2.1 ≤ bits v.toNat 0 x.2.1 → bits v.toNat 0 x.2.1 ≤ x.2.2.2 → bits n 0 x.2.1 = bits v.toNat 0 x.2.1
          ∧ t.flt.ignoredWrite = s.flt.ignoredWrite)
        ∧ (¬(x.2.2.1 ≤ bits v.toNat 0 x.2.1 ∧ bits v.toNat 0 x.2.1 ≤ x.2.2.2) → regValue s x.1 = some n ∧ t.flt.ignoredWrite = true
          ∧ t.flt.ignoredOffset = o.toNat))
    ∧ (4 * o.toNat = 0x80 →
      exec (.registerWrite o v m) s = .next (Safety.okay { s with gen := { s.gen with irqStatus := s.gen.irqStatus &&& ~~~v } }))
    ∧ (∀ a ∈ [0x40, 0x1010, 0x2010, 0x8018, 0x11008, 0x14008],
      (4 * o.toNat = a →
        exec (.registerWrite o v m) s = .next (Safety.okay { s with gen := { s.gen with wlatch := tput s.gen.wlatch a v } }))
      ∧ (∀ lo, 4 * o.toNat = a + 4 → tget s.gen.wlatch a = some lo →
        ∃ t n, exec (.registerWrite o v m) s = .next t ∧ regValue t a = some n ∧ bits n 0 52 = bits (lo.toNat + v.toNat * 2 ^ 32) 0 52
          ∧ tget t.gen.wlatch a = none ∧ t.out = s.out ++ [.ctlRsp 0#32 0]))
    ∧ (0x20000 ≤ 4 * o.toNat → 4 * o.toNat < 0x30000 →
      ∃ t, exec (.registerWrite o v m) s = .next t ∧ bufWord t.gen.chrWindow (4 * o.toNat - 0x20000) = v ∧ t.out = s.out ++ [.ctlRsp 0#32 0]
        ∧ ∀ a, a < 4 * o.toNat - 0x20000 ∨ 4 * o.toNat - 0x20000 + 4 ≤ a → bufRead t.gen.chrWindow a = bufRead s.gen.chrWindow a)
    ∧ ((∃ x ∈ [(0x3000, 0x4000), (0x9000, 0x10000), (0x15000, 0x20000), (0x30000, 0x40000)], x.1 ≤ 4 * o.toNat ∧ 4 * o.toNat < x.2) →
      exec (.registerWrite o v m) s = .next (Safety.okay { s with flt := { s.flt with ignoredWrite := true, ignoredOffset := o.toNat } })))
  ∧ (∀ (o : BitVec 16) (v : Word) (m : MemIn) (s : State), s.pin.pwrok = true → ctlErr s (4 * o.toNat) true ≠ 0 →
    exec (.registerWrite o v m) s = .next { s with out := s.out ++ [.ctlRsp 0#32 (ctlErr s (4 * o.toNat) true)] })
  ∧ (∀ s : State, Safety.admitted s 0xA0 →
    (∃ t, exec .genCommitSreTiming s = .next t ∧ t.gen.irqStatus.getLsbD 10 = true ∧ t.gen.commitPair = 1
      ∧ (bits s.sre.ctrlShadow.toNat 16 16 ≤ bits s.sre.eabShadow.toNat 0 16 →
        t.gen.commitCode = 0#8 ∧ t.sre = { s.sre with ctrl := s.sre.ctrlShadow, eabCtrl := s.sre.eabShadow })
      ∧ (bits s.sre.eabShadow.toNat 0 16 < bits s.sre.ctrlShadow.toNat 16 16 → t.gen.commitCode = 1#8 ∧ t.sre = s.sre))
    ∧ (∀ p, p < 32 → ∃ t, exec (.genCommitShape p) s = .next t ∧ t.gen.irqStatus.getLsbD 10 = true ∧ t.gen.commitPair = 2 ∧ t.gen.commitPort = p
      ∧ (linkCode s p = false → t.gen.commitCode = 2#8 ∧ t.ile = s.ile)
      ∧ (linkCode s p = true → shapeAgrees (shadowOf s (p - 4)) = false → t.gen.commitCode = 1#8 ∧ t.ile = s.ile)
      ∧ (linkCode s p = true → shapeAgrees (shadowOf s (p - 4)) = true → t.gen.commitCode = 0#8 ∧ shapeOf t (p - 4) = shadowOf s (p - 4)
        ∧ ∀ e, e ≠ p - 4 → lportAt t e = lportAt s e)))

/-- The debug access path (14 R448 to R450; 13 R407, R413; 12 R364). MBOX STATUS and what a scan leaves in CORE and HOST are the model's (log 80). -/
def Obligations.DebugPathServes : Prop :=
  (∀ s : State, ∃ t, exec .debugPathReset s = .next t ∧ t.dbg.ir = 0x01#8 ∧ t.dbg.fabPending = s.dbg.fabPending ∧ t.dbg.fabDiscard = s.dbg.fabPending
    ∧ { t with dbg := s.dbg } = s)
  ∧ (∀ (s : State), dbgUp s = true →
    (∀ b : Byte, s.att.mbxDbg.busy = false → s.att.mbxDbg.reqLen < 4096 → s.att.mbxDbg.rsp.length ≤ 4096 →
      ∃ t, exec (.mboxPut b) s = .next t ∧ t.dbg.ir = 0x10#8 ∧ bits t.dbg.mbox.toNat 30 2 = 0 ∧ t.att.mbxDbg.reqLen = s.att.mbxDbg.reqLen + 1
        ∧ bufRead t.att.mbxDbg.req s.att.mbxDbg.reqLen = b ∧ t.att.mbxCtl = s.att.mbxCtl ∧ t.gen = s.gen
        ∧ ∀ a, a ≠ s.att.mbxDbg.reqLen → bufRead t.att.mbxDbg.req a = bufRead s.att.mbxDbg.req a)
    ∧ (s.att.mbxDbg.busy = false → s.att.mbxDbg.rspReady = false → s.att.mbxDbg.reqLen ≠ 0 →
      ∃ t, exec .mboxSend s = .next t ∧ t.dbg.ir = 0x10#8 ∧ bits t.dbg.mbox.toNat 30 2 = 0 ∧ t.att.mbxDbg = { s.att.mbxDbg with busy := true }
        ∧ (true, s.tm.aclk) ∈ t.att.mbxOrder ∧ t.att.mbxCtl = s.att.mbxCtl ∧ t.gen = s.gen)
    ∧ (∀ b : Byte, s.att.mbxDbg.busy = false → s.att.mbxDbg.rspReady = true → s.att.mbxDbg.rsp[s.att.mbxDbg.pos]? = some b →
      s.att.mbxDbg.rsp.length ≤ 4096 →
      ∃ t, exec .mboxGet s = .next t ∧ t.dbg.mbox = BitVec.ofNat 32 ((s.att.mbxDbg.rsp.length - (s.att.mbxDbg.pos + 1)) * 2 ^ 16 + b.toNat)
        ∧ t.att.mbxDbg = { s.att.mbxDbg with pos := s.att.mbxDbg.pos + 1, rspReady := decide (s.att.mbxDbg.pos + 1 < s.att.mbxDbg.rsp.length) })
    ∧ (∀ (o : BitVec 16) (v : Word) (m : MemIn),
      (regsStatus s (4 * o.toNat) false = 0 →
        ∃ t, exec (.regsRead o) s = .next t ∧ t.dbg.ir = 0x11#8 ∧ t.out = s.out ∧ t.flt = s.flt ∧ t.att = s.att ∧ t.key = s.key
          ∧ t.dbg.regs = BitVec.ofNat 52 (o.toNat * 2 ^ 34 + (regRead s (4 * o.toNat)).1.toNat * 2 ^ 2))
      ∧ (regsStatus s (4 * o.toNat) false ≠ 0 →
        exec (.regsRead o) s = .next { s with dbg := { s.dbg with
          ir := 0x11#8, regs := BitVec.ofNat 52 (o.toNat * 2 ^ 34 + regsStatus s (4 * o.toNat) false) } })
      ∧ (regsStatus s (4 * o.toNat) true = 0 →
        exec (.regsWrite o v m) s = .next (regsCapture (regWrite { s with dbg := { s.dbg with ir := 0x11#8 } } (4 * o.toNat) v m) (4 * o.toNat) 0#32 0))
      ∧ (regsStatus s (4 * o.toNat) true ≠ 0 →
        exec (.regsWrite o v m) s = .next { s with dbg := { s.dbg with
          ir := 0x11#8, regs := BitVec.ofNat 52 (o.toNat * 2 ^ 34 + regsStatus s (4 * o.toNat) true) } }))
    ∧ (∀ b : List Byte, b.length = 304 →
      ∃ t, exec (.lcsStage b) s = .next t ∧ t.dbg.ir = 0x12#8 ∧ bufBytes t.lcs.stage 0 304 = b ∧ { t.lcs with stage := s.lcs.stage } = s.lcs
        ∧ t.out = s.out)
    ∧ (∀ b : List Bool,
      (scopeHas s 2 = true →
        ∃ t, exec (.scan b) s = .next t ∧ t.dbg.ir = 0x14#8 ∧ t.dbg.scan.length = b.length ∧ t.flt = s.flt ∧ t.att = s.att ∧ t.lcs = s.lcs
          ∧ t.fuse = s.fuse ∧ t.flash = s.flash ∧ t.dom = s.dom ∧ t.key.slots = s.key.slots ∧ t.key.kill = s.key.kill ∧ t.gen.irqEnable = s.gen.irqEnable)
      ∧ (scopeHas s 2 = false → exec (.scan b) s = .next { s with dbg := { s.dbg with ir := 0x14#8, scan := [false] } })))
  ∧ (∀ (shelf : BitVec 24) (addr : BitVec 52) (d : Line) (raw : Stored) (m m1 : MemIn) (ix : Nat) (r : Region) (s sd s1 : State), dbgUp s = true →
    s.dbg.fabPending = false → scopeHas s 1 = true → fabClosed s = false → addr.toNat % 64 = 0 → s.key.tampered = false → s.gen.unchartered = false →
    portStopped s (memPort s (addr.toNat / 64)) = false → noLanes s (memPort s (addr.toNat / 64)) = false → snapState r = 0 →
    sd = { s with dbg := { s.dbg with ir := 0x13#8, fabPending := true, fab := 8#704 } } →
    (∀ c k, (c, k) ∈ [(Instr.fabdbgRead shelf addr m, MemKind.read), (Instr.fabdbgRawRead shelf addr m, MemKind.rawRead)] →
      memGate sd (dbgWho shelf addr) k 0 m = (.ok (ix, r), s1, m1) → Safety.imeQuiet s1 → Safety.keysReady s1 ix r →
      ∃ t e, exec c s = .next t ∧ t.ime.ents = [e] ∧ e.kind = k ∧ e.phase = .ready ∧ e.line = addr.toNat / 64 ∧ e.src = .dbg ∧ e.who = dbgWho shelf addr
        ∧ e.deadline = none ∧ e.cls = 0 ∧ t.dbg.ir = 0x13#8 ∧ t.dbg.fabPending = true ∧ t.out = s1.out)
    ∧ (∀ cat tree, m = catThenTree cat tree → memGate sd (dbgWho shelf addr) .write 0 m = (.ok (ix, r), s1, m1) → Safety.imeQuiet s1 → r.mode = 0 →
      ∃ t e, exec (.fabdbgWrite shelf addr d cat tree) s = .next t ∧ t.ime.ents = [e] ∧ e.phase = .writeReady ∧ e.line = addr.toNat / 64
        ∧ e.stored = withSide d 0#56 false 0 ∧ bits t.dbg.fab.toNat 0 2 = 0 ∧ t.out = s1.out)
    ∧ (memGate sd (dbgWho shelf addr) .rawWrite 0 m = (.ok (ix, r), s1, m1) → Safety.imeQuiet s1 →
      ∃ t e, exec (.fabdbgRawWrite shelf addr raw m) s = .next t ∧ t.ime.ents = [e] ∧ e.phase = .writeReady ∧ e.line = addr.toNat / 64
        ∧ e.stored = raw ∧ bits t.dbg.fab.toNat 0 2 = 0 ∧ t.out = s1.out))

/-- A die in SCRAP is never in service (13 R403). -/
def Obligations.ScrapStaysOut : Prop :=
  ∀ (c : Instr) (s t : State), (s.lcs.st = 5 → s.gen.halted = true ∧ s.gen.released = false ∧ s.gen.ready = false) → exec c s = .next t →
    (t.lcs.st = 5 → t.gen.halted = true ∧ t.gen.released = false ∧ t.gen.ready = false)
    ∧ (t.lcs.st = 5 → t.pin.coldreq = true → s.pin.coldreq = true)

/-- Generations at their end (03 R96). -/
def Obligations.GenerationsNeverWrap : Prop :=
  ∀ (slot : BitVec 10) (s : State), Safety.admitted s 0x100C → s.key.cmdBusy = false → s.key.tampered = false → 64 ≤ slot.toNat →
    (∀ v mk, slotAt s slot.toNat = some v → v.staged = some mk →
      ∃ t w, exec (.activate slot) s = .next t ∧ slotAt t slot.toNat = some w ∧ w.genCur = v.genCur + 1
        ∧ (w.genCur = 0xFFFFFF00 → t.gen.irqStatus.getLsbD 1 = true
          ∧ (s.flt.queue.length < 256 → ∃ r ∈ t.flt.queue, r.cls = Flc.keyExhausted ∧ r.verdict = 0 ∧ r.detail = slot.toNat)))
    ∧ (∀ (m m1 : MemIn) (b : List Byte) (s1 : State), ctlRead s s.key.cmdShelf.toNat s.key.cmdAddr.toNat 192 m = (.ok b, s1, m1) → wrOk b = true →
      wrDomain b ≠ 0 → wrDomain b = domainId s1 → tenantAvail s1 = true →
      (∀ v, slotAt s1 slot.toNat = some v → v.kind = wrKind b → v.tenant = wrTenant b → v.staged = none → v.prevLive = false → v.genCur = 0xFFFFFFFF →
        ∃ t, exec (.loadWrapped slot m) s = .next t ∧ t.key.cmdResult = Kc.keyExhausted ∧ t.key.slots = s1.key.slots)
      ∧ (slotAt s1 slot.toNat = none → tenantTaken s1 (wrKind b) (wrTenant b) = false → 0xFFFFFF00 ≤ wrGen b →
        ∃ t, exec (.loadWrapped slot m) s = .next t ∧ (unwrap s1 b ≠ none → t.gen.irqStatus.getLsbD 1 = true
          ∧ (s1.flt.queue.length < 256 → ∃ r ∈ t.flt.queue, r.cls = Flc.keyExhausted ∧ r.verdict = 0 ∧ r.detail = slot.toNat))))

/-- Effective offers (02 R59). -/
def Obligations.EffectiveOffers : Prop :=
  ∀ (s : State), ∀ x ∈ Safety.versions,
    (∀ n : Nat, bit (offerNow s x.1) n = true ↔ bit (offerMask s x.1) n = true ∧ n < 16 ∧ (n = x.2.1 ∨ (forerunner s = true ∧ x.2.2 = some n)))
    ∧ (s.gen.unchartered = false → bits s.gen.verSel.toNat 0 3 = x.1 → (regValue s 0x18).map (fun w => bits w 16 16) = some (offerNow s x.1))

/-- Domain indices (11 R356). Link ports 0 to 15 have egress codes 0 to 15, D2D ports 0 to 3 codes 16 to 19. -/
def Obligations.DomainIndices : Prop :=
  (∀ s : State, coreDown s = (domAt s 0).inReset ∧ hostDown s = (domAt s 1).inReset)
  ∧ (∀ p, p < 4 → domMem p = 2 + p ∧ rungDomains 1 p = [domMem p])
  ∧ (∀ k, k < 16 → domLnk k = 6 + k ∧ rungDomains 1 (qpOfLnk k) = [domLnk k])
  ∧ (∀ k, k < 4 → domLnk (16 + k) = 22 + k ∧ rungDomains 1 (qpOfLnk (16 + k)) = [domLnk (16 + k)])
  ∧ (∀ p, rungDomains 2 p = [1] ∧ rungDomains 3 p = [0])

/-- Reading the annals (11 R335). -/
def Obligations.AnnalsRead : Prop :=
  (∀ (v : Word) (m : MemIn) (s : State), Safety.admitted s 0x10020 →
    ∃ t, exec (.registerWrite 0x4008#16 v m) s = .next t ∧ t.flash = s.flash
      ∧ (bits v.toNat 16 4 ≤ 9 → ∀ k, k < 16 →
        (∀ r, (dget [] s.flash.rings (bits v.toNat 16 4))[bits v.toNat 0 10]? = some r →
          (regRead (regRead t 0x10040).2 (0x10040 + 4 * k)).1 = BitVec.ofNat 32 (fld (recordBytes r) (4 * k) 4))
        ∧ ((dget [] s.flash.rings (bits v.toNat 16 4)).length ≤ bits v.toNat 0 10 → (regRead (regRead t 0x10040).2 (0x10040 + 4 * k)).1 = 0#32))
      ∧ (bits v.toNat 16 4 = 15 → ∀ k, k < 16 → s.flash.standing.length ≤ bits v.toNat 0 10 →
        (regRead (regRead t 0x10040).2 (0x10040 + 4 * k)).1 = 0#32))
  ∧ (∃ f : Nat × Nat × Nat → Nat → Word, ∀ (v : Word) (m : MemIn) (s : State) (x : Nat × Nat × Nat), Safety.admitted s 0x10020 → bits v.toNat 16 4 = 15 →
    s.flash.standing[bits v.toNat 0 10]? = some x →
    ∃ t, exec (.registerWrite 0x4008#16 v m) s = .next t ∧ ∀ k, k < 16 → (regRead (regRead t 0x10040).2 (0x10040 + 4 * k)).1 = f x k)
  ∧ (∀ (r : FaultRec) (q : List FaultRec) (s : State), s.pin.pwrok = true → s.flt.queue = r :: q →
    ∃ t, exec (.annalsWrite true) s = .next t ∧ (dget [] t.flash.rings r.unit)[0]? = some r
      ∧ ∀ i, i + 1 < 1024 → (dget [] t.flash.rings r.unit)[i + 1]? = (dget [] s.flash.rings r.unit)[i]?)

/-- Registers after reset (15 Tables 15-2 to 15-12). -/
def Obligations.ResetRegisters : Prop :=
  (∀ x ∈ Safety.resetValues, regValue State.reset x.1 = some x.2)
  ∧ ∀ e, e < 20 → regValue State.reset (0x4400 + 0x40 * e + 0xC) = some 0x28

/-- The fuses are changed by few commands (13 R394, R401; 14 R445), and the time counts by a start and a loss of power only (10 R309). -/
def Obligations.FusesKeptByOthers : Prop :=
  ∀ (c : Instr) (s t : State), exec c s = .next t →
    (Safety.changesFuses c = false → t.fuse = s.fuse) ∧ ((∀ e, c ≠ .powerGood e) → c ≠ .coldPowerLoss → t.tm = s.tm)

/-- The life cycle is changed by its own commands, by starts and recoveries, by loggers of the accession log, and by register writes (13 R396, R413). -/
def Obligations.LifeCycleKeptByOthers : Prop :=
  ∀ (c : Instr) (s t : State), Safety.changesLifeCycle c = false → exec c s = .next t → t.lcs = s.lcs

/-- Attestation is changed by its own commands, by starts, tampers and port resets, and by register writes (12 R364 to R393). -/
def Obligations.AttestationKeptByOthers : Prop :=
  ∀ (c : Instr) (s t : State), Safety.changesAttestation c = false → exec c s = .next t → t.att = s.att

/-- The vault is changed by key commands, by work that encrypts under it, by sessions and streams, and by what zeroises it (03 R87 to R97). -/
def Obligations.VaultKeptByOthers : Prop :=
  ∀ (c : Instr) (s t : State), Safety.changesVault c = false → exec c s = .next t → t.key.slots = s.key.slots
end

