-- ==== Sys2Proof/Laws/Crypto.lean ====
section
/-!
SUPPORT. GCM's XOR is its own inverse and keeps the length of whole blocks.
-/
namespace Sys2Proof.Machine

@[simp] theorem length_leBytes (n v : Nat) : (leBytes n v).length = n := by
  induction n generalizing v with
  | zero => rfl
  | succ n ih => simp [leBytes, ih]

@[simp] theorem length_blkBytes (b : BitVec 128) : (blkBytes b).length = 16 := by simp [blkBytes]

/-- XOR with a list of the same length twice gives the list back. -/
theorem zipWith_xor_xor : ∀ (a k : List Byte), a.length = k.length →
    List.zipWith (fun x y => x ^^^ y) (List.zipWith (fun x y => x ^^^ y) a k) k = a
  | [], _, _ => by simp
  | a :: as, k :: ks, h => by
    have ih := zipWith_xor_xor as ks (by simpa using h)
    simp [ih]

/-- The keystream covers whole blocks. -/
theorem length_gcmXor (k : BitVec 256) (iv : List Byte) : ∀ (n i : Nat) (b : List Byte), b.length = 16 * n → (gcmXor k iv n i b).length = 16 * n
  | 0, _, _, _ => rfl
  | n + 1, i, b, h => by
    have ih := length_gcmXor k iv n (i + 1) (b.drop 16) (by simp [h]; omega)
    simp [gcmXor, ih, h]; omega

/-- XOR with the GCM keystream twice gives the text back. -/
theorem gcmXor_gcmXor (k : BitVec 256) (iv : List Byte) : ∀ (n i : Nat) (b : List Byte), b.length = 16 * n →
    gcmXor k iv n i (gcmXor k iv n i b) = b
  | 0, _, b, h => by simp at h; simp [gcmXor, h]
  | n + 1, i, b, h => by
    have ih := gcmXor_gcmXor k iv n (i + 1) (b.drop 16) (by simp [h]; omega)
    have hl : (List.zipWith (fun x y => x ^^^ y) (b.take 16) (blkBytes (Config.aesEnc k (gcmCtr iv i)))).length = 16 := by simp [h]
    simp only [gcmXor]
    rw [List.take_append_of_le_length (by omega), List.drop_append_of_le_length (by omega), List.take_of_length_le (by omega),
      List.drop_of_length_le (by omega), List.nil_append, ih, zipWith_xor_xor _ _ (by simp [h])]
    exact List.take_append_drop 16 b

/-- Whole blocks keep their length through GCM. -/
theorem length_gcmCrypt (k : BitVec 256) (iv b : List Byte) (h : b.length % 16 = 0) : (gcmCrypt k iv b).length = b.length := by
  have hc : b.length = 16 * ceilDiv b.length 16 := by unfold ceilDiv; omega
  rw [gcmCrypt, length_gcmXor k iv _ 2 b hc]; exact hc.symm

/-- GCM opens what it sealed. -/
theorem gcmCrypt_gcmCrypt (k : BitVec 256) (iv b : List Byte) (h : b.length % 16 = 0) : gcmCrypt k iv (gcmCrypt k iv b) = b := by
  have hc : b.length = 16 * ceilDiv b.length 16 := by unfold ceilDiv; omega
  have hl := length_gcmCrypt k iv b h
  unfold gcmCrypt at hl ⊢
  rw [hl]; exact gcmXor_gcmXor k iv _ 2 b hc

end Sys2Proof.Machine
end

