-- ==== Sys2Proof/Laws/Lanes.lean ====
section
/-!
SUPPORT. A request passes its lanes where none is about to fail its compare: it passes, and only the key cache and the key buffers change.
-/
namespace Sys2Proof.Machine

/-- A key that an engine takes changes the cache alone (03 R85). -/
theorem keyUse_eq (s : State) (h : KeyHandle) : ∃ c, keyUse s h = { s with key := { s.key with dkc := c } } := by
  unfold keyUse dkcTouch dkcPut
  split <;> split <;> exact ⟨_, rfl⟩

/-- A key put in a group's buffer changes the buffers alone (01 R25). -/
theorem ctxPut_eq (s : State) (g : Nat) (h : KeyHandle) : ∃ c, ctxPut s g h = { s with lane := { s.lane with ctx := c } } := by
  unfold ctxPut
  split <;> exact ⟨_, rfl⟩

/-- The keys of a request change the cache and the buffers alone. -/
theorem keysUse_eq (g : Nat) (hs : List KeyHandle) (s : State) :
    ∃ c d, hs.foldl (fun s h => ctxPut (keyUse s h) g h) s = { s with key := { s.key with dkc := c }, lane := { s.lane with ctx := d } } := by
  induction hs generalizing s with
  | nil => exact ⟨s.key.dkc, s.lane.ctx, rfl⟩
  | cons h hs ih =>
    obtain ⟨c, hc⟩ := keyUse_eq s h
    obtain ⟨d, hd⟩ := ctxPut_eq (keyUse s h) g h
    obtain ⟨c', d', h'⟩ := ih (ctxPut (keyUse s h) g h)
    exact ⟨c', d', by rw [List.foldl_cons, h', hd, hc]⟩

/-- Where no lane is about to fail its compare, a request passes, and only the cache and the buffers change (01 R22, R23). -/
theorem lanePass_clear (s : State) (g : Nat) (hs : List KeyHandle) (who : Option Who) (tag : Nat) (hf : s.lane.flaw = []) :
    ∃ c d, lanePass s g hs who tag = (true, { s with key := { s.key with dkc := c }, lane := { s.lane with ctx := d } }) := by
  obtain ⟨c, d, h⟩ := keysUse_eq g hs s
  refine ⟨c, d, ?_⟩
  have hn : ∀ l : List Nat, l.find? (fun i => (tget s.lane.flaw i).isSome) = none := fun l => List.find?_eq_none.mpr fun i _ => by simp [hf, tget]
  unfold lanePass
  rw [h]
  simp only
  rw [hn]

/-- The lines of a page pass in the same way (01 R17, R23). -/
theorem passLines_clear (s : State) (l : List Nat) (hs : List KeyHandle) (hf : s.lane.flaw = []) :
    ∃ c d, passLines s l hs = (true, { s with key := { s.key with dkc := c }, lane := { s.lane with ctx := d } }) := by
  unfold passLines
  generalize (l.map (memPort s)).dedup = ps
  suffices ∀ (ps : List Nat) (t : State), t.lane.flaw = [] →
      ∃ c d, ps.foldl (fun a p => let x := lanePass a.2 p hs none 0; (a.1 && x.1, x.2)) (true, t)
        = (true, { t with key := { t.key with dkc := c }, lane := { t.lane with ctx := d } }) from this ps s hf
  intro ps
  induction ps with
  | nil => exact fun t _ => ⟨t.key.dkc, t.lane.ctx, rfl⟩
  | cons p ps ih =>
    intro t ht
    obtain ⟨c, d, h⟩ := lanePass_clear t p hs none 0 ht
    obtain ⟨c', d', h'⟩ := ih { t with key := { t.key with dkc := c }, lane := { t.lane with ctx := d } } ht
    exact ⟨c', d', by rw [List.foldl_cons]; simp only [h, Bool.and_true]; exact h'⟩

end Sys2Proof.Machine
end

