-- ==== Sys2Proof/Laws/Table.lean ====
section
/-!
SUPPORT. Tables by index: what reading gives after each operation, and that each operation keeps the canonical form; the same for buffers.
-/
namespace Sys2Proof.Machine

variable {α : Type}

@[simp] theorem tget_nil (k : Nat) : tget ([] : Tbl α) k = none := rfl

/-- Reading after a put gives the value put, at its index, and what was there, at any other. -/
theorem tget_tput (t : Tbl α) (k : Nat) (v : α) (j : Nat) : tget (tput t k v) j = if k = j then some v else tget t j := by
  induction t with
  | nil => simp [tput, tget]
  | cons p r ih =>
    obtain ⟨i, w⟩ := p
    simp only [tput]
    split
    · simp [tget]
    · split
      · next h => subst h; simp only [tget]; split <;> rfl
      · simp only [tget, ih]; split <;> simp_all

@[simp] theorem tget_tput_same (t : Tbl α) (k : Nat) (v : α) : tget (tput t k v) k = some v := by simp [tget_tput]

theorem tget_tput_other (t : Tbl α) (v : α) {k j : Nat} (h : k ≠ j) : tget (tput t k v) j = tget t j := by simp [tget_tput, h]

/-- Reading after a removal gives nothing at its index, and what was there at any other. -/
theorem tget_tdel (t : Tbl α) (k j : Nat) : tget (tdel t k) j = if k = j then none else tget t j := by
  induction t with
  | nil => simp [tdel, tget]
  | cons p r ih =>
    obtain ⟨i, w⟩ := p
    simp only [tdel]
    split
    · next h => subst h; rw [ih]; simp only [tget]; split <;> simp_all
    · next hn => simp only [tget, ih]; split
                 · next h => subst h; rw [if_neg (fun e => hn e.symm)]
                 · rfl

@[simp] theorem tget_tdel_same (t : Tbl α) (k : Nat) : tget (tdel t k) k = none := by simp [tget_tdel]

theorem tget_tdel_other (t : Tbl α) {k j : Nat} (h : k ≠ j) : tget (tdel t k) j = tget t j := by simp [tget_tdel, h]

/-- Reading a table with a default after a put gives the value put, at its index. -/
theorem dget_dput [DecidableEq α] (d : α) (t : Tbl α) (k : Nat) (v : α) (j : Nat) :
    dget d (dput d t k v) j = if k = j then v else dget d t j := by
  unfold dget dput
  split
  · next h => subst h; simp only [tget_tdel]; split <;> simp
  · simp only [tget_tput]; split <;> simp

@[simp] theorem dget_dput_same [DecidableEq α] (d : α) (t : Tbl α) (k : Nat) (v : α) : dget d (dput d t k v) k = v := by simp [dget_dput]

theorem dget_dput_other [DecidableEq α] (d : α) (t : Tbl α) (v : α) {k j : Nat} (h : k ≠ j) : dget d (dput d t k v) j = dget d t j := by
  simp [dget_dput, h]

theorem tget_tset (t : Tbl α) (k : Nat) (v : Option α) (j : Nat) : tget (tset t k v) j = if k = j then v else tget t j := by
  cases v <;> simp [tset, tget_tput, tget_tdel]

theorem tget_tmod (t : Tbl α) (k : Nat) (f : α → α) (j : Nat) : tget (tmod t k f) j = if k = j then (tget t j).map f else tget t j := by
  unfold tmod
  split
  · next v hv => rw [tget_tput]; split
                 · next h => subst h; simp [hv]
                 · rfl
  · next hn => split
               · next h => subst h; simp [hn]
               · rfl

/-! ### The canonical form -/

/-- A table above an index stays above a smaller one. -/
theorem tblAbove_mono {i j : Nat} (h : i ≤ j) : ∀ (t : Tbl α), tblAbove j t = true → tblAbove i t = true
  | [], _ => rfl
  | (k, _) :: r, ht => by
    simp only [tblAbove, Bool.and_eq_true, decide_eq_true_eq] at ht ⊢
    exact ⟨by omega, ht.2⟩

theorem tblWf_of_above {i : Nat} : ∀ (t : Tbl α), tblAbove i t = true → tblWf t = true
  | [], _ => rfl
  | (_, _) :: _, h => by simp only [tblAbove, Bool.and_eq_true] at h; exact h.2

theorem tblAbove_tput (i k : Nat) (v : α) (hk : i < k) : ∀ (t : Tbl α), tblAbove i t = true → tblAbove i (tput t k v) = true
  | [], _ => by simp [tput, tblAbove, hk]
  | (j, w) :: r, h => by
    simp only [tblAbove, Bool.and_eq_true, decide_eq_true_eq] at h
    simp only [tput]
    split
    · next hj => simp [tblAbove, hk, hj, h.2]
    · split
      · next hj => subst hj; simp [tblAbove, hk, h.2]
      · next h1 h2 => simp [tblAbove, h.1, tblAbove_tput j k v (by omega) r h.2]

/-- A put keeps the canonical form. -/
theorem tblWf_tput (t : Tbl α) (k : Nat) (v : α) (h : tblWf t = true) : tblWf (tput t k v) = true := by
  cases t with
  | nil => rfl
  | cons p r =>
    obtain ⟨j, w⟩ := p
    simp only [tblWf] at h
    simp only [tput]
    split
    · next hj => simp [tblWf, tblAbove, hj, h]
    · split
      · next hj => subst hj; simpa [tblWf] using h
      · next h1 h2 => simp only [tblWf]; exact tblAbove_tput j k v (by omega) r h

theorem tblAbove_tdel (i k : Nat) : ∀ (t : Tbl α), tblAbove i t = true → tblAbove i (tdel t k) = true
  | [], _ => rfl
  | (j, w) :: r, h => by
    simp only [tblAbove, Bool.and_eq_true, decide_eq_true_eq] at h
    simp only [tdel]
    split
    · exact tblAbove_tdel i k r (tblAbove_mono (by omega) r h.2)
    · simp [tblAbove, h.1, tblAbove_tdel j k r h.2]

/-- A removal keeps the canonical form. -/
theorem tblWf_tdel (t : Tbl α) (k : Nat) (h : tblWf t = true) : tblWf (tdel t k) = true := by
  cases t with
  | nil => rfl
  | cons p r =>
    obtain ⟨j, w⟩ := p
    simp only [tblWf] at h
    simp only [tdel]
    split
    · exact tblWf_of_above _ (tblAbove_tdel j k r h)
    · exact tblAbove_tdel j k r h

theorem tblWf_dput [DecidableEq α] (d : α) (t : Tbl α) (k : Nat) (v : α) (h : tblWf t = true) : tblWf (dput d t k v) = true := by
  unfold dput; split
  · exact tblWf_tdel t k h
  · exact tblWf_tput t k v h

theorem tblWf_tset (t : Tbl α) (k : Nat) (v : Option α) (h : tblWf t = true) : tblWf (tset t k v) = true := by
  cases v
  · exact tblWf_tdel t k h
  · exact tblWf_tput t k _ h

theorem tblWf_tmod (t : Tbl α) (k : Nat) (f : α → α) (h : tblWf t = true) : tblWf (tmod t k f) = true := by
  unfold tmod; split
  · exact tblWf_tput t k _ h
  · exact h

/-! ### Which values a table holds -/

theorem all_tput (p : α → Bool) (t : Tbl α) (k : Nat) (v : α) (hv : p v = true) (h : (t.all fun c => p c.2) = true) :
    ((tput t k v).all fun c => p c.2) = true := by
  induction t with
  | nil => simp [tput, hv]
  | cons q r ih =>
    obtain ⟨j, w⟩ := q
    simp only [List.all_cons, Bool.and_eq_true] at h
    simp only [tput]
    split
    · simp [hv, h.1]; simpa using h.2
    · split
      · simp [hv]; simpa using h.2
      · have := ih h.2; simp [h.1]; simpa using this

theorem all_tdel (p : α → Bool) (t : Tbl α) (k : Nat) (h : (t.all fun c => p c.2) = true) : ((tdel t k).all fun c => p c.2) = true := by
  induction t with
  | nil => rfl
  | cons q r ih =>
    obtain ⟨j, w⟩ := q
    simp only [List.all_cons, Bool.and_eq_true] at h
    simp only [tdel]
    split
    · exact ih h.2
    · have := ih h.2; simp [h.1]; simpa using this

/-! ### Buffers -/

/-- Reading a buffer after a write gives the byte written, at its offset, and what was there at any other. -/
theorem bufRead_bufWrite (b : List Host.Cell) (a : Nat) (v : Byte) (j : Nat) : bufRead (bufWrite b a v) j = if a = j then v else bufRead b j :=
  dget_dput 0#8 b a v j

/-- A write keeps a buffer's canonical form. -/
theorem bufWf_bufWrite (b : List Host.Cell) (a : Nat) (v : Byte) (h : bufWf b = true) : bufWf (bufWrite b a v) = true := by
  simp only [bufWf, Bool.and_eq_true] at h ⊢
  refine ⟨tblWf_dput 0#8 b a v h.1, ?_⟩
  unfold bufWrite dput
  split
  · exact all_tdel (fun x : Byte => x != 0#8) b a h.2
  · next hv => exact all_tput (fun x : Byte => x != 0#8) b a v (by simpa using hv) h.2

/-- A fill keeps a buffer's canonical form. -/
theorem bufWf_bufFill (b : List Host.Cell) (a : Nat) (l : List Byte) (h : bufWf b = true) : bufWf (bufFill b a l) = true := by
  induction l generalizing b a with
  | nil => exact h
  | cons v r ih => exact ih _ _ (bufWf_bufWrite b a v h)

theorem bufWf_bufPutWord (b : List Host.Cell) (a : Nat) (w : Word) (h : bufWf b = true) : bufWf (bufPutWord b a w) = true :=
  bufWf_bufFill b a _ h

/-- A fill changes no byte below it. -/
theorem bufRead_bufFill_below (b : List Host.Cell) (a : Nat) (l : List Byte) (j : Nat) (h : j < a) : bufRead (bufFill b a l) j = bufRead b j := by
  induction l generalizing b a with
  | nil => rfl
  | cons v r ih => rw [bufFill, ih _ _ (by omega), bufRead_bufWrite, if_neg (by omega)]

/-- A fill changes no byte past its end. -/
theorem bufRead_bufFill_above (b : List Host.Cell) (a : Nat) (l : List Byte) (j : Nat) (h : a + l.length ≤ j) :
    bufRead (bufFill b a l) j = bufRead b j := by
  induction l generalizing b a with
  | nil => rfl
  | cons v r ih =>
    simp only [List.length_cons] at h
    rw [bufFill, ih _ _ (by omega), bufRead_bufWrite, if_neg (by omega)]

/-- A fill writes its bytes. -/
theorem bufRead_bufFill_in (b : List Host.Cell) (a : Nat) (l : List Byte) (i : Nat) (h : i < l.length) :
    bufRead (bufFill b a l) (a + i) = l[i] := by
  induction l generalizing b a i with
  | nil => simp at h
  | cons v r ih =>
    cases i with
    | zero => rw [bufFill, bufRead_bufFill_below _ _ _ _ (by omega), bufRead_bufWrite]; simp
    | succ n =>
      rw [bufFill, show a + (n + 1) = a + 1 + n by omega, ih _ _ n (by simpa using h)]
      rfl

end Sys2Proof.Machine
end

