-- ==== Sys2Proof/Laws/State.lean ====
section
/-!
SUPPORT. What each named update of the state leaves as it was, field by field, and what it gives in the field it writes.
-/
namespace Sys2Proof.Machine

/-! ### emit writes only `out` -/

@[simp] theorem emit_cfg (s : State) (o : Out) : (emit s o).cfg = s.cfg := rfl
@[simp] theorem emit_pin (s : State) (o : Out) : (emit s o).pin = s.pin := rfl
@[simp] theorem emit_dom (s : State) (o : Out) : (emit s o).dom = s.dom := rfl
@[simp] theorem emit_tm (s : State) (o : Out) : (emit s o).tm = s.tm := rfl
@[simp] theorem emit_fuse (s : State) (o : Out) : (emit s o).fuse = s.fuse := rfl
@[simp] theorem emit_flash (s : State) (o : Out) : (emit s o).flash = s.flash := rfl
@[simp] theorem emit_gen (s : State) (o : Out) : (emit s o).gen = s.gen := rfl
@[simp] theorem emit_lane (s : State) (o : Out) : (emit s o).lane = s.lane := rfl
@[simp] theorem emit_key (s : State) (o : Out) : (emit s o).key = s.key := rfl
@[simp] theorem emit_ime (s : State) (o : Out) : (emit s o).ime = s.ime := rfl
@[simp] theorem emit_ile (s : State) (o : Out) : (emit s o).ile = s.ile := rfl
@[simp] theorem emit_qos (s : State) (o : Out) : (emit s o).qos = s.qos := rfl
@[simp] theorem emit_hob (s : State) (o : Out) : (emit s o).hob = s.hob := rfl
@[simp] theorem emit_flt (s : State) (o : Out) : (emit s o).flt = s.flt := rfl
@[simp] theorem emit_lcs (s : State) (o : Out) : (emit s o).lcs = s.lcs := rfl
@[simp] theorem emit_sre (s : State) (o : Out) : (emit s o).sre = s.sre := rfl
@[simp] theorem emit_bce (s : State) (o : Out) : (emit s o).bce = s.bce := rfl
@[simp] theorem emit_att (s : State) (o : Out) : (emit s o).att = s.att := rfl
@[simp] theorem emit_dbg (s : State) (o : Out) : (emit s o).dbg = s.dbg := rfl
@[simp] theorem emit_freeIx (s : State) (o : Out) : (emit s o).freeIx = s.freeIx := rfl
@[simp] theorem emit_pending (s : State) (o : Out) : (emit s o).pending = s.pending := rfl

/-! ### emits writes only `out` -/

@[simp] theorem emits_cfg (s : State) (o : List Out) : (emits s o).cfg = s.cfg := rfl
@[simp] theorem emits_pin (s : State) (o : List Out) : (emits s o).pin = s.pin := rfl
@[simp] theorem emits_dom (s : State) (o : List Out) : (emits s o).dom = s.dom := rfl
@[simp] theorem emits_tm (s : State) (o : List Out) : (emits s o).tm = s.tm := rfl
@[simp] theorem emits_fuse (s : State) (o : List Out) : (emits s o).fuse = s.fuse := rfl
@[simp] theorem emits_flash (s : State) (o : List Out) : (emits s o).flash = s.flash := rfl
@[simp] theorem emits_gen (s : State) (o : List Out) : (emits s o).gen = s.gen := rfl
@[simp] theorem emits_lane (s : State) (o : List Out) : (emits s o).lane = s.lane := rfl
@[simp] theorem emits_key (s : State) (o : List Out) : (emits s o).key = s.key := rfl
@[simp] theorem emits_ime (s : State) (o : List Out) : (emits s o).ime = s.ime := rfl
@[simp] theorem emits_ile (s : State) (o : List Out) : (emits s o).ile = s.ile := rfl
@[simp] theorem emits_qos (s : State) (o : List Out) : (emits s o).qos = s.qos := rfl
@[simp] theorem emits_hob (s : State) (o : List Out) : (emits s o).hob = s.hob := rfl
@[simp] theorem emits_flt (s : State) (o : List Out) : (emits s o).flt = s.flt := rfl
@[simp] theorem emits_lcs (s : State) (o : List Out) : (emits s o).lcs = s.lcs := rfl
@[simp] theorem emits_sre (s : State) (o : List Out) : (emits s o).sre = s.sre := rfl
@[simp] theorem emits_bce (s : State) (o : List Out) : (emits s o).bce = s.bce := rfl
@[simp] theorem emits_att (s : State) (o : List Out) : (emits s o).att = s.att := rfl
@[simp] theorem emits_dbg (s : State) (o : List Out) : (emits s o).dbg = s.dbg := rfl
@[simp] theorem emits_freeIx (s : State) (o : List Out) : (emits s o).freeIx = s.freeIx := rfl
@[simp] theorem emits_pending (s : State) (o : List Out) : (emits s o).pending = s.pending := rfl

/-! ### setDom writes only `dom` -/

@[simp] theorem setDom_cfg (s : State) (d : Nat) (v : Dom) : (setDom s d v).cfg = s.cfg := rfl
@[simp] theorem setDom_pin (s : State) (d : Nat) (v : Dom) : (setDom s d v).pin = s.pin := rfl
@[simp] theorem setDom_tm (s : State) (d : Nat) (v : Dom) : (setDom s d v).tm = s.tm := rfl
@[simp] theorem setDom_fuse (s : State) (d : Nat) (v : Dom) : (setDom s d v).fuse = s.fuse := rfl
@[simp] theorem setDom_flash (s : State) (d : Nat) (v : Dom) : (setDom s d v).flash = s.flash := rfl
@[simp] theorem setDom_gen (s : State) (d : Nat) (v : Dom) : (setDom s d v).gen = s.gen := rfl
@[simp] theorem setDom_lane (s : State) (d : Nat) (v : Dom) : (setDom s d v).lane = s.lane := rfl
@[simp] theorem setDom_key (s : State) (d : Nat) (v : Dom) : (setDom s d v).key = s.key := rfl
@[simp] theorem setDom_ime (s : State) (d : Nat) (v : Dom) : (setDom s d v).ime = s.ime := rfl
@[simp] theorem setDom_ile (s : State) (d : Nat) (v : Dom) : (setDom s d v).ile = s.ile := rfl
@[simp] theorem setDom_qos (s : State) (d : Nat) (v : Dom) : (setDom s d v).qos = s.qos := rfl
@[simp] theorem setDom_hob (s : State) (d : Nat) (v : Dom) : (setDom s d v).hob = s.hob := rfl
@[simp] theorem setDom_flt (s : State) (d : Nat) (v : Dom) : (setDom s d v).flt = s.flt := rfl
@[simp] theorem setDom_lcs (s : State) (d : Nat) (v : Dom) : (setDom s d v).lcs = s.lcs := rfl
@[simp] theorem setDom_sre (s : State) (d : Nat) (v : Dom) : (setDom s d v).sre = s.sre := rfl
@[simp] theorem setDom_bce (s : State) (d : Nat) (v : Dom) : (setDom s d v).bce = s.bce := rfl
@[simp] theorem setDom_att (s : State) (d : Nat) (v : Dom) : (setDom s d v).att = s.att := rfl
@[simp] theorem setDom_dbg (s : State) (d : Nat) (v : Dom) : (setDom s d v).dbg = s.dbg := rfl
@[simp] theorem setDom_out (s : State) (d : Nat) (v : Dom) : (setDom s d v).out = s.out := rfl
@[simp] theorem setDom_freeIx (s : State) (d : Nat) (v : Dom) : (setDom s d v).freeIx = s.freeIx := rfl
@[simp] theorem setDom_pending (s : State) (d : Nat) (v : Dom) : (setDom s d v).pending = s.pending := rfl

/-! ### setMemPin writes only `pin` -/

@[simp] theorem setMemPin_cfg (s : State) (p : Nat) (v : MemPin) : (setMemPin s p v).cfg = s.cfg := rfl
@[simp] theorem setMemPin_dom (s : State) (p : Nat) (v : MemPin) : (setMemPin s p v).dom = s.dom := rfl
@[simp] theorem setMemPin_tm (s : State) (p : Nat) (v : MemPin) : (setMemPin s p v).tm = s.tm := rfl
@[simp] theorem setMemPin_fuse (s : State) (p : Nat) (v : MemPin) : (setMemPin s p v).fuse = s.fuse := rfl
@[simp] theorem setMemPin_flash (s : State) (p : Nat) (v : MemPin) : (setMemPin s p v).flash = s.flash := rfl
@[simp] theorem setMemPin_gen (s : State) (p : Nat) (v : MemPin) : (setMemPin s p v).gen = s.gen := rfl
@[simp] theorem setMemPin_lane (s : State) (p : Nat) (v : MemPin) : (setMemPin s p v).lane = s.lane := rfl
@[simp] theorem setMemPin_key (s : State) (p : Nat) (v : MemPin) : (setMemPin s p v).key = s.key := rfl
@[simp] theorem setMemPin_ime (s : State) (p : Nat) (v : MemPin) : (setMemPin s p v).ime = s.ime := rfl
@[simp] theorem setMemPin_ile (s : State) (p : Nat) (v : MemPin) : (setMemPin s p v).ile = s.ile := rfl
@[simp] theorem setMemPin_qos (s : State) (p : Nat) (v : MemPin) : (setMemPin s p v).qos = s.qos := rfl
@[simp] theorem setMemPin_hob (s : State) (p : Nat) (v : MemPin) : (setMemPin s p v).hob = s.hob := rfl
@[simp] theorem setMemPin_flt (s : State) (p : Nat) (v : MemPin) : (setMemPin s p v).flt = s.flt := rfl
@[simp] theorem setMemPin_lcs (s : State) (p : Nat) (v : MemPin) : (setMemPin s p v).lcs = s.lcs := rfl
@[simp] theorem setMemPin_sre (s : State) (p : Nat) (v : MemPin) : (setMemPin s p v).sre = s.sre := rfl
@[simp] theorem setMemPin_bce (s : State) (p : Nat) (v : MemPin) : (setMemPin s p v).bce = s.bce := rfl
@[simp] theorem setMemPin_att (s : State) (p : Nat) (v : MemPin) : (setMemPin s p v).att = s.att := rfl
@[simp] theorem setMemPin_dbg (s : State) (p : Nat) (v : MemPin) : (setMemPin s p v).dbg = s.dbg := rfl
@[simp] theorem setMemPin_out (s : State) (p : Nat) (v : MemPin) : (setMemPin s p v).out = s.out := rfl
@[simp] theorem setMemPin_freeIx (s : State) (p : Nat) (v : MemPin) : (setMemPin s p v).freeIx = s.freeIx := rfl
@[simp] theorem setMemPin_pending (s : State) (p : Nat) (v : MemPin) : (setMemPin s p v).pending = s.pending := rfl

/-! ### setLnkPin writes only `pin` -/

@[simp] theorem setLnkPin_cfg (s : State) (e : Nat) (v : LnkPin) : (setLnkPin s e v).cfg = s.cfg := rfl
@[simp] theorem setLnkPin_dom (s : State) (e : Nat) (v : LnkPin) : (setLnkPin s e v).dom = s.dom := rfl
@[simp] theorem setLnkPin_tm (s : State) (e : Nat) (v : LnkPin) : (setLnkPin s e v).tm = s.tm := rfl
@[simp] theorem setLnkPin_fuse (s : State) (e : Nat) (v : LnkPin) : (setLnkPin s e v).fuse = s.fuse := rfl
@[simp] theorem setLnkPin_flash (s : State) (e : Nat) (v : LnkPin) : (setLnkPin s e v).flash = s.flash := rfl
@[simp] theorem setLnkPin_gen (s : State) (e : Nat) (v : LnkPin) : (setLnkPin s e v).gen = s.gen := rfl
@[simp] theorem setLnkPin_lane (s : State) (e : Nat) (v : LnkPin) : (setLnkPin s e v).lane = s.lane := rfl
@[simp] theorem setLnkPin_key (s : State) (e : Nat) (v : LnkPin) : (setLnkPin s e v).key = s.key := rfl
@[simp] theorem setLnkPin_ime (s : State) (e : Nat) (v : LnkPin) : (setLnkPin s e v).ime = s.ime := rfl
@[simp] theorem setLnkPin_ile (s : State) (e : Nat) (v : LnkPin) : (setLnkPin s e v).ile = s.ile := rfl
@[simp] theorem setLnkPin_qos (s : State) (e : Nat) (v : LnkPin) : (setLnkPin s e v).qos = s.qos := rfl
@[simp] theorem setLnkPin_hob (s : State) (e : Nat) (v : LnkPin) : (setLnkPin s e v).hob = s.hob := rfl
@[simp] theorem setLnkPin_flt (s : State) (e : Nat) (v : LnkPin) : (setLnkPin s e v).flt = s.flt := rfl
@[simp] theorem setLnkPin_lcs (s : State) (e : Nat) (v : LnkPin) : (setLnkPin s e v).lcs = s.lcs := rfl
@[simp] theorem setLnkPin_sre (s : State) (e : Nat) (v : LnkPin) : (setLnkPin s e v).sre = s.sre := rfl
@[simp] theorem setLnkPin_bce (s : State) (e : Nat) (v : LnkPin) : (setLnkPin s e v).bce = s.bce := rfl
@[simp] theorem setLnkPin_att (s : State) (e : Nat) (v : LnkPin) : (setLnkPin s e v).att = s.att := rfl
@[simp] theorem setLnkPin_dbg (s : State) (e : Nat) (v : LnkPin) : (setLnkPin s e v).dbg = s.dbg := rfl
@[simp] theorem setLnkPin_out (s : State) (e : Nat) (v : LnkPin) : (setLnkPin s e v).out = s.out := rfl
@[simp] theorem setLnkPin_freeIx (s : State) (e : Nat) (v : LnkPin) : (setLnkPin s e v).freeIx = s.freeIx := rfl
@[simp] theorem setLnkPin_pending (s : State) (e : Nat) (v : LnkPin) : (setLnkPin s e v).pending = s.pending := rfl

/-! ### raiseIrq writes only `gen` -/

@[simp] theorem raiseIrq_cfg (s : State) (i : Nat) : (raiseIrq s i).cfg = s.cfg := rfl
@[simp] theorem raiseIrq_pin (s : State) (i : Nat) : (raiseIrq s i).pin = s.pin := rfl
@[simp] theorem raiseIrq_dom (s : State) (i : Nat) : (raiseIrq s i).dom = s.dom := rfl
@[simp] theorem raiseIrq_tm (s : State) (i : Nat) : (raiseIrq s i).tm = s.tm := rfl
@[simp] theorem raiseIrq_fuse (s : State) (i : Nat) : (raiseIrq s i).fuse = s.fuse := rfl
@[simp] theorem raiseIrq_flash (s : State) (i : Nat) : (raiseIrq s i).flash = s.flash := rfl
@[simp] theorem raiseIrq_lane (s : State) (i : Nat) : (raiseIrq s i).lane = s.lane := rfl
@[simp] theorem raiseIrq_key (s : State) (i : Nat) : (raiseIrq s i).key = s.key := rfl
@[simp] theorem raiseIrq_ime (s : State) (i : Nat) : (raiseIrq s i).ime = s.ime := rfl
@[simp] theorem raiseIrq_ile (s : State) (i : Nat) : (raiseIrq s i).ile = s.ile := rfl
@[simp] theorem raiseIrq_qos (s : State) (i : Nat) : (raiseIrq s i).qos = s.qos := rfl
@[simp] theorem raiseIrq_hob (s : State) (i : Nat) : (raiseIrq s i).hob = s.hob := rfl
@[simp] theorem raiseIrq_flt (s : State) (i : Nat) : (raiseIrq s i).flt = s.flt := rfl
@[simp] theorem raiseIrq_lcs (s : State) (i : Nat) : (raiseIrq s i).lcs = s.lcs := rfl
@[simp] theorem raiseIrq_sre (s : State) (i : Nat) : (raiseIrq s i).sre = s.sre := rfl
@[simp] theorem raiseIrq_bce (s : State) (i : Nat) : (raiseIrq s i).bce = s.bce := rfl
@[simp] theorem raiseIrq_att (s : State) (i : Nat) : (raiseIrq s i).att = s.att := rfl
@[simp] theorem raiseIrq_dbg (s : State) (i : Nat) : (raiseIrq s i).dbg = s.dbg := rfl
@[simp] theorem raiseIrq_out (s : State) (i : Nat) : (raiseIrq s i).out = s.out := rfl
@[simp] theorem raiseIrq_freeIx (s : State) (i : Nat) : (raiseIrq s i).freeIx = s.freeIx := rfl
@[simp] theorem raiseIrq_pending (s : State) (i : Nat) : (raiseIrq s i).pending = s.pending := rfl

/-! ### ignoreWrite writes only `flt` -/

@[simp] theorem ignoreWrite_cfg (s : State) (off : Nat) : (ignoreWrite s off).cfg = s.cfg := rfl
@[simp] theorem ignoreWrite_pin (s : State) (off : Nat) : (ignoreWrite s off).pin = s.pin := rfl
@[simp] theorem ignoreWrite_dom (s : State) (off : Nat) : (ignoreWrite s off).dom = s.dom := rfl
@[simp] theorem ignoreWrite_tm (s : State) (off : Nat) : (ignoreWrite s off).tm = s.tm := rfl
@[simp] theorem ignoreWrite_fuse (s : State) (off : Nat) : (ignoreWrite s off).fuse = s.fuse := rfl
@[simp] theorem ignoreWrite_flash (s : State) (off : Nat) : (ignoreWrite s off).flash = s.flash := rfl
@[simp] theorem ignoreWrite_gen (s : State) (off : Nat) : (ignoreWrite s off).gen = s.gen := rfl
@[simp] theorem ignoreWrite_lane (s : State) (off : Nat) : (ignoreWrite s off).lane = s.lane := rfl
@[simp] theorem ignoreWrite_key (s : State) (off : Nat) : (ignoreWrite s off).key = s.key := rfl
@[simp] theorem ignoreWrite_ime (s : State) (off : Nat) : (ignoreWrite s off).ime = s.ime := rfl
@[simp] theorem ignoreWrite_ile (s : State) (off : Nat) : (ignoreWrite s off).ile = s.ile := rfl
@[simp] theorem ignoreWrite_qos (s : State) (off : Nat) : (ignoreWrite s off).qos = s.qos := rfl
@[simp] theorem ignoreWrite_hob (s : State) (off : Nat) : (ignoreWrite s off).hob = s.hob := rfl
@[simp] theorem ignoreWrite_lcs (s : State) (off : Nat) : (ignoreWrite s off).lcs = s.lcs := rfl
@[simp] theorem ignoreWrite_sre (s : State) (off : Nat) : (ignoreWrite s off).sre = s.sre := rfl
@[simp] theorem ignoreWrite_bce (s : State) (off : Nat) : (ignoreWrite s off).bce = s.bce := rfl
@[simp] theorem ignoreWrite_att (s : State) (off : Nat) : (ignoreWrite s off).att = s.att := rfl
@[simp] theorem ignoreWrite_dbg (s : State) (off : Nat) : (ignoreWrite s off).dbg = s.dbg := rfl
@[simp] theorem ignoreWrite_out (s : State) (off : Nat) : (ignoreWrite s off).out = s.out := rfl
@[simp] theorem ignoreWrite_freeIx (s : State) (off : Nat) : (ignoreWrite s off).freeIx = s.freeIx := rfl
@[simp] theorem ignoreWrite_pending (s : State) (off : Nat) : (ignoreWrite s off).pending = s.pending := rfl

/-! ### countMerged writes only `flt` -/

@[simp] theorem countMerged_cfg (s : State) : (countMerged s).cfg = s.cfg := rfl
@[simp] theorem countMerged_pin (s : State) : (countMerged s).pin = s.pin := rfl
@[simp] theorem countMerged_dom (s : State) : (countMerged s).dom = s.dom := rfl
@[simp] theorem countMerged_tm (s : State) : (countMerged s).tm = s.tm := rfl
@[simp] theorem countMerged_fuse (s : State) : (countMerged s).fuse = s.fuse := rfl
@[simp] theorem countMerged_flash (s : State) : (countMerged s).flash = s.flash := rfl
@[simp] theorem countMerged_gen (s : State) : (countMerged s).gen = s.gen := rfl
@[simp] theorem countMerged_lane (s : State) : (countMerged s).lane = s.lane := rfl
@[simp] theorem countMerged_key (s : State) : (countMerged s).key = s.key := rfl
@[simp] theorem countMerged_ime (s : State) : (countMerged s).ime = s.ime := rfl
@[simp] theorem countMerged_ile (s : State) : (countMerged s).ile = s.ile := rfl
@[simp] theorem countMerged_qos (s : State) : (countMerged s).qos = s.qos := rfl
@[simp] theorem countMerged_hob (s : State) : (countMerged s).hob = s.hob := rfl
@[simp] theorem countMerged_lcs (s : State) : (countMerged s).lcs = s.lcs := rfl
@[simp] theorem countMerged_sre (s : State) : (countMerged s).sre = s.sre := rfl
@[simp] theorem countMerged_bce (s : State) : (countMerged s).bce = s.bce := rfl
@[simp] theorem countMerged_att (s : State) : (countMerged s).att = s.att := rfl
@[simp] theorem countMerged_dbg (s : State) : (countMerged s).dbg = s.dbg := rfl
@[simp] theorem countMerged_out (s : State) : (countMerged s).out = s.out := rfl
@[simp] theorem countMerged_freeIx (s : State) : (countMerged s).freeIx = s.freeIx := rfl
@[simp] theorem countMerged_pending (s : State) : (countMerged s).pending = s.pending := rfl

/-! ### setStat writes only `qos` -/

@[simp] theorem setStat_cfg (s : State) (port cls : Nat) (v : QStat) : (setStat s port cls v).cfg = s.cfg := rfl
@[simp] theorem setStat_pin (s : State) (port cls : Nat) (v : QStat) : (setStat s port cls v).pin = s.pin := rfl
@[simp] theorem setStat_dom (s : State) (port cls : Nat) (v : QStat) : (setStat s port cls v).dom = s.dom := rfl
@[simp] theorem setStat_tm (s : State) (port cls : Nat) (v : QStat) : (setStat s port cls v).tm = s.tm := rfl
@[simp] theorem setStat_fuse (s : State) (port cls : Nat) (v : QStat) : (setStat s port cls v).fuse = s.fuse := rfl
@[simp] theorem setStat_flash (s : State) (port cls : Nat) (v : QStat) : (setStat s port cls v).flash = s.flash := rfl
@[simp] theorem setStat_gen (s : State) (port cls : Nat) (v : QStat) : (setStat s port cls v).gen = s.gen := rfl
@[simp] theorem setStat_lane (s : State) (port cls : Nat) (v : QStat) : (setStat s port cls v).lane = s.lane := rfl
@[simp] theorem setStat_key (s : State) (port cls : Nat) (v : QStat) : (setStat s port cls v).key = s.key := rfl
@[simp] theorem setStat_ime (s : State) (port cls : Nat) (v : QStat) : (setStat s port cls v).ime = s.ime := rfl
@[simp] theorem setStat_ile (s : State) (port cls : Nat) (v : QStat) : (setStat s port cls v).ile = s.ile := rfl
@[simp] theorem setStat_hob (s : State) (port cls : Nat) (v : QStat) : (setStat s port cls v).hob = s.hob := rfl
@[simp] theorem setStat_flt (s : State) (port cls : Nat) (v : QStat) : (setStat s port cls v).flt = s.flt := rfl
@[simp] theorem setStat_lcs (s : State) (port cls : Nat) (v : QStat) : (setStat s port cls v).lcs = s.lcs := rfl
@[simp] theorem setStat_sre (s : State) (port cls : Nat) (v : QStat) : (setStat s port cls v).sre = s.sre := rfl
@[simp] theorem setStat_bce (s : State) (port cls : Nat) (v : QStat) : (setStat s port cls v).bce = s.bce := rfl
@[simp] theorem setStat_att (s : State) (port cls : Nat) (v : QStat) : (setStat s port cls v).att = s.att := rfl
@[simp] theorem setStat_dbg (s : State) (port cls : Nat) (v : QStat) : (setStat s port cls v).dbg = s.dbg := rfl
@[simp] theorem setStat_out (s : State) (port cls : Nat) (v : QStat) : (setStat s port cls v).out = s.out := rfl
@[simp] theorem setStat_freeIx (s : State) (port cls : Nat) (v : QStat) : (setStat s port cls v).freeIx = s.freeIx := rfl
@[simp] theorem setStat_pending (s : State) (port cls : Nat) (v : QStat) : (setStat s port cls v).pending = s.pending := rfl

/-! ### setLport writes only `ile` -/

@[simp] theorem setLport_cfg (s : State) (e : Nat) (p : LPort) : (setLport s e p).cfg = s.cfg := rfl
@[simp] theorem setLport_pin (s : State) (e : Nat) (p : LPort) : (setLport s e p).pin = s.pin := rfl
@[simp] theorem setLport_dom (s : State) (e : Nat) (p : LPort) : (setLport s e p).dom = s.dom := rfl
@[simp] theorem setLport_tm (s : State) (e : Nat) (p : LPort) : (setLport s e p).tm = s.tm := rfl
@[simp] theorem setLport_fuse (s : State) (e : Nat) (p : LPort) : (setLport s e p).fuse = s.fuse := rfl
@[simp] theorem setLport_flash (s : State) (e : Nat) (p : LPort) : (setLport s e p).flash = s.flash := rfl
@[simp] theorem setLport_gen (s : State) (e : Nat) (p : LPort) : (setLport s e p).gen = s.gen := rfl
@[simp] theorem setLport_lane (s : State) (e : Nat) (p : LPort) : (setLport s e p).lane = s.lane := rfl
@[simp] theorem setLport_key (s : State) (e : Nat) (p : LPort) : (setLport s e p).key = s.key := rfl
@[simp] theorem setLport_ime (s : State) (e : Nat) (p : LPort) : (setLport s e p).ime = s.ime := rfl
@[simp] theorem setLport_qos (s : State) (e : Nat) (p : LPort) : (setLport s e p).qos = s.qos := rfl
@[simp] theorem setLport_hob (s : State) (e : Nat) (p : LPort) : (setLport s e p).hob = s.hob := rfl
@[simp] theorem setLport_flt (s : State) (e : Nat) (p : LPort) : (setLport s e p).flt = s.flt := rfl
@[simp] theorem setLport_lcs (s : State) (e : Nat) (p : LPort) : (setLport s e p).lcs = s.lcs := rfl
@[simp] theorem setLport_sre (s : State) (e : Nat) (p : LPort) : (setLport s e p).sre = s.sre := rfl
@[simp] theorem setLport_bce (s : State) (e : Nat) (p : LPort) : (setLport s e p).bce = s.bce := rfl
@[simp] theorem setLport_att (s : State) (e : Nat) (p : LPort) : (setLport s e p).att = s.att := rfl
@[simp] theorem setLport_dbg (s : State) (e : Nat) (p : LPort) : (setLport s e p).dbg = s.dbg := rfl
@[simp] theorem setLport_out (s : State) (e : Nat) (p : LPort) : (setLport s e p).out = s.out := rfl
@[simp] theorem setLport_freeIx (s : State) (e : Nat) (p : LPort) : (setLport s e p).freeIx = s.freeIx := rfl
@[simp] theorem setLport_pending (s : State) (e : Nat) (p : LPort) : (setLport s e p).pending = s.pending := rfl

/-! ### setSlice writes only `hob` -/

@[simp] theorem setSlice_cfg (s : State) (i : Nat) (v : Slice) : (setSlice s i v).cfg = s.cfg := rfl
@[simp] theorem setSlice_pin (s : State) (i : Nat) (v : Slice) : (setSlice s i v).pin = s.pin := rfl
@[simp] theorem setSlice_dom (s : State) (i : Nat) (v : Slice) : (setSlice s i v).dom = s.dom := rfl
@[simp] theorem setSlice_tm (s : State) (i : Nat) (v : Slice) : (setSlice s i v).tm = s.tm := rfl
@[simp] theorem setSlice_fuse (s : State) (i : Nat) (v : Slice) : (setSlice s i v).fuse = s.fuse := rfl
@[simp] theorem setSlice_flash (s : State) (i : Nat) (v : Slice) : (setSlice s i v).flash = s.flash := rfl
@[simp] theorem setSlice_gen (s : State) (i : Nat) (v : Slice) : (setSlice s i v).gen = s.gen := rfl
@[simp] theorem setSlice_lane (s : State) (i : Nat) (v : Slice) : (setSlice s i v).lane = s.lane := rfl
@[simp] theorem setSlice_key (s : State) (i : Nat) (v : Slice) : (setSlice s i v).key = s.key := rfl
@[simp] theorem setSlice_ime (s : State) (i : Nat) (v : Slice) : (setSlice s i v).ime = s.ime := rfl
@[simp] theorem setSlice_ile (s : State) (i : Nat) (v : Slice) : (setSlice s i v).ile = s.ile := rfl
@[simp] theorem setSlice_qos (s : State) (i : Nat) (v : Slice) : (setSlice s i v).qos = s.qos := rfl
@[simp] theorem setSlice_flt (s : State) (i : Nat) (v : Slice) : (setSlice s i v).flt = s.flt := rfl
@[simp] theorem setSlice_lcs (s : State) (i : Nat) (v : Slice) : (setSlice s i v).lcs = s.lcs := rfl
@[simp] theorem setSlice_sre (s : State) (i : Nat) (v : Slice) : (setSlice s i v).sre = s.sre := rfl
@[simp] theorem setSlice_bce (s : State) (i : Nat) (v : Slice) : (setSlice s i v).bce = s.bce := rfl
@[simp] theorem setSlice_att (s : State) (i : Nat) (v : Slice) : (setSlice s i v).att = s.att := rfl
@[simp] theorem setSlice_dbg (s : State) (i : Nat) (v : Slice) : (setSlice s i v).dbg = s.dbg := rfl
@[simp] theorem setSlice_out (s : State) (i : Nat) (v : Slice) : (setSlice s i v).out = s.out := rfl
@[simp] theorem setSlice_freeIx (s : State) (i : Nat) (v : Slice) : (setSlice s i v).freeIx = s.freeIx := rfl
@[simp] theorem setSlice_pending (s : State) (i : Nat) (v : Slice) : (setSlice s i v).pending = s.pending := rfl

/-! ### setQueue writes only `hob` -/

@[simp] theorem setQueue_cfg (s : State) (q : Nat) (v : HQueue) : (setQueue s q v).cfg = s.cfg := rfl
@[simp] theorem setQueue_pin (s : State) (q : Nat) (v : HQueue) : (setQueue s q v).pin = s.pin := rfl
@[simp] theorem setQueue_dom (s : State) (q : Nat) (v : HQueue) : (setQueue s q v).dom = s.dom := rfl
@[simp] theorem setQueue_tm (s : State) (q : Nat) (v : HQueue) : (setQueue s q v).tm = s.tm := rfl
@[simp] theorem setQueue_fuse (s : State) (q : Nat) (v : HQueue) : (setQueue s q v).fuse = s.fuse := rfl
@[simp] theorem setQueue_flash (s : State) (q : Nat) (v : HQueue) : (setQueue s q v).flash = s.flash := rfl
@[simp] theorem setQueue_gen (s : State) (q : Nat) (v : HQueue) : (setQueue s q v).gen = s.gen := rfl
@[simp] theorem setQueue_lane (s : State) (q : Nat) (v : HQueue) : (setQueue s q v).lane = s.lane := rfl
@[simp] theorem setQueue_key (s : State) (q : Nat) (v : HQueue) : (setQueue s q v).key = s.key := rfl
@[simp] theorem setQueue_ime (s : State) (q : Nat) (v : HQueue) : (setQueue s q v).ime = s.ime := rfl
@[simp] theorem setQueue_ile (s : State) (q : Nat) (v : HQueue) : (setQueue s q v).ile = s.ile := rfl
@[simp] theorem setQueue_qos (s : State) (q : Nat) (v : HQueue) : (setQueue s q v).qos = s.qos := rfl
@[simp] theorem setQueue_flt (s : State) (q : Nat) (v : HQueue) : (setQueue s q v).flt = s.flt := rfl
@[simp] theorem setQueue_lcs (s : State) (q : Nat) (v : HQueue) : (setQueue s q v).lcs = s.lcs := rfl
@[simp] theorem setQueue_sre (s : State) (q : Nat) (v : HQueue) : (setQueue s q v).sre = s.sre := rfl
@[simp] theorem setQueue_bce (s : State) (q : Nat) (v : HQueue) : (setQueue s q v).bce = s.bce := rfl
@[simp] theorem setQueue_att (s : State) (q : Nat) (v : HQueue) : (setQueue s q v).att = s.att := rfl
@[simp] theorem setQueue_dbg (s : State) (q : Nat) (v : HQueue) : (setQueue s q v).dbg = s.dbg := rfl
@[simp] theorem setQueue_out (s : State) (q : Nat) (v : HQueue) : (setQueue s q v).out = s.out := rfl
@[simp] theorem setQueue_freeIx (s : State) (q : Nat) (v : HQueue) : (setQueue s q v).freeIx = s.freeIx := rfl
@[simp] theorem setQueue_pending (s : State) (q : Nat) (v : HQueue) : (setQueue s q v).pending = s.pending := rfl

/-! ### setObj writes only `hob` -/

@[simp] theorem setObj_cfg (s : State) (h : Nat) (o : Option HObj) : (setObj s h o).cfg = s.cfg := rfl
@[simp] theorem setObj_pin (s : State) (h : Nat) (o : Option HObj) : (setObj s h o).pin = s.pin := rfl
@[simp] theorem setObj_dom (s : State) (h : Nat) (o : Option HObj) : (setObj s h o).dom = s.dom := rfl
@[simp] theorem setObj_tm (s : State) (h : Nat) (o : Option HObj) : (setObj s h o).tm = s.tm := rfl
@[simp] theorem setObj_fuse (s : State) (h : Nat) (o : Option HObj) : (setObj s h o).fuse = s.fuse := rfl
@[simp] theorem setObj_flash (s : State) (h : Nat) (o : Option HObj) : (setObj s h o).flash = s.flash := rfl
@[simp] theorem setObj_gen (s : State) (h : Nat) (o : Option HObj) : (setObj s h o).gen = s.gen := rfl
@[simp] theorem setObj_lane (s : State) (h : Nat) (o : Option HObj) : (setObj s h o).lane = s.lane := rfl
@[simp] theorem setObj_key (s : State) (h : Nat) (o : Option HObj) : (setObj s h o).key = s.key := rfl
@[simp] theorem setObj_ime (s : State) (h : Nat) (o : Option HObj) : (setObj s h o).ime = s.ime := rfl
@[simp] theorem setObj_ile (s : State) (h : Nat) (o : Option HObj) : (setObj s h o).ile = s.ile := rfl
@[simp] theorem setObj_qos (s : State) (h : Nat) (o : Option HObj) : (setObj s h o).qos = s.qos := rfl
@[simp] theorem setObj_flt (s : State) (h : Nat) (o : Option HObj) : (setObj s h o).flt = s.flt := rfl
@[simp] theorem setObj_lcs (s : State) (h : Nat) (o : Option HObj) : (setObj s h o).lcs = s.lcs := rfl
@[simp] theorem setObj_sre (s : State) (h : Nat) (o : Option HObj) : (setObj s h o).sre = s.sre := rfl
@[simp] theorem setObj_bce (s : State) (h : Nat) (o : Option HObj) : (setObj s h o).bce = s.bce := rfl
@[simp] theorem setObj_att (s : State) (h : Nat) (o : Option HObj) : (setObj s h o).att = s.att := rfl
@[simp] theorem setObj_dbg (s : State) (h : Nat) (o : Option HObj) : (setObj s h o).dbg = s.dbg := rfl
@[simp] theorem setObj_out (s : State) (h : Nat) (o : Option HObj) : (setObj s h o).out = s.out := rfl
@[simp] theorem setObj_freeIx (s : State) (h : Nat) (o : Option HObj) : (setObj s h o).freeIx = s.freeIx := rfl
@[simp] theorem setObj_pending (s : State) (h : Nat) (o : Option HObj) : (setObj s h o).pending = s.pending := rfl

/-! ### setFlight writes only `hob` -/

@[simp] theorem setFlight_cfg (s : State) (id : Nat) (f : Flight) : (setFlight s id f).cfg = s.cfg := rfl
@[simp] theorem setFlight_pin (s : State) (id : Nat) (f : Flight) : (setFlight s id f).pin = s.pin := rfl
@[simp] theorem setFlight_dom (s : State) (id : Nat) (f : Flight) : (setFlight s id f).dom = s.dom := rfl
@[simp] theorem setFlight_tm (s : State) (id : Nat) (f : Flight) : (setFlight s id f).tm = s.tm := rfl
@[simp] theorem setFlight_fuse (s : State) (id : Nat) (f : Flight) : (setFlight s id f).fuse = s.fuse := rfl
@[simp] theorem setFlight_flash (s : State) (id : Nat) (f : Flight) : (setFlight s id f).flash = s.flash := rfl
@[simp] theorem setFlight_gen (s : State) (id : Nat) (f : Flight) : (setFlight s id f).gen = s.gen := rfl
@[simp] theorem setFlight_lane (s : State) (id : Nat) (f : Flight) : (setFlight s id f).lane = s.lane := rfl
@[simp] theorem setFlight_key (s : State) (id : Nat) (f : Flight) : (setFlight s id f).key = s.key := rfl
@[simp] theorem setFlight_ime (s : State) (id : Nat) (f : Flight) : (setFlight s id f).ime = s.ime := rfl
@[simp] theorem setFlight_ile (s : State) (id : Nat) (f : Flight) : (setFlight s id f).ile = s.ile := rfl
@[simp] theorem setFlight_qos (s : State) (id : Nat) (f : Flight) : (setFlight s id f).qos = s.qos := rfl
@[simp] theorem setFlight_flt (s : State) (id : Nat) (f : Flight) : (setFlight s id f).flt = s.flt := rfl
@[simp] theorem setFlight_lcs (s : State) (id : Nat) (f : Flight) : (setFlight s id f).lcs = s.lcs := rfl
@[simp] theorem setFlight_sre (s : State) (id : Nat) (f : Flight) : (setFlight s id f).sre = s.sre := rfl
@[simp] theorem setFlight_bce (s : State) (id : Nat) (f : Flight) : (setFlight s id f).bce = s.bce := rfl
@[simp] theorem setFlight_att (s : State) (id : Nat) (f : Flight) : (setFlight s id f).att = s.att := rfl
@[simp] theorem setFlight_dbg (s : State) (id : Nat) (f : Flight) : (setFlight s id f).dbg = s.dbg := rfl
@[simp] theorem setFlight_out (s : State) (id : Nat) (f : Flight) : (setFlight s id f).out = s.out := rfl
@[simp] theorem setFlight_freeIx (s : State) (id : Nat) (f : Flight) : (setFlight s id f).freeIx = s.freeIx := rfl
@[simp] theorem setFlight_pending (s : State) (id : Nat) (f : Flight) : (setFlight s id f).pending = s.pending := rfl

/-! ### setRegion writes only `ime` -/

@[simp] theorem setRegion_cfg (s : State) (ix : Nat) (r : Region) : (setRegion s ix r).cfg = s.cfg := rfl
@[simp] theorem setRegion_pin (s : State) (ix : Nat) (r : Region) : (setRegion s ix r).pin = s.pin := rfl
@[simp] theorem setRegion_dom (s : State) (ix : Nat) (r : Region) : (setRegion s ix r).dom = s.dom := rfl
@[simp] theorem setRegion_tm (s : State) (ix : Nat) (r : Region) : (setRegion s ix r).tm = s.tm := rfl
@[simp] theorem setRegion_fuse (s : State) (ix : Nat) (r : Region) : (setRegion s ix r).fuse = s.fuse := rfl
@[simp] theorem setRegion_flash (s : State) (ix : Nat) (r : Region) : (setRegion s ix r).flash = s.flash := rfl
@[simp] theorem setRegion_gen (s : State) (ix : Nat) (r : Region) : (setRegion s ix r).gen = s.gen := rfl
@[simp] theorem setRegion_lane (s : State) (ix : Nat) (r : Region) : (setRegion s ix r).lane = s.lane := rfl
@[simp] theorem setRegion_key (s : State) (ix : Nat) (r : Region) : (setRegion s ix r).key = s.key := rfl
@[simp] theorem setRegion_ile (s : State) (ix : Nat) (r : Region) : (setRegion s ix r).ile = s.ile := rfl
@[simp] theorem setRegion_qos (s : State) (ix : Nat) (r : Region) : (setRegion s ix r).qos = s.qos := rfl
@[simp] theorem setRegion_hob (s : State) (ix : Nat) (r : Region) : (setRegion s ix r).hob = s.hob := rfl
@[simp] theorem setRegion_flt (s : State) (ix : Nat) (r : Region) : (setRegion s ix r).flt = s.flt := rfl
@[simp] theorem setRegion_lcs (s : State) (ix : Nat) (r : Region) : (setRegion s ix r).lcs = s.lcs := rfl
@[simp] theorem setRegion_sre (s : State) (ix : Nat) (r : Region) : (setRegion s ix r).sre = s.sre := rfl
@[simp] theorem setRegion_bce (s : State) (ix : Nat) (r : Region) : (setRegion s ix r).bce = s.bce := rfl
@[simp] theorem setRegion_att (s : State) (ix : Nat) (r : Region) : (setRegion s ix r).att = s.att := rfl
@[simp] theorem setRegion_dbg (s : State) (ix : Nat) (r : Region) : (setRegion s ix r).dbg = s.dbg := rfl
@[simp] theorem setRegion_out (s : State) (ix : Nat) (r : Region) : (setRegion s ix r).out = s.out := rfl
@[simp] theorem setRegion_freeIx (s : State) (ix : Nat) (r : Region) : (setRegion s ix r).freeIx = s.freeIx := rfl
@[simp] theorem setRegion_pending (s : State) (ix : Nat) (r : Region) : (setRegion s ix r).pending = s.pending := rfl

/-! ### setCtr writes only `ime` -/

@[simp] theorem setCtr_cfg (s : State) (ix page : Nat) (c : CtrLine) : (setCtr s ix page c).cfg = s.cfg := rfl
@[simp] theorem setCtr_pin (s : State) (ix page : Nat) (c : CtrLine) : (setCtr s ix page c).pin = s.pin := rfl
@[simp] theorem setCtr_dom (s : State) (ix page : Nat) (c : CtrLine) : (setCtr s ix page c).dom = s.dom := rfl
@[simp] theorem setCtr_tm (s : State) (ix page : Nat) (c : CtrLine) : (setCtr s ix page c).tm = s.tm := rfl
@[simp] theorem setCtr_fuse (s : State) (ix page : Nat) (c : CtrLine) : (setCtr s ix page c).fuse = s.fuse := rfl
@[simp] theorem setCtr_flash (s : State) (ix page : Nat) (c : CtrLine) : (setCtr s ix page c).flash = s.flash := rfl
@[simp] theorem setCtr_gen (s : State) (ix page : Nat) (c : CtrLine) : (setCtr s ix page c).gen = s.gen := rfl
@[simp] theorem setCtr_lane (s : State) (ix page : Nat) (c : CtrLine) : (setCtr s ix page c).lane = s.lane := rfl
@[simp] theorem setCtr_key (s : State) (ix page : Nat) (c : CtrLine) : (setCtr s ix page c).key = s.key := rfl
@[simp] theorem setCtr_ile (s : State) (ix page : Nat) (c : CtrLine) : (setCtr s ix page c).ile = s.ile := rfl
@[simp] theorem setCtr_qos (s : State) (ix page : Nat) (c : CtrLine) : (setCtr s ix page c).qos = s.qos := rfl
@[simp] theorem setCtr_hob (s : State) (ix page : Nat) (c : CtrLine) : (setCtr s ix page c).hob = s.hob := rfl
@[simp] theorem setCtr_flt (s : State) (ix page : Nat) (c : CtrLine) : (setCtr s ix page c).flt = s.flt := rfl
@[simp] theorem setCtr_lcs (s : State) (ix page : Nat) (c : CtrLine) : (setCtr s ix page c).lcs = s.lcs := rfl
@[simp] theorem setCtr_sre (s : State) (ix page : Nat) (c : CtrLine) : (setCtr s ix page c).sre = s.sre := rfl
@[simp] theorem setCtr_bce (s : State) (ix page : Nat) (c : CtrLine) : (setCtr s ix page c).bce = s.bce := rfl
@[simp] theorem setCtr_att (s : State) (ix page : Nat) (c : CtrLine) : (setCtr s ix page c).att = s.att := rfl
@[simp] theorem setCtr_dbg (s : State) (ix page : Nat) (c : CtrLine) : (setCtr s ix page c).dbg = s.dbg := rfl
@[simp] theorem setCtr_out (s : State) (ix page : Nat) (c : CtrLine) : (setCtr s ix page c).out = s.out := rfl
@[simp] theorem setCtr_freeIx (s : State) (ix page : Nat) (c : CtrLine) : (setCtr s ix page c).freeIx = s.freeIx := rfl
@[simp] theorem setCtr_pending (s : State) (ix page : Nat) (c : CtrLine) : (setCtr s ix page c).pending = s.pending := rfl

/-! ### pushEnt writes only `ime` -/

@[simp] theorem pushEnt_cfg (s : State) (e : MemEnt) : (pushEnt s e).cfg = s.cfg := rfl
@[simp] theorem pushEnt_pin (s : State) (e : MemEnt) : (pushEnt s e).pin = s.pin := rfl
@[simp] theorem pushEnt_dom (s : State) (e : MemEnt) : (pushEnt s e).dom = s.dom := rfl
@[simp] theorem pushEnt_tm (s : State) (e : MemEnt) : (pushEnt s e).tm = s.tm := rfl
@[simp] theorem pushEnt_fuse (s : State) (e : MemEnt) : (pushEnt s e).fuse = s.fuse := rfl
@[simp] theorem pushEnt_flash (s : State) (e : MemEnt) : (pushEnt s e).flash = s.flash := rfl
@[simp] theorem pushEnt_gen (s : State) (e : MemEnt) : (pushEnt s e).gen = s.gen := rfl
@[simp] theorem pushEnt_lane (s : State) (e : MemEnt) : (pushEnt s e).lane = s.lane := rfl
@[simp] theorem pushEnt_key (s : State) (e : MemEnt) : (pushEnt s e).key = s.key := rfl
@[simp] theorem pushEnt_ile (s : State) (e : MemEnt) : (pushEnt s e).ile = s.ile := rfl
@[simp] theorem pushEnt_qos (s : State) (e : MemEnt) : (pushEnt s e).qos = s.qos := rfl
@[simp] theorem pushEnt_hob (s : State) (e : MemEnt) : (pushEnt s e).hob = s.hob := rfl
@[simp] theorem pushEnt_flt (s : State) (e : MemEnt) : (pushEnt s e).flt = s.flt := rfl
@[simp] theorem pushEnt_lcs (s : State) (e : MemEnt) : (pushEnt s e).lcs = s.lcs := rfl
@[simp] theorem pushEnt_sre (s : State) (e : MemEnt) : (pushEnt s e).sre = s.sre := rfl
@[simp] theorem pushEnt_bce (s : State) (e : MemEnt) : (pushEnt s e).bce = s.bce := rfl
@[simp] theorem pushEnt_att (s : State) (e : MemEnt) : (pushEnt s e).att = s.att := rfl
@[simp] theorem pushEnt_dbg (s : State) (e : MemEnt) : (pushEnt s e).dbg = s.dbg := rfl
@[simp] theorem pushEnt_out (s : State) (e : MemEnt) : (pushEnt s e).out = s.out := rfl
@[simp] theorem pushEnt_freeIx (s : State) (e : MemEnt) : (pushEnt s e).freeIx = s.freeIx := rfl
@[simp] theorem pushEnt_pending (s : State) (e : MemEnt) : (pushEnt s e).pending = s.pending := rfl

/-! ### setEnt writes only `ime` -/

@[simp] theorem setEnt_cfg (s : State) (e : MemEnt) : (setEnt s e).cfg = s.cfg := rfl
@[simp] theorem setEnt_pin (s : State) (e : MemEnt) : (setEnt s e).pin = s.pin := rfl
@[simp] theorem setEnt_dom (s : State) (e : MemEnt) : (setEnt s e).dom = s.dom := rfl
@[simp] theorem setEnt_tm (s : State) (e : MemEnt) : (setEnt s e).tm = s.tm := rfl
@[simp] theorem setEnt_fuse (s : State) (e : MemEnt) : (setEnt s e).fuse = s.fuse := rfl
@[simp] theorem setEnt_flash (s : State) (e : MemEnt) : (setEnt s e).flash = s.flash := rfl
@[simp] theorem setEnt_gen (s : State) (e : MemEnt) : (setEnt s e).gen = s.gen := rfl
@[simp] theorem setEnt_lane (s : State) (e : MemEnt) : (setEnt s e).lane = s.lane := rfl
@[simp] theorem setEnt_key (s : State) (e : MemEnt) : (setEnt s e).key = s.key := rfl
@[simp] theorem setEnt_ile (s : State) (e : MemEnt) : (setEnt s e).ile = s.ile := rfl
@[simp] theorem setEnt_qos (s : State) (e : MemEnt) : (setEnt s e).qos = s.qos := rfl
@[simp] theorem setEnt_hob (s : State) (e : MemEnt) : (setEnt s e).hob = s.hob := rfl
@[simp] theorem setEnt_flt (s : State) (e : MemEnt) : (setEnt s e).flt = s.flt := rfl
@[simp] theorem setEnt_lcs (s : State) (e : MemEnt) : (setEnt s e).lcs = s.lcs := rfl
@[simp] theorem setEnt_sre (s : State) (e : MemEnt) : (setEnt s e).sre = s.sre := rfl
@[simp] theorem setEnt_bce (s : State) (e : MemEnt) : (setEnt s e).bce = s.bce := rfl
@[simp] theorem setEnt_att (s : State) (e : MemEnt) : (setEnt s e).att = s.att := rfl
@[simp] theorem setEnt_dbg (s : State) (e : MemEnt) : (setEnt s e).dbg = s.dbg := rfl
@[simp] theorem setEnt_out (s : State) (e : MemEnt) : (setEnt s e).out = s.out := rfl
@[simp] theorem setEnt_freeIx (s : State) (e : MemEnt) : (setEnt s e).freeIx = s.freeIx := rfl
@[simp] theorem setEnt_pending (s : State) (e : MemEnt) : (setEnt s e).pending = s.pending := rfl

/-! ### dropEnt writes only `ime` -/

@[simp] theorem dropEnt_cfg (s : State) (seq : Nat) : (dropEnt s seq).cfg = s.cfg := rfl
@[simp] theorem dropEnt_pin (s : State) (seq : Nat) : (dropEnt s seq).pin = s.pin := rfl
@[simp] theorem dropEnt_dom (s : State) (seq : Nat) : (dropEnt s seq).dom = s.dom := rfl
@[simp] theorem dropEnt_tm (s : State) (seq : Nat) : (dropEnt s seq).tm = s.tm := rfl
@[simp] theorem dropEnt_fuse (s : State) (seq : Nat) : (dropEnt s seq).fuse = s.fuse := rfl
@[simp] theorem dropEnt_flash (s : State) (seq : Nat) : (dropEnt s seq).flash = s.flash := rfl
@[simp] theorem dropEnt_gen (s : State) (seq : Nat) : (dropEnt s seq).gen = s.gen := rfl
@[simp] theorem dropEnt_lane (s : State) (seq : Nat) : (dropEnt s seq).lane = s.lane := rfl
@[simp] theorem dropEnt_key (s : State) (seq : Nat) : (dropEnt s seq).key = s.key := rfl
@[simp] theorem dropEnt_ile (s : State) (seq : Nat) : (dropEnt s seq).ile = s.ile := rfl
@[simp] theorem dropEnt_qos (s : State) (seq : Nat) : (dropEnt s seq).qos = s.qos := rfl
@[simp] theorem dropEnt_hob (s : State) (seq : Nat) : (dropEnt s seq).hob = s.hob := rfl
@[simp] theorem dropEnt_flt (s : State) (seq : Nat) : (dropEnt s seq).flt = s.flt := rfl
@[simp] theorem dropEnt_lcs (s : State) (seq : Nat) : (dropEnt s seq).lcs = s.lcs := rfl
@[simp] theorem dropEnt_sre (s : State) (seq : Nat) : (dropEnt s seq).sre = s.sre := rfl
@[simp] theorem dropEnt_bce (s : State) (seq : Nat) : (dropEnt s seq).bce = s.bce := rfl
@[simp] theorem dropEnt_att (s : State) (seq : Nat) : (dropEnt s seq).att = s.att := rfl
@[simp] theorem dropEnt_dbg (s : State) (seq : Nat) : (dropEnt s seq).dbg = s.dbg := rfl
@[simp] theorem dropEnt_out (s : State) (seq : Nat) : (dropEnt s seq).out = s.out := rfl
@[simp] theorem dropEnt_freeIx (s : State) (seq : Nat) : (dropEnt s seq).freeIx = s.freeIx := rfl
@[simp] theorem dropEnt_pending (s : State) (seq : Nat) : (dropEnt s seq).pending = s.pending := rfl

/-! ### putResident writes only `ile` -/

@[simp] theorem putResident_cfg (s : State) (r : Resident) : (putResident s r).cfg = s.cfg := rfl
@[simp] theorem putResident_pin (s : State) (r : Resident) : (putResident s r).pin = s.pin := rfl
@[simp] theorem putResident_dom (s : State) (r : Resident) : (putResident s r).dom = s.dom := rfl
@[simp] theorem putResident_tm (s : State) (r : Resident) : (putResident s r).tm = s.tm := rfl
@[simp] theorem putResident_fuse (s : State) (r : Resident) : (putResident s r).fuse = s.fuse := rfl
@[simp] theorem putResident_flash (s : State) (r : Resident) : (putResident s r).flash = s.flash := rfl
@[simp] theorem putResident_gen (s : State) (r : Resident) : (putResident s r).gen = s.gen := rfl
@[simp] theorem putResident_lane (s : State) (r : Resident) : (putResident s r).lane = s.lane := rfl
@[simp] theorem putResident_key (s : State) (r : Resident) : (putResident s r).key = s.key := rfl
@[simp] theorem putResident_ime (s : State) (r : Resident) : (putResident s r).ime = s.ime := rfl
@[simp] theorem putResident_qos (s : State) (r : Resident) : (putResident s r).qos = s.qos := rfl
@[simp] theorem putResident_hob (s : State) (r : Resident) : (putResident s r).hob = s.hob := rfl
@[simp] theorem putResident_flt (s : State) (r : Resident) : (putResident s r).flt = s.flt := rfl
@[simp] theorem putResident_lcs (s : State) (r : Resident) : (putResident s r).lcs = s.lcs := rfl
@[simp] theorem putResident_sre (s : State) (r : Resident) : (putResident s r).sre = s.sre := rfl
@[simp] theorem putResident_bce (s : State) (r : Resident) : (putResident s r).bce = s.bce := rfl
@[simp] theorem putResident_att (s : State) (r : Resident) : (putResident s r).att = s.att := rfl
@[simp] theorem putResident_dbg (s : State) (r : Resident) : (putResident s r).dbg = s.dbg := rfl
@[simp] theorem putResident_out (s : State) (r : Resident) : (putResident s r).out = s.out := rfl
@[simp] theorem putResident_freeIx (s : State) (r : Resident) : (putResident s r).freeIx = s.freeIx := rfl
@[simp] theorem putResident_pending (s : State) (r : Resident) : (putResident s r).pending = s.pending := rfl

/-! ### dropResident writes only `ile` -/

@[simp] theorem dropResident_cfg (s : State) (line : Nat) : (dropResident s line).cfg = s.cfg := rfl
@[simp] theorem dropResident_pin (s : State) (line : Nat) : (dropResident s line).pin = s.pin := rfl
@[simp] theorem dropResident_dom (s : State) (line : Nat) : (dropResident s line).dom = s.dom := rfl
@[simp] theorem dropResident_tm (s : State) (line : Nat) : (dropResident s line).tm = s.tm := rfl
@[simp] theorem dropResident_fuse (s : State) (line : Nat) : (dropResident s line).fuse = s.fuse := rfl
@[simp] theorem dropResident_flash (s : State) (line : Nat) : (dropResident s line).flash = s.flash := rfl
@[simp] theorem dropResident_gen (s : State) (line : Nat) : (dropResident s line).gen = s.gen := rfl
@[simp] theorem dropResident_lane (s : State) (line : Nat) : (dropResident s line).lane = s.lane := rfl
@[simp] theorem dropResident_key (s : State) (line : Nat) : (dropResident s line).key = s.key := rfl
@[simp] theorem dropResident_ime (s : State) (line : Nat) : (dropResident s line).ime = s.ime := rfl
@[simp] theorem dropResident_qos (s : State) (line : Nat) : (dropResident s line).qos = s.qos := rfl
@[simp] theorem dropResident_hob (s : State) (line : Nat) : (dropResident s line).hob = s.hob := rfl
@[simp] theorem dropResident_flt (s : State) (line : Nat) : (dropResident s line).flt = s.flt := rfl
@[simp] theorem dropResident_lcs (s : State) (line : Nat) : (dropResident s line).lcs = s.lcs := rfl
@[simp] theorem dropResident_sre (s : State) (line : Nat) : (dropResident s line).sre = s.sre := rfl
@[simp] theorem dropResident_bce (s : State) (line : Nat) : (dropResident s line).bce = s.bce := rfl
@[simp] theorem dropResident_att (s : State) (line : Nat) : (dropResident s line).att = s.att := rfl
@[simp] theorem dropResident_dbg (s : State) (line : Nat) : (dropResident s line).dbg = s.dbg := rfl
@[simp] theorem dropResident_out (s : State) (line : Nat) : (dropResident s line).out = s.out := rfl
@[simp] theorem dropResident_freeIx (s : State) (line : Nat) : (dropResident s line).freeIx = s.freeIx := rfl
@[simp] theorem dropResident_pending (s : State) (line : Nat) : (dropResident s line).pending = s.pending := rfl

/-! ### setSlot writes only `key` -/

@[simp] theorem setSlot_cfg (s : State) (i : Nat) (v : Option Slot) : (setSlot s i v).cfg = s.cfg := rfl
@[simp] theorem setSlot_pin (s : State) (i : Nat) (v : Option Slot) : (setSlot s i v).pin = s.pin := rfl
@[simp] theorem setSlot_dom (s : State) (i : Nat) (v : Option Slot) : (setSlot s i v).dom = s.dom := rfl
@[simp] theorem setSlot_tm (s : State) (i : Nat) (v : Option Slot) : (setSlot s i v).tm = s.tm := rfl
@[simp] theorem setSlot_fuse (s : State) (i : Nat) (v : Option Slot) : (setSlot s i v).fuse = s.fuse := rfl
@[simp] theorem setSlot_flash (s : State) (i : Nat) (v : Option Slot) : (setSlot s i v).flash = s.flash := rfl
@[simp] theorem setSlot_gen (s : State) (i : Nat) (v : Option Slot) : (setSlot s i v).gen = s.gen := rfl
@[simp] theorem setSlot_lane (s : State) (i : Nat) (v : Option Slot) : (setSlot s i v).lane = s.lane := rfl
@[simp] theorem setSlot_ime (s : State) (i : Nat) (v : Option Slot) : (setSlot s i v).ime = s.ime := rfl
@[simp] theorem setSlot_ile (s : State) (i : Nat) (v : Option Slot) : (setSlot s i v).ile = s.ile := rfl
@[simp] theorem setSlot_qos (s : State) (i : Nat) (v : Option Slot) : (setSlot s i v).qos = s.qos := rfl
@[simp] theorem setSlot_hob (s : State) (i : Nat) (v : Option Slot) : (setSlot s i v).hob = s.hob := rfl
@[simp] theorem setSlot_flt (s : State) (i : Nat) (v : Option Slot) : (setSlot s i v).flt = s.flt := rfl
@[simp] theorem setSlot_lcs (s : State) (i : Nat) (v : Option Slot) : (setSlot s i v).lcs = s.lcs := rfl
@[simp] theorem setSlot_sre (s : State) (i : Nat) (v : Option Slot) : (setSlot s i v).sre = s.sre := rfl
@[simp] theorem setSlot_bce (s : State) (i : Nat) (v : Option Slot) : (setSlot s i v).bce = s.bce := rfl
@[simp] theorem setSlot_att (s : State) (i : Nat) (v : Option Slot) : (setSlot s i v).att = s.att := rfl
@[simp] theorem setSlot_dbg (s : State) (i : Nat) (v : Option Slot) : (setSlot s i v).dbg = s.dbg := rfl
@[simp] theorem setSlot_out (s : State) (i : Nat) (v : Option Slot) : (setSlot s i v).out = s.out := rfl
@[simp] theorem setSlot_freeIx (s : State) (i : Nat) (v : Option Slot) : (setSlot s i v).freeIx = s.freeIx := rfl
@[simp] theorem setSlot_pending (s : State) (i : Nat) (v : Option Slot) : (setSlot s i v).pending = s.pending := rfl

/-! ### keyReason writes only `key` -/

@[simp] theorem keyReason_cfg (s : State) (c : Code) : (keyReason s c).cfg = s.cfg := by unfold keyReason; split <;> (try split) <;> first | rfl | simp
@[simp] theorem keyReason_pin (s : State) (c : Code) : (keyReason s c).pin = s.pin := by unfold keyReason; split <;> (try split) <;> first | rfl | simp
@[simp] theorem keyReason_dom (s : State) (c : Code) : (keyReason s c).dom = s.dom := by unfold keyReason; split <;> (try split) <;> first | rfl | simp
@[simp] theorem keyReason_tm (s : State) (c : Code) : (keyReason s c).tm = s.tm := by unfold keyReason; split <;> (try split) <;> first | rfl | simp
@[simp] theorem keyReason_fuse (s : State) (c : Code) : (keyReason s c).fuse = s.fuse := by unfold keyReason; split <;> (try split) <;> first | rfl | simp
@[simp] theorem keyReason_flash (s : State) (c : Code) : (keyReason s c).flash = s.flash := by unfold keyReason; split <;> (try split) <;> first | rfl | simp
@[simp] theorem keyReason_gen (s : State) (c : Code) : (keyReason s c).gen = s.gen := by unfold keyReason; split <;> (try split) <;> first | rfl | simp
@[simp] theorem keyReason_lane (s : State) (c : Code) : (keyReason s c).lane = s.lane := by unfold keyReason; split <;> (try split) <;> first | rfl | simp
@[simp] theorem keyReason_ime (s : State) (c : Code) : (keyReason s c).ime = s.ime := by unfold keyReason; split <;> (try split) <;> first | rfl | simp
@[simp] theorem keyReason_ile (s : State) (c : Code) : (keyReason s c).ile = s.ile := by unfold keyReason; split <;> (try split) <;> first | rfl | simp
@[simp] theorem keyReason_qos (s : State) (c : Code) : (keyReason s c).qos = s.qos := by unfold keyReason; split <;> (try split) <;> first | rfl | simp
@[simp] theorem keyReason_hob (s : State) (c : Code) : (keyReason s c).hob = s.hob := by unfold keyReason; split <;> (try split) <;> first | rfl | simp
@[simp] theorem keyReason_flt (s : State) (c : Code) : (keyReason s c).flt = s.flt := by unfold keyReason; split <;> (try split) <;> first | rfl | simp
@[simp] theorem keyReason_lcs (s : State) (c : Code) : (keyReason s c).lcs = s.lcs := by unfold keyReason; split <;> (try split) <;> first | rfl | simp
@[simp] theorem keyReason_sre (s : State) (c : Code) : (keyReason s c).sre = s.sre := by unfold keyReason; split <;> (try split) <;> first | rfl | simp
@[simp] theorem keyReason_bce (s : State) (c : Code) : (keyReason s c).bce = s.bce := by unfold keyReason; split <;> (try split) <;> first | rfl | simp
@[simp] theorem keyReason_att (s : State) (c : Code) : (keyReason s c).att = s.att := by unfold keyReason; split <;> (try split) <;> first | rfl | simp
@[simp] theorem keyReason_dbg (s : State) (c : Code) : (keyReason s c).dbg = s.dbg := by unfold keyReason; split <;> (try split) <;> first | rfl | simp
@[simp] theorem keyReason_out (s : State) (c : Code) : (keyReason s c).out = s.out := by unfold keyReason; split <;> (try split) <;> first | rfl | simp
@[simp] theorem keyReason_freeIx (s : State) (c : Code) : (keyReason s c).freeIx = s.freeIx := by unfold keyReason; split <;> (try split) <;> first | rfl | simp
@[simp] theorem keyReason_pending (s : State) (c : Code) : (keyReason s c).pending = s.pending := by unfold keyReason; split <;> (try split) <;> first | rfl | simp

/-! ### setLane writes only `lane` -/

@[simp] theorem setLane_cfg (s : State) (i : Nat) (v : Lane) : (setLane s i v).cfg = s.cfg := rfl
@[simp] theorem setLane_pin (s : State) (i : Nat) (v : Lane) : (setLane s i v).pin = s.pin := rfl
@[simp] theorem setLane_dom (s : State) (i : Nat) (v : Lane) : (setLane s i v).dom = s.dom := rfl
@[simp] theorem setLane_tm (s : State) (i : Nat) (v : Lane) : (setLane s i v).tm = s.tm := rfl
@[simp] theorem setLane_fuse (s : State) (i : Nat) (v : Lane) : (setLane s i v).fuse = s.fuse := rfl
@[simp] theorem setLane_flash (s : State) (i : Nat) (v : Lane) : (setLane s i v).flash = s.flash := rfl
@[simp] theorem setLane_gen (s : State) (i : Nat) (v : Lane) : (setLane s i v).gen = s.gen := rfl
@[simp] theorem setLane_key (s : State) (i : Nat) (v : Lane) : (setLane s i v).key = s.key := rfl
@[simp] theorem setLane_ime (s : State) (i : Nat) (v : Lane) : (setLane s i v).ime = s.ime := rfl
@[simp] theorem setLane_ile (s : State) (i : Nat) (v : Lane) : (setLane s i v).ile = s.ile := rfl
@[simp] theorem setLane_qos (s : State) (i : Nat) (v : Lane) : (setLane s i v).qos = s.qos := rfl
@[simp] theorem setLane_hob (s : State) (i : Nat) (v : Lane) : (setLane s i v).hob = s.hob := rfl
@[simp] theorem setLane_flt (s : State) (i : Nat) (v : Lane) : (setLane s i v).flt = s.flt := rfl
@[simp] theorem setLane_lcs (s : State) (i : Nat) (v : Lane) : (setLane s i v).lcs = s.lcs := rfl
@[simp] theorem setLane_sre (s : State) (i : Nat) (v : Lane) : (setLane s i v).sre = s.sre := rfl
@[simp] theorem setLane_bce (s : State) (i : Nat) (v : Lane) : (setLane s i v).bce = s.bce := rfl
@[simp] theorem setLane_att (s : State) (i : Nat) (v : Lane) : (setLane s i v).att = s.att := rfl
@[simp] theorem setLane_dbg (s : State) (i : Nat) (v : Lane) : (setLane s i v).dbg = s.dbg := rfl
@[simp] theorem setLane_out (s : State) (i : Nat) (v : Lane) : (setLane s i v).out = s.out := rfl
@[simp] theorem setLane_freeIx (s : State) (i : Nat) (v : Lane) : (setLane s i v).freeIx = s.freeIx := rfl
@[simp] theorem setLane_pending (s : State) (i : Nat) (v : Lane) : (setLane s i v).pending = s.pending := rfl

/-! ### setCredit writes only `qos` -/

@[simp] theorem setCredit_cfg (s : State) (q cls v : Nat) : (setCredit s q cls v).cfg = s.cfg := rfl
@[simp] theorem setCredit_pin (s : State) (q cls v : Nat) : (setCredit s q cls v).pin = s.pin := rfl
@[simp] theorem setCredit_dom (s : State) (q cls v : Nat) : (setCredit s q cls v).dom = s.dom := rfl
@[simp] theorem setCredit_tm (s : State) (q cls v : Nat) : (setCredit s q cls v).tm = s.tm := rfl
@[simp] theorem setCredit_fuse (s : State) (q cls v : Nat) : (setCredit s q cls v).fuse = s.fuse := rfl
@[simp] theorem setCredit_flash (s : State) (q cls v : Nat) : (setCredit s q cls v).flash = s.flash := rfl
@[simp] theorem setCredit_gen (s : State) (q cls v : Nat) : (setCredit s q cls v).gen = s.gen := rfl
@[simp] theorem setCredit_lane (s : State) (q cls v : Nat) : (setCredit s q cls v).lane = s.lane := rfl
@[simp] theorem setCredit_key (s : State) (q cls v : Nat) : (setCredit s q cls v).key = s.key := rfl
@[simp] theorem setCredit_ime (s : State) (q cls v : Nat) : (setCredit s q cls v).ime = s.ime := rfl
@[simp] theorem setCredit_ile (s : State) (q cls v : Nat) : (setCredit s q cls v).ile = s.ile := rfl
@[simp] theorem setCredit_hob (s : State) (q cls v : Nat) : (setCredit s q cls v).hob = s.hob := rfl
@[simp] theorem setCredit_flt (s : State) (q cls v : Nat) : (setCredit s q cls v).flt = s.flt := rfl
@[simp] theorem setCredit_lcs (s : State) (q cls v : Nat) : (setCredit s q cls v).lcs = s.lcs := rfl
@[simp] theorem setCredit_sre (s : State) (q cls v : Nat) : (setCredit s q cls v).sre = s.sre := rfl
@[simp] theorem setCredit_bce (s : State) (q cls v : Nat) : (setCredit s q cls v).bce = s.bce := rfl
@[simp] theorem setCredit_att (s : State) (q cls v : Nat) : (setCredit s q cls v).att = s.att := rfl
@[simp] theorem setCredit_dbg (s : State) (q cls v : Nat) : (setCredit s q cls v).dbg = s.dbg := rfl
@[simp] theorem setCredit_out (s : State) (q cls v : Nat) : (setCredit s q cls v).out = s.out := rfl
@[simp] theorem setCredit_freeIx (s : State) (q cls v : Nat) : (setCredit s q cls v).freeIx = s.freeIx := rfl
@[simp] theorem setCredit_pending (s : State) (q cls v : Nat) : (setCredit s q cls v).pending = s.pending := rfl

/-! ### modColl writes only `sre` -/

@[simp] theorem modColl_cfg (s : State) (ix : Nat) (f : Coll → Coll) : (modColl s ix f).cfg = s.cfg := rfl
@[simp] theorem modColl_pin (s : State) (ix : Nat) (f : Coll → Coll) : (modColl s ix f).pin = s.pin := rfl
@[simp] theorem modColl_dom (s : State) (ix : Nat) (f : Coll → Coll) : (modColl s ix f).dom = s.dom := rfl
@[simp] theorem modColl_tm (s : State) (ix : Nat) (f : Coll → Coll) : (modColl s ix f).tm = s.tm := rfl
@[simp] theorem modColl_fuse (s : State) (ix : Nat) (f : Coll → Coll) : (modColl s ix f).fuse = s.fuse := rfl
@[simp] theorem modColl_flash (s : State) (ix : Nat) (f : Coll → Coll) : (modColl s ix f).flash = s.flash := rfl
@[simp] theorem modColl_gen (s : State) (ix : Nat) (f : Coll → Coll) : (modColl s ix f).gen = s.gen := rfl
@[simp] theorem modColl_lane (s : State) (ix : Nat) (f : Coll → Coll) : (modColl s ix f).lane = s.lane := rfl
@[simp] theorem modColl_key (s : State) (ix : Nat) (f : Coll → Coll) : (modColl s ix f).key = s.key := rfl
@[simp] theorem modColl_ime (s : State) (ix : Nat) (f : Coll → Coll) : (modColl s ix f).ime = s.ime := rfl
@[simp] theorem modColl_ile (s : State) (ix : Nat) (f : Coll → Coll) : (modColl s ix f).ile = s.ile := rfl
@[simp] theorem modColl_qos (s : State) (ix : Nat) (f : Coll → Coll) : (modColl s ix f).qos = s.qos := rfl
@[simp] theorem modColl_hob (s : State) (ix : Nat) (f : Coll → Coll) : (modColl s ix f).hob = s.hob := rfl
@[simp] theorem modColl_flt (s : State) (ix : Nat) (f : Coll → Coll) : (modColl s ix f).flt = s.flt := rfl
@[simp] theorem modColl_lcs (s : State) (ix : Nat) (f : Coll → Coll) : (modColl s ix f).lcs = s.lcs := rfl
@[simp] theorem modColl_bce (s : State) (ix : Nat) (f : Coll → Coll) : (modColl s ix f).bce = s.bce := rfl
@[simp] theorem modColl_att (s : State) (ix : Nat) (f : Coll → Coll) : (modColl s ix f).att = s.att := rfl
@[simp] theorem modColl_dbg (s : State) (ix : Nat) (f : Coll → Coll) : (modColl s ix f).dbg = s.dbg := rfl
@[simp] theorem modColl_out (s : State) (ix : Nat) (f : Coll → Coll) : (modColl s ix f).out = s.out := rfl
@[simp] theorem modColl_freeIx (s : State) (ix : Nat) (f : Coll → Coll) : (modColl s ix f).freeIx = s.freeIx := rfl
@[simp] theorem modColl_pending (s : State) (ix : Nat) (f : Coll → Coll) : (modColl s ix f).pending = s.pending := rfl

/-! ### modCut writes only `bce` -/

@[simp] theorem modCut_cfg (s : State) (ix : Nat) (f : Cut → Cut) : (modCut s ix f).cfg = s.cfg := rfl
@[simp] theorem modCut_pin (s : State) (ix : Nat) (f : Cut → Cut) : (modCut s ix f).pin = s.pin := rfl
@[simp] theorem modCut_dom (s : State) (ix : Nat) (f : Cut → Cut) : (modCut s ix f).dom = s.dom := rfl
@[simp] theorem modCut_tm (s : State) (ix : Nat) (f : Cut → Cut) : (modCut s ix f).tm = s.tm := rfl
@[simp] theorem modCut_fuse (s : State) (ix : Nat) (f : Cut → Cut) : (modCut s ix f).fuse = s.fuse := rfl
@[simp] theorem modCut_flash (s : State) (ix : Nat) (f : Cut → Cut) : (modCut s ix f).flash = s.flash := rfl
@[simp] theorem modCut_gen (s : State) (ix : Nat) (f : Cut → Cut) : (modCut s ix f).gen = s.gen := rfl
@[simp] theorem modCut_lane (s : State) (ix : Nat) (f : Cut → Cut) : (modCut s ix f).lane = s.lane := rfl
@[simp] theorem modCut_key (s : State) (ix : Nat) (f : Cut → Cut) : (modCut s ix f).key = s.key := rfl
@[simp] theorem modCut_ime (s : State) (ix : Nat) (f : Cut → Cut) : (modCut s ix f).ime = s.ime := rfl
@[simp] theorem modCut_ile (s : State) (ix : Nat) (f : Cut → Cut) : (modCut s ix f).ile = s.ile := rfl
@[simp] theorem modCut_qos (s : State) (ix : Nat) (f : Cut → Cut) : (modCut s ix f).qos = s.qos := rfl
@[simp] theorem modCut_hob (s : State) (ix : Nat) (f : Cut → Cut) : (modCut s ix f).hob = s.hob := rfl
@[simp] theorem modCut_flt (s : State) (ix : Nat) (f : Cut → Cut) : (modCut s ix f).flt = s.flt := rfl
@[simp] theorem modCut_lcs (s : State) (ix : Nat) (f : Cut → Cut) : (modCut s ix f).lcs = s.lcs := rfl
@[simp] theorem modCut_sre (s : State) (ix : Nat) (f : Cut → Cut) : (modCut s ix f).sre = s.sre := rfl
@[simp] theorem modCut_att (s : State) (ix : Nat) (f : Cut → Cut) : (modCut s ix f).att = s.att := rfl
@[simp] theorem modCut_dbg (s : State) (ix : Nat) (f : Cut → Cut) : (modCut s ix f).dbg = s.dbg := rfl
@[simp] theorem modCut_out (s : State) (ix : Nat) (f : Cut → Cut) : (modCut s ix f).out = s.out := rfl
@[simp] theorem modCut_freeIx (s : State) (ix : Nat) (f : Cut → Cut) : (modCut s ix f).freeIx = s.freeIx := rfl
@[simp] theorem modCut_pending (s : State) (ix : Nat) (f : Cut → Cut) : (modCut s ix f).pending = s.pending := rfl

/-! ### setJob writes only `bce` -/

@[simp] theorem setJob_cfg (s : State) (j : Job) : (setJob s j).cfg = s.cfg := rfl
@[simp] theorem setJob_pin (s : State) (j : Job) : (setJob s j).pin = s.pin := rfl
@[simp] theorem setJob_dom (s : State) (j : Job) : (setJob s j).dom = s.dom := rfl
@[simp] theorem setJob_tm (s : State) (j : Job) : (setJob s j).tm = s.tm := rfl
@[simp] theorem setJob_fuse (s : State) (j : Job) : (setJob s j).fuse = s.fuse := rfl
@[simp] theorem setJob_flash (s : State) (j : Job) : (setJob s j).flash = s.flash := rfl
@[simp] theorem setJob_gen (s : State) (j : Job) : (setJob s j).gen = s.gen := rfl
@[simp] theorem setJob_lane (s : State) (j : Job) : (setJob s j).lane = s.lane := rfl
@[simp] theorem setJob_key (s : State) (j : Job) : (setJob s j).key = s.key := rfl
@[simp] theorem setJob_ime (s : State) (j : Job) : (setJob s j).ime = s.ime := rfl
@[simp] theorem setJob_ile (s : State) (j : Job) : (setJob s j).ile = s.ile := rfl
@[simp] theorem setJob_qos (s : State) (j : Job) : (setJob s j).qos = s.qos := rfl
@[simp] theorem setJob_hob (s : State) (j : Job) : (setJob s j).hob = s.hob := rfl
@[simp] theorem setJob_flt (s : State) (j : Job) : (setJob s j).flt = s.flt := rfl
@[simp] theorem setJob_lcs (s : State) (j : Job) : (setJob s j).lcs = s.lcs := rfl
@[simp] theorem setJob_sre (s : State) (j : Job) : (setJob s j).sre = s.sre := rfl
@[simp] theorem setJob_att (s : State) (j : Job) : (setJob s j).att = s.att := rfl
@[simp] theorem setJob_dbg (s : State) (j : Job) : (setJob s j).dbg = s.dbg := rfl
@[simp] theorem setJob_out (s : State) (j : Job) : (setJob s j).out = s.out := rfl
@[simp] theorem setJob_freeIx (s : State) (j : Job) : (setJob s j).freeIx = s.freeIx := rfl
@[simp] theorem setJob_pending (s : State) (j : Job) : (setJob s j).pending = s.pending := rfl

/-! ### queueJob writes only `bce` -/

@[simp] theorem queueJob_cfg (s : State) (j : Job) : (queueJob s j).cfg = s.cfg := rfl
@[simp] theorem queueJob_pin (s : State) (j : Job) : (queueJob s j).pin = s.pin := rfl
@[simp] theorem queueJob_dom (s : State) (j : Job) : (queueJob s j).dom = s.dom := rfl
@[simp] theorem queueJob_tm (s : State) (j : Job) : (queueJob s j).tm = s.tm := rfl
@[simp] theorem queueJob_fuse (s : State) (j : Job) : (queueJob s j).fuse = s.fuse := rfl
@[simp] theorem queueJob_flash (s : State) (j : Job) : (queueJob s j).flash = s.flash := rfl
@[simp] theorem queueJob_gen (s : State) (j : Job) : (queueJob s j).gen = s.gen := rfl
@[simp] theorem queueJob_lane (s : State) (j : Job) : (queueJob s j).lane = s.lane := rfl
@[simp] theorem queueJob_key (s : State) (j : Job) : (queueJob s j).key = s.key := rfl
@[simp] theorem queueJob_ime (s : State) (j : Job) : (queueJob s j).ime = s.ime := rfl
@[simp] theorem queueJob_ile (s : State) (j : Job) : (queueJob s j).ile = s.ile := rfl
@[simp] theorem queueJob_qos (s : State) (j : Job) : (queueJob s j).qos = s.qos := rfl
@[simp] theorem queueJob_hob (s : State) (j : Job) : (queueJob s j).hob = s.hob := rfl
@[simp] theorem queueJob_flt (s : State) (j : Job) : (queueJob s j).flt = s.flt := rfl
@[simp] theorem queueJob_lcs (s : State) (j : Job) : (queueJob s j).lcs = s.lcs := rfl
@[simp] theorem queueJob_sre (s : State) (j : Job) : (queueJob s j).sre = s.sre := rfl
@[simp] theorem queueJob_att (s : State) (j : Job) : (queueJob s j).att = s.att := rfl
@[simp] theorem queueJob_dbg (s : State) (j : Job) : (queueJob s j).dbg = s.dbg := rfl
@[simp] theorem queueJob_out (s : State) (j : Job) : (queueJob s j).out = s.out := rfl
@[simp] theorem queueJob_freeIx (s : State) (j : Job) : (queueJob s j).freeIx = s.freeIx := rfl
@[simp] theorem queueJob_pending (s : State) (j : Job) : (queueJob s j).pending = s.pending := rfl

/-! ### freeOrig writes only `ile` -/

@[simp] theorem freeOrig_cfg (s : State) (ix : Nat) : (freeOrig s ix).cfg = s.cfg := rfl
@[simp] theorem freeOrig_pin (s : State) (ix : Nat) : (freeOrig s ix).pin = s.pin := rfl
@[simp] theorem freeOrig_dom (s : State) (ix : Nat) : (freeOrig s ix).dom = s.dom := rfl
@[simp] theorem freeOrig_tm (s : State) (ix : Nat) : (freeOrig s ix).tm = s.tm := rfl
@[simp] theorem freeOrig_fuse (s : State) (ix : Nat) : (freeOrig s ix).fuse = s.fuse := rfl
@[simp] theorem freeOrig_flash (s : State) (ix : Nat) : (freeOrig s ix).flash = s.flash := rfl
@[simp] theorem freeOrig_gen (s : State) (ix : Nat) : (freeOrig s ix).gen = s.gen := rfl
@[simp] theorem freeOrig_lane (s : State) (ix : Nat) : (freeOrig s ix).lane = s.lane := rfl
@[simp] theorem freeOrig_key (s : State) (ix : Nat) : (freeOrig s ix).key = s.key := rfl
@[simp] theorem freeOrig_ime (s : State) (ix : Nat) : (freeOrig s ix).ime = s.ime := rfl
@[simp] theorem freeOrig_qos (s : State) (ix : Nat) : (freeOrig s ix).qos = s.qos := rfl
@[simp] theorem freeOrig_hob (s : State) (ix : Nat) : (freeOrig s ix).hob = s.hob := rfl
@[simp] theorem freeOrig_flt (s : State) (ix : Nat) : (freeOrig s ix).flt = s.flt := rfl
@[simp] theorem freeOrig_lcs (s : State) (ix : Nat) : (freeOrig s ix).lcs = s.lcs := rfl
@[simp] theorem freeOrig_sre (s : State) (ix : Nat) : (freeOrig s ix).sre = s.sre := rfl
@[simp] theorem freeOrig_bce (s : State) (ix : Nat) : (freeOrig s ix).bce = s.bce := rfl
@[simp] theorem freeOrig_att (s : State) (ix : Nat) : (freeOrig s ix).att = s.att := rfl
@[simp] theorem freeOrig_dbg (s : State) (ix : Nat) : (freeOrig s ix).dbg = s.dbg := rfl
@[simp] theorem freeOrig_out (s : State) (ix : Nat) : (freeOrig s ix).out = s.out := rfl
@[simp] theorem freeOrig_freeIx (s : State) (ix : Nat) : (freeOrig s ix).freeIx = s.freeIx := rfl
@[simp] theorem freeOrig_pending (s : State) (ix : Nat) : (freeOrig s ix).pending = s.pending := rfl

/-! ### poisonReq writes only `ime` and `ile` and `bce` -/

@[simp] theorem poisonReq_cfg (s : State) (g tag : Nat) (c : Code) : (poisonReq s g tag c).cfg = s.cfg := by unfold poisonReq; split <;> (try split) <;> first | rfl | simp
@[simp] theorem poisonReq_pin (s : State) (g tag : Nat) (c : Code) : (poisonReq s g tag c).pin = s.pin := by unfold poisonReq; split <;> (try split) <;> first | rfl | simp
@[simp] theorem poisonReq_dom (s : State) (g tag : Nat) (c : Code) : (poisonReq s g tag c).dom = s.dom := by unfold poisonReq; split <;> (try split) <;> first | rfl | simp
@[simp] theorem poisonReq_tm (s : State) (g tag : Nat) (c : Code) : (poisonReq s g tag c).tm = s.tm := by unfold poisonReq; split <;> (try split) <;> first | rfl | simp
@[simp] theorem poisonReq_fuse (s : State) (g tag : Nat) (c : Code) : (poisonReq s g tag c).fuse = s.fuse := by unfold poisonReq; split <;> (try split) <;> first | rfl | simp
@[simp] theorem poisonReq_flash (s : State) (g tag : Nat) (c : Code) : (poisonReq s g tag c).flash = s.flash := by unfold poisonReq; split <;> (try split) <;> first | rfl | simp
@[simp] theorem poisonReq_gen (s : State) (g tag : Nat) (c : Code) : (poisonReq s g tag c).gen = s.gen := by unfold poisonReq; split <;> (try split) <;> first | rfl | simp
@[simp] theorem poisonReq_lane (s : State) (g tag : Nat) (c : Code) : (poisonReq s g tag c).lane = s.lane := by unfold poisonReq; split <;> (try split) <;> first | rfl | simp
@[simp] theorem poisonReq_key (s : State) (g tag : Nat) (c : Code) : (poisonReq s g tag c).key = s.key := by unfold poisonReq; split <;> (try split) <;> first | rfl | simp
@[simp] theorem poisonReq_qos (s : State) (g tag : Nat) (c : Code) : (poisonReq s g tag c).qos = s.qos := by unfold poisonReq; split <;> (try split) <;> first | rfl | simp
@[simp] theorem poisonReq_hob (s : State) (g tag : Nat) (c : Code) : (poisonReq s g tag c).hob = s.hob := by unfold poisonReq; split <;> (try split) <;> first | rfl | simp
@[simp] theorem poisonReq_flt (s : State) (g tag : Nat) (c : Code) : (poisonReq s g tag c).flt = s.flt := by unfold poisonReq; split <;> (try split) <;> first | rfl | simp
@[simp] theorem poisonReq_lcs (s : State) (g tag : Nat) (c : Code) : (poisonReq s g tag c).lcs = s.lcs := by unfold poisonReq; split <;> (try split) <;> first | rfl | simp
@[simp] theorem poisonReq_sre (s : State) (g tag : Nat) (c : Code) : (poisonReq s g tag c).sre = s.sre := by unfold poisonReq; split <;> (try split) <;> first | rfl | simp
@[simp] theorem poisonReq_att (s : State) (g tag : Nat) (c : Code) : (poisonReq s g tag c).att = s.att := by unfold poisonReq; split <;> (try split) <;> first | rfl | simp
@[simp] theorem poisonReq_dbg (s : State) (g tag : Nat) (c : Code) : (poisonReq s g tag c).dbg = s.dbg := by unfold poisonReq; split <;> (try split) <;> first | rfl | simp
@[simp] theorem poisonReq_out (s : State) (g tag : Nat) (c : Code) : (poisonReq s g tag c).out = s.out := by unfold poisonReq; split <;> (try split) <;> first | rfl | simp
@[simp] theorem poisonReq_freeIx (s : State) (g tag : Nat) (c : Code) : (poisonReq s g tag c).freeIx = s.freeIx := by unfold poisonReq; split <;> (try split) <;> first | rfl | simp
@[simp] theorem poisonReq_pending (s : State) (g tag : Nat) (c : Code) : (poisonReq s g tag c).pending = s.pending := by unfold poisonReq; split <;> (try split) <;> first | rfl | simp

/-! ### lendLanes writes only `lane` -/

@[simp] theorem lendLanes_cfg (s : State) (g : Nat) : (lendLanes s g).cfg = s.cfg := rfl
@[simp] theorem lendLanes_pin (s : State) (g : Nat) : (lendLanes s g).pin = s.pin := rfl
@[simp] theorem lendLanes_dom (s : State) (g : Nat) : (lendLanes s g).dom = s.dom := rfl
@[simp] theorem lendLanes_tm (s : State) (g : Nat) : (lendLanes s g).tm = s.tm := rfl
@[simp] theorem lendLanes_fuse (s : State) (g : Nat) : (lendLanes s g).fuse = s.fuse := rfl
@[simp] theorem lendLanes_flash (s : State) (g : Nat) : (lendLanes s g).flash = s.flash := rfl
@[simp] theorem lendLanes_gen (s : State) (g : Nat) : (lendLanes s g).gen = s.gen := rfl
@[simp] theorem lendLanes_key (s : State) (g : Nat) : (lendLanes s g).key = s.key := rfl
@[simp] theorem lendLanes_ime (s : State) (g : Nat) : (lendLanes s g).ime = s.ime := rfl
@[simp] theorem lendLanes_ile (s : State) (g : Nat) : (lendLanes s g).ile = s.ile := rfl
@[simp] theorem lendLanes_qos (s : State) (g : Nat) : (lendLanes s g).qos = s.qos := rfl
@[simp] theorem lendLanes_hob (s : State) (g : Nat) : (lendLanes s g).hob = s.hob := rfl
@[simp] theorem lendLanes_flt (s : State) (g : Nat) : (lendLanes s g).flt = s.flt := rfl
@[simp] theorem lendLanes_lcs (s : State) (g : Nat) : (lendLanes s g).lcs = s.lcs := rfl
@[simp] theorem lendLanes_sre (s : State) (g : Nat) : (lendLanes s g).sre = s.sre := rfl
@[simp] theorem lendLanes_bce (s : State) (g : Nat) : (lendLanes s g).bce = s.bce := rfl
@[simp] theorem lendLanes_att (s : State) (g : Nat) : (lendLanes s g).att = s.att := rfl
@[simp] theorem lendLanes_dbg (s : State) (g : Nat) : (lendLanes s g).dbg = s.dbg := rfl
@[simp] theorem lendLanes_out (s : State) (g : Nat) : (lendLanes s g).out = s.out := rfl
@[simp] theorem lendLanes_freeIx (s : State) (g : Nat) : (lendLanes s g).freeIx = s.freeIx := rfl
@[simp] theorem lendLanes_pending (s : State) (g : Nat) : (lendLanes s g).pending = s.pending := rfl

/-! ### returnLanes writes only `lane` -/

@[simp] theorem returnLanes_cfg (s : State) (g : Nat) : (returnLanes s g).cfg = s.cfg := rfl
@[simp] theorem returnLanes_pin (s : State) (g : Nat) : (returnLanes s g).pin = s.pin := rfl
@[simp] theorem returnLanes_dom (s : State) (g : Nat) : (returnLanes s g).dom = s.dom := rfl
@[simp] theorem returnLanes_tm (s : State) (g : Nat) : (returnLanes s g).tm = s.tm := rfl
@[simp] theorem returnLanes_fuse (s : State) (g : Nat) : (returnLanes s g).fuse = s.fuse := rfl
@[simp] theorem returnLanes_flash (s : State) (g : Nat) : (returnLanes s g).flash = s.flash := rfl
@[simp] theorem returnLanes_gen (s : State) (g : Nat) : (returnLanes s g).gen = s.gen := rfl
@[simp] theorem returnLanes_key (s : State) (g : Nat) : (returnLanes s g).key = s.key := rfl
@[simp] theorem returnLanes_ime (s : State) (g : Nat) : (returnLanes s g).ime = s.ime := rfl
@[simp] theorem returnLanes_ile (s : State) (g : Nat) : (returnLanes s g).ile = s.ile := rfl
@[simp] theorem returnLanes_qos (s : State) (g : Nat) : (returnLanes s g).qos = s.qos := rfl
@[simp] theorem returnLanes_hob (s : State) (g : Nat) : (returnLanes s g).hob = s.hob := rfl
@[simp] theorem returnLanes_flt (s : State) (g : Nat) : (returnLanes s g).flt = s.flt := rfl
@[simp] theorem returnLanes_lcs (s : State) (g : Nat) : (returnLanes s g).lcs = s.lcs := rfl
@[simp] theorem returnLanes_sre (s : State) (g : Nat) : (returnLanes s g).sre = s.sre := rfl
@[simp] theorem returnLanes_bce (s : State) (g : Nat) : (returnLanes s g).bce = s.bce := rfl
@[simp] theorem returnLanes_att (s : State) (g : Nat) : (returnLanes s g).att = s.att := rfl
@[simp] theorem returnLanes_dbg (s : State) (g : Nat) : (returnLanes s g).dbg = s.dbg := rfl
@[simp] theorem returnLanes_out (s : State) (g : Nat) : (returnLanes s g).out = s.out := rfl
@[simp] theorem returnLanes_freeIx (s : State) (g : Nat) : (returnLanes s g).freeIx = s.freeIx := rfl
@[simp] theorem returnLanes_pending (s : State) (g : Nat) : (returnLanes s g).pending = s.pending := rfl

/-! ### setPhase writes only `flt` -/

@[simp] theorem setPhase_cfg (s : State) (rung port : Nat) (ph : RstPhase) (e : StartIn) : (setPhase s rung port ph e).cfg = s.cfg := rfl
@[simp] theorem setPhase_pin (s : State) (rung port : Nat) (ph : RstPhase) (e : StartIn) : (setPhase s rung port ph e).pin = s.pin := rfl
@[simp] theorem setPhase_dom (s : State) (rung port : Nat) (ph : RstPhase) (e : StartIn) : (setPhase s rung port ph e).dom = s.dom := rfl
@[simp] theorem setPhase_tm (s : State) (rung port : Nat) (ph : RstPhase) (e : StartIn) : (setPhase s rung port ph e).tm = s.tm := rfl
@[simp] theorem setPhase_fuse (s : State) (rung port : Nat) (ph : RstPhase) (e : StartIn) : (setPhase s rung port ph e).fuse = s.fuse := rfl
@[simp] theorem setPhase_flash (s : State) (rung port : Nat) (ph : RstPhase) (e : StartIn) : (setPhase s rung port ph e).flash = s.flash := rfl
@[simp] theorem setPhase_gen (s : State) (rung port : Nat) (ph : RstPhase) (e : StartIn) : (setPhase s rung port ph e).gen = s.gen := rfl
@[simp] theorem setPhase_lane (s : State) (rung port : Nat) (ph : RstPhase) (e : StartIn) : (setPhase s rung port ph e).lane = s.lane := rfl
@[simp] theorem setPhase_key (s : State) (rung port : Nat) (ph : RstPhase) (e : StartIn) : (setPhase s rung port ph e).key = s.key := rfl
@[simp] theorem setPhase_ime (s : State) (rung port : Nat) (ph : RstPhase) (e : StartIn) : (setPhase s rung port ph e).ime = s.ime := rfl
@[simp] theorem setPhase_ile (s : State) (rung port : Nat) (ph : RstPhase) (e : StartIn) : (setPhase s rung port ph e).ile = s.ile := rfl
@[simp] theorem setPhase_qos (s : State) (rung port : Nat) (ph : RstPhase) (e : StartIn) : (setPhase s rung port ph e).qos = s.qos := rfl
@[simp] theorem setPhase_hob (s : State) (rung port : Nat) (ph : RstPhase) (e : StartIn) : (setPhase s rung port ph e).hob = s.hob := rfl
@[simp] theorem setPhase_lcs (s : State) (rung port : Nat) (ph : RstPhase) (e : StartIn) : (setPhase s rung port ph e).lcs = s.lcs := rfl
@[simp] theorem setPhase_sre (s : State) (rung port : Nat) (ph : RstPhase) (e : StartIn) : (setPhase s rung port ph e).sre = s.sre := rfl
@[simp] theorem setPhase_bce (s : State) (rung port : Nat) (ph : RstPhase) (e : StartIn) : (setPhase s rung port ph e).bce = s.bce := rfl
@[simp] theorem setPhase_att (s : State) (rung port : Nat) (ph : RstPhase) (e : StartIn) : (setPhase s rung port ph e).att = s.att := rfl
@[simp] theorem setPhase_dbg (s : State) (rung port : Nat) (ph : RstPhase) (e : StartIn) : (setPhase s rung port ph e).dbg = s.dbg := rfl
@[simp] theorem setPhase_out (s : State) (rung port : Nat) (ph : RstPhase) (e : StartIn) : (setPhase s rung port ph e).out = s.out := rfl
@[simp] theorem setPhase_freeIx (s : State) (rung port : Nat) (ph : RstPhase) (e : StartIn) : (setPhase s rung port ph e).freeIx = s.freeIx := rfl
@[simp] theorem setPhase_pending (s : State) (rung port : Nat) (ph : RstPhase) (e : StartIn) : (setPhase s rung port ph e).pending = s.pending := rfl

/-! ### endRung writes only `flt` -/

@[simp] theorem endRung_cfg (s : State) (rung port : Nat) : (endRung s rung port).cfg = s.cfg := rfl
@[simp] theorem endRung_pin (s : State) (rung port : Nat) : (endRung s rung port).pin = s.pin := rfl
@[simp] theorem endRung_dom (s : State) (rung port : Nat) : (endRung s rung port).dom = s.dom := rfl
@[simp] theorem endRung_tm (s : State) (rung port : Nat) : (endRung s rung port).tm = s.tm := rfl
@[simp] theorem endRung_fuse (s : State) (rung port : Nat) : (endRung s rung port).fuse = s.fuse := rfl
@[simp] theorem endRung_flash (s : State) (rung port : Nat) : (endRung s rung port).flash = s.flash := rfl
@[simp] theorem endRung_gen (s : State) (rung port : Nat) : (endRung s rung port).gen = s.gen := rfl
@[simp] theorem endRung_lane (s : State) (rung port : Nat) : (endRung s rung port).lane = s.lane := rfl
@[simp] theorem endRung_key (s : State) (rung port : Nat) : (endRung s rung port).key = s.key := rfl
@[simp] theorem endRung_ime (s : State) (rung port : Nat) : (endRung s rung port).ime = s.ime := rfl
@[simp] theorem endRung_ile (s : State) (rung port : Nat) : (endRung s rung port).ile = s.ile := rfl
@[simp] theorem endRung_qos (s : State) (rung port : Nat) : (endRung s rung port).qos = s.qos := rfl
@[simp] theorem endRung_hob (s : State) (rung port : Nat) : (endRung s rung port).hob = s.hob := rfl
@[simp] theorem endRung_lcs (s : State) (rung port : Nat) : (endRung s rung port).lcs = s.lcs := rfl
@[simp] theorem endRung_sre (s : State) (rung port : Nat) : (endRung s rung port).sre = s.sre := rfl
@[simp] theorem endRung_bce (s : State) (rung port : Nat) : (endRung s rung port).bce = s.bce := rfl
@[simp] theorem endRung_att (s : State) (rung port : Nat) : (endRung s rung port).att = s.att := rfl
@[simp] theorem endRung_dbg (s : State) (rung port : Nat) : (endRung s rung port).dbg = s.dbg := rfl
@[simp] theorem endRung_out (s : State) (rung port : Nat) : (endRung s rung port).out = s.out := rfl
@[simp] theorem endRung_freeIx (s : State) (rung port : Nat) : (endRung s rung port).freeIx = s.freeIx := rfl
@[simp] theorem endRung_pending (s : State) (rung port : Nat) : (endRung s rung port).pending = s.pending := rfl

/-! ### countDrop writes only `dom` -/

@[simp] theorem countDrop_cfg (s : State) (d : Nat) : (countDrop s d).cfg = s.cfg := rfl
@[simp] theorem countDrop_pin (s : State) (d : Nat) : (countDrop s d).pin = s.pin := rfl
@[simp] theorem countDrop_tm (s : State) (d : Nat) : (countDrop s d).tm = s.tm := rfl
@[simp] theorem countDrop_fuse (s : State) (d : Nat) : (countDrop s d).fuse = s.fuse := rfl
@[simp] theorem countDrop_flash (s : State) (d : Nat) : (countDrop s d).flash = s.flash := rfl
@[simp] theorem countDrop_gen (s : State) (d : Nat) : (countDrop s d).gen = s.gen := rfl
@[simp] theorem countDrop_lane (s : State) (d : Nat) : (countDrop s d).lane = s.lane := rfl
@[simp] theorem countDrop_key (s : State) (d : Nat) : (countDrop s d).key = s.key := rfl
@[simp] theorem countDrop_ime (s : State) (d : Nat) : (countDrop s d).ime = s.ime := rfl
@[simp] theorem countDrop_ile (s : State) (d : Nat) : (countDrop s d).ile = s.ile := rfl
@[simp] theorem countDrop_qos (s : State) (d : Nat) : (countDrop s d).qos = s.qos := rfl
@[simp] theorem countDrop_hob (s : State) (d : Nat) : (countDrop s d).hob = s.hob := rfl
@[simp] theorem countDrop_flt (s : State) (d : Nat) : (countDrop s d).flt = s.flt := rfl
@[simp] theorem countDrop_lcs (s : State) (d : Nat) : (countDrop s d).lcs = s.lcs := rfl
@[simp] theorem countDrop_sre (s : State) (d : Nat) : (countDrop s d).sre = s.sre := rfl
@[simp] theorem countDrop_bce (s : State) (d : Nat) : (countDrop s d).bce = s.bce := rfl
@[simp] theorem countDrop_att (s : State) (d : Nat) : (countDrop s d).att = s.att := rfl
@[simp] theorem countDrop_dbg (s : State) (d : Nat) : (countDrop s d).dbg = s.dbg := rfl
@[simp] theorem countDrop_out (s : State) (d : Nat) : (countDrop s d).out = s.out := rfl
@[simp] theorem countDrop_freeIx (s : State) (d : Nat) : (countDrop s d).freeIx = s.freeIx := rfl
@[simp] theorem countDrop_pending (s : State) (d : Nat) : (countDrop s d).pending = s.pending := rfl

/-! ### enterReset writes only `dom` -/

@[simp] theorem enterReset_cfg (s : State) (d : Nat) : (enterReset s d).cfg = s.cfg := rfl
@[simp] theorem enterReset_pin (s : State) (d : Nat) : (enterReset s d).pin = s.pin := rfl
@[simp] theorem enterReset_tm (s : State) (d : Nat) : (enterReset s d).tm = s.tm := rfl
@[simp] theorem enterReset_fuse (s : State) (d : Nat) : (enterReset s d).fuse = s.fuse := rfl
@[simp] theorem enterReset_flash (s : State) (d : Nat) : (enterReset s d).flash = s.flash := rfl
@[simp] theorem enterReset_gen (s : State) (d : Nat) : (enterReset s d).gen = s.gen := rfl
@[simp] theorem enterReset_lane (s : State) (d : Nat) : (enterReset s d).lane = s.lane := rfl
@[simp] theorem enterReset_key (s : State) (d : Nat) : (enterReset s d).key = s.key := rfl
@[simp] theorem enterReset_ime (s : State) (d : Nat) : (enterReset s d).ime = s.ime := rfl
@[simp] theorem enterReset_ile (s : State) (d : Nat) : (enterReset s d).ile = s.ile := rfl
@[simp] theorem enterReset_qos (s : State) (d : Nat) : (enterReset s d).qos = s.qos := rfl
@[simp] theorem enterReset_hob (s : State) (d : Nat) : (enterReset s d).hob = s.hob := rfl
@[simp] theorem enterReset_flt (s : State) (d : Nat) : (enterReset s d).flt = s.flt := rfl
@[simp] theorem enterReset_lcs (s : State) (d : Nat) : (enterReset s d).lcs = s.lcs := rfl
@[simp] theorem enterReset_sre (s : State) (d : Nat) : (enterReset s d).sre = s.sre := rfl
@[simp] theorem enterReset_bce (s : State) (d : Nat) : (enterReset s d).bce = s.bce := rfl
@[simp] theorem enterReset_att (s : State) (d : Nat) : (enterReset s d).att = s.att := rfl
@[simp] theorem enterReset_dbg (s : State) (d : Nat) : (enterReset s d).dbg = s.dbg := rfl
@[simp] theorem enterReset_out (s : State) (d : Nat) : (enterReset s d).out = s.out := rfl
@[simp] theorem enterReset_freeIx (s : State) (d : Nat) : (enterReset s d).freeIx = s.freeIx := rfl
@[simp] theorem enterReset_pending (s : State) (d : Nat) : (enterReset s d).pending = s.pending := rfl

/-! ### putSweep writes only `ime` -/

@[simp] theorem putSweep_cfg (s : State) (w : Sweep) : (putSweep s w).cfg = s.cfg := rfl
@[simp] theorem putSweep_pin (s : State) (w : Sweep) : (putSweep s w).pin = s.pin := rfl
@[simp] theorem putSweep_dom (s : State) (w : Sweep) : (putSweep s w).dom = s.dom := rfl
@[simp] theorem putSweep_tm (s : State) (w : Sweep) : (putSweep s w).tm = s.tm := rfl
@[simp] theorem putSweep_fuse (s : State) (w : Sweep) : (putSweep s w).fuse = s.fuse := rfl
@[simp] theorem putSweep_flash (s : State) (w : Sweep) : (putSweep s w).flash = s.flash := rfl
@[simp] theorem putSweep_gen (s : State) (w : Sweep) : (putSweep s w).gen = s.gen := rfl
@[simp] theorem putSweep_lane (s : State) (w : Sweep) : (putSweep s w).lane = s.lane := rfl
@[simp] theorem putSweep_key (s : State) (w : Sweep) : (putSweep s w).key = s.key := rfl
@[simp] theorem putSweep_ile (s : State) (w : Sweep) : (putSweep s w).ile = s.ile := rfl
@[simp] theorem putSweep_qos (s : State) (w : Sweep) : (putSweep s w).qos = s.qos := rfl
@[simp] theorem putSweep_hob (s : State) (w : Sweep) : (putSweep s w).hob = s.hob := rfl
@[simp] theorem putSweep_flt (s : State) (w : Sweep) : (putSweep s w).flt = s.flt := rfl
@[simp] theorem putSweep_lcs (s : State) (w : Sweep) : (putSweep s w).lcs = s.lcs := rfl
@[simp] theorem putSweep_sre (s : State) (w : Sweep) : (putSweep s w).sre = s.sre := rfl
@[simp] theorem putSweep_bce (s : State) (w : Sweep) : (putSweep s w).bce = s.bce := rfl
@[simp] theorem putSweep_att (s : State) (w : Sweep) : (putSweep s w).att = s.att := rfl
@[simp] theorem putSweep_dbg (s : State) (w : Sweep) : (putSweep s w).dbg = s.dbg := rfl
@[simp] theorem putSweep_out (s : State) (w : Sweep) : (putSweep s w).out = s.out := rfl
@[simp] theorem putSweep_freeIx (s : State) (w : Sweep) : (putSweep s w).freeIx = s.freeIx := rfl
@[simp] theorem putSweep_pending (s : State) (w : Sweep) : (putSweep s w).pending = s.pending := rfl

/-! ### cowLine writes only `ime` -/

@[simp] theorem cowLine_cfg (s : State) (ix page i : Nat) (p : Line) (c : Code) : (cowLine s ix page i p c).cfg = s.cfg := rfl
@[simp] theorem cowLine_pin (s : State) (ix page i : Nat) (p : Line) (c : Code) : (cowLine s ix page i p c).pin = s.pin := rfl
@[simp] theorem cowLine_dom (s : State) (ix page i : Nat) (p : Line) (c : Code) : (cowLine s ix page i p c).dom = s.dom := rfl
@[simp] theorem cowLine_tm (s : State) (ix page i : Nat) (p : Line) (c : Code) : (cowLine s ix page i p c).tm = s.tm := rfl
@[simp] theorem cowLine_fuse (s : State) (ix page i : Nat) (p : Line) (c : Code) : (cowLine s ix page i p c).fuse = s.fuse := rfl
@[simp] theorem cowLine_flash (s : State) (ix page i : Nat) (p : Line) (c : Code) : (cowLine s ix page i p c).flash = s.flash := rfl
@[simp] theorem cowLine_gen (s : State) (ix page i : Nat) (p : Line) (c : Code) : (cowLine s ix page i p c).gen = s.gen := rfl
@[simp] theorem cowLine_lane (s : State) (ix page i : Nat) (p : Line) (c : Code) : (cowLine s ix page i p c).lane = s.lane := rfl
@[simp] theorem cowLine_key (s : State) (ix page i : Nat) (p : Line) (c : Code) : (cowLine s ix page i p c).key = s.key := rfl
@[simp] theorem cowLine_ile (s : State) (ix page i : Nat) (p : Line) (c : Code) : (cowLine s ix page i p c).ile = s.ile := rfl
@[simp] theorem cowLine_qos (s : State) (ix page i : Nat) (p : Line) (c : Code) : (cowLine s ix page i p c).qos = s.qos := rfl
@[simp] theorem cowLine_hob (s : State) (ix page i : Nat) (p : Line) (c : Code) : (cowLine s ix page i p c).hob = s.hob := rfl
@[simp] theorem cowLine_flt (s : State) (ix page i : Nat) (p : Line) (c : Code) : (cowLine s ix page i p c).flt = s.flt := rfl
@[simp] theorem cowLine_lcs (s : State) (ix page i : Nat) (p : Line) (c : Code) : (cowLine s ix page i p c).lcs = s.lcs := rfl
@[simp] theorem cowLine_sre (s : State) (ix page i : Nat) (p : Line) (c : Code) : (cowLine s ix page i p c).sre = s.sre := rfl
@[simp] theorem cowLine_bce (s : State) (ix page i : Nat) (p : Line) (c : Code) : (cowLine s ix page i p c).bce = s.bce := rfl
@[simp] theorem cowLine_att (s : State) (ix page i : Nat) (p : Line) (c : Code) : (cowLine s ix page i p c).att = s.att := rfl
@[simp] theorem cowLine_dbg (s : State) (ix page i : Nat) (p : Line) (c : Code) : (cowLine s ix page i p c).dbg = s.dbg := rfl
@[simp] theorem cowLine_out (s : State) (ix page i : Nat) (p : Line) (c : Code) : (cowLine s ix page i p c).out = s.out := rfl
@[simp] theorem cowLine_freeIx (s : State) (ix page i : Nat) (p : Line) (c : Code) : (cowLine s ix page i p c).freeIx = s.freeIx := rfl
@[simp] theorem cowLine_pending (s : State) (ix page i : Nat) (p : Line) (c : Code) : (cowLine s ix page i p c).pending = s.pending := rfl

/-! ### acceptOp writes only `ile` -/

@[simp] theorem acceptOp_cfg (s : State) (vc : Nat) (op : FabOp) : (acceptOp s vc op).cfg = s.cfg := rfl
@[simp] theorem acceptOp_pin (s : State) (vc : Nat) (op : FabOp) : (acceptOp s vc op).pin = s.pin := rfl
@[simp] theorem acceptOp_dom (s : State) (vc : Nat) (op : FabOp) : (acceptOp s vc op).dom = s.dom := rfl
@[simp] theorem acceptOp_tm (s : State) (vc : Nat) (op : FabOp) : (acceptOp s vc op).tm = s.tm := rfl
@[simp] theorem acceptOp_fuse (s : State) (vc : Nat) (op : FabOp) : (acceptOp s vc op).fuse = s.fuse := rfl
@[simp] theorem acceptOp_flash (s : State) (vc : Nat) (op : FabOp) : (acceptOp s vc op).flash = s.flash := rfl
@[simp] theorem acceptOp_gen (s : State) (vc : Nat) (op : FabOp) : (acceptOp s vc op).gen = s.gen := rfl
@[simp] theorem acceptOp_lane (s : State) (vc : Nat) (op : FabOp) : (acceptOp s vc op).lane = s.lane := rfl
@[simp] theorem acceptOp_key (s : State) (vc : Nat) (op : FabOp) : (acceptOp s vc op).key = s.key := rfl
@[simp] theorem acceptOp_ime (s : State) (vc : Nat) (op : FabOp) : (acceptOp s vc op).ime = s.ime := rfl
@[simp] theorem acceptOp_qos (s : State) (vc : Nat) (op : FabOp) : (acceptOp s vc op).qos = s.qos := rfl
@[simp] theorem acceptOp_hob (s : State) (vc : Nat) (op : FabOp) : (acceptOp s vc op).hob = s.hob := rfl
@[simp] theorem acceptOp_flt (s : State) (vc : Nat) (op : FabOp) : (acceptOp s vc op).flt = s.flt := rfl
@[simp] theorem acceptOp_lcs (s : State) (vc : Nat) (op : FabOp) : (acceptOp s vc op).lcs = s.lcs := rfl
@[simp] theorem acceptOp_sre (s : State) (vc : Nat) (op : FabOp) : (acceptOp s vc op).sre = s.sre := rfl
@[simp] theorem acceptOp_bce (s : State) (vc : Nat) (op : FabOp) : (acceptOp s vc op).bce = s.bce := rfl
@[simp] theorem acceptOp_att (s : State) (vc : Nat) (op : FabOp) : (acceptOp s vc op).att = s.att := rfl
@[simp] theorem acceptOp_dbg (s : State) (vc : Nat) (op : FabOp) : (acceptOp s vc op).dbg = s.dbg := rfl
@[simp] theorem acceptOp_out (s : State) (vc : Nat) (op : FabOp) : (acceptOp s vc op).out = s.out := rfl
@[simp] theorem acceptOp_freeIx (s : State) (vc : Nat) (op : FabOp) : (acceptOp s vc op).freeIx = s.freeIx := rfl
@[simp] theorem acceptOp_pending (s : State) (vc : Nat) (op : FabOp) : (acceptOp s vc op).pending = s.pending := rfl

/-! ### spill writes only `qos` -/

@[simp] theorem spill_cfg (s : State) (q n : Nat) : (spill s q n).cfg = s.cfg := rfl
@[simp] theorem spill_pin (s : State) (q n : Nat) : (spill s q n).pin = s.pin := rfl
@[simp] theorem spill_dom (s : State) (q n : Nat) : (spill s q n).dom = s.dom := rfl
@[simp] theorem spill_tm (s : State) (q n : Nat) : (spill s q n).tm = s.tm := rfl
@[simp] theorem spill_fuse (s : State) (q n : Nat) : (spill s q n).fuse = s.fuse := rfl
@[simp] theorem spill_flash (s : State) (q n : Nat) : (spill s q n).flash = s.flash := rfl
@[simp] theorem spill_gen (s : State) (q n : Nat) : (spill s q n).gen = s.gen := rfl
@[simp] theorem spill_lane (s : State) (q n : Nat) : (spill s q n).lane = s.lane := rfl
@[simp] theorem spill_key (s : State) (q n : Nat) : (spill s q n).key = s.key := rfl
@[simp] theorem spill_ime (s : State) (q n : Nat) : (spill s q n).ime = s.ime := rfl
@[simp] theorem spill_ile (s : State) (q n : Nat) : (spill s q n).ile = s.ile := rfl
@[simp] theorem spill_hob (s : State) (q n : Nat) : (spill s q n).hob = s.hob := rfl
@[simp] theorem spill_flt (s : State) (q n : Nat) : (spill s q n).flt = s.flt := rfl
@[simp] theorem spill_lcs (s : State) (q n : Nat) : (spill s q n).lcs = s.lcs := rfl
@[simp] theorem spill_sre (s : State) (q n : Nat) : (spill s q n).sre = s.sre := rfl
@[simp] theorem spill_bce (s : State) (q n : Nat) : (spill s q n).bce = s.bce := rfl
@[simp] theorem spill_att (s : State) (q n : Nat) : (spill s q n).att = s.att := rfl
@[simp] theorem spill_dbg (s : State) (q n : Nat) : (spill s q n).dbg = s.dbg := rfl
@[simp] theorem spill_out (s : State) (q n : Nat) : (spill s q n).out = s.out := rfl
@[simp] theorem spill_freeIx (s : State) (q n : Nat) : (spill s q n).freeIx = s.freeIx := rfl
@[simp] theorem spill_pending (s : State) (q n : Nat) : (spill s q n).pending = s.pending := rfl

/-! ### failPage writes only `ime` -/

@[simp] theorem failPage_cfg (s : State) (ix : Nat) (r : Region) (page : Nat) : (failPage s ix r page).cfg = s.cfg := rfl
@[simp] theorem failPage_pin (s : State) (ix : Nat) (r : Region) (page : Nat) : (failPage s ix r page).pin = s.pin := rfl
@[simp] theorem failPage_dom (s : State) (ix : Nat) (r : Region) (page : Nat) : (failPage s ix r page).dom = s.dom := rfl
@[simp] theorem failPage_tm (s : State) (ix : Nat) (r : Region) (page : Nat) : (failPage s ix r page).tm = s.tm := rfl
@[simp] theorem failPage_fuse (s : State) (ix : Nat) (r : Region) (page : Nat) : (failPage s ix r page).fuse = s.fuse := rfl
@[simp] theorem failPage_flash (s : State) (ix : Nat) (r : Region) (page : Nat) : (failPage s ix r page).flash = s.flash := rfl
@[simp] theorem failPage_gen (s : State) (ix : Nat) (r : Region) (page : Nat) : (failPage s ix r page).gen = s.gen := rfl
@[simp] theorem failPage_lane (s : State) (ix : Nat) (r : Region) (page : Nat) : (failPage s ix r page).lane = s.lane := rfl
@[simp] theorem failPage_key (s : State) (ix : Nat) (r : Region) (page : Nat) : (failPage s ix r page).key = s.key := rfl
@[simp] theorem failPage_ile (s : State) (ix : Nat) (r : Region) (page : Nat) : (failPage s ix r page).ile = s.ile := rfl
@[simp] theorem failPage_qos (s : State) (ix : Nat) (r : Region) (page : Nat) : (failPage s ix r page).qos = s.qos := rfl
@[simp] theorem failPage_hob (s : State) (ix : Nat) (r : Region) (page : Nat) : (failPage s ix r page).hob = s.hob := rfl
@[simp] theorem failPage_flt (s : State) (ix : Nat) (r : Region) (page : Nat) : (failPage s ix r page).flt = s.flt := rfl
@[simp] theorem failPage_lcs (s : State) (ix : Nat) (r : Region) (page : Nat) : (failPage s ix r page).lcs = s.lcs := rfl
@[simp] theorem failPage_sre (s : State) (ix : Nat) (r : Region) (page : Nat) : (failPage s ix r page).sre = s.sre := rfl
@[simp] theorem failPage_bce (s : State) (ix : Nat) (r : Region) (page : Nat) : (failPage s ix r page).bce = s.bce := rfl
@[simp] theorem failPage_att (s : State) (ix : Nat) (r : Region) (page : Nat) : (failPage s ix r page).att = s.att := rfl
@[simp] theorem failPage_dbg (s : State) (ix : Nat) (r : Region) (page : Nat) : (failPage s ix r page).dbg = s.dbg := rfl
@[simp] theorem failPage_out (s : State) (ix : Nat) (r : Region) (page : Nat) : (failPage s ix r page).out = s.out := rfl
@[simp] theorem failPage_freeIx (s : State) (ix : Nat) (r : Region) (page : Nat) : (failPage s ix r page).freeIx = s.freeIx := rfl
@[simp] theorem failPage_pending (s : State) (ix : Nat) (r : Region) (page : Nat) : (failPage s ix r page).pending = s.pending := rfl

/-! ### renewCatalogue writes only `ime` -/

@[simp] theorem renewCatalogue_cfg (s : State) : (renewCatalogue s).cfg = s.cfg := rfl
@[simp] theorem renewCatalogue_pin (s : State) : (renewCatalogue s).pin = s.pin := rfl
@[simp] theorem renewCatalogue_dom (s : State) : (renewCatalogue s).dom = s.dom := rfl
@[simp] theorem renewCatalogue_tm (s : State) : (renewCatalogue s).tm = s.tm := rfl
@[simp] theorem renewCatalogue_fuse (s : State) : (renewCatalogue s).fuse = s.fuse := rfl
@[simp] theorem renewCatalogue_flash (s : State) : (renewCatalogue s).flash = s.flash := rfl
@[simp] theorem renewCatalogue_gen (s : State) : (renewCatalogue s).gen = s.gen := rfl
@[simp] theorem renewCatalogue_lane (s : State) : (renewCatalogue s).lane = s.lane := rfl
@[simp] theorem renewCatalogue_key (s : State) : (renewCatalogue s).key = s.key := rfl
@[simp] theorem renewCatalogue_ile (s : State) : (renewCatalogue s).ile = s.ile := rfl
@[simp] theorem renewCatalogue_qos (s : State) : (renewCatalogue s).qos = s.qos := rfl
@[simp] theorem renewCatalogue_hob (s : State) : (renewCatalogue s).hob = s.hob := rfl
@[simp] theorem renewCatalogue_flt (s : State) : (renewCatalogue s).flt = s.flt := rfl
@[simp] theorem renewCatalogue_lcs (s : State) : (renewCatalogue s).lcs = s.lcs := rfl
@[simp] theorem renewCatalogue_sre (s : State) : (renewCatalogue s).sre = s.sre := rfl
@[simp] theorem renewCatalogue_bce (s : State) : (renewCatalogue s).bce = s.bce := rfl
@[simp] theorem renewCatalogue_att (s : State) : (renewCatalogue s).att = s.att := rfl
@[simp] theorem renewCatalogue_dbg (s : State) : (renewCatalogue s).dbg = s.dbg := rfl
@[simp] theorem renewCatalogue_out (s : State) : (renewCatalogue s).out = s.out := rfl
@[simp] theorem renewCatalogue_freeIx (s : State) : (renewCatalogue s).freeIx = s.freeIx := rfl
@[simp] theorem renewCatalogue_pending (s : State) : (renewCatalogue s).pending = s.pending := rfl

/-! ### suspendAll writes only `bce` -/

@[simp] theorem suspendAll_cfg (s : State) : (suspendAll s).cfg = s.cfg := rfl
@[simp] theorem suspendAll_pin (s : State) : (suspendAll s).pin = s.pin := rfl
@[simp] theorem suspendAll_dom (s : State) : (suspendAll s).dom = s.dom := rfl
@[simp] theorem suspendAll_tm (s : State) : (suspendAll s).tm = s.tm := rfl
@[simp] theorem suspendAll_fuse (s : State) : (suspendAll s).fuse = s.fuse := rfl
@[simp] theorem suspendAll_flash (s : State) : (suspendAll s).flash = s.flash := rfl
@[simp] theorem suspendAll_gen (s : State) : (suspendAll s).gen = s.gen := rfl
@[simp] theorem suspendAll_lane (s : State) : (suspendAll s).lane = s.lane := rfl
@[simp] theorem suspendAll_key (s : State) : (suspendAll s).key = s.key := rfl
@[simp] theorem suspendAll_ime (s : State) : (suspendAll s).ime = s.ime := rfl
@[simp] theorem suspendAll_ile (s : State) : (suspendAll s).ile = s.ile := rfl
@[simp] theorem suspendAll_qos (s : State) : (suspendAll s).qos = s.qos := rfl
@[simp] theorem suspendAll_hob (s : State) : (suspendAll s).hob = s.hob := rfl
@[simp] theorem suspendAll_flt (s : State) : (suspendAll s).flt = s.flt := rfl
@[simp] theorem suspendAll_lcs (s : State) : (suspendAll s).lcs = s.lcs := rfl
@[simp] theorem suspendAll_sre (s : State) : (suspendAll s).sre = s.sre := rfl
@[simp] theorem suspendAll_att (s : State) : (suspendAll s).att = s.att := rfl
@[simp] theorem suspendAll_dbg (s : State) : (suspendAll s).dbg = s.dbg := rfl
@[simp] theorem suspendAll_out (s : State) : (suspendAll s).out = s.out := rfl
@[simp] theorem suspendAll_freeIx (s : State) : (suspendAll s).freeIx = s.freeIx := rfl
@[simp] theorem suspendAll_pending (s : State) : (suspendAll s).pending = s.pending := rfl

/-! ### wakeCancels writes only `hob` -/

@[simp] theorem wakeCancels_cfg (s : State) (id : Nat) : (wakeCancels s id).cfg = s.cfg := rfl
@[simp] theorem wakeCancels_pin (s : State) (id : Nat) : (wakeCancels s id).pin = s.pin := rfl
@[simp] theorem wakeCancels_dom (s : State) (id : Nat) : (wakeCancels s id).dom = s.dom := rfl
@[simp] theorem wakeCancels_tm (s : State) (id : Nat) : (wakeCancels s id).tm = s.tm := rfl
@[simp] theorem wakeCancels_fuse (s : State) (id : Nat) : (wakeCancels s id).fuse = s.fuse := rfl
@[simp] theorem wakeCancels_flash (s : State) (id : Nat) : (wakeCancels s id).flash = s.flash := rfl
@[simp] theorem wakeCancels_gen (s : State) (id : Nat) : (wakeCancels s id).gen = s.gen := rfl
@[simp] theorem wakeCancels_lane (s : State) (id : Nat) : (wakeCancels s id).lane = s.lane := rfl
@[simp] theorem wakeCancels_key (s : State) (id : Nat) : (wakeCancels s id).key = s.key := rfl
@[simp] theorem wakeCancels_ime (s : State) (id : Nat) : (wakeCancels s id).ime = s.ime := rfl
@[simp] theorem wakeCancels_ile (s : State) (id : Nat) : (wakeCancels s id).ile = s.ile := rfl
@[simp] theorem wakeCancels_qos (s : State) (id : Nat) : (wakeCancels s id).qos = s.qos := rfl
@[simp] theorem wakeCancels_flt (s : State) (id : Nat) : (wakeCancels s id).flt = s.flt := rfl
@[simp] theorem wakeCancels_lcs (s : State) (id : Nat) : (wakeCancels s id).lcs = s.lcs := rfl
@[simp] theorem wakeCancels_sre (s : State) (id : Nat) : (wakeCancels s id).sre = s.sre := rfl
@[simp] theorem wakeCancels_bce (s : State) (id : Nat) : (wakeCancels s id).bce = s.bce := rfl
@[simp] theorem wakeCancels_att (s : State) (id : Nat) : (wakeCancels s id).att = s.att := rfl
@[simp] theorem wakeCancels_dbg (s : State) (id : Nat) : (wakeCancels s id).dbg = s.dbg := rfl
@[simp] theorem wakeCancels_out (s : State) (id : Nat) : (wakeCancels s id).out = s.out := rfl
@[simp] theorem wakeCancels_freeIx (s : State) (id : Nat) : (wakeCancels s id).freeIx = s.freeIx := rfl
@[simp] theorem wakeCancels_pending (s : State) (id : Nat) : (wakeCancels s id).pending = s.pending := rfl

/-! ### staleDrop writes only `ile` -/

@[simp] theorem staleDrop_cfg (s : State) : (staleDrop s).cfg = s.cfg := rfl
@[simp] theorem staleDrop_pin (s : State) : (staleDrop s).pin = s.pin := rfl
@[simp] theorem staleDrop_dom (s : State) : (staleDrop s).dom = s.dom := rfl
@[simp] theorem staleDrop_tm (s : State) : (staleDrop s).tm = s.tm := rfl
@[simp] theorem staleDrop_fuse (s : State) : (staleDrop s).fuse = s.fuse := rfl
@[simp] theorem staleDrop_flash (s : State) : (staleDrop s).flash = s.flash := rfl
@[simp] theorem staleDrop_gen (s : State) : (staleDrop s).gen = s.gen := rfl
@[simp] theorem staleDrop_lane (s : State) : (staleDrop s).lane = s.lane := rfl
@[simp] theorem staleDrop_key (s : State) : (staleDrop s).key = s.key := rfl
@[simp] theorem staleDrop_ime (s : State) : (staleDrop s).ime = s.ime := rfl
@[simp] theorem staleDrop_qos (s : State) : (staleDrop s).qos = s.qos := rfl
@[simp] theorem staleDrop_hob (s : State) : (staleDrop s).hob = s.hob := rfl
@[simp] theorem staleDrop_flt (s : State) : (staleDrop s).flt = s.flt := rfl
@[simp] theorem staleDrop_lcs (s : State) : (staleDrop s).lcs = s.lcs := rfl
@[simp] theorem staleDrop_sre (s : State) : (staleDrop s).sre = s.sre := rfl
@[simp] theorem staleDrop_bce (s : State) : (staleDrop s).bce = s.bce := rfl
@[simp] theorem staleDrop_att (s : State) : (staleDrop s).att = s.att := rfl
@[simp] theorem staleDrop_dbg (s : State) : (staleDrop s).dbg = s.dbg := rfl
@[simp] theorem staleDrop_out (s : State) : (staleDrop s).out = s.out := rfl
@[simp] theorem staleDrop_freeIx (s : State) : (staleDrop s).freeIx = s.freeIx := rfl
@[simp] theorem staleDrop_pending (s : State) : (staleDrop s).pending = s.pending := rfl

/-! ### takeDecode writes only `lcs` -/

@[simp] theorem takeDecode_cfg (s : State) (d : LcsDecode) : (takeDecode s d).cfg = s.cfg := rfl
@[simp] theorem takeDecode_pin (s : State) (d : LcsDecode) : (takeDecode s d).pin = s.pin := rfl
@[simp] theorem takeDecode_dom (s : State) (d : LcsDecode) : (takeDecode s d).dom = s.dom := rfl
@[simp] theorem takeDecode_tm (s : State) (d : LcsDecode) : (takeDecode s d).tm = s.tm := rfl
@[simp] theorem takeDecode_fuse (s : State) (d : LcsDecode) : (takeDecode s d).fuse = s.fuse := rfl
@[simp] theorem takeDecode_flash (s : State) (d : LcsDecode) : (takeDecode s d).flash = s.flash := rfl
@[simp] theorem takeDecode_gen (s : State) (d : LcsDecode) : (takeDecode s d).gen = s.gen := rfl
@[simp] theorem takeDecode_lane (s : State) (d : LcsDecode) : (takeDecode s d).lane = s.lane := rfl
@[simp] theorem takeDecode_key (s : State) (d : LcsDecode) : (takeDecode s d).key = s.key := rfl
@[simp] theorem takeDecode_ime (s : State) (d : LcsDecode) : (takeDecode s d).ime = s.ime := rfl
@[simp] theorem takeDecode_ile (s : State) (d : LcsDecode) : (takeDecode s d).ile = s.ile := rfl
@[simp] theorem takeDecode_qos (s : State) (d : LcsDecode) : (takeDecode s d).qos = s.qos := rfl
@[simp] theorem takeDecode_hob (s : State) (d : LcsDecode) : (takeDecode s d).hob = s.hob := rfl
@[simp] theorem takeDecode_flt (s : State) (d : LcsDecode) : (takeDecode s d).flt = s.flt := rfl
@[simp] theorem takeDecode_sre (s : State) (d : LcsDecode) : (takeDecode s d).sre = s.sre := rfl
@[simp] theorem takeDecode_bce (s : State) (d : LcsDecode) : (takeDecode s d).bce = s.bce := rfl
@[simp] theorem takeDecode_att (s : State) (d : LcsDecode) : (takeDecode s d).att = s.att := rfl
@[simp] theorem takeDecode_dbg (s : State) (d : LcsDecode) : (takeDecode s d).dbg = s.dbg := rfl
@[simp] theorem takeDecode_out (s : State) (d : LcsDecode) : (takeDecode s d).out = s.out := rfl
@[simp] theorem takeDecode_freeIx (s : State) (d : LcsDecode) : (takeDecode s d).freeIx = s.freeIx := rfl
@[simp] theorem takeDecode_pending (s : State) (d : LcsDecode) : (takeDecode s d).pending = s.pending := rfl

/-! ### reseed writes only `key` -/

@[simp] theorem reseed_cfg (s : State) : (reseed s).cfg = s.cfg := rfl
@[simp] theorem reseed_pin (s : State) : (reseed s).pin = s.pin := rfl
@[simp] theorem reseed_dom (s : State) : (reseed s).dom = s.dom := rfl
@[simp] theorem reseed_tm (s : State) : (reseed s).tm = s.tm := rfl
@[simp] theorem reseed_fuse (s : State) : (reseed s).fuse = s.fuse := rfl
@[simp] theorem reseed_flash (s : State) : (reseed s).flash = s.flash := rfl
@[simp] theorem reseed_gen (s : State) : (reseed s).gen = s.gen := rfl
@[simp] theorem reseed_lane (s : State) : (reseed s).lane = s.lane := rfl
@[simp] theorem reseed_ime (s : State) : (reseed s).ime = s.ime := rfl
@[simp] theorem reseed_ile (s : State) : (reseed s).ile = s.ile := rfl
@[simp] theorem reseed_qos (s : State) : (reseed s).qos = s.qos := rfl
@[simp] theorem reseed_hob (s : State) : (reseed s).hob = s.hob := rfl
@[simp] theorem reseed_flt (s : State) : (reseed s).flt = s.flt := rfl
@[simp] theorem reseed_lcs (s : State) : (reseed s).lcs = s.lcs := rfl
@[simp] theorem reseed_sre (s : State) : (reseed s).sre = s.sre := rfl
@[simp] theorem reseed_bce (s : State) : (reseed s).bce = s.bce := rfl
@[simp] theorem reseed_att (s : State) : (reseed s).att = s.att := rfl
@[simp] theorem reseed_dbg (s : State) : (reseed s).dbg = s.dbg := rfl
@[simp] theorem reseed_out (s : State) : (reseed s).out = s.out := rfl
@[simp] theorem reseed_freeIx (s : State) : (reseed s).freeIx = s.freeIx := rfl
@[simp] theorem reseed_pending (s : State) : (reseed s).pending = s.pending := rfl

/-! ### settleShapes writes only `ile` -/

@[simp] theorem settleShapes_cfg (s : State) : (settleShapes s).cfg = s.cfg := rfl
@[simp] theorem settleShapes_pin (s : State) : (settleShapes s).pin = s.pin := rfl
@[simp] theorem settleShapes_dom (s : State) : (settleShapes s).dom = s.dom := rfl
@[simp] theorem settleShapes_tm (s : State) : (settleShapes s).tm = s.tm := rfl
@[simp] theorem settleShapes_fuse (s : State) : (settleShapes s).fuse = s.fuse := rfl
@[simp] theorem settleShapes_flash (s : State) : (settleShapes s).flash = s.flash := rfl
@[simp] theorem settleShapes_gen (s : State) : (settleShapes s).gen = s.gen := rfl
@[simp] theorem settleShapes_lane (s : State) : (settleShapes s).lane = s.lane := rfl
@[simp] theorem settleShapes_key (s : State) : (settleShapes s).key = s.key := rfl
@[simp] theorem settleShapes_ime (s : State) : (settleShapes s).ime = s.ime := rfl
@[simp] theorem settleShapes_qos (s : State) : (settleShapes s).qos = s.qos := rfl
@[simp] theorem settleShapes_hob (s : State) : (settleShapes s).hob = s.hob := rfl
@[simp] theorem settleShapes_flt (s : State) : (settleShapes s).flt = s.flt := rfl
@[simp] theorem settleShapes_lcs (s : State) : (settleShapes s).lcs = s.lcs := rfl
@[simp] theorem settleShapes_sre (s : State) : (settleShapes s).sre = s.sre := rfl
@[simp] theorem settleShapes_bce (s : State) : (settleShapes s).bce = s.bce := rfl
@[simp] theorem settleShapes_att (s : State) : (settleShapes s).att = s.att := rfl
@[simp] theorem settleShapes_dbg (s : State) : (settleShapes s).dbg = s.dbg := rfl
@[simp] theorem settleShapes_out (s : State) : (settleShapes s).out = s.out := rfl
@[simp] theorem settleShapes_freeIx (s : State) : (settleShapes s).freeIx = s.freeIx := rfl
@[simp] theorem settleShapes_pending (s : State) : (settleShapes s).pending = s.pending := rfl

/-! ### dropShardJobs writes only `bce` -/

@[simp] theorem dropShardJobs_cfg (s : State) (ix : Nat) : (dropShardJobs s ix).cfg = s.cfg := rfl
@[simp] theorem dropShardJobs_pin (s : State) (ix : Nat) : (dropShardJobs s ix).pin = s.pin := rfl
@[simp] theorem dropShardJobs_dom (s : State) (ix : Nat) : (dropShardJobs s ix).dom = s.dom := rfl
@[simp] theorem dropShardJobs_tm (s : State) (ix : Nat) : (dropShardJobs s ix).tm = s.tm := rfl
@[simp] theorem dropShardJobs_fuse (s : State) (ix : Nat) : (dropShardJobs s ix).fuse = s.fuse := rfl
@[simp] theorem dropShardJobs_flash (s : State) (ix : Nat) : (dropShardJobs s ix).flash = s.flash := rfl
@[simp] theorem dropShardJobs_gen (s : State) (ix : Nat) : (dropShardJobs s ix).gen = s.gen := rfl
@[simp] theorem dropShardJobs_lane (s : State) (ix : Nat) : (dropShardJobs s ix).lane = s.lane := rfl
@[simp] theorem dropShardJobs_key (s : State) (ix : Nat) : (dropShardJobs s ix).key = s.key := rfl
@[simp] theorem dropShardJobs_ime (s : State) (ix : Nat) : (dropShardJobs s ix).ime = s.ime := rfl
@[simp] theorem dropShardJobs_ile (s : State) (ix : Nat) : (dropShardJobs s ix).ile = s.ile := rfl
@[simp] theorem dropShardJobs_qos (s : State) (ix : Nat) : (dropShardJobs s ix).qos = s.qos := rfl
@[simp] theorem dropShardJobs_hob (s : State) (ix : Nat) : (dropShardJobs s ix).hob = s.hob := rfl
@[simp] theorem dropShardJobs_flt (s : State) (ix : Nat) : (dropShardJobs s ix).flt = s.flt := rfl
@[simp] theorem dropShardJobs_lcs (s : State) (ix : Nat) : (dropShardJobs s ix).lcs = s.lcs := rfl
@[simp] theorem dropShardJobs_sre (s : State) (ix : Nat) : (dropShardJobs s ix).sre = s.sre := rfl
@[simp] theorem dropShardJobs_att (s : State) (ix : Nat) : (dropShardJobs s ix).att = s.att := rfl
@[simp] theorem dropShardJobs_dbg (s : State) (ix : Nat) : (dropShardJobs s ix).dbg = s.dbg := rfl
@[simp] theorem dropShardJobs_out (s : State) (ix : Nat) : (dropShardJobs s ix).out = s.out := rfl
@[simp] theorem dropShardJobs_freeIx (s : State) (ix : Nat) : (dropShardJobs s ix).freeIx = s.freeIx := rfl
@[simp] theorem dropShardJobs_pending (s : State) (ix : Nat) : (dropShardJobs s ix).pending = s.pending := rfl

/-! ### imeReason writes only `ime` and `key` -/

@[simp] theorem imeReason_cfg (s : State) (c : Code) : (imeReason s c).cfg = s.cfg := by unfold imeReason; split <;> (try split) <;> first | rfl | simp
@[simp] theorem imeReason_pin (s : State) (c : Code) : (imeReason s c).pin = s.pin := by unfold imeReason; split <;> (try split) <;> first | rfl | simp
@[simp] theorem imeReason_dom (s : State) (c : Code) : (imeReason s c).dom = s.dom := by unfold imeReason; split <;> (try split) <;> first | rfl | simp
@[simp] theorem imeReason_tm (s : State) (c : Code) : (imeReason s c).tm = s.tm := by unfold imeReason; split <;> (try split) <;> first | rfl | simp
@[simp] theorem imeReason_fuse (s : State) (c : Code) : (imeReason s c).fuse = s.fuse := by unfold imeReason; split <;> (try split) <;> first | rfl | simp
@[simp] theorem imeReason_flash (s : State) (c : Code) : (imeReason s c).flash = s.flash := by unfold imeReason; split <;> (try split) <;> first | rfl | simp
@[simp] theorem imeReason_gen (s : State) (c : Code) : (imeReason s c).gen = s.gen := by unfold imeReason; split <;> (try split) <;> first | rfl | simp
@[simp] theorem imeReason_lane (s : State) (c : Code) : (imeReason s c).lane = s.lane := by unfold imeReason; split <;> (try split) <;> first | rfl | simp
@[simp] theorem imeReason_ile (s : State) (c : Code) : (imeReason s c).ile = s.ile := by unfold imeReason; split <;> (try split) <;> first | rfl | simp
@[simp] theorem imeReason_qos (s : State) (c : Code) : (imeReason s c).qos = s.qos := by unfold imeReason; split <;> (try split) <;> first | rfl | simp
@[simp] theorem imeReason_hob (s : State) (c : Code) : (imeReason s c).hob = s.hob := by unfold imeReason; split <;> (try split) <;> first | rfl | simp
@[simp] theorem imeReason_flt (s : State) (c : Code) : (imeReason s c).flt = s.flt := by unfold imeReason; split <;> (try split) <;> first | rfl | simp
@[simp] theorem imeReason_lcs (s : State) (c : Code) : (imeReason s c).lcs = s.lcs := by unfold imeReason; split <;> (try split) <;> first | rfl | simp
@[simp] theorem imeReason_sre (s : State) (c : Code) : (imeReason s c).sre = s.sre := by unfold imeReason; split <;> (try split) <;> first | rfl | simp
@[simp] theorem imeReason_bce (s : State) (c : Code) : (imeReason s c).bce = s.bce := by unfold imeReason; split <;> (try split) <;> first | rfl | simp
@[simp] theorem imeReason_att (s : State) (c : Code) : (imeReason s c).att = s.att := by unfold imeReason; split <;> (try split) <;> first | rfl | simp
@[simp] theorem imeReason_dbg (s : State) (c : Code) : (imeReason s c).dbg = s.dbg := by unfold imeReason; split <;> (try split) <;> first | rfl | simp
@[simp] theorem imeReason_out (s : State) (c : Code) : (imeReason s c).out = s.out := by unfold imeReason; split <;> (try split) <;> first | rfl | simp
@[simp] theorem imeReason_freeIx (s : State) (c : Code) : (imeReason s c).freeIx = s.freeIx := by unfold imeReason; split <;> (try split) <;> first | rfl | simp
@[simp] theorem imeReason_pending (s : State) (c : Code) : (imeReason s c).pending = s.pending := by unfold imeReason; split <;> (try split) <;> first | rfl | simp

/-! ### hobReason writes only `hob` -/

@[simp] theorem hobReason_cfg (s : State) (c : Code) : (hobReason s c).cfg = s.cfg := by unfold hobReason; split <;> (try split) <;> first | rfl | simp
@[simp] theorem hobReason_pin (s : State) (c : Code) : (hobReason s c).pin = s.pin := by unfold hobReason; split <;> (try split) <;> first | rfl | simp
@[simp] theorem hobReason_dom (s : State) (c : Code) : (hobReason s c).dom = s.dom := by unfold hobReason; split <;> (try split) <;> first | rfl | simp
@[simp] theorem hobReason_tm (s : State) (c : Code) : (hobReason s c).tm = s.tm := by unfold hobReason; split <;> (try split) <;> first | rfl | simp
@[simp] theorem hobReason_fuse (s : State) (c : Code) : (hobReason s c).fuse = s.fuse := by unfold hobReason; split <;> (try split) <;> first | rfl | simp
@[simp] theorem hobReason_flash (s : State) (c : Code) : (hobReason s c).flash = s.flash := by unfold hobReason; split <;> (try split) <;> first | rfl | simp
@[simp] theorem hobReason_gen (s : State) (c : Code) : (hobReason s c).gen = s.gen := by unfold hobReason; split <;> (try split) <;> first | rfl | simp
@[simp] theorem hobReason_lane (s : State) (c : Code) : (hobReason s c).lane = s.lane := by unfold hobReason; split <;> (try split) <;> first | rfl | simp
@[simp] theorem hobReason_key (s : State) (c : Code) : (hobReason s c).key = s.key := by unfold hobReason; split <;> (try split) <;> first | rfl | simp
@[simp] theorem hobReason_ime (s : State) (c : Code) : (hobReason s c).ime = s.ime := by unfold hobReason; split <;> (try split) <;> first | rfl | simp
@[simp] theorem hobReason_ile (s : State) (c : Code) : (hobReason s c).ile = s.ile := by unfold hobReason; split <;> (try split) <;> first | rfl | simp
@[simp] theorem hobReason_qos (s : State) (c : Code) : (hobReason s c).qos = s.qos := by unfold hobReason; split <;> (try split) <;> first | rfl | simp
@[simp] theorem hobReason_flt (s : State) (c : Code) : (hobReason s c).flt = s.flt := by unfold hobReason; split <;> (try split) <;> first | rfl | simp
@[simp] theorem hobReason_lcs (s : State) (c : Code) : (hobReason s c).lcs = s.lcs := by unfold hobReason; split <;> (try split) <;> first | rfl | simp
@[simp] theorem hobReason_sre (s : State) (c : Code) : (hobReason s c).sre = s.sre := by unfold hobReason; split <;> (try split) <;> first | rfl | simp
@[simp] theorem hobReason_bce (s : State) (c : Code) : (hobReason s c).bce = s.bce := by unfold hobReason; split <;> (try split) <;> first | rfl | simp
@[simp] theorem hobReason_att (s : State) (c : Code) : (hobReason s c).att = s.att := by unfold hobReason; split <;> (try split) <;> first | rfl | simp
@[simp] theorem hobReason_dbg (s : State) (c : Code) : (hobReason s c).dbg = s.dbg := by unfold hobReason; split <;> (try split) <;> first | rfl | simp
@[simp] theorem hobReason_out (s : State) (c : Code) : (hobReason s c).out = s.out := by unfold hobReason; split <;> (try split) <;> first | rfl | simp
@[simp] theorem hobReason_freeIx (s : State) (c : Code) : (hobReason s c).freeIx = s.freeIx := by unfold hobReason; split <;> (try split) <;> first | rfl | simp
@[simp] theorem hobReason_pending (s : State) (c : Code) : (hobReason s c).pending = s.pending := by unfold hobReason; split <;> (try split) <;> first | rfl | simp

/-! ### exitReset writes only `dom` and `hob` -/

@[simp] theorem exitReset_cfg (s : State) (d : Nat) : (exitReset s d).cfg = s.cfg := by unfold exitReset; split <;> (try split) <;> first | rfl | simp
@[simp] theorem exitReset_pin (s : State) (d : Nat) : (exitReset s d).pin = s.pin := by unfold exitReset; split <;> (try split) <;> first | rfl | simp
@[simp] theorem exitReset_tm (s : State) (d : Nat) : (exitReset s d).tm = s.tm := by unfold exitReset; split <;> (try split) <;> first | rfl | simp
@[simp] theorem exitReset_fuse (s : State) (d : Nat) : (exitReset s d).fuse = s.fuse := by unfold exitReset; split <;> (try split) <;> first | rfl | simp
@[simp] theorem exitReset_flash (s : State) (d : Nat) : (exitReset s d).flash = s.flash := by unfold exitReset; split <;> (try split) <;> first | rfl | simp
@[simp] theorem exitReset_gen (s : State) (d : Nat) : (exitReset s d).gen = s.gen := by unfold exitReset; split <;> (try split) <;> first | rfl | simp
@[simp] theorem exitReset_lane (s : State) (d : Nat) : (exitReset s d).lane = s.lane := by unfold exitReset; split <;> (try split) <;> first | rfl | simp
@[simp] theorem exitReset_key (s : State) (d : Nat) : (exitReset s d).key = s.key := by unfold exitReset; split <;> (try split) <;> first | rfl | simp
@[simp] theorem exitReset_ime (s : State) (d : Nat) : (exitReset s d).ime = s.ime := by unfold exitReset; split <;> (try split) <;> first | rfl | simp
@[simp] theorem exitReset_ile (s : State) (d : Nat) : (exitReset s d).ile = s.ile := by unfold exitReset; split <;> (try split) <;> first | rfl | simp
@[simp] theorem exitReset_qos (s : State) (d : Nat) : (exitReset s d).qos = s.qos := by unfold exitReset; split <;> (try split) <;> first | rfl | simp
@[simp] theorem exitReset_flt (s : State) (d : Nat) : (exitReset s d).flt = s.flt := by unfold exitReset; split <;> (try split) <;> first | rfl | simp
@[simp] theorem exitReset_lcs (s : State) (d : Nat) : (exitReset s d).lcs = s.lcs := by unfold exitReset; split <;> (try split) <;> first | rfl | simp
@[simp] theorem exitReset_sre (s : State) (d : Nat) : (exitReset s d).sre = s.sre := by unfold exitReset; split <;> (try split) <;> first | rfl | simp
@[simp] theorem exitReset_bce (s : State) (d : Nat) : (exitReset s d).bce = s.bce := by unfold exitReset; split <;> (try split) <;> first | rfl | simp
@[simp] theorem exitReset_att (s : State) (d : Nat) : (exitReset s d).att = s.att := by unfold exitReset; split <;> (try split) <;> first | rfl | simp
@[simp] theorem exitReset_dbg (s : State) (d : Nat) : (exitReset s d).dbg = s.dbg := by unfold exitReset; split <;> (try split) <;> first | rfl | simp
@[simp] theorem exitReset_out (s : State) (d : Nat) : (exitReset s d).out = s.out := by unfold exitReset; split <;> (try split) <;> first | rfl | simp
@[simp] theorem exitReset_freeIx (s : State) (d : Nat) : (exitReset s d).freeIx = s.freeIx := by unfold exitReset; split <;> (try split) <;> first | rfl | simp
@[simp] theorem exitReset_pending (s : State) (d : Nat) : (exitReset s d).pending = s.pending := by unfold exitReset; split <;> (try split) <;> first | rfl | simp

/-! ### What the written field gives -/

@[simp] theorem emit_out (s : State) (o : Out) : (emit s o).out = s.out ++ [o] := rfl
@[simp] theorem emits_out (s : State) (o : List Out) : (emits s o).out = s.out ++ o := rfl
@[simp] theorem fresh_value (s : State) : (fresh s).1 = Config.draw s.freeIx := rfl
@[simp] theorem fresh_freeIx (s : State) : (fresh s).2.freeIx = s.freeIx + 1 := rfl

/-- A domain after a write of a domain. -/
theorem domAt_setDom (s : State) (d : Nat) (v : Dom) (j : Nat) : domAt (setDom s d v) j = if d = j then v else domAt s j := dget_dput ({} : Dom) s.dom.d d v j

@[simp] theorem domAt_setDom_same (s : State) (d : Nat) (v : Dom) : domAt (setDom s d v) d = v := by simp [domAt_setDom]

/-- A domain after one leaves reset: out of reset, its first release counted, its epoch one more unless it is the first. -/
theorem domAt_exitReset (s : State) (d j : Nat) :
    domAt (exitReset s d) j = if d = j then { domAt s d with
      inReset := false, epoch := if (domAt s d).first then epochOf s d else epochOf s d + 1#32, first := false } else domAt s j := by
  rw [← domAt_setDom]; unfold exitReset; split <;> rfl

/-- A domain's exit from reset adds one to its epoch and to no other; the first release of a cold start adds none (01 R39). -/
theorem epochOf_exitReset (s : State) (d j : Nat) :
    epochOf (exitReset s d) j = if d = j ∧ (domAt s d).first = false then epochOf s d + 1#32 else epochOf s j := by
  unfold epochOf; rw [domAt_exitReset]
  by_cases hj : d = j
  · subst hj; cases hf : (domAt s d).first <;> simp [epochOf, hf]
  · simp [hj]

/-- A domain that leaves reset is out of reset, and no other moves. -/
theorem inReset_exitReset (s : State) (d j : Nat) :
    (domAt (exitReset s d) j).inReset = if d = j then false else (domAt s j).inReset := by
  rw [domAt_exitReset]; split <;> rfl

/-- Entering reset changes no epoch. -/
theorem epochOf_enterReset (s : State) (d j : Nat) : epochOf (enterReset s d) j = epochOf s j := by
  unfold epochOf enterReset; rw [domAt_setDom]; split
  · next h => subst h; rfl
  · rfl

theorem memPin_setMemPin (s : State) (p : Nat) (v : MemPin) (j : Nat) : memPin (setMemPin s p v) j = if p = j then v else memPin s j :=
  dget_dput ({} : MemPin) s.pin.mem p v j

theorem lnkPin_setLnkPin (s : State) (e : Nat) (v : LnkPin) (j : Nat) : lnkPin (setLnkPin s e v) j = if e = j then v else lnkPin s j :=
  dget_dput ({} : LnkPin) s.pin.lnk e v j

theorem laneAt_setLane (s : State) (i : Nat) (v : Lane) (j : Nat) : laneAt (setLane s i v) j = if i = j then v else laneAt s j :=
  dget_dput ({} : Lane) s.lane.l i v j

theorem slotAt_setSlot (s : State) (i : Nat) (v : Option Slot) (j : Nat) : slotAt (setSlot s i v) j = if i = j then v else slotAt s j :=
  tget_tset s.key.slots i v j

/-- A region's entry after it is written: FREE entries and indices past the catalogue read as none. -/
theorem regionAt_setRegion (s : State) (ix : Nat) (r : Region) (h : ix < catEntries s) (hr : r.state ≠ 0) : regionAt (setRegion s ix r) ix = some r := by
  have : ix < catEntries (setRegion s ix r) := h
  unfold regionAt
  rw [if_pos this]
  simp [setRegion, hr]

theorem lportAt_setLport (s : State) (e : Nat) (p : LPort) (j : Nat) : lportAt (setLport s e p) j = if e = j then p else lportAt s j :=
  dget_dput ({} : LPort) s.ile.ports e p j

end Sys2Proof.Machine
end

