-- ==== Sys2Proof/Laws/Ops.lean ====
section
/-!
SUPPORT. What each shared operation can do, said once: fault records, rungs, admitted register writes, the memory queues at rest.
-/
set_option Elab.async false

namespace Sys2Proof.Machine

/-! ### Fault records -/

/-- Queueing a record changes the queue, the records held at the crossing and the lost mark alone (11 R332). -/
theorem queueRecord_eq (s : State) (r : FaultRec) :
    ∃ q w l, queueRecord s r = { s with flt := { s.flt with queue := q, stalled := w, annalsLost := l } } := by
  unfold queueRecord
  split
  · exact ⟨_, s.flt.stalled, s.flt.annalsLost, rfl⟩
  · split
    · exact ⟨_, s.flt.stalled, true, rfl⟩
    · split
      · exact ⟨s.flt.queue, _, s.flt.annalsLost, rfl⟩
      · exact ⟨s.flt.queue, s.flt.stalled, true, rfl⟩

/-- A fault record changes the annals queue, the standing list, FLT_STATUS.PERMANENT and the interrupt sources alone (11 R330 to R334). -/
theorem record_eq (s : State) (c u loc act : Nat) (rsn : Code) (who : Option Who) (detail : Nat) :
    ∃ q w l p st irq, record s c u loc act rsn who detail =
      { s with
        flt := { s.flt with queue := q, stalled := w, annalsLost := l, permanent := p }
        flash := { s.flash with standing := st }
        gen := { s.gen with irqStatus := irq } } := by
  obtain ⟨q, w, l, h⟩ := queueRecord_eq s (mkRecord s c u loc act rsn who detail)
  refine ⟨(record s c u loc act rsn who detail).flt.queue, (record s c u loc act rsn who detail).flt.stalled, (record s c u loc act rsn who detail).flt.annalsLost, (record s c u loc act rsn who detail).flt.permanent, (record s c u loc act rsn who detail).flash.standing, (record s c u loc act rsn who detail).gen.irqStatus, ?_⟩
  unfold record
  simp only [h]
  split <;> split <;> rfl

@[simp] theorem record_cfg (s : State) (c u loc act : Nat) (rsn : Code) (who : Option Who) (detail : Nat) : (record s c u loc act rsn who detail).cfg = s.cfg := by
  obtain ⟨_, _, _, _, _, _, h⟩ := record_eq s c u loc act rsn who detail; rw [h]
@[simp] theorem record_pin (s : State) (c u loc act : Nat) (rsn : Code) (who : Option Who) (detail : Nat) : (record s c u loc act rsn who detail).pin = s.pin := by
  obtain ⟨_, _, _, _, _, _, h⟩ := record_eq s c u loc act rsn who detail; rw [h]
@[simp] theorem record_dom (s : State) (c u loc act : Nat) (rsn : Code) (who : Option Who) (detail : Nat) : (record s c u loc act rsn who detail).dom = s.dom := by
  obtain ⟨_, _, _, _, _, _, h⟩ := record_eq s c u loc act rsn who detail; rw [h]
@[simp] theorem record_tm (s : State) (c u loc act : Nat) (rsn : Code) (who : Option Who) (detail : Nat) : (record s c u loc act rsn who detail).tm = s.tm := by
  obtain ⟨_, _, _, _, _, _, h⟩ := record_eq s c u loc act rsn who detail; rw [h]
@[simp] theorem record_fuse (s : State) (c u loc act : Nat) (rsn : Code) (who : Option Who) (detail : Nat) : (record s c u loc act rsn who detail).fuse = s.fuse := by
  obtain ⟨_, _, _, _, _, _, h⟩ := record_eq s c u loc act rsn who detail; rw [h]
@[simp] theorem record_lane (s : State) (c u loc act : Nat) (rsn : Code) (who : Option Who) (detail : Nat) : (record s c u loc act rsn who detail).lane = s.lane := by
  obtain ⟨_, _, _, _, _, _, h⟩ := record_eq s c u loc act rsn who detail; rw [h]
@[simp] theorem record_key (s : State) (c u loc act : Nat) (rsn : Code) (who : Option Who) (detail : Nat) : (record s c u loc act rsn who detail).key = s.key := by
  obtain ⟨_, _, _, _, _, _, h⟩ := record_eq s c u loc act rsn who detail; rw [h]
@[simp] theorem record_ime (s : State) (c u loc act : Nat) (rsn : Code) (who : Option Who) (detail : Nat) : (record s c u loc act rsn who detail).ime = s.ime := by
  obtain ⟨_, _, _, _, _, _, h⟩ := record_eq s c u loc act rsn who detail; rw [h]
@[simp] theorem record_ile (s : State) (c u loc act : Nat) (rsn : Code) (who : Option Who) (detail : Nat) : (record s c u loc act rsn who detail).ile = s.ile := by
  obtain ⟨_, _, _, _, _, _, h⟩ := record_eq s c u loc act rsn who detail; rw [h]
@[simp] theorem record_qos (s : State) (c u loc act : Nat) (rsn : Code) (who : Option Who) (detail : Nat) : (record s c u loc act rsn who detail).qos = s.qos := by
  obtain ⟨_, _, _, _, _, _, h⟩ := record_eq s c u loc act rsn who detail; rw [h]
@[simp] theorem record_hob (s : State) (c u loc act : Nat) (rsn : Code) (who : Option Who) (detail : Nat) : (record s c u loc act rsn who detail).hob = s.hob := by
  obtain ⟨_, _, _, _, _, _, h⟩ := record_eq s c u loc act rsn who detail; rw [h]
@[simp] theorem record_lcs (s : State) (c u loc act : Nat) (rsn : Code) (who : Option Who) (detail : Nat) : (record s c u loc act rsn who detail).lcs = s.lcs := by
  obtain ⟨_, _, _, _, _, _, h⟩ := record_eq s c u loc act rsn who detail; rw [h]
@[simp] theorem record_sre (s : State) (c u loc act : Nat) (rsn : Code) (who : Option Who) (detail : Nat) : (record s c u loc act rsn who detail).sre = s.sre := by
  obtain ⟨_, _, _, _, _, _, h⟩ := record_eq s c u loc act rsn who detail; rw [h]
@[simp] theorem record_bce (s : State) (c u loc act : Nat) (rsn : Code) (who : Option Who) (detail : Nat) : (record s c u loc act rsn who detail).bce = s.bce := by
  obtain ⟨_, _, _, _, _, _, h⟩ := record_eq s c u loc act rsn who detail; rw [h]
@[simp] theorem record_att (s : State) (c u loc act : Nat) (rsn : Code) (who : Option Who) (detail : Nat) : (record s c u loc act rsn who detail).att = s.att := by
  obtain ⟨_, _, _, _, _, _, h⟩ := record_eq s c u loc act rsn who detail; rw [h]
@[simp] theorem record_dbg (s : State) (c u loc act : Nat) (rsn : Code) (who : Option Who) (detail : Nat) : (record s c u loc act rsn who detail).dbg = s.dbg := by
  obtain ⟨_, _, _, _, _, _, h⟩ := record_eq s c u loc act rsn who detail; rw [h]
@[simp] theorem record_out (s : State) (c u loc act : Nat) (rsn : Code) (who : Option Who) (detail : Nat) : (record s c u loc act rsn who detail).out = s.out := by
  obtain ⟨_, _, _, _, _, _, h⟩ := record_eq s c u loc act rsn who detail; rw [h]
@[simp] theorem record_freeIx (s : State) (c u loc act : Nat) (rsn : Code) (who : Option Who) (detail : Nat) : (record s c u loc act rsn who detail).freeIx = s.freeIx := by
  obtain ⟨_, _, _, _, _, _, h⟩ := record_eq s c u loc act rsn who detail; rw [h]
@[simp] theorem record_pending (s : State) (c u loc act : Nat) (rsn : Code) (who : Option Who) (detail : Nat) : (record s c u loc act rsn who detail).pending = s.pending := by
  obtain ⟨_, _, _, _, _, _, h⟩ := record_eq s c u loc act rsn who detail; rw [h]
@[simp] theorem record_flt_dumpReady (s : State) (c u loc act : Nat) (rsn : Code) (who : Option Who) (detail : Nat) : (record s c u loc act rsn who detail).flt.dumpReady = s.flt.dumpReady := by
  obtain ⟨_, _, _, _, _, _, h⟩ := record_eq s c u loc act rsn who detail; rw [h]
@[simp] theorem record_flt_ignoredWrite (s : State) (c u loc act : Nat) (rsn : Code) (who : Option Who) (detail : Nat) : (record s c u loc act rsn who detail).flt.ignoredWrite = s.flt.ignoredWrite := by
  obtain ⟨_, _, _, _, _, _, h⟩ := record_eq s c u loc act rsn who detail; rw [h]
@[simp] theorem record_flt_ignoredOffset (s : State) (c u loc act : Nat) (rsn : Code) (who : Option Who) (detail : Nat) : (record s c u loc act rsn who detail).flt.ignoredOffset = s.flt.ignoredOffset := by
  obtain ⟨_, _, _, _, _, _, h⟩ := record_eq s c u loc act rsn who detail; rw [h]
@[simp] theorem record_flt_merged (s : State) (c u loc act : Nat) (rsn : Code) (who : Option Who) (detail : Nat) : (record s c u loc act rsn who detail).flt.merged = s.flt.merged := by
  obtain ⟨_, _, _, _, _, _, h⟩ := record_eq s c u loc act rsn who detail; rw [h]
@[simp] theorem record_flt_coldReq (s : State) (c u loc act : Nat) (rsn : Code) (who : Option Who) (detail : Nat) : (record s c u loc act rsn who detail).flt.coldReq = s.flt.coldReq := by
  obtain ⟨_, _, _, _, _, _, h⟩ := record_eq s c u loc act rsn who detail; rw [h]
@[simp] theorem record_flt_escCtrl (s : State) (c u loc act : Nat) (rsn : Code) (who : Option Who) (detail : Nat) : (record s c u loc act rsn who detail).flt.escCtrl = s.flt.escCtrl := by
  obtain ⟨_, _, _, _, _, _, h⟩ := record_eq s c u loc act rsn who detail; rw [h]
@[simp] theorem record_flt_hangCtrl (s : State) (c u loc act : Nat) (rsn : Code) (who : Option Who) (detail : Nat) : (record s c u loc act rsn who detail).flt.hangCtrl = s.flt.hangCtrl := by
  obtain ⟨_, _, _, _, _, _, h⟩ := record_eq s c u loc act rsn who detail; rw [h]
@[simp] theorem record_flt_waitUs (s : State) (c u loc act : Nat) (rsn : Code) (who : Option Who) (detail : Nat) : (record s c u loc act rsn who detail).flt.waitUs = s.flt.waitUs := by
  obtain ⟨_, _, _, _, _, _, h⟩ := record_eq s c u loc act rsn who detail; rw [h]
@[simp] theorem record_flt_annalsSel (s : State) (c u loc act : Nat) (rsn : Code) (who : Option Who) (detail : Nat) : (record s c u loc act rsn who detail).flt.annalsSel = s.flt.annalsSel := by
  obtain ⟨_, _, _, _, _, _, h⟩ := record_eq s c u loc act rsn who detail; rw [h]
@[simp] theorem record_flt_dumpSel (s : State) (c u loc act : Nat) (rsn : Code) (who : Option Who) (detail : Nat) : (record s c u loc act rsn who detail).flt.dumpSel = s.flt.dumpSel := by
  obtain ⟨_, _, _, _, _, _, h⟩ := record_eq s c u loc act rsn who detail; rw [h]
@[simp] theorem record_flt_epochSel (s : State) (c u loc act : Nat) (rsn : Code) (who : Option Who) (detail : Nat) : (record s c u loc act rsn who detail).flt.epochSel = s.flt.epochSel := by
  obtain ⟨_, _, _, _, _, _, h⟩ := record_eq s c u loc act rsn who detail; rw [h]
@[simp] theorem record_flt_running (s : State) (c u loc act : Nat) (rsn : Code) (who : Option Who) (detail : Nat) : (record s c u loc act rsn who detail).flt.running = s.flt.running := by
  obtain ⟨_, _, _, _, _, _, h⟩ := record_eq s c u loc act rsn who detail; rw [h]
@[simp] theorem record_flt_portWait (s : State) (c u loc act : Nat) (rsn : Code) (who : Option Who) (detail : Nat) : (record s c u loc act rsn who detail).flt.portWait = s.flt.portWait := by
  obtain ⟨_, _, _, _, _, _, h⟩ := record_eq s c u loc act rsn who detail; rw [h]
@[simp] theorem record_flt_history (s : State) (c u loc act : Nat) (rsn : Code) (who : Option Who) (detail : Nat) : (record s c u loc act rsn who detail).flt.history = s.flt.history := by
  obtain ⟨_, _, _, _, _, _, h⟩ := record_eq s c u loc act rsn who detail; rw [h]
@[simp] theorem record_flt_dump (s : State) (c u loc act : Nat) (rsn : Code) (who : Option Who) (detail : Nat) : (record s c u loc act rsn who detail).flt.dump = s.flt.dump := by
  obtain ⟨_, _, _, _, _, _, h⟩ := record_eq s c u loc act rsn who detail; rw [h]
@[simp] theorem record_flt_dumpDue (s : State) (c u loc act : Nat) (rsn : Code) (who : Option Who) (detail : Nat) : (record s c u loc act rsn who detail).flt.dumpDue = s.flt.dumpDue := by
  obtain ⟨_, _, _, _, _, _, h⟩ := record_eq s c u loc act rsn who detail; rw [h]
@[simp] theorem record_flt_dumpNext (s : State) (c u loc act : Nat) (rsn : Code) (who : Option Who) (detail : Nat) : (record s c u loc act rsn who detail).flt.dumpNext = s.flt.dumpNext := by
  obtain ⟨_, _, _, _, _, _, h⟩ := record_eq s c u loc act rsn who detail; rw [h]
@[simp] theorem record_flt_lossW (s : State) (c u loc act : Nat) (rsn : Code) (who : Option Who) (detail : Nat) : (record s c u loc act rsn who detail).flt.lossW = s.flt.lossW := by
  obtain ⟨_, _, _, _, _, _, h⟩ := record_eq s c u loc act rsn who detail; rw [h]
@[simp] theorem record_flt_lossC (s : State) (c u loc act : Nat) (rsn : Code) (who : Option Who) (detail : Nat) : (record s c u loc act rsn who detail).flt.lossC = s.flt.lossC := by
  obtain ⟨_, _, _, _, _, _, h⟩ := record_eq s c u loc act rsn who detail; rw [h]
@[simp] theorem record_flt_recovery (s : State) (c u loc act : Nat) (rsn : Code) (who : Option Who) (detail : Nat) : (record s c u loc act rsn who detail).flt.recovery = s.flt.recovery := by
  obtain ⟨_, _, _, _, _, _, h⟩ := record_eq s c u loc act rsn who detail; rw [h]
@[simp] theorem record_flt_coreResets (s : State) (c u loc act : Nat) (rsn : Code) (who : Option Who) (detail : Nat) : (record s c u loc act rsn who detail).flt.coreResets = s.flt.coreResets := by
  obtain ⟨_, _, _, _, _, _, h⟩ := record_eq s c u loc act rsn who detail; rw [h]
@[simp] theorem record_flash_intent (s : State) (c u loc act : Nat) (rsn : Code) (who : Option Who) (detail : Nat) : (record s c u loc act rsn who detail).flash.intent = s.flash.intent := by
  obtain ⟨_, _, _, _, _, _, h⟩ := record_eq s c u loc act rsn who detail; rw [h]
@[simp] theorem record_flash_formatEpoch (s : State) (c u loc act : Nat) (rsn : Code) (who : Option Who) (detail : Nat) : (record s c u loc act rsn who detail).flash.formatEpoch = s.flash.formatEpoch := by
  obtain ⟨_, _, _, _, _, _, h⟩ := record_eq s c u loc act rsn who detail; rw [h]
@[simp] theorem record_flash_hours (s : State) (c u loc act : Nat) (rsn : Code) (who : Option Who) (detail : Nat) : (record s c u loc act rsn who detail).flash.hours = s.flash.hours := by
  obtain ⟨_, _, _, _, _, _, h⟩ := record_eq s c u loc act rsn who detail; rw [h]
@[simp] theorem record_flash_boot (s : State) (c u loc act : Nat) (rsn : Code) (who : Option Who) (detail : Nat) : (record s c u loc act rsn who detail).flash.boot = s.flash.boot := by
  obtain ⟨_, _, _, _, _, _, h⟩ := record_eq s c u loc act rsn who detail; rw [h]
@[simp] theorem record_flash_userKey (s : State) (c u loc act : Nat) (rsn : Code) (who : Option Who) (detail : Nat) : (record s c u loc act rsn who detail).flash.userKey = s.flash.userKey := by
  obtain ⟨_, _, _, _, _, _, h⟩ := record_eq s c u loc act rsn who detail; rw [h]
@[simp] theorem record_flash_slots (s : State) (c u loc act : Nat) (rsn : Code) (who : Option Who) (detail : Nat) : (record s c u loc act rsn who detail).flash.slots = s.flash.slots := by
  obtain ⟨_, _, _, _, _, _, h⟩ := record_eq s c u loc act rsn who detail; rw [h]
@[simp] theorem record_flash_slotVoid (s : State) (c u loc act : Nat) (rsn : Code) (who : Option Who) (detail : Nat) : (record s c u loc act rsn who detail).flash.slotVoid = s.flash.slotVoid := by
  obtain ⟨_, _, _, _, _, _, h⟩ := record_eq s c u loc act rsn who detail; rw [h]
@[simp] theorem record_flash_dumps (s : State) (c u loc act : Nat) (rsn : Code) (who : Option Who) (detail : Nat) : (record s c u loc act rsn who detail).flash.dumps = s.flash.dumps := by
  obtain ⟨_, _, _, _, _, _, h⟩ := record_eq s c u loc act rsn who detail; rw [h]
@[simp] theorem record_flash_rings (s : State) (c u loc act : Nat) (rsn : Code) (who : Option Who) (detail : Nat) : (record s c u loc act rsn who detail).flash.rings = s.flash.rings := by
  obtain ⟨_, _, _, _, _, _, h⟩ := record_eq s c u loc act rsn who detail; rw [h]
@[simp] theorem record_flash_accession (s : State) (c u loc act : Nat) (rsn : Code) (who : Option Who) (detail : Nat) : (record s c u loc act rsn who detail).flash.accession = s.flash.accession := by
  obtain ⟨_, _, _, _, _, _, h⟩ := record_eq s c u loc act rsn who detail; rw [h]
@[simp] theorem record_flash_accVoid (s : State) (c u loc act : Nat) (rsn : Code) (who : Option Who) (detail : Nat) : (record s c u loc act rsn who detail).flash.accVoid = s.flash.accVoid := by
  obtain ⟨_, _, _, _, _, _, h⟩ := record_eq s c u loc act rsn who detail; rw [h]
@[simp] theorem record_flash_helper (s : State) (c u loc act : Nat) (rsn : Code) (who : Option Who) (detail : Nat) : (record s c u loc act rsn who detail).flash.helper = s.flash.helper := by
  obtain ⟨_, _, _, _, _, _, h⟩ := record_eq s c u loc act rsn who detail; rw [h]
@[simp] theorem record_flash_certChain (s : State) (c u loc act : Nat) (rsn : Code) (who : Option Who) (detail : Nat) : (record s c u loc act rsn who detail).flash.certChain = s.flash.certChain := by
  obtain ⟨_, _, _, _, _, _, h⟩ := record_eq s c u loc act rsn who detail; rw [h]
@[simp] theorem record_flash_endorse (s : State) (c u loc act : Nat) (rsn : Code) (who : Option Who) (detail : Nat) : (record s c u loc act rsn who detail).flash.endorse = s.flash.endorse := by
  obtain ⟨_, _, _, _, _, _, h⟩ := record_eq s c u loc act rsn who detail; rw [h]
@[simp] theorem record_flash_importHigh (s : State) (c u loc act : Nat) (rsn : Code) (who : Option Who) (detail : Nat) : (record s c u loc act rsn who detail).flash.importHigh = s.flash.importHigh := by
  obtain ⟨_, _, _, _, _, _, h⟩ := record_eq s c u loc act rsn who detail; rw [h]
@[simp] theorem record_flash_exportReserve (s : State) (c u loc act : Nat) (rsn : Code) (who : Option Who) (detail : Nat) : (record s c u loc act rsn who detail).flash.exportReserve = s.flash.exportReserve := by
  obtain ⟨_, _, _, _, _, _, h⟩ := record_eq s c u loc act rsn who detail; rw [h]
@[simp] theorem record_flash_stratumHigh (s : State) (c u loc act : Nat) (rsn : Code) (who : Option Who) (detail : Nat) : (record s c u loc act rsn who detail).flash.stratumHigh = s.flash.stratumHigh := by
  obtain ⟨_, _, _, _, _, _, h⟩ := record_eq s c u loc act rsn who detail; rw [h]
@[simp] theorem record_flash_appoint (s : State) (c u loc act : Nat) (rsn : Code) (who : Option Who) (detail : Nat) : (record s c u loc act rsn who detail).flash.appoint = s.flash.appoint := by
  obtain ⟨_, _, _, _, _, _, h⟩ := record_eq s c u loc act rsn who detail; rw [h]
@[simp] theorem record_flash_fwTags (s : State) (c u loc act : Nat) (rsn : Code) (who : Option Who) (detail : Nat) : (record s c u loc act rsn who detail).flash.fwTags = s.flash.fwTags := by
  obtain ⟨_, _, _, _, _, _, h⟩ := record_eq s c u loc act rsn who detail; rw [h]
@[simp] theorem record_gen_released (s : State) (c u loc act : Nat) (rsn : Code) (who : Option Who) (detail : Nat) : (record s c u loc act rsn who detail).gen.released = s.gen.released := by
  obtain ⟨_, _, _, _, _, _, h⟩ := record_eq s c u loc act rsn who detail; rw [h]
@[simp] theorem record_gen_ready (s : State) (c u loc act : Nat) (rsn : Code) (who : Option Who) (detail : Nat) : (record s c u loc act rsn who detail).gen.ready = s.gen.ready := by
  obtain ⟨_, _, _, _, _, _, h⟩ := record_eq s c u loc act rsn who detail; rw [h]
@[simp] theorem record_gen_unchartered (s : State) (c u loc act : Nat) (rsn : Code) (who : Option Who) (detail : Nat) : (record s c u loc act rsn who detail).gen.unchartered = s.gen.unchartered := by
  obtain ⟨_, _, _, _, _, _, h⟩ := record_eq s c u loc act rsn who detail; rw [h]
@[simp] theorem record_gen_c6Done (s : State) (c u loc act : Nat) (rsn : Code) (who : Option Who) (detail : Nat) : (record s c u loc act rsn who detail).gen.c6Done = s.gen.c6Done := by
  obtain ⟨_, _, _, _, _, _, h⟩ := record_eq s c u loc act rsn who detail; rw [h]
@[simp] theorem record_gen_c10Done (s : State) (c u loc act : Nat) (rsn : Code) (who : Option Who) (detail : Nat) : (record s c u loc act rsn who detail).gen.c10Done = s.gen.c10Done := by
  obtain ⟨_, _, _, _, _, _, h⟩ := record_eq s c u loc act rsn who detail; rw [h]
@[simp] theorem record_gen_c12Done (s : State) (c u loc act : Nat) (rsn : Code) (who : Option Who) (detail : Nat) : (record s c u loc act rsn who detail).gen.c12Done = s.gen.c12Done := by
  obtain ⟨_, _, _, _, _, _, h⟩ := record_eq s c u loc act rsn who detail; rw [h]
@[simp] theorem record_gen_halted (s : State) (c u loc act : Nat) (rsn : Code) (who : Option Who) (detail : Nat) : (record s c u loc act rsn who detail).gen.halted = s.gen.halted := by
  obtain ⟨_, _, _, _, _, _, h⟩ := record_eq s c u loc act rsn who detail; rw [h]
@[simp] theorem record_gen_c5Wait (s : State) (c u loc act : Nat) (rsn : Code) (who : Option Who) (detail : Nat) : (record s c u loc act rsn who detail).gen.c5Wait = s.gen.c5Wait := by
  obtain ⟨_, _, _, _, _, _, h⟩ := record_eq s c u loc act rsn who detail; rw [h]
@[simp] theorem record_gen_lastStart (s : State) (c u loc act : Nat) (rsn : Code) (who : Option Who) (detail : Nat) : (record s c u loc act rsn who detail).gen.lastStart = s.gen.lastStart := by
  obtain ⟨_, _, _, _, _, _, h⟩ := record_eq s c u loc act rsn who detail; rw [h]
@[simp] theorem record_gen_startDrbg (s : State) (c u loc act : Nat) (rsn : Code) (who : Option Who) (detail : Nat) : (record s c u loc act rsn who detail).gen.startDrbg = s.gen.startDrbg := by
  obtain ⟨_, _, _, _, _, _, h⟩ := record_eq s c u loc act rsn who detail; rw [h]
@[simp] theorem record_gen_startUnch (s : State) (c u loc act : Nat) (rsn : Code) (who : Option Who) (detail : Nat) : (record s c u loc act rsn who detail).gen.startUnch = s.gen.startUnch := by
  obtain ⟨_, _, _, _, _, _, h⟩ := record_eq s c u loc act rsn who detail; rw [h]
@[simp] theorem record_gen_startBedFail (s : State) (c u loc act : Nat) (rsn : Code) (who : Option Who) (detail : Nat) : (record s c u loc act rsn who detail).gen.startBedFail = s.gen.startBedFail := by
  obtain ⟨_, _, _, _, _, _, h⟩ := record_eq s c u loc act rsn who detail; rw [h]
@[simp] theorem record_gen_startBedAbsent (s : State) (c u loc act : Nat) (rsn : Code) (who : Option Who) (detail : Nat) : (record s c u loc act rsn who detail).gen.startBedAbsent = s.gen.startBedAbsent := by
  obtain ⟨_, _, _, _, _, _, h⟩ := record_eq s c u loc act rsn who detail; rw [h]
@[simp] theorem record_gen_startGeode (s : State) (c u loc act : Nat) (rsn : Code) (who : Option Who) (detail : Nat) : (record s c u loc act rsn who detail).gen.startGeode = s.gen.startGeode := by
  obtain ⟨_, _, _, _, _, _, h⟩ := record_eq s c u loc act rsn who detail; rw [h]
@[simp] theorem record_gen_strap (s : State) (c u loc act : Nat) (rsn : Code) (who : Option Who) (detail : Nat) : (record s c u loc act rsn who detail).gen.strap = s.gen.strap := by
  obtain ⟨_, _, _, _, _, _, h⟩ := record_eq s c u loc act rsn who detail; rw [h]
@[simp] theorem record_gen_cclkMhz (s : State) (c u loc act : Nat) (rsn : Code) (who : Option Who) (detail : Nat) : (record s c u loc act rsn who detail).gen.cclkMhz = s.gen.cclkMhz := by
  obtain ⟨_, _, _, _, _, _, h⟩ := record_eq s c u loc act rsn who detail; rw [h]
@[simp] theorem record_gen_cclkValid (s : State) (c u loc act : Nat) (rsn : Code) (who : Option Who) (detail : Nat) : (record s c u loc act rsn who detail).gen.cclkValid = s.gen.cclkValid := by
  obtain ⟨_, _, _, _, _, _, h⟩ := record_eq s c u loc act rsn who detail; rw [h]
@[simp] theorem record_gen_chrBase (s : State) (c u loc act : Nat) (rsn : Code) (who : Option Who) (detail : Nat) : (record s c u loc act rsn who detail).gen.chrBase = s.gen.chrBase := by
  obtain ⟨_, _, _, _, _, _, h⟩ := record_eq s c u loc act rsn who detail; rw [h]
@[simp] theorem record_gen_chrShelf (s : State) (c u loc act : Nat) (rsn : Code) (who : Option Who) (detail : Nat) : (record s c u loc act rsn who detail).gen.chrShelf = s.gen.chrShelf := by
  obtain ⟨_, _, _, _, _, _, h⟩ := record_eq s c u loc act rsn who detail; rw [h]
@[simp] theorem record_gen_chrLen (s : State) (c u loc act : Nat) (rsn : Code) (who : Option Who) (detail : Nat) : (record s c u loc act rsn who detail).gen.chrLen = s.gen.chrLen := by
  obtain ⟨_, _, _, _, _, _, h⟩ := record_eq s c u loc act rsn who detail; rw [h]
@[simp] theorem record_gen_chrWindow (s : State) (c u loc act : Nat) (rsn : Code) (who : Option Who) (detail : Nat) : (record s c u loc act rsn who detail).gen.chrWindow = s.gen.chrWindow := by
  obtain ⟨_, _, _, _, _, _, h⟩ := record_eq s c u loc act rsn who detail; rw [h]
@[simp] theorem record_gen_chrBusy (s : State) (c u loc act : Nat) (rsn : Code) (who : Option Who) (detail : Nat) : (record s c u loc act rsn who detail).gen.chrBusy = s.gen.chrBusy := by
  obtain ⟨_, _, _, _, _, _, h⟩ := record_eq s c u loc act rsn who detail; rw [h]
@[simp] theorem record_gen_chrStaged (s : State) (c u loc act : Nat) (rsn : Code) (who : Option Who) (detail : Nat) : (record s c u loc act rsn who detail).gen.chrStaged = s.gen.chrStaged := by
  obtain ⟨_, _, _, _, _, _, h⟩ := record_eq s c u loc act rsn who detail; rw [h]
@[simp] theorem record_gen_chrOverrun (s : State) (c u loc act : Nat) (rsn : Code) (who : Option Who) (detail : Nat) : (record s c u loc act rsn who detail).gen.chrOverrun = s.gen.chrOverrun := by
  obtain ⟨_, _, _, _, _, _, h⟩ := record_eq s c u loc act rsn who detail; rw [h]
@[simp] theorem record_gen_chrCode (s : State) (c u loc act : Nat) (rsn : Code) (who : Option Who) (detail : Nat) : (record s c u loc act rsn who detail).gen.chrCode = s.gen.chrCode := by
  obtain ⟨_, _, _, _, _, _, h⟩ := record_eq s c u loc act rsn who detail; rw [h]
@[simp] theorem record_gen_charter (s : State) (c u loc act : Nat) (rsn : Code) (who : Option Who) (detail : Nat) : (record s c u loc act rsn who detail).gen.charter = s.gen.charter := by
  obtain ⟨_, _, _, _, _, _, h⟩ := record_eq s c u loc act rsn who detail; rw [h]
@[simp] theorem record_gen_slotInUse (s : State) (c u loc act : Nat) (rsn : Code) (who : Option Who) (detail : Nat) : (record s c u loc act rsn who detail).gen.slotInUse = s.gen.slotInUse := by
  obtain ⟨_, _, _, _, _, _, h⟩ := record_eq s c u loc act rsn who detail; rw [h]
@[simp] theorem record_gen_glob (s : State) (c u loc act : Nat) (rsn : Code) (who : Option Who) (detail : Nat) : (record s c u loc act rsn who detail).gen.glob = s.gen.glob := by
  obtain ⟨_, _, _, _, _, _, h⟩ := record_eq s c u loc act rsn who detail; rw [h]
@[simp] theorem record_gen_load (s : State) (c u loc act : Nat) (rsn : Code) (who : Option Who) (detail : Nat) : (record s c u loc act rsn who detail).gen.load = s.gen.load := by
  obtain ⟨_, _, _, _, _, _, h⟩ := record_eq s c u loc act rsn who detail; rw [h]
@[simp] theorem record_gen_funcStop (s : State) (c u loc act : Nat) (rsn : Code) (who : Option Who) (detail : Nat) : (record s c u loc act rsn who detail).gen.funcStop = s.gen.funcStop := by
  obtain ⟨_, _, _, _, _, _, h⟩ := record_eq s c u loc act rsn who detail; rw [h]
@[simp] theorem record_gen_funcHeld (s : State) (c u loc act : Nat) (rsn : Code) (who : Option Who) (detail : Nat) : (record s c u loc act rsn who detail).gen.funcHeld = s.gen.funcHeld := by
  obtain ⟨_, _, _, _, _, _, h⟩ := record_eq s c u loc act rsn who detail; rw [h]
@[simp] theorem record_gen_funcState (s : State) (c u loc act : Nat) (rsn : Code) (who : Option Who) (detail : Nat) : (record s c u loc act rsn who detail).gen.funcState = s.gen.funcState := by
  obtain ⟨_, _, _, _, _, _, h⟩ := record_eq s c u loc act rsn who detail; rw [h]
@[simp] theorem record_gen_verSel (s : State) (c u loc act : Nat) (rsn : Code) (who : Option Who) (detail : Nat) : (record s c u loc act rsn who detail).gen.verSel = s.gen.verSel := by
  obtain ⟨_, _, _, _, _, _, h⟩ := record_eq s c u loc act rsn who detail; rw [h]
@[simp] theorem record_gen_irqEnable (s : State) (c u loc act : Nat) (rsn : Code) (who : Option Who) (detail : Nat) : (record s c u loc act rsn who detail).gen.irqEnable = s.gen.irqEnable := by
  obtain ⟨_, _, _, _, _, _, h⟩ := record_eq s c u loc act rsn who detail; rw [h]
@[simp] theorem record_gen_commitCode (s : State) (c u loc act : Nat) (rsn : Code) (who : Option Who) (detail : Nat) : (record s c u loc act rsn who detail).gen.commitCode = s.gen.commitCode := by
  obtain ⟨_, _, _, _, _, _, h⟩ := record_eq s c u loc act rsn who detail; rw [h]
@[simp] theorem record_gen_commitPair (s : State) (c u loc act : Nat) (rsn : Code) (who : Option Who) (detail : Nat) : (record s c u loc act rsn who detail).gen.commitPair = s.gen.commitPair := by
  obtain ⟨_, _, _, _, _, _, h⟩ := record_eq s c u loc act rsn who detail; rw [h]
@[simp] theorem record_gen_commitPort (s : State) (c u loc act : Nat) (rsn : Code) (who : Option Who) (detail : Nat) : (record s c u loc act rsn who detail).gen.commitPort = s.gen.commitPort := by
  obtain ⟨_, _, _, _, _, _, h⟩ := record_eq s c u loc act rsn who detail; rw [h]
@[simp] theorem record_gen_portSel (s : State) (c u loc act : Nat) (rsn : Code) (who : Option Who) (detail : Nat) : (record s c u loc act rsn who detail).gen.portSel = s.gen.portSel := by
  obtain ⟨_, _, _, _, _, _, h⟩ := record_eq s c u loc act rsn who detail; rw [h]
@[simp] theorem record_gen_wlatch (s : State) (c u loc act : Nat) (rsn : Code) (who : Option Who) (detail : Nat) : (record s c u loc act rsn who detail).gen.wlatch = s.gen.wlatch := by
  obtain ⟨_, _, _, _, _, _, h⟩ := record_eq s c u loc act rsn who detail; rw [h]
@[simp] theorem record_gen_rlatch (s : State) (c u loc act : Nat) (rsn : Code) (who : Option Who) (detail : Nat) : (record s c u loc act rsn who detail).gen.rlatch = s.gen.rlatch := by
  obtain ⟨_, _, _, _, _, _, h⟩ := record_eq s c u loc act rsn who detail; rw [h]

/-- A record of an Event is no verdict: the standing list stays (11 R334). -/
theorem record_standing (s : State) (c u loc act : Nat) (rsn : Code) (who : Option Who) (detail : Nat) (h : isEvent c = true) :
    (record s c u loc act rsn who detail).flash.standing = s.flash.standing := by
  obtain ⟨q, w, l, hq⟩ := queueRecord_eq s (mkRecord s c u loc act rsn who detail)
  have hv : (mkRecord s c u loc act rsn who detail).verdict = 0 := by simp [mkRecord, verdictOf, h]
  unfold record
  simp only [hq, hv]
  split <;> split <;> first | rfl | contradiction

/-! ### Rungs -/

/-- Asking for a rung changes the resets in progress, their history, the waiting ports, the counts and the interrupt sources alone (11 R342, R346). -/
theorem startRung_eq (s : State) (rung port cls : Nat) :
    ∃ r p h m v irq, startRung s rung port cls =
      { s with
        flt := { s.flt with running := r, portWait := p, history := h, merged := m, recovery := v }
        gen := { s.gen with irqStatus := irq } } := by
  refine ⟨(startRung s rung port cls).flt.running, (startRung s rung port cls).flt.portWait, (startRung s rung port cls).flt.history, (startRung s rung port cls).flt.merged, (startRung s rung port cls).flt.recovery, (startRung s rung port cls).gen.irqStatus, ?_⟩
  simp only [startRung]
  split
  · split <;> rfl
  · split
    · rfl
    · split
      · rfl
      · split
        · rfl
        · simp only [enterRung]
          split <;> split <;> rfl

@[simp] theorem startRung_cfg (s : State) (rung port cls : Nat) : (startRung s rung port cls).cfg = s.cfg := by
  obtain ⟨_, _, _, _, _, _, h⟩ := startRung_eq s rung port cls; rw [h]
@[simp] theorem startRung_pin (s : State) (rung port cls : Nat) : (startRung s rung port cls).pin = s.pin := by
  obtain ⟨_, _, _, _, _, _, h⟩ := startRung_eq s rung port cls; rw [h]
@[simp] theorem startRung_dom (s : State) (rung port cls : Nat) : (startRung s rung port cls).dom = s.dom := by
  obtain ⟨_, _, _, _, _, _, h⟩ := startRung_eq s rung port cls; rw [h]
@[simp] theorem startRung_tm (s : State) (rung port cls : Nat) : (startRung s rung port cls).tm = s.tm := by
  obtain ⟨_, _, _, _, _, _, h⟩ := startRung_eq s rung port cls; rw [h]
@[simp] theorem startRung_fuse (s : State) (rung port cls : Nat) : (startRung s rung port cls).fuse = s.fuse := by
  obtain ⟨_, _, _, _, _, _, h⟩ := startRung_eq s rung port cls; rw [h]
@[simp] theorem startRung_flash (s : State) (rung port cls : Nat) : (startRung s rung port cls).flash = s.flash := by
  obtain ⟨_, _, _, _, _, _, h⟩ := startRung_eq s rung port cls; rw [h]
@[simp] theorem startRung_lane (s : State) (rung port cls : Nat) : (startRung s rung port cls).lane = s.lane := by
  obtain ⟨_, _, _, _, _, _, h⟩ := startRung_eq s rung port cls; rw [h]
@[simp] theorem startRung_key (s : State) (rung port cls : Nat) : (startRung s rung port cls).key = s.key := by
  obtain ⟨_, _, _, _, _, _, h⟩ := startRung_eq s rung port cls; rw [h]
@[simp] theorem startRung_ime (s : State) (rung port cls : Nat) : (startRung s rung port cls).ime = s.ime := by
  obtain ⟨_, _, _, _, _, _, h⟩ := startRung_eq s rung port cls; rw [h]
@[simp] theorem startRung_ile (s : State) (rung port cls : Nat) : (startRung s rung port cls).ile = s.ile := by
  obtain ⟨_, _, _, _, _, _, h⟩ := startRung_eq s rung port cls; rw [h]
@[simp] theorem startRung_qos (s : State) (rung port cls : Nat) : (startRung s rung port cls).qos = s.qos := by
  obtain ⟨_, _, _, _, _, _, h⟩ := startRung_eq s rung port cls; rw [h]
@[simp] theorem startRung_hob (s : State) (rung port cls : Nat) : (startRung s rung port cls).hob = s.hob := by
  obtain ⟨_, _, _, _, _, _, h⟩ := startRung_eq s rung port cls; rw [h]
@[simp] theorem startRung_lcs (s : State) (rung port cls : Nat) : (startRung s rung port cls).lcs = s.lcs := by
  obtain ⟨_, _, _, _, _, _, h⟩ := startRung_eq s rung port cls; rw [h]
@[simp] theorem startRung_sre (s : State) (rung port cls : Nat) : (startRung s rung port cls).sre = s.sre := by
  obtain ⟨_, _, _, _, _, _, h⟩ := startRung_eq s rung port cls; rw [h]
@[simp] theorem startRung_bce (s : State) (rung port cls : Nat) : (startRung s rung port cls).bce = s.bce := by
  obtain ⟨_, _, _, _, _, _, h⟩ := startRung_eq s rung port cls; rw [h]
@[simp] theorem startRung_att (s : State) (rung port cls : Nat) : (startRung s rung port cls).att = s.att := by
  obtain ⟨_, _, _, _, _, _, h⟩ := startRung_eq s rung port cls; rw [h]
@[simp] theorem startRung_dbg (s : State) (rung port cls : Nat) : (startRung s rung port cls).dbg = s.dbg := by
  obtain ⟨_, _, _, _, _, _, h⟩ := startRung_eq s rung port cls; rw [h]
@[simp] theorem startRung_out (s : State) (rung port cls : Nat) : (startRung s rung port cls).out = s.out := by
  obtain ⟨_, _, _, _, _, _, h⟩ := startRung_eq s rung port cls; rw [h]
@[simp] theorem startRung_freeIx (s : State) (rung port cls : Nat) : (startRung s rung port cls).freeIx = s.freeIx := by
  obtain ⟨_, _, _, _, _, _, h⟩ := startRung_eq s rung port cls; rw [h]
@[simp] theorem startRung_pending (s : State) (rung port cls : Nat) : (startRung s rung port cls).pending = s.pending := by
  obtain ⟨_, _, _, _, _, _, h⟩ := startRung_eq s rung port cls; rw [h]
@[simp] theorem startRung_gen_released (s : State) (rung port cls : Nat) : (startRung s rung port cls).gen.released = s.gen.released := by
  obtain ⟨_, _, _, _, _, _, h⟩ := startRung_eq s rung port cls; rw [h]
@[simp] theorem startRung_gen_ready (s : State) (rung port cls : Nat) : (startRung s rung port cls).gen.ready = s.gen.ready := by
  obtain ⟨_, _, _, _, _, _, h⟩ := startRung_eq s rung port cls; rw [h]
@[simp] theorem startRung_gen_unchartered (s : State) (rung port cls : Nat) : (startRung s rung port cls).gen.unchartered = s.gen.unchartered := by
  obtain ⟨_, _, _, _, _, _, h⟩ := startRung_eq s rung port cls; rw [h]
@[simp] theorem startRung_gen_c6Done (s : State) (rung port cls : Nat) : (startRung s rung port cls).gen.c6Done = s.gen.c6Done := by
  obtain ⟨_, _, _, _, _, _, h⟩ := startRung_eq s rung port cls; rw [h]
@[simp] theorem startRung_gen_c10Done (s : State) (rung port cls : Nat) : (startRung s rung port cls).gen.c10Done = s.gen.c10Done := by
  obtain ⟨_, _, _, _, _, _, h⟩ := startRung_eq s rung port cls; rw [h]
@[simp] theorem startRung_gen_c12Done (s : State) (rung port cls : Nat) : (startRung s rung port cls).gen.c12Done = s.gen.c12Done := by
  obtain ⟨_, _, _, _, _, _, h⟩ := startRung_eq s rung port cls; rw [h]
@[simp] theorem startRung_gen_halted (s : State) (rung port cls : Nat) : (startRung s rung port cls).gen.halted = s.gen.halted := by
  obtain ⟨_, _, _, _, _, _, h⟩ := startRung_eq s rung port cls; rw [h]
@[simp] theorem startRung_gen_c5Wait (s : State) (rung port cls : Nat) : (startRung s rung port cls).gen.c5Wait = s.gen.c5Wait := by
  obtain ⟨_, _, _, _, _, _, h⟩ := startRung_eq s rung port cls; rw [h]
@[simp] theorem startRung_gen_lastStart (s : State) (rung port cls : Nat) : (startRung s rung port cls).gen.lastStart = s.gen.lastStart := by
  obtain ⟨_, _, _, _, _, _, h⟩ := startRung_eq s rung port cls; rw [h]
@[simp] theorem startRung_gen_startDrbg (s : State) (rung port cls : Nat) : (startRung s rung port cls).gen.startDrbg = s.gen.startDrbg := by
  obtain ⟨_, _, _, _, _, _, h⟩ := startRung_eq s rung port cls; rw [h]
@[simp] theorem startRung_gen_startUnch (s : State) (rung port cls : Nat) : (startRung s rung port cls).gen.startUnch = s.gen.startUnch := by
  obtain ⟨_, _, _, _, _, _, h⟩ := startRung_eq s rung port cls; rw [h]
@[simp] theorem startRung_gen_startBedFail (s : State) (rung port cls : Nat) : (startRung s rung port cls).gen.startBedFail = s.gen.startBedFail := by
  obtain ⟨_, _, _, _, _, _, h⟩ := startRung_eq s rung port cls; rw [h]
@[simp] theorem startRung_gen_startBedAbsent (s : State) (rung port cls : Nat) : (startRung s rung port cls).gen.startBedAbsent = s.gen.startBedAbsent := by
  obtain ⟨_, _, _, _, _, _, h⟩ := startRung_eq s rung port cls; rw [h]
@[simp] theorem startRung_gen_startGeode (s : State) (rung port cls : Nat) : (startRung s rung port cls).gen.startGeode = s.gen.startGeode := by
  obtain ⟨_, _, _, _, _, _, h⟩ := startRung_eq s rung port cls; rw [h]
@[simp] theorem startRung_gen_strap (s : State) (rung port cls : Nat) : (startRung s rung port cls).gen.strap = s.gen.strap := by
  obtain ⟨_, _, _, _, _, _, h⟩ := startRung_eq s rung port cls; rw [h]
@[simp] theorem startRung_gen_cclkMhz (s : State) (rung port cls : Nat) : (startRung s rung port cls).gen.cclkMhz = s.gen.cclkMhz := by
  obtain ⟨_, _, _, _, _, _, h⟩ := startRung_eq s rung port cls; rw [h]
@[simp] theorem startRung_gen_cclkValid (s : State) (rung port cls : Nat) : (startRung s rung port cls).gen.cclkValid = s.gen.cclkValid := by
  obtain ⟨_, _, _, _, _, _, h⟩ := startRung_eq s rung port cls; rw [h]
@[simp] theorem startRung_gen_chrBase (s : State) (rung port cls : Nat) : (startRung s rung port cls).gen.chrBase = s.gen.chrBase := by
  obtain ⟨_, _, _, _, _, _, h⟩ := startRung_eq s rung port cls; rw [h]
@[simp] theorem startRung_gen_chrShelf (s : State) (rung port cls : Nat) : (startRung s rung port cls).gen.chrShelf = s.gen.chrShelf := by
  obtain ⟨_, _, _, _, _, _, h⟩ := startRung_eq s rung port cls; rw [h]
@[simp] theorem startRung_gen_chrLen (s : State) (rung port cls : Nat) : (startRung s rung port cls).gen.chrLen = s.gen.chrLen := by
  obtain ⟨_, _, _, _, _, _, h⟩ := startRung_eq s rung port cls; rw [h]
@[simp] theorem startRung_gen_chrWindow (s : State) (rung port cls : Nat) : (startRung s rung port cls).gen.chrWindow = s.gen.chrWindow := by
  obtain ⟨_, _, _, _, _, _, h⟩ := startRung_eq s rung port cls; rw [h]
@[simp] theorem startRung_gen_chrBusy (s : State) (rung port cls : Nat) : (startRung s rung port cls).gen.chrBusy = s.gen.chrBusy := by
  obtain ⟨_, _, _, _, _, _, h⟩ := startRung_eq s rung port cls; rw [h]
@[simp] theorem startRung_gen_chrStaged (s : State) (rung port cls : Nat) : (startRung s rung port cls).gen.chrStaged = s.gen.chrStaged := by
  obtain ⟨_, _, _, _, _, _, h⟩ := startRung_eq s rung port cls; rw [h]
@[simp] theorem startRung_gen_chrOverrun (s : State) (rung port cls : Nat) : (startRung s rung port cls).gen.chrOverrun = s.gen.chrOverrun := by
  obtain ⟨_, _, _, _, _, _, h⟩ := startRung_eq s rung port cls; rw [h]
@[simp] theorem startRung_gen_chrCode (s : State) (rung port cls : Nat) : (startRung s rung port cls).gen.chrCode = s.gen.chrCode := by
  obtain ⟨_, _, _, _, _, _, h⟩ := startRung_eq s rung port cls; rw [h]
@[simp] theorem startRung_gen_charter (s : State) (rung port cls : Nat) : (startRung s rung port cls).gen.charter = s.gen.charter := by
  obtain ⟨_, _, _, _, _, _, h⟩ := startRung_eq s rung port cls; rw [h]
@[simp] theorem startRung_gen_slotInUse (s : State) (rung port cls : Nat) : (startRung s rung port cls).gen.slotInUse = s.gen.slotInUse := by
  obtain ⟨_, _, _, _, _, _, h⟩ := startRung_eq s rung port cls; rw [h]
@[simp] theorem startRung_gen_glob (s : State) (rung port cls : Nat) : (startRung s rung port cls).gen.glob = s.gen.glob := by
  obtain ⟨_, _, _, _, _, _, h⟩ := startRung_eq s rung port cls; rw [h]
@[simp] theorem startRung_gen_load (s : State) (rung port cls : Nat) : (startRung s rung port cls).gen.load = s.gen.load := by
  obtain ⟨_, _, _, _, _, _, h⟩ := startRung_eq s rung port cls; rw [h]
@[simp] theorem startRung_gen_funcStop (s : State) (rung port cls : Nat) : (startRung s rung port cls).gen.funcStop = s.gen.funcStop := by
  obtain ⟨_, _, _, _, _, _, h⟩ := startRung_eq s rung port cls; rw [h]
@[simp] theorem startRung_gen_funcHeld (s : State) (rung port cls : Nat) : (startRung s rung port cls).gen.funcHeld = s.gen.funcHeld := by
  obtain ⟨_, _, _, _, _, _, h⟩ := startRung_eq s rung port cls; rw [h]
@[simp] theorem startRung_gen_funcState (s : State) (rung port cls : Nat) : (startRung s rung port cls).gen.funcState = s.gen.funcState := by
  obtain ⟨_, _, _, _, _, _, h⟩ := startRung_eq s rung port cls; rw [h]
@[simp] theorem startRung_gen_verSel (s : State) (rung port cls : Nat) : (startRung s rung port cls).gen.verSel = s.gen.verSel := by
  obtain ⟨_, _, _, _, _, _, h⟩ := startRung_eq s rung port cls; rw [h]
@[simp] theorem startRung_gen_irqEnable (s : State) (rung port cls : Nat) : (startRung s rung port cls).gen.irqEnable = s.gen.irqEnable := by
  obtain ⟨_, _, _, _, _, _, h⟩ := startRung_eq s rung port cls; rw [h]
@[simp] theorem startRung_gen_commitCode (s : State) (rung port cls : Nat) : (startRung s rung port cls).gen.commitCode = s.gen.commitCode := by
  obtain ⟨_, _, _, _, _, _, h⟩ := startRung_eq s rung port cls; rw [h]
@[simp] theorem startRung_gen_commitPair (s : State) (rung port cls : Nat) : (startRung s rung port cls).gen.commitPair = s.gen.commitPair := by
  obtain ⟨_, _, _, _, _, _, h⟩ := startRung_eq s rung port cls; rw [h]
@[simp] theorem startRung_gen_commitPort (s : State) (rung port cls : Nat) : (startRung s rung port cls).gen.commitPort = s.gen.commitPort := by
  obtain ⟨_, _, _, _, _, _, h⟩ := startRung_eq s rung port cls; rw [h]
@[simp] theorem startRung_gen_portSel (s : State) (rung port cls : Nat) : (startRung s rung port cls).gen.portSel = s.gen.portSel := by
  obtain ⟨_, _, _, _, _, _, h⟩ := startRung_eq s rung port cls; rw [h]
@[simp] theorem startRung_gen_wlatch (s : State) (rung port cls : Nat) : (startRung s rung port cls).gen.wlatch = s.gen.wlatch := by
  obtain ⟨_, _, _, _, _, _, h⟩ := startRung_eq s rung port cls; rw [h]
@[simp] theorem startRung_gen_rlatch (s : State) (rung port cls : Nat) : (startRung s rung port cls).gen.rlatch = s.gen.rlatch := by
  obtain ⟨_, _, _, _, _, _, h⟩ := startRung_eq s rung port cls; rw [h]

/-! ### Register writes (14 R438) -/

/-- A CTLPORT write without power does nothing; a refused one only answers; an admitted one takes effect and answers OKAY. -/
theorem ctlWriteBy_cases (s : State) (off : Nat) (f : State → State) :
    (s.pin.pwrok = false ∧ ctlWriteBy s off f = s) ∨
    (s.pin.pwrok = true ∧ ctlErr s off true ≠ 0 ∧ ctlWriteBy s off f = emit s (.ctlRsp 0#32 (ctlErr s off true))) ∨
    (s.pin.pwrok = true ∧ ctlErr s off true = 0 ∧ ctlWriteBy s off f = emit (f s) (.ctlRsp 0#32 0)) := by
  unfold ctlWriteBy
  cases hp : s.pin.pwrok
  · simp
  · by_cases he : ctlErr s off true = 0 <;> simp [he]

/-- A property that every answer keeps and the write keeps, a CTLPORT write keeps. -/
theorem ctlWriteBy_keeps (P : State → Prop) (s : State) (off : Nat) (f : State → State) (he : ∀ t o, P t → P (emit t o)) (hf : P s → P (f s))
    (h : P s) : P (ctlWriteBy s off f) := by
  rcases ctlWriteBy_cases s off f with ⟨-, e⟩ | ⟨-, -, e⟩ | ⟨-, -, e⟩ <;> rw [e]
  · exact h
  · exact he _ _ h
  · exact he _ _ (hf h)

/-! ### The memory queues at rest -/

theorem settle_nil (s : State) (h : s.ime.ents = []) : settle s = s := by simp [settle, h]

/-- With no memory operation held, no remote operation waiting, no credit held back and no region closing, nothing follows. -/
theorem afterMem_idle (s : State) (h : s.ime.ents = []) (h2 : s.ile.ingress = []) (h3 : heldCredits s = 0) (h5 : s.ime.dying = []) :
    afterMem s = s := by
  have h4 : drainIngress s = s := by simp [drainIngress, ingressPass, returnCredits, h2, h3]
  simp [afterMem, settle_nil, h, h4, finishDying, h5]

/-- Every command of the block has an effect or an answer: exec gives a next state (log 4). -/
theorem exec_next (c : Instr) (s : State) : ∃ t, exec c s = .next t := by
  cases c <;> exact ⟨_, rfl⟩

end Sys2Proof.Machine
end

