-- ==== Sys2Proof/WellFormed.lean ====
section
/-!
DEFINITION. Which commands are well formed: operands within the widths and counts that the ports and tables of the spec give them. A command outside
them cannot arise at the block's ports; the meanings answer it all the same.
-/
namespace Sys2Proof

/-- A lane number of the largest instance (01 R44, Table 1-9). -/
def laneOk (l : Nat) : Bool := decide (l < 208)

/-- A reset domain of 11 R356. -/
def domainOk (d : Nat) : Bool := decide (d < 26)

/-- A function number: a bit of FUNC_STOP (02 R60, Table 2-8). -/
def functionOk (f : Nat) : Bool := decide (f < 26)

/-- A memory port (14 R430). -/
def memPortOk (p : Nat) : Bool := decide (p < 4)

/-- A link or D2D port by its EGRESS code (05 Table 5-11). -/
def lnkPortOk (e : Nat) : Bool := decide (e < 20)

/-- A port by its QOS_STAT_SEL.PORT code (10 Table 10-8). -/
def anyPortOk (q : Nat) : Bool := decide (q < 24)

/-- A virtual channel (05 R169). -/
def vcOk (v : Nat) : Bool := decide (v < 8)

/-- A member index in its 14 bits (14 Table 14-2). -/
def memberOk (m : Nat) : Bool := decide (m < 16384)

/-- A MEMPORT tag in its 11 bits (14 Table 14-7). -/
def memTagOk (t : Nat) : Bool := decide (t < 2048)

/-- A catalogue index (04 R110). -/
def regionOk (i : Nat) : Bool := decide (i < 2 ^ 21)

/-- A slice (09 R280). -/
def sliceOk (i : Nat) : Bool := decide (i < 512)

/-- INDEX of HOB_CMD in its 16 bits; one beyond its table completes with INDEX_RANGE (09 Table 9-9, R280). -/
def indexOk (i : Nat) : Bool := decide (i < 65536)

/-- A queue (09 R280). -/
def tableOk (i : Nat) : Bool := decide (i < 4096)

/-- A memory object (09 R280). -/
def objectOk (i : Nat) : Bool := decide (i < 8192)

/-- An entry of the stratum table (08 R259). -/
def stratumOk (i : Nat) : Bool := decide (i < 4)

/-- A watchdog: 0 to 23 the ports, 24 to 29 the units, 30 the host control command (11 R339). -/
def watchdogOk (w : Nat) : Bool := decide (w < 31)

/-- A rung with a timer, and the port of a port reset (11 R342). -/
def rungOk (r p : Nat) : Bool := decide (1 ≤ r) && decide (r ≤ 4) && (if r = 1 then anyPortOk p else p == 0)

/-- A unit code of a fault record or a dump section (11 Table 11-4, Table 11-9). -/
def unitOk (u : Nat) : Bool := decide (u < 10)

/-- A place among the outstanding admission nonces (12 R383). -/
def nonceOk (i : Nat) : Bool := decide (i < 64)

/-- The debug path's LCS_STAGE register, 2432 bits (14 Table 14-16). -/
def recordOk (b : List Byte) : Bool := b.length == 304

/-- The surroundings of a start name lanes, fuses and ports that can be there. -/
def startOk (e : StartIn) : Bool := e.badLanes.all laneOk && e.stuckFuses.all (fun f => decide (f < 8192)) && decide (e.srHeld.length ≤ 4)

/-- A frame's payload fits the 16-bit PAYLOAD_LEN (05 Table 5-5). -/
def frameOk (f : Frame) : Bool := decide (f.payload.length < 65536)

/-- A FABPORT request on one of the 128 channels (14 R422). -/
def reqOk (q : FabReq) : Bool := decide (q.ch < 128)

/-- A request that carries one beat of data (14 Table 14-5). -/
def reqBeatOk (q : FabReq) : Bool := reqOk q && q.data.length == 1

/-- A CWRITE: COUNT + 1 beats of data (14 Table 14-5). -/
def reqRunOk (q : FabReq) : Bool := reqOk q && q.data.length == q.count.toNat + 1

/-- An upset names a unit, a half and a domain there can be. -/
def upsetOk : Upset → Bool
  | .corrected unit _ => unitOk unit
  | .cleanLost unit _ => unit == 0 || unit == 1 || unit == 5
  | .halfLost slot half => decide (slot < 1024) && decide (half < 2)
  | .coreLost unit => decide (unit < 6)
  | .parity domain => domainOk domain
  | .cclk mhz => mhz != 0#12
  | .lane lane _ => laneOk lane
  | _ => true

/-- Whether a command is well formed. -/
def Instr.wf : Instr → Bool
  | .powerGood e => startOk e
  | .coldPowerLoss => true
  | .geodeRegenerate _ _ => true
  | .drbgInstantiate => true
  | .startReady => true
  | .tamperZeroise _ => true
  | .clockLost domain => domainOk domain
  | .clockReturn c => domainOk c.domain && c.badLanes.all laneOk
  | .aclkLost => true
  | .laneBeat lane _ _ _ => laneOk lane
  | .laneReplace lane failing => laneOk lane && failing.all laneOk
  | .fenceTestDone lane _ => laneOk lane
  | .spareSelfTest lane _ => laneOk lane
  | .keyDerivationDone => true
  | .charterLoad _ _ _ => true
  | .charterStored w => w.badLanes.all laneOk
  | .funcStopWrite _ => true
  | .functionDrained function => functionOk function
  | .loadWrapped _ _ => true
  | .activate _ => true
  | .retirePrev _ => true
  | .discardStaged _ => true
  | .zeroise _ => true
  | .genEphemeral _ => true
  | .vaultMaskRefresh => true
  | .entropyTestFail => true
  | .entropyRetest _ => true
  | .drbgReseed => true
  | .fabRead q _ => reqOk q
  | .fabWrite q _ _ => reqBeatOk q
  | .fabWritePartial q _ => reqBeatOk q
  | .fabCread q _ => reqOk q
  | .fabCwrite q _ => reqRunOk q
  | .fabRawRead q _ => reqOk q
  | .fabRawWrite q _ => reqBeatOk q
  | .fabLoad q => reqOk q
  | .fabStore q => reqBeatOk q
  | .fabStorePartial q => reqBeatOk q
  | .fabStoreFlagged q => reqBeatOk q
  | .fabStorePartialFlagged q => reqBeatOk q
  | .fabAtomic q => reqBeatOk q
  | .fabAtomicFetch q => reqBeatOk q
  | .fabReservedOp q => reqOk q
  | .memReadData port tag _ _ _ _ => memPortOk port && memTagOk tag
  | .memWriteAck port tag _ => memPortOk port && memTagOk tag
  | .memTrained port => memPortOk port
  | .catalogueFormat _ => true
  | .create _ _ => true
  | .destroy _ => true
  | .setRights _ _ => true
  | .pageReencrypt index _ _ => regionOk index
  | .sweepStep index _ => regionOk index
  | .sweepVerifyDone index _ => regionOk index
  | .memCalRequest port => memPortOk port
  | .memCalGrant port => memPortOk port
  | .memCalEnd port => memPortOk port
  | .memCalOverrun port => memPortOk port
  | .memSrAck port => memPortOk port
  | .linkUp port => lnkPortOk port
  | .hello port f => lnkPortOk port && frameOk f
  | .identity port f => lnkPortOk port && frameOk f
  | .keyShare port f => lnkPortOk port && frameOk f
  | .keyConfirm port f => lnkPortOk port && frameOk f
  | .bringupTimeout port => lnkPortOk port
  | .bringupRetry port => lnkPortOk port
  | .data port f _ => lnkPortOk port && frameOk f
  | .idle port f => lnkPortOk port && frameOk f
  | .nak port f => lnkPortOk port && frameOk f
  | .rekey port f => lnkPortOk port && frameOk f
  | .rekeyDone port f => lnkPortOk port && frameOk f
  | .rekeyThreshold port => lnkPortOk port
  | .rekeyOverdue port => lnkPortOk port
  | .seqExhausted port => lnkPortOk port
  | .rekeyTimeout port => lnkPortOk port
  | .rekeyNow port => lnkPortOk port
  | .creditIdleTimer port => lnkPortOk port
  | .cadenceTick port vc => lnkPortOk port && vcOk vc
  | .retryResend dest vc => memberOk dest && vcOk vc
  | .atomicLineIdle _ => true
  | .deadTargetTimeout _ => true
  | .routeWrite _ => true
  | .lnkCalRequest port => lnkPortOk port
  | .lnkCalGrant port => lnkPortOk port
  | .lnkCalEnd port => lnkPortOk port
  | .lnkCalOverrun port => lnkPortOk port
  | .contextOpen _ => true
  | .eabExpire _ => true
  | .collTimeout _ _ => true
  | .chunkResend _ _ => true
  | .groupRetire _ => true
  | .jobStart _ _ => true
  | .jobResume _ => true
  | .cut _ _ => true
  | .cutFlushDone entry _ => stratumOk entry
  | .restore _ => true
  | .cutTimeout entry => stratumOk entry
  | .doorbell _ => true
  | .commandFetch sq _ => tableOk sq
  | .commandDispatch sq _ => tableOk sq
  | .commandComplete _ _ => true
  | .ctxCreate slice index => sliceOk slice && indexOk index
  | .ctxDestroy slice index => sliceOk slice && indexOk index
  | .switch slice index => sliceOk slice && indexOk index
  | .qCreate slice index _ => sliceOk slice && indexOk index
  | .qDestroy slice index => sliceOk slice && indexOk index
  | .eventCreate slice index _ => sliceOk slice && indexOk index
  | .eventDestroy slice index => sliceOk slice && indexOk index
  | .objCreate slice index _ => sliceOk slice && indexOk index
  | .objAdopt slice index => sliceOk slice && indexOk index
  | .objFree slice o => sliceOk slice && indexOk o.index
  | .objDestroyRetry o => objectOk o.index
  | .sliceResetDrain slice => sliceOk slice
  | .sliceResetSquash slice => sliceOk slice
  | .sliceResetSettle slice => sliceOk slice
  | .drainTimeout slice => sliceOk slice
  | .squashTimeout slice => sliceOk slice
  | .portSelect port u => anyPortOk port && upsetOk u
  | .requestAged port _ => anyPortOk port
  | .watchdogHang watchdog => watchdogOk watchdog
  | .portReset port => anyPortOk port
  | .hostReset => true
  | .coreWarmReset e => startOk e
  | .blockWarmRecovery e => startOk e
  | .coldStartRequest _ => true
  | .rungTimerExpiry rung port => rungOk rung port
  | .quiesceDrainDone => true
  | .dumpTake => true
  | .dumpUnitTimeout unit _ => unitOk unit
  | .dumpCopy _ => true
  | .annalsWrite _ => true
  | .hourTick _ => true
  | .driverLaneFence _ => true
  | .driverLaneUnfence _ => true
  | .getVersion _ => true
  | .getCapabilities _ => true
  | .negotiateAlgorithms _ => true
  | .getDigests _ => true
  | .getCertificate _ => true
  | .challenge _ => true
  | .getMeasurements _ => true
  | .spdmUnsupported _ => true
  | .mbxSend _ => true
  | .mbxRelease => true
  | .colophon _ => true
  | .enlistNonce _ => true
  | .enlistNonceExpire position => nonceOk position
  | .enlist _ => true
  | .delist _ => true
  | .lockAdmission _ => true
  | .rosterSign _ => true
  | .rosterLoad _ => true
  | .appoint _ _ => true
  | .wrapDomain _ => true
  | .genPair _ => true
  | .rekeyIssue _ => true
  | .rekeyApply _ => true
  | .fwMeasure _ _ => true
  | .fwStage _ _ => true
  | .fwActivate _ => true
  | .fwAbandon _ => true
  | .endorse _ _ => true
  | .certStore _ _ => true
  | .ideBind _ => true
  | .ideKeyex _ => true
  | .ideDeliver _ => true
  | .ideSwitch _ => true
  | .ideClose _ => true
  | .transition _ _ _ => true
  | .debugEnable _ _ _ => true
  | .debugDisable _ => true
  | .raiseFloor _ _ _ => true
  | .clearStanding _ _ _ => true
  | .fusePgmAck _ => true
  | .flashGrantTimeout => true
  | .genCommitSreTiming => true
  | .genCommitShape port => anyPortOk port
  | .registerWrite _ _ _ => true
  | .debugPathReset => true
  | .mboxPut _ => true
  | .mboxSend => true
  | .mboxGet => true
  | .regsRead _ => true
  | .regsWrite _ _ _ => true
  | .lcsStage record => recordOk record
  | .fabdbgRead _ _ _ => true
  | .fabdbgWrite _ _ _ _ _ => true
  | .fabdbgRawRead _ _ _ => true
  | .fabdbgRawWrite _ _ _ _ => true
  | .scan _ => true
  | .linkDown port => lnkPortOk port
  | .flashGrantLost => true
  | .aclkReturn => true

end Sys2Proof
end

