-- ==== Sys2Proof/Laws/PerInstr.lean ====
section
/-!
SUPPORT. One lemma per command: a well-formed command's numbered operands lie below the bounds of their tables.
-/
set_option Elab.async false

namespace Sys2Proof.Laws.Operands

/-- The numbered operands of a command, each with the first number its table or port does not have. -/
def operands : Instr → List (Nat × Nat)
  | .powerGood _ => []
  | .coldPowerLoss => []
  | .geodeRegenerate _ _ => []
  | .drbgInstantiate => []
  | .startReady => []
  | .tamperZeroise _ => []
  | .clockLost domain => [(domain, 26)]
  | .clockReturn c => [(c.domain, 26)]
  | .aclkLost => []
  | .laneBeat lane _ _ _ => [(lane, 208)]
  | .laneReplace lane _ => [(lane, 208)]
  | .fenceTestDone lane _ => [(lane, 208)]
  | .spareSelfTest lane _ => [(lane, 208)]
  | .keyDerivationDone => []
  | .charterLoad _ _ _ => []
  | .charterStored _ => []
  | .funcStopWrite _ => []
  | .functionDrained function => [(function, 26)]
  | .loadWrapped _ _ => []
  | .activate _ => []
  | .retirePrev _ => []
  | .discardStaged _ => []
  | .zeroise _ => []
  | .genEphemeral _ => []
  | .vaultMaskRefresh => []
  | .entropyTestFail => []
  | .entropyRetest _ => []
  | .drbgReseed => []
  | .fabRead q _ => [(q.ch, 128)]
  | .fabWrite q _ _ => [(q.ch, 128)]
  | .fabWritePartial q _ => [(q.ch, 128)]
  | .fabCread q _ => [(q.ch, 128)]
  | .fabCwrite q _ => [(q.ch, 128)]
  | .fabRawRead q _ => [(q.ch, 128)]
  | .fabRawWrite q _ => [(q.ch, 128)]
  | .fabLoad q => [(q.ch, 128)]
  | .fabStore q => [(q.ch, 128)]
  | .fabStorePartial q => [(q.ch, 128)]
  | .fabStoreFlagged q => [(q.ch, 128)]
  | .fabStorePartialFlagged q => [(q.ch, 128)]
  | .fabAtomic q => [(q.ch, 128)]
  | .fabAtomicFetch q => [(q.ch, 128)]
  | .fabReservedOp q => [(q.ch, 128)]
  | .memReadData port tag _ _ _ _ => [(port, 4), (tag, 2048)]
  | .memWriteAck port tag _ => [(port, 4), (tag, 2048)]
  | .memTrained port => [(port, 4)]
  | .catalogueFormat _ => []
  | .create _ _ => []
  | .destroy _ => []
  | .setRights _ _ => []
  | .pageReencrypt index _ _ => [(index, 2 ^ 21)]
  | .sweepStep index _ => [(index, 2 ^ 21)]
  | .sweepVerifyDone index _ => [(index, 2 ^ 21)]
  | .memCalRequest port => [(port, 4)]
  | .memCalGrant port => [(port, 4)]
  | .memCalEnd port => [(port, 4)]
  | .memCalOverrun port => [(port, 4)]
  | .memSrAck port => [(port, 4)]
  | .linkUp port => [(port, 20)]
  | .hello port f => [(port, 20), (f.payload.length, 65536)]
  | .identity port f => [(port, 20), (f.payload.length, 65536)]
  | .keyShare port f => [(port, 20), (f.payload.length, 65536)]
  | .keyConfirm port f => [(port, 20), (f.payload.length, 65536)]
  | .bringupTimeout port => [(port, 20)]
  | .bringupRetry port => [(port, 20)]
  | .data port f _ => [(port, 20), (f.payload.length, 65536)]
  | .idle port f => [(port, 20), (f.payload.length, 65536)]
  | .nak port f => [(port, 20), (f.payload.length, 65536)]
  | .rekey port f => [(port, 20), (f.payload.length, 65536)]
  | .rekeyDone port f => [(port, 20), (f.payload.length, 65536)]
  | .rekeyThreshold port => [(port, 20)]
  | .rekeyOverdue port => [(port, 20)]
  | .seqExhausted port => [(port, 20)]
  | .rekeyTimeout port => [(port, 20)]
  | .rekeyNow port => [(port, 20)]
  | .creditIdleTimer port => [(port, 20)]
  | .cadenceTick port vc => [(port, 20), (vc, 8)]
  | .retryResend dest vc => [(dest, 16384), (vc, 8)]
  | .atomicLineIdle _ => []
  | .deadTargetTimeout _ => []
  | .routeWrite _ => []
  | .lnkCalRequest port => [(port, 20)]
  | .lnkCalGrant port => [(port, 20)]
  | .lnkCalEnd port => [(port, 20)]
  | .lnkCalOverrun port => [(port, 20)]
  | .contextOpen _ => []
  | .eabExpire _ => []
  | .collTimeout _ _ => []
  | .chunkResend _ _ => []
  | .groupRetire _ => []
  | .jobStart _ _ => []
  | .jobResume _ => []
  | .cut _ _ => []
  | .cutFlushDone entry _ => [(entry, 4)]
  | .restore _ => []
  | .cutTimeout entry => [(entry, 4)]
  | .doorbell _ => []
  | .commandFetch sq _ => [(sq, 4096)]
  | .commandDispatch sq _ => [(sq, 4096)]
  | .commandComplete _ _ => []
  | .ctxCreate slice index => [(slice, 512), (index, 65536)]
  | .ctxDestroy slice index => [(slice, 512), (index, 65536)]
  | .switch slice index => [(slice, 512), (index, 65536)]
  | .qCreate slice index _ => [(slice, 512), (index, 65536)]
  | .qDestroy slice index => [(slice, 512), (index, 65536)]
  | .eventCreate slice index _ => [(slice, 512), (index, 65536)]
  | .eventDestroy slice index => [(slice, 512), (index, 65536)]
  | .objCreate slice index _ => [(slice, 512), (index, 65536)]
  | .objAdopt slice index => [(slice, 512), (index, 65536)]
  | .objFree slice o => [(slice, 512), (o.index, 65536)]
  | .objDestroyRetry o => [(o.index, 8192)]
  | .sliceResetDrain slice => [(slice, 512)]
  | .sliceResetSquash slice => [(slice, 512)]
  | .sliceResetSettle slice => [(slice, 512)]
  | .drainTimeout slice => [(slice, 512)]
  | .squashTimeout slice => [(slice, 512)]
  | .portSelect port _ => [(port, 24)]
  | .requestAged port _ => [(port, 24)]
  | .watchdogHang watchdog => [(watchdog, 31)]
  | .portReset port => [(port, 24)]
  | .hostReset => []
  | .coreWarmReset _ => []
  | .blockWarmRecovery _ => []
  | .coldStartRequest _ => []
  | .rungTimerExpiry rung _ => [(rung, 5)]
  | .quiesceDrainDone => []
  | .dumpTake => []
  | .dumpUnitTimeout unit _ => [(unit, 10)]
  | .dumpCopy _ => []
  | .annalsWrite _ => []
  | .hourTick _ => []
  | .driverLaneFence _ => []
  | .driverLaneUnfence _ => []
  | .getVersion _ => []
  | .getCapabilities _ => []
  | .negotiateAlgorithms _ => []
  | .getDigests _ => []
  | .getCertificate _ => []
  | .challenge _ => []
  | .getMeasurements _ => []
  | .spdmUnsupported _ => []
  | .mbxSend _ => []
  | .mbxRelease => []
  | .colophon _ => []
  | .enlistNonce _ => []
  | .enlistNonceExpire position => [(position, 64)]
  | .enlist _ => []
  | .delist _ => []
  | .lockAdmission _ => []
  | .rosterSign _ => []
  | .rosterLoad _ => []
  | .appoint _ _ => []
  | .wrapDomain _ => []
  | .genPair _ => []
  | .rekeyIssue _ => []
  | .rekeyApply _ => []
  | .fwMeasure _ _ => []
  | .fwStage _ _ => []
  | .fwActivate _ => []
  | .fwAbandon _ => []
  | .endorse _ _ => []
  | .certStore _ _ => []
  | .ideBind _ => []
  | .ideKeyex _ => []
  | .ideDeliver _ => []
  | .ideSwitch _ => []
  | .ideClose _ => []
  | .transition _ _ _ => []
  | .debugEnable _ _ _ => []
  | .debugDisable _ => []
  | .raiseFloor _ _ _ => []
  | .clearStanding _ _ _ => []
  | .fusePgmAck _ => []
  | .flashGrantTimeout => []
  | .genCommitSreTiming => []
  | .genCommitShape port => [(port, 24)]
  | .registerWrite _ _ _ => []
  | .debugPathReset => []
  | .mboxPut _ => []
  | .mboxSend => []
  | .mboxGet => []
  | .regsRead _ => []
  | .regsWrite _ _ _ => []
  | .lcsStage record => [(record.length, 305)]
  | .fabdbgRead _ _ _ => []
  | .fabdbgWrite _ _ _ _ _ => []
  | .fabdbgRawRead _ _ _ => []
  | .fabdbgRawWrite _ _ _ _ => []
  | .scan _ => []
  | .linkDown port => [(port, 20)]
  | .flashGrantLost => []
  | .aclkReturn => []

/-- Every numbered operand of a well-formed command lies below its bound. -/
def Statement (i : Instr) : Prop := i.wf = true → ∀ p ∈ operands i, p.1 < p.2

theorem powerGood (e : StartIn) : Statement (.powerGood e) := by simp [Statement, operands]

theorem coldPowerLoss : Statement .coldPowerLoss := by simp [Statement, operands]

theorem geodeRegenerate (puf : BitVec 20460) (flashOk : Bool) : Statement (.geodeRegenerate puf flashOk) := by simp [Statement, operands]

theorem drbgInstantiate : Statement .drbgInstantiate := by simp [Statement, operands]

theorem startReady : Statement .startReady := by simp [Statement, operands]

theorem tamperZeroise (vaultClean : Bool) : Statement (.tamperZeroise vaultClean) := by simp [Statement, operands]

theorem clockLost (domain : Nat) : Statement (.clockLost domain) := by
  intro h
  simp [Instr.wf, domainOk] at h
  simp [operands]
  omega

theorem clockReturn (c : ClockBack) : Statement (.clockReturn c) := by
  intro h
  simp [Instr.wf, domainOk] at h
  simp [operands]
  omega

theorem aclkLost : Statement .aclkLost := by simp [Statement, operands]

theorem laneBeat (lane : Nat) (b : Beat) (miscompare replayMiscompare : Bool) : Statement (.laneBeat lane b miscompare replayMiscompare) := by
  intro h
  simp [Instr.wf, laneOk] at h
  simp [operands]
  omega

theorem laneReplace (lane : Nat) (failing : List Nat) : Statement (.laneReplace lane failing) := by
  intro h
  simp [Instr.wf, laneOk] at h
  simp [operands]
  omega

theorem fenceTestDone (lane : Nat) (pass : Bool) : Statement (.fenceTestDone lane pass) := by
  intro h
  simp [Instr.wf, laneOk] at h
  simp [operands]
  omega

theorem spareSelfTest (lane : Nat) (pass : Bool) : Statement (.spareSelfTest lane pass) := by
  intro h
  simp [Instr.wf, laneOk] at h
  simp [operands]
  omega

theorem keyDerivationDone : Statement .keyDerivationDone := by simp [Statement, operands]

theorem charterLoad (source : Bool) (m : MemIn) (flashOk : Bool) : Statement (.charterLoad source m flashOk) := by simp [Statement, operands]

theorem charterStored (w : SlotWrite) : Statement (.charterStored w) := by simp [Statement, operands]

theorem funcStopWrite (value : Word) : Statement (.funcStopWrite value) := by simp [Statement, operands]

theorem functionDrained (function : Nat) : Statement (.functionDrained function) := by
  intro h
  simp [Instr.wf, functionOk] at h
  simp [operands]
  omega

theorem loadWrapped (slot : BitVec 10) (m : MemIn) : Statement (.loadWrapped slot m) := by simp [Statement, operands]

theorem activate (slot : BitVec 10) : Statement (.activate slot) := by simp [Statement, operands]

theorem retirePrev (slot : BitVec 10) : Statement (.retirePrev slot) := by simp [Statement, operands]

theorem discardStaged (slot : BitVec 10) : Statement (.discardStaged slot) := by simp [Statement, operands]

theorem zeroise (slot : BitVec 10) : Statement (.zeroise slot) := by simp [Statement, operands]

theorem genEphemeral (slot : BitVec 10) : Statement (.genEphemeral slot) := by simp [Statement, operands]

theorem vaultMaskRefresh : Statement .vaultMaskRefresh := by simp [Statement, operands]

theorem entropyTestFail : Statement .entropyTestFail := by simp [Statement, operands]

theorem entropyRetest (pass : Bool) : Statement (.entropyRetest pass) := by simp [Statement, operands]

theorem drbgReseed : Statement .drbgReseed := by simp [Statement, operands]

theorem fabRead (q : FabReq) (m : MemIn) : Statement (.fabRead q m) := by
  intro h
  simp [Instr.wf, reqOk] at h
  simp [operands]
  omega

theorem fabWrite (q : FabReq) (cat tree : MemIn) : Statement (.fabWrite q cat tree) := by
  intro h
  simp [Instr.wf, reqBeatOk, reqOk] at h
  simp [operands]
  omega

theorem fabWritePartial (q : FabReq) (m : MemIn) : Statement (.fabWritePartial q m) := by
  intro h
  simp [Instr.wf, reqBeatOk, reqOk] at h
  simp [operands]
  omega

theorem fabCread (q : FabReq) (m : MemIn) : Statement (.fabCread q m) := by
  intro h
  simp [Instr.wf, reqOk] at h
  simp [operands]
  omega

theorem fabCwrite (q : FabReq) (m : MemIn) : Statement (.fabCwrite q m) := by
  intro h
  simp [Instr.wf, reqOk, reqRunOk] at h
  simp [operands]
  omega

theorem fabRawRead (q : FabReq) (m : MemIn) : Statement (.fabRawRead q m) := by
  intro h
  simp [Instr.wf, reqOk] at h
  simp [operands]
  omega

theorem fabRawWrite (q : FabReq) (m : MemIn) : Statement (.fabRawWrite q m) := by
  intro h
  simp [Instr.wf, reqBeatOk, reqOk] at h
  simp [operands]
  omega

theorem fabLoad (q : FabReq) : Statement (.fabLoad q) := by
  intro h
  simp [Instr.wf, reqOk] at h
  simp [operands]
  omega

theorem fabStore (q : FabReq) : Statement (.fabStore q) := by
  intro h
  simp [Instr.wf, reqBeatOk, reqOk] at h
  simp [operands]
  omega

theorem fabStorePartial (q : FabReq) : Statement (.fabStorePartial q) := by
  intro h
  simp [Instr.wf, reqBeatOk, reqOk] at h
  simp [operands]
  omega

theorem fabStoreFlagged (q : FabReq) : Statement (.fabStoreFlagged q) := by
  intro h
  simp [Instr.wf, reqBeatOk, reqOk] at h
  simp [operands]
  omega

theorem fabStorePartialFlagged (q : FabReq) : Statement (.fabStorePartialFlagged q) := by
  intro h
  simp [Instr.wf, reqBeatOk, reqOk] at h
  simp [operands]
  omega

theorem fabAtomic (q : FabReq) : Statement (.fabAtomic q) := by
  intro h
  simp [Instr.wf, reqBeatOk, reqOk] at h
  simp [operands]
  omega

theorem fabAtomicFetch (q : FabReq) : Statement (.fabAtomicFetch q) := by
  intro h
  simp [Instr.wf, reqBeatOk, reqOk] at h
  simp [operands]
  omega

theorem fabReservedOp (q : FabReq) : Statement (.fabReservedOp q) := by
  intro h
  simp [Instr.wf, reqOk] at h
  simp [operands]
  omega

theorem memReadData (port tag : Nat) (epoch : Word) (a : MemAnswer) (m : MemIn) (tagMismatches : Nat) : Statement (.memReadData port tag epoch a m tagMismatches) := by
  intro h
  simp [Instr.wf, memPortOk, memTagOk] at h
  simp [operands]
  omega

theorem memWriteAck (port tag : Nat) (epoch : Word) : Statement (.memWriteAck port tag epoch) := by
  intro h
  simp [Instr.wf, memPortOk, memTagOk] at h
  simp [operands]
  omega

theorem memTrained (port : Nat) : Statement (.memTrained port) := by
  intro h
  simp [Instr.wf, memPortOk] at h
  simp [operands]
  omega

theorem catalogueFormat (flashOk : Bool) : Statement (.catalogueFormat flashOk) := by simp [Statement, operands]

theorem create (index : BitVec 21) (m : MemIn) : Statement (.create index m) := by simp [Statement, operands]

theorem destroy (r : RegionNamed) : Statement (.destroy r) := by simp [Statement, operands]

theorem setRights (index : BitVec 21) (m : MemIn) : Statement (.setRights index m) := by simp [Statement, operands]

theorem pageReencrypt (index page : Nat) (m : MemIn) : Statement (.pageReencrypt index page m) := by
  intro h
  simp [Instr.wf, regionOk] at h
  simp [operands]
  omega

theorem sweepStep (index : Nat) (m : MemIn) : Statement (.sweepStep index m) := by
  intro h
  simp [Instr.wf, regionOk] at h
  simp [operands]
  omega

theorem sweepVerifyDone (index : Nat) (m : MemIn) : Statement (.sweepVerifyDone index m) := by
  intro h
  simp [Instr.wf, regionOk] at h
  simp [operands]
  omega

theorem memCalRequest (port : Nat) : Statement (.memCalRequest port) := by
  intro h
  simp [Instr.wf, memPortOk] at h
  simp [operands]
  omega

theorem memCalGrant (port : Nat) : Statement (.memCalGrant port) := by
  intro h
  simp [Instr.wf, memPortOk] at h
  simp [operands]
  omega

theorem memCalEnd (port : Nat) : Statement (.memCalEnd port) := by
  intro h
  simp [Instr.wf, memPortOk] at h
  simp [operands]
  omega

theorem memCalOverrun (port : Nat) : Statement (.memCalOverrun port) := by
  intro h
  simp [Instr.wf, memPortOk] at h
  simp [operands]
  omega

theorem memSrAck (port : Nat) : Statement (.memSrAck port) := by
  intro h
  simp [Instr.wf, memPortOk] at h
  simp [operands]
  omega

theorem linkUp (port : Nat) : Statement (.linkUp port) := by
  intro h
  simp [Instr.wf, lnkPortOk] at h
  simp [operands]
  omega

theorem hello (port : Nat) (f : Frame) : Statement (.hello port f) := by
  intro h
  simp [Instr.wf, frameOk, lnkPortOk] at h
  simp [operands]
  omega

theorem identity (port : Nat) (f : Frame) : Statement (.identity port f) := by
  intro h
  simp [Instr.wf, frameOk, lnkPortOk] at h
  simp [operands]
  omega

theorem keyShare (port : Nat) (f : Frame) : Statement (.keyShare port f) := by
  intro h
  simp [Instr.wf, frameOk, lnkPortOk] at h
  simp [operands]
  omega

theorem keyConfirm (port : Nat) (f : Frame) : Statement (.keyConfirm port f) := by
  intro h
  simp [Instr.wf, frameOk, lnkPortOk] at h
  simp [operands]
  omega

theorem bringupTimeout (port : Nat) : Statement (.bringupTimeout port) := by
  intro h
  simp [Instr.wf, lnkPortOk] at h
  simp [operands]
  omega

theorem bringupRetry (port : Nat) : Statement (.bringupRetry port) := by
  intro h
  simp [Instr.wf, lnkPortOk] at h
  simp [operands]
  omega

theorem data (port : Nat) (f : Frame) (m : MemIn) : Statement (.data port f m) := by
  intro h
  simp [Instr.wf, frameOk, lnkPortOk] at h
  simp [operands]
  omega

theorem idle (port : Nat) (f : Frame) : Statement (.idle port f) := by
  intro h
  simp [Instr.wf, frameOk, lnkPortOk] at h
  simp [operands]
  omega

theorem nak (port : Nat) (f : Frame) : Statement (.nak port f) := by
  intro h
  simp [Instr.wf, frameOk, lnkPortOk] at h
  simp [operands]
  omega

theorem rekey (port : Nat) (f : Frame) : Statement (.rekey port f) := by
  intro h
  simp [Instr.wf, frameOk, lnkPortOk] at h
  simp [operands]
  omega

theorem rekeyDone (port : Nat) (f : Frame) : Statement (.rekeyDone port f) := by
  intro h
  simp [Instr.wf, frameOk, lnkPortOk] at h
  simp [operands]
  omega

theorem rekeyThreshold (port : Nat) : Statement (.rekeyThreshold port) := by
  intro h
  simp [Instr.wf, lnkPortOk] at h
  simp [operands]
  omega

theorem rekeyOverdue (port : Nat) : Statement (.rekeyOverdue port) := by
  intro h
  simp [Instr.wf, lnkPortOk] at h
  simp [operands]
  omega

theorem seqExhausted (port : Nat) : Statement (.seqExhausted port) := by
  intro h
  simp [Instr.wf, lnkPortOk] at h
  simp [operands]
  omega

theorem rekeyTimeout (port : Nat) : Statement (.rekeyTimeout port) := by
  intro h
  simp [Instr.wf, lnkPortOk] at h
  simp [operands]
  omega

theorem rekeyNow (port : Nat) : Statement (.rekeyNow port) := by
  intro h
  simp [Instr.wf, lnkPortOk] at h
  simp [operands]
  omega

theorem creditIdleTimer (port : Nat) : Statement (.creditIdleTimer port) := by
  intro h
  simp [Instr.wf, lnkPortOk] at h
  simp [operands]
  omega

theorem cadenceTick (port vc : Nat) : Statement (.cadenceTick port vc) := by
  intro h
  simp [Instr.wf, lnkPortOk, vcOk] at h
  simp [operands]
  omega

theorem retryResend (dest vc : Nat) : Statement (.retryResend dest vc) := by
  intro h
  simp [Instr.wf, memberOk, vcOk] at h
  simp [operands]
  omega

theorem atomicLineIdle (line : Nat) : Statement (.atomicLineIdle line) := by simp [Statement, operands]

theorem deadTargetTimeout (tag : Nat) : Statement (.deadTargetTimeout tag) := by simp [Statement, operands]

theorem routeWrite (value : Word) : Statement (.routeWrite value) := by simp [Statement, operands]

theorem lnkCalRequest (port : Nat) : Statement (.lnkCalRequest port) := by
  intro h
  simp [Instr.wf, lnkPortOk] at h
  simp [operands]
  omega

theorem lnkCalGrant (port : Nat) : Statement (.lnkCalGrant port) := by
  intro h
  simp [Instr.wf, lnkPortOk] at h
  simp [operands]
  omega

theorem lnkCalEnd (port : Nat) : Statement (.lnkCalEnd port) := by
  intro h
  simp [Instr.wf, lnkPortOk] at h
  simp [operands]
  omega

theorem lnkCalOverrun (port : Nat) : Statement (.lnkCalOverrun port) := by
  intro h
  simp [Instr.wf, lnkPortOk] at h
  simp [operands]
  omega

theorem contextOpen (m : MemIn) : Statement (.contextOpen m) := by simp [Statement, operands]

theorem eabExpire (position : Nat) : Statement (.eabExpire position) := by simp [Statement, operands]

theorem collTimeout (group coll : Nat) : Statement (.collTimeout group coll) := by simp [Statement, operands]

theorem chunkResend (group coll : Nat) : Statement (.chunkResend group coll) := by simp [Statement, operands]

theorem groupRetire (group : Word) : Statement (.groupRetire group) := by simp [Statement, operands]

theorem jobStart (m : MemIn) (flashOk : Bool) : Statement (.jobStart m flashOk) := by simp [Statement, operands]

theorem jobResume (m : MemIn) : Statement (.jobResume m) := by simp [Statement, operands]

theorem cut (m : MemIn) (flashOk : Bool) : Statement (.cut m flashOk) := by simp [Statement, operands]

theorem cutFlushDone (entry : Nat) (m : MemIn) : Statement (.cutFlushDone entry m) := by
  intro h
  simp [Instr.wf, stratumOk] at h
  simp [operands]
  omega

theorem restore (m : MemIn) : Statement (.restore m) := by simp [Statement, operands]

theorem cutTimeout (entry : Nat) : Statement (.cutTimeout entry) := by
  intro h
  simp [Instr.wf, stratumOk] at h
  simp [operands]
  omega

theorem doorbell (value : Word) : Statement (.doorbell value) := by simp [Statement, operands]

theorem commandFetch (sq : Nat) (m : MemIn) : Statement (.commandFetch sq m) := by
  intro h
  simp [Instr.wf, tableOk] at h
  simp [operands]
  omega

theorem commandDispatch (sq : Nat) (m : MemIn) : Statement (.commandDispatch sq m) := by
  intro h
  simp [Instr.wf, tableOk] at h
  simp [operands]
  omega

theorem commandComplete (flight : Nat) (m : MemIn) : Statement (.commandComplete flight m) := by simp [Statement, operands]

theorem ctxCreate (slice index : Nat) : Statement (.ctxCreate slice index) := by
  intro h
  simp [Instr.wf, indexOk, sliceOk] at h
  simp [operands]
  omega

theorem ctxDestroy (slice index : Nat) : Statement (.ctxDestroy slice index) := by
  intro h
  simp [Instr.wf, indexOk, sliceOk] at h
  simp [operands]
  omega

theorem switch (slice index : Nat) : Statement (.switch slice index) := by
  intro h
  simp [Instr.wf, indexOk, sliceOk] at h
  simp [operands]
  omega

theorem qCreate (slice index : Nat) (m : MemIn) : Statement (.qCreate slice index m) := by
  intro h
  simp [Instr.wf, indexOk, sliceOk] at h
  simp [operands]
  omega

theorem qDestroy (slice index : Nat) : Statement (.qDestroy slice index) := by
  intro h
  simp [Instr.wf, indexOk, sliceOk] at h
  simp [operands]
  omega

theorem eventCreate (slice index : Nat) (m : MemIn) : Statement (.eventCreate slice index m) := by
  intro h
  simp [Instr.wf, indexOk, sliceOk] at h
  simp [operands]
  omega

theorem eventDestroy (slice index : Nat) : Statement (.eventDestroy slice index) := by
  intro h
  simp [Instr.wf, indexOk, sliceOk] at h
  simp [operands]
  omega

theorem objCreate (slice index : Nat) (m : MemIn) : Statement (.objCreate slice index m) := by
  intro h
  simp [Instr.wf, indexOk, sliceOk] at h
  simp [operands]
  omega

theorem objAdopt (slice index : Nat) : Statement (.objAdopt slice index) := by
  intro h
  simp [Instr.wf, indexOk, sliceOk] at h
  simp [operands]
  omega

theorem objFree (slice : Nat) (o : ObjNamed) : Statement (.objFree slice o) := by
  intro h
  simp [Instr.wf, indexOk, sliceOk] at h
  simp [operands]
  omega

theorem objDestroyRetry (o : ObjNamed) : Statement (.objDestroyRetry o) := by
  intro h
  simp [Instr.wf, objectOk] at h
  simp [operands]
  omega

theorem sliceResetDrain (slice : Nat) : Statement (.sliceResetDrain slice) := by
  intro h
  simp [Instr.wf, sliceOk] at h
  simp [operands]
  omega

theorem sliceResetSquash (slice : Nat) : Statement (.sliceResetSquash slice) := by
  intro h
  simp [Instr.wf, sliceOk] at h
  simp [operands]
  omega

theorem sliceResetSettle (slice : Nat) : Statement (.sliceResetSettle slice) := by
  intro h
  simp [Instr.wf, sliceOk] at h
  simp [operands]
  omega

theorem drainTimeout (slice : Nat) : Statement (.drainTimeout slice) := by
  intro h
  simp [Instr.wf, sliceOk] at h
  simp [operands]
  omega

theorem squashTimeout (slice : Nat) : Statement (.squashTimeout slice) := by
  intro h
  simp [Instr.wf, sliceOk] at h
  simp [operands]
  omega

theorem portSelect (port : Nat) (u : Upset) : Statement (.portSelect port u) := by
  intro h
  simp [Instr.wf, anyPortOk, upsetOk] at h
  simp [operands]
  omega

theorem requestAged (port seq : Nat) : Statement (.requestAged port seq) := by
  intro h
  simp [Instr.wf, anyPortOk] at h
  simp [operands]
  omega

theorem watchdogHang (watchdog : Nat) : Statement (.watchdogHang watchdog) := by
  intro h
  simp [Instr.wf, watchdogOk] at h
  simp [operands]
  omega

theorem portReset (port : Nat) : Statement (.portReset port) := by
  intro h
  simp [Instr.wf, anyPortOk] at h
  simp [operands]
  omega

theorem hostReset : Statement .hostReset := by simp [Statement, operands]

theorem coreWarmReset (e : StartIn) : Statement (.coreWarmReset e) := by simp [Statement, operands]

theorem blockWarmRecovery (e : StartIn) : Statement (.blockWarmRecovery e) := by simp [Statement, operands]

theorem coldStartRequest (flashOk : Bool) : Statement (.coldStartRequest flashOk) := by simp [Statement, operands]

theorem rungTimerExpiry (rung port : Nat) : Statement (.rungTimerExpiry rung port) := by
  intro h
  simp [Instr.wf, anyPortOk, rungOk] at h
  simp [operands]
  omega

theorem quiesceDrainDone : Statement .quiesceDrainDone := by simp [Statement, operands]

theorem dumpTake : Statement .dumpTake := by simp [Statement, operands]

theorem dumpUnitTimeout (unit got : Nat) : Statement (.dumpUnitTimeout unit got) := by
  intro h
  simp [Instr.wf, unitOk] at h
  simp [operands]
  omega

theorem dumpCopy (flashOk : Bool) : Statement (.dumpCopy flashOk) := by simp [Statement, operands]

theorem annalsWrite (flashOk : Bool) : Statement (.annalsWrite flashOk) := by simp [Statement, operands]

theorem hourTick (flashOk : Bool) : Statement (.hourTick flashOk) := by simp [Statement, operands]

theorem driverLaneFence (value : Word) : Statement (.driverLaneFence value) := by simp [Statement, operands]

theorem driverLaneUnfence (value : Word) : Statement (.driverLaneUnfence value) := by simp [Statement, operands]

theorem getVersion (mailbox : Bool) : Statement (.getVersion mailbox) := by simp [Statement, operands]

theorem getCapabilities (mailbox : Bool) : Statement (.getCapabilities mailbox) := by simp [Statement, operands]

theorem negotiateAlgorithms (mailbox : Bool) : Statement (.negotiateAlgorithms mailbox) := by simp [Statement, operands]

theorem getDigests (mailbox : Bool) : Statement (.getDigests mailbox) := by simp [Statement, operands]

theorem getCertificate (mailbox : Bool) : Statement (.getCertificate mailbox) := by simp [Statement, operands]

theorem challenge (mailbox : Bool) : Statement (.challenge mailbox) := by simp [Statement, operands]

theorem getMeasurements (mailbox : Bool) : Statement (.getMeasurements mailbox) := by simp [Statement, operands]

theorem spdmUnsupported (mailbox : Bool) : Statement (.spdmUnsupported mailbox) := by simp [Statement, operands]

theorem mbxSend (value : Word) : Statement (.mbxSend value) := by simp [Statement, operands]

theorem mbxRelease : Statement .mbxRelease := by simp [Statement, operands]

theorem colophon (m : MemIn) : Statement (.colophon m) := by simp [Statement, operands]

theorem enlistNonce (m : MemIn) : Statement (.enlistNonce m) := by simp [Statement, operands]

theorem enlistNonceExpire (position : Nat) : Statement (.enlistNonceExpire position) := by
  intro h
  simp [Instr.wf, nonceOk] at h
  simp [operands]
  omega

theorem enlist (m : MemIn) : Statement (.enlist m) := by simp [Statement, operands]

theorem delist (m : MemIn) : Statement (.delist m) := by simp [Statement, operands]

theorem lockAdmission (m : MemIn) : Statement (.lockAdmission m) := by simp [Statement, operands]

theorem rosterSign (m : MemIn) : Statement (.rosterSign m) := by simp [Statement, operands]

theorem rosterLoad (m : MemIn) : Statement (.rosterLoad m) := by simp [Statement, operands]

theorem appoint (m : MemIn) (flashOk : Bool) : Statement (.appoint m flashOk) := by simp [Statement, operands]

theorem wrapDomain (m : MemIn) : Statement (.wrapDomain m) := by simp [Statement, operands]

theorem genPair (m : MemIn) : Statement (.genPair m) := by simp [Statement, operands]

theorem rekeyIssue (m : MemIn) : Statement (.rekeyIssue m) := by simp [Statement, operands]

theorem rekeyApply (m : MemIn) : Statement (.rekeyApply m) := by simp [Statement, operands]

theorem fwMeasure (m : MemIn) (flashOk : Bool) : Statement (.fwMeasure m flashOk) := by simp [Statement, operands]

theorem fwStage (m : MemIn) (flashOk : Bool) : Statement (.fwStage m flashOk) := by simp [Statement, operands]

theorem fwActivate (m : MemIn) : Statement (.fwActivate m) := by simp [Statement, operands]

theorem fwAbandon (m : MemIn) : Statement (.fwAbandon m) := by simp [Statement, operands]

theorem endorse (m : MemIn) (flashOk : Bool) : Statement (.endorse m flashOk) := by simp [Statement, operands]

theorem certStore (m : MemIn) (flashOk : Bool) : Statement (.certStore m flashOk) := by simp [Statement, operands]

theorem ideBind (m : MemIn) : Statement (.ideBind m) := by simp [Statement, operands]

theorem ideKeyex (m : MemIn) : Statement (.ideKeyex m) := by simp [Statement, operands]

theorem ideDeliver (m : MemIn) : Statement (.ideDeliver m) := by simp [Statement, operands]

theorem ideSwitch (m : MemIn) : Statement (.ideSwitch m) := by simp [Statement, operands]

theorem ideClose (m : MemIn) : Statement (.ideClose m) := by simp [Statement, operands]

theorem transition (source : Bool) (m : MemIn) (flashOk : Bool) : Statement (.transition source m flashOk) := by simp [Statement, operands]

theorem debugEnable (source : Bool) (m : MemIn) (flashOk : Bool) : Statement (.debugEnable source m flashOk) := by simp [Statement, operands]

theorem debugDisable (flashOk : Bool) : Statement (.debugDisable flashOk) := by simp [Statement, operands]

theorem raiseFloor (source : Bool) (m : MemIn) (flashOk : Bool) : Statement (.raiseFloor source m flashOk) := by simp [Statement, operands]

theorem clearStanding (source : Bool) (m : MemIn) (flashOk : Bool) : Statement (.clearStanding source m flashOk) := by simp [Statement, operands]

theorem fusePgmAck (blown : Bool) : Statement (.fusePgmAck blown) := by simp [Statement, operands]

theorem flashGrantTimeout : Statement .flashGrantTimeout := by simp [Statement, operands]

theorem genCommitSreTiming : Statement .genCommitSreTiming := by simp [Statement, operands]

theorem genCommitShape (port : Nat) : Statement (.genCommitShape port) := by
  intro h
  simp [Instr.wf, anyPortOk] at h
  simp [operands]
  omega

theorem registerWrite (offset : BitVec 16) (value : Word) (m : MemIn) : Statement (.registerWrite offset value m) := by simp [Statement, operands]

theorem debugPathReset : Statement .debugPathReset := by simp [Statement, operands]

theorem mboxPut (b : Byte) : Statement (.mboxPut b) := by simp [Statement, operands]

theorem mboxSend : Statement .mboxSend := by simp [Statement, operands]

theorem mboxGet : Statement .mboxGet := by simp [Statement, operands]

theorem regsRead (offset : BitVec 16) : Statement (.regsRead offset) := by simp [Statement, operands]

theorem regsWrite (offset : BitVec 16) (value : Word) (m : MemIn) : Statement (.regsWrite offset value m) := by simp [Statement, operands]

theorem lcsStage (record : List Byte) : Statement (.lcsStage record) := by
  intro h
  simp [Instr.wf, recordOk] at h
  simp [operands]
  omega

theorem fabdbgRead (shelf : BitVec 24) (addr : BitVec 52) (m : MemIn) : Statement (.fabdbgRead shelf addr m) := by simp [Statement, operands]

theorem fabdbgWrite (shelf : BitVec 24) (addr : BitVec 52) (d : Line) (cat tree : MemIn) : Statement (.fabdbgWrite shelf addr d cat tree) := by simp [Statement, operands]

theorem fabdbgRawRead (shelf : BitVec 24) (addr : BitVec 52) (m : MemIn) : Statement (.fabdbgRawRead shelf addr m) := by simp [Statement, operands]

theorem fabdbgRawWrite (shelf : BitVec 24) (addr : BitVec 52) (d : Stored) (m : MemIn) : Statement (.fabdbgRawWrite shelf addr d m) := by simp [Statement, operands]

theorem scan (bits : List Bool) : Statement (.scan bits) := by simp [Statement, operands]

theorem linkDown (port : Nat) : Statement (.linkDown port) := by
  intro h
  simp [Instr.wf, lnkPortOk] at h
  simp [operands]
  omega

theorem flashGrantLost : Statement .flashGrantLost := by simp [Statement, operands]

theorem aclkReturn : Statement .aclkReturn := by simp [Statement, operands]

end Sys2Proof.Laws.Operands
end

