-- ==== Sys2Proof/Tests/Slice0.lean ====
section
/-!
SUPPORT. Own tests: ill-formed commands refused, small steps with results taken from the spec, and a witness for the hypotheses of each statement.
-/
namespace Sys2Proof.Tests

set_option Elab.async false

open Sys2Proof Sys2Proof.Machine

/-- A triple whose first part is known. -/
theorem gated {α β γ : Type} {x : α × β × γ} {v : α} (h : x.1 = v) : x = (v, x.2.1, x.2.2) := by rw [← h]

/-- The value of a result, or another where it failed. -/
def okOr {ε α : Type} (x : Except ε α) (d : α) : α := match x with | .ok y => y | .error _ => d

theorem okOr_eq {ε α : Type} {x : Except ε α} {d : α} (h : x.isOk = true) : x = .ok (okOr x d) := by
  cases x with
  | ok _ => rfl
  | error _ => simp [Except.isOk, Except.toBool] at h

theorem wit_StepRunsFrontCommand : ∃ (s : State) (c : Instr) (r : List Instr), s.pending = c :: r :=
  ⟨{ State.reset with pending := [.coldPowerLoss] }, .coldPowerLoss, [], rfl⟩

theorem wit_IdleStepCountsTime : State.reset.pending = [] := rfl

theorem wit_CommandsLeaveQueue : ∃ (c : Instr) (s t : State), exec c s = .next t := ⟨.coldPowerLoss, State.reset, _, rfl⟩

theorem wit_StepKeepsInv : Safety.Inv State.reset ∧ ∃ t, step State.reset = .next t :=
  ⟨⟨rfl, ⟨rfl, rfl, rfl, rfl⟩, fun i h => by simp [State.reset] at h⟩, _, rfl⟩

theorem wit_BlownFusesStay :
    ∃ (s t : State) (i : Nat), s.fuse.blown.getLsbD i = true ∧ step s = .next t :=
  ⟨{ State.reset with fuse := { blown := 1#8192, shadow := 0#8192 } }, _, 0, by simp, rfl⟩

theorem wit_TamperKeepsKeysDead : Safety.KillInv State.reset ∧ ∃ t, step State.reset = .next t :=
  ⟨⟨fun _ => ⟨rfl, rfl, rfl, rfl⟩, by decide, fun h => absurd h (by decide)⟩, _, rfl⟩

theorem wit_PowerOnAndOff_on : State.reset.pin.pwrok = false ∧ State.reset.flash.intent = none ∧ decodeLcs State.reset.fuse.blown = .state 0 false := by
  refine ⟨rfl, rfl, ?_⟩
  decide +kernel

theorem wit_PowerOnAndOff_clocks :
    (∃ e : StartIn, e.cclkMhz ≠ 0#12 ∧ e.hclk = true) ∧ ∃ e : StartIn, e.cclkMhz = 0#12 ∨ e.hclk = false :=
  ⟨⟨{ StartIn.plain with cclkMhz := 1000#12, hclk := true }, by decide, rfl⟩, { StartIn.plain with cclkMhz := 0#12 }, .inl rfl⟩

theorem wit_PowerOnAndOff_off : ({ State.reset with pin := { Pin.reset with pwrok := true } } : State).pin.pwrok = true := rfl

/-- A powered state with CORE and HOST out of reset. -/
def up (s : State) : State :=
  { s with pin := { s.pin with pwrok := true }
           gen := { s.gen with released := true }
           dom := { s.dom with d := [(0, { inReset := false, epoch := 1#32 }), (1, { inReset := false, epoch := 1#32 })] } }

/-- The powered block with nothing loaded. -/
def base : State := up State.reset

theorem wit_StartStepsComplete_c6 :
    ∃ (s : State) (h : Helper), s.gen.released = true ∧ s.gen.c6Done = false ∧ s.key.pufRead = false ∧ coreDown s = false ∧ s.key.slateOn = false
      ∧ s.key.tampered = false ∧ s.flash.helper = some h :=
  ⟨{ base with flash := { Flash.erased with helper := some { serial := 0, kcv := 0#64, offset := 0#20460, mac := 0#128 } } }, _,
    rfl, rfl, rfl, rfl, rfl, rfl, rfl⟩

theorem wit_StartStepsComplete_c12 :
    ∃ s : State, s.gen.c6Done = true ∧ s.gen.c10Done = true ∧ s.gen.c12Done = false ∧ coreDown s = false ∧ s.key.tampered = false ∧ s.key.retries = 0
      ∧ Safety.nothingWaitsForSeed s :=
  ⟨{ base with gen := { base.gen with c6Done := true, c10Done := true } }, rfl, rfl, rfl, rfl, rfl, rfl, rfl, rfl, rfl, rfl, fun e => ⟨rfl, rfl, rfl⟩⟩

theorem wit_StartStepsComplete_c13 :
    ∃ s : State, s.pin.pwrok = true ∧ s.gen.released = true ∧ s.gen.halted = false ∧ s.gen.c10Done = true ∧ s.gen.c12Done = true ∧ s.gen.ready = false
      ∧ coreDown s = false ∧ s.flt.coldReq = false ∧ portsTrained s = true ∧ ∀ r ∈ s.flt.running, ¬(r.rung = 4 ∧ r.phase = .restart) :=
  ⟨{ base with gen := { base.gen with c10Done := true, c12Done := true } }, rfl, rfl, rfl, rfl, rfl, rfl, rfl, rfl, by decide,
    fun r h => absurd h (by simp [base, up, State.reset, Flt.reset])⟩

theorem wit_TamperZeroises : base.pin.pwrok = true ∧ base.key.tampered = false ∧ base.dom.aclkLost = false := ⟨rfl, rfl, rfl⟩

theorem wit_ClockLossAndReturn_lost :
    ∃ s : State, s.pin.pwrok = true ∧ s.gen.released = true ∧ s.flt.coldReq = false ∧ (2 ≤ 5 → portPresent s (5 - 2) = true)
      ∧ (domAt s 5).clockLost = false := ⟨base, rfl, rfl, rfl, fun _ => rfl, rfl⟩

/-- The powered block with one domain held by a lost clock. -/
def lostAt (d : Nat) : State :=
  setDom { base with gen := { base.gen with unchartered := false } } d { inReset := true, epoch := 1#32, clockLost := true, first := false }

theorem wit_ClockLossAndReturn_return :
    ∀ d ∈ [0, 1, 2], (lostAt d).pin.pwrok = true ∧ (domAt (lostAt d) d).clockLost = true ∧ (lostAt d).gen.released = true
      ∧ (lostAt d).flt.coldReq = false ∧ (lostAt d).gen.c5Wait = none ∧ epochOf (lostAt d) d ≠ 0xFFFFFFFF#32 ∧ (lostAt d).flt.running = []
      ∧ coreDown (lostAt d) = decide (d = 0) := by decide

theorem wit_ClockLossAndReturn_port :
    portPresent (lostAt 2) 0 = true ∧ (domAt (lostAt 2) 2).inReset = true ∧ (lostAt 2).gen.unchartered = false
      ∧ coreDown (setDom (lostAt 2) 0 { inReset := true, epoch := 1#32 }) = true := ⟨rfl, rfl, rfl, rfl⟩

theorem wit_ClockLossAndReturn_c5 :
    ∃ s : State, s.pin.pwrok = true ∧ (domAt s 1).clockLost = true ∧ (domAt s (1 - 1)).clockLost = false ∧ s.flt.coldReq = false ∧ s.gen.halted = false
      ∧ s.gen.c5Wait = some StartIn.plain :=
  ⟨setDom { base with gen := { base.gen with c5Wait := some StartIn.plain } } 1 { clockLost := true }, rfl, rfl, rfl, rfl, rfl, rfl⟩

theorem wit_ClockLossAndReturn_aclk :
    (base.gen.released = true ∧ coreDown base = false ∧ base.dom.aclkLost = false)
      ∧ ∃ s : State, s.pin.pwrok = true ∧ s.dom.aclkLost = true ∧ s.flt.running = [] ∧ (∀ d, d < 26 → epochOf s d ≠ 0xFFFFFFFF#32) ∧ s.flt.history = [] :=
  ⟨⟨rfl, rfl, rfl⟩, { base with dom := { base.dom with aclkLost := true } }, rfl, rfl, rfl, by decide, rfl⟩

/-- A key handle of slot 64, current half 0. -/
def hnd : KeyHandle :=
  { slot := 64, half := 0, purpose := 1, volume := 0, bits := 512, tenant := 0, folio := 0, instId := 0, qualifier := 0, generation := 0 }

/-- A VALID slot with a key in half 0. -/
def slot0 : Slot :=
  { kind := 2, rootClass := 2, tenant := 0, masks := ownMasks, genCur := 0, prevLive := false, staged := none,
    half0 := some { masked := 0#256, keyNo := false, epoch := 0 }, half1 := none, cnt0 := 0, cnt1 := 0 }

/-- The powered block with a mask key, a scrambling key, one slot and the DRBG up. -/
def keyed : State :=
  { base with key := { base.key with
      kill := { KillBank.empty with mask0 := some 0#256, scramble := some 0#256, geode := some 0#256 }
      slots := [(64, slot0)]
      dkc := [{ tag := hnd, stored := 0#576 }]
      drbgUp := true } }

def beat0 : Beat := { op := .xtsEncrypt, key := hnd, tweak := 0#128, data := 0#512, reqTag := 0, index := 0, last := true }

theorem wit_LaneBeatReleasesOrFences :
    ∃ (s : State) (k : List Byte), groupOf (laneAt s 3).st = some 24 ∧ s.key.tampered = false ∧ coreDown s = false ∧ dkcHas s beat0.key = true
      ∧ derive s beat0.key = some k ∧ (∀ x ∈ s.lane.done, ¬(x.group = 24 ∧ x.req = beat0.reqTag)) ∧ nextBeat s 24 beat0.reqTag = beat0.index
      ∧ nextBeat s 24 beat0.reqTag ≠ ({ beat0 with index := 1 } : Beat).index :=
  ⟨setLane keyed 3 { st := .common }, _, rfl, rfl, rfl, rfl, rfl, fun x h => absurd h (by simp [keyed, base, up, setLane, State.reset, LanePool.reset]), rfl,
    by decide⟩

/-- A block with one SPARE lane and one place of port 0 that waits, for a group of a chartered size. -/
def waiting (size : Nat) : State :=
  { setLane base 5 { st := .spare } with
    lane := { (setLane base 5 { st := .spare }).lane with vacant := [{ lane := 3, group := 0, at_ := 0 }], size := [(0, size)] } }

theorem wit_LaneCommandsComplete_replace :
    nextVacant (waiting 1) = some { lane := 3, group := 0, at_ := 0 } ∧ (members (waiting 1) 0).length < charteredSize (waiting 1) 0
      ∧ replacementFor (waiting 1) 0 [] = some 5 := by decide +kernel

theorem wit_LaneCommandsComplete_full :
    nextVacant (waiting 0) = some { lane := 3, group := 0, at_ := 0 } ∧ charteredSize (waiting 0) 0 ≤ (members (waiting 0) 0).length := by decide +kernel

theorem wit_LaneCommandsComplete_tests :
    ∃ s : State, (laneAt s 3).testing = true ∧ (laneAt s 3).testByDriver = false ∧ (laneAt s 3).verdict = 1 ∧ (laneAt s 3).driverHeld = false
      ∧ s.gen.charter = none ∧ (laneAt s 4).st = .spare ∧ (laneAt s 6).testing = true ∧ (laneAt s 6).testByDriver = false ∧ (laneAt s 6).verdict ≠ 1 :=
  ⟨setLane (setLane (setLane base 3 { st := .fenced, testing := true, verdict := 1 }) 4 { st := .spare }) 6 { st := .fenced, testing := true, verdict := 0 },
    rfl, rfl, rfl, rfl, rfl, rfl, rfl, rfl, by decide⟩

theorem wit_LaneCommandsComplete_driver :
    (Safety.admitted base 0x10014 ∧ bits (3#32).toNat 0 8 < base.cfg.lanes ∧ (laneAt base (bits (3#32).toNat 0 8)).st ≠ .fenced)
      ∧ ∃ s : State, Safety.admitted s 0x10018 ∧ bits (3#32).toNat 0 8 < s.cfg.lanes ∧ (laneAt s (bits (3#32).toNat 0 8)).st = .fenced
        ∧ laneStanding s (bits (3#32).toNat 0 8) = false ∧ (laneAt s (bits (3#32).toNat 0 8)).testing = false
        ∧ (laneAt s (bits (3#32).toNat 0 8)).driverHeld = true :=
  ⟨⟨⟨rfl, by decide⟩, by decide, by decide⟩, setLane base 3 { st := .fenced, driverHeld := true }, ⟨rfl, by decide⟩, by decide, by decide, by decide, by decide, by decide⟩

theorem wit_LaneCommandsFrame : ∃ t, exec (.spareSelfTest 3 true) base = .next t := ⟨_, rfl⟩

/-- Lines whose data are the given bytes, 64 to a line. -/
def linesOfBytes (n : Nat) (b : List Byte) : List MemAnswer :=
  (List.range n).map fun i => { data := (bytesLine (slice b (64 * i) 64)).zeroExtend 576, poison := false }

def memOf (n : Nat) (b : List Byte) : MemIn := { lines := linesOfBytes n b }

/-- A P0 region of 64 KiB at address 0, catalogue index 4096, open to every master and world. -/
def p0 : Region :=
  { state := 1, base := 0, size := 65536, mode := 0, init := false, volume := 0, verify := 0, compress := false, rawRead := false,
    rawWrite := false, shape := 0, renew := false, lcs := 63#6, world := 15#4, rd := 255#8, wr := 255#8, creations := 0, baseGen := 0,
    sweepPtr := 0, treeOff := 0, rootIx := 0, release := 0, snap := 0, snapPtr := 0 }

/-- A charter in use that holds the sections given. -/
def chartered (secs : List (Nat × List Byte)) : Charter :=
  { schemaMajor := 1, schemaMinor := 0, signer := 1, sequence := 1, configId := 1, secs := secs.map fun x => (x.1, (1, x.2)) }

/-- The TABLES body: catalogue at 2^40, trees at 2^41, 8192 entries. -/
def tablesBody : List Byte := leBytes 8 (2 ^ 40) ++ leBytes 8 (2 ^ 20) ++ leBytes 8 (2 ^ 41) ++ leBytes 8 (2 ^ 20) ++ leBytes 4 8192 ++ zeros 12

/-- The keyed block with that region, P0 permitted, DOMAIN_ID 1, and the command registers at it. -/
def served : State :=
  { keyed with
    gen := { keyed.gen with glob := leBytes 8 4 ++ leBytes 8 1, charter := some (chartered [(3, tablesBody)]) }
    ime := { keyed.ime with formatted := true, cat := [(4096, p0)], catCache := [4096, 4097] }
    key := { keyed.key with cmdShelf := 32768#32, cmdArg := 0#64 } }

/-- A wrapped key record of generation n for tenant 1 and DOMAIN_ID 1, kind PAIR. -/
def wrapped (n : Nat) : List Byte := leBytes 2 1 ++ leBytes 1 2 ++ leBytes 1 0 ++ leBytes 2 1 ++ leBytes 2 0 ++ leBytes 8 1 ++ leBytes 4 n ++ zeros 172

theorem wit_KeyLoadsComplete_load :
    ∃ (m1 : MemIn) (s1 : State), Safety.admitted served 0x100C ∧ served.key.cmdBusy = false ∧ served.key.tampered = false
      ∧ ctlRead served served.key.cmdShelf.toNat served.key.cmdAddr.toNat 192 (memOf 3 (wrapped 0)) = (.ok (wrapped 0), s1, m1)
      ∧ wrOk (wrapped 0) = true ∧ wrDomain (wrapped 0) ≠ 0 ∧ wrDomain (wrapped 0) = domainId s1 ∧ tenantAvail s1 = true
      ∧ slotAt s1 65 = none ∧ tenantTaken s1 (wrKind (wrapped 0)) (wrTenant (wrapped 0)) = false :=
  ⟨_, _, ⟨rfl, by decide +kernel⟩, rfl, rfl, gated (by decide +kernel), by decide +kernel, by decide +kernel, by decide +kernel, by decide +kernel,
    by decide +kernel, by decide +kernel⟩

theorem wit_KeyLoadsComplete_stage :
    ∃ (v : Slot), slotAt { served with key := { served.key with slots := [(64, { slot0 with tenant := 1 })] } } 64 = some v ∧ v.kind = wrKind (wrapped 1)
      ∧ v.tenant = wrTenant (wrapped 1) ∧ v.staged = none ∧ v.prevLive = false ∧ v.genCur ≠ 0xFFFFFFFF ∧ wrGen (wrapped 1) = v.genCur + 1 :=
  ⟨_, rfl, by decide +kernel, by decide +kernel, rfl, rfl, by decide, by decide +kernel⟩

theorem wit_KeyLoadsComplete_ephemeral :
    Safety.admitted served 0x100C ∧ served.key.cmdBusy = false ∧ drbgServes served = true ∧ drbgWaits served = false
      ∧ bits served.key.cmdArg.toNat 9 23 = 0 ∧ attrOk (bits served.key.cmdArg.toNat 32 32) = true ∧ tenantAvail served = true
      ∧ slotAt served 65 = none ∧ tenantTaken served 3 (bits served.key.cmdArg.toNat 0 9) = false :=
  ⟨⟨rfl, by decide +kernel⟩, rfl, rfl, rfl, by decide +kernel, by decide +kernel, rfl, rfl, by decide +kernel⟩

theorem wit_KeyHalvesMove :
    ∃ (s : State) (v w : Slot) (mk : Masks), Safety.admitted s 0x100C ∧ s.key.cmdBusy = false ∧ s.key.tampered = false ∧ slotAt s 64 = some v
      ∧ v.staged = some mk ∧ slotAt s 65 = some w ∧ w.prevLive = true ∧ prevUsers s 65 = 0 ∧ s.bce.jobs = [] ∧ Safety.memIdle s :=
  ⟨{ keyed with key := { keyed.key with slots := [(64, { slot0 with staged := some ownMasks }), (65, { slot0 with prevLive := true })] } },
    _, _, ownMasks, ⟨rfl, by decide +kernel⟩, rfl, rfl, rfl, rfl, rfl, rfl, by decide +kernel, rfl, ⟨rfl, rfl, rfl, rfl⟩⟩

theorem wit_MaskRefreshKeepsKeys : drbgServes keyed = true ∧ drbgWaits keyed = false ∧ keyed.gen.released = true := ⟨rfl, rfl, rfl⟩

theorem wit_DerivationsAndEntropy_miss :
    ∃ s : State, s.key.missq = [(hnd, [24])] ∧ coreDown s = false ∧ (scrambled s hnd).isSome = true ∧ Safety.memIdle s :=
  ⟨{ keyed with key := { keyed.key with missq := [(hnd, [24])] } }, rfl, rfl, rfl, ⟨rfl, rfl, rfl, rfl⟩⟩

/-- Nothing waits for a random number in the powered block, whatever the repeats left. -/
theorem base_nothingWaits (n : Nat) : Safety.nothingWaitsForSeed { base with key := { base.key with retries := n } } :=
  ⟨rfl, rfl, rfl, rfl, fun _ => ⟨rfl, rfl, rfl⟩⟩

theorem wit_DerivationsAndEntropy_tests :
    (base.gen.released = true ∧ base.key.drbgFail = false ∧ base.key.retries = 0 ∧ base.key.tampered = false)
      ∧ (∃ s : State, s.gen.released = true ∧ s.key.drbgFail = false ∧ Safety.nothingWaitsForSeed s ∧ s.key.retries = 1)
      ∧ (∃ s : State, s.gen.released = true ∧ s.key.drbgFail = false ∧ Safety.nothingWaitsForSeed s ∧ 1 < s.key.retries)
      ∧ ∃ s : State, drbgServes s = true ∧ s.key.reseedDue = true ∧ s.key.retries = 0 :=
  ⟨⟨rfl, rfl, rfl, rfl⟩, ⟨{ base with key := { base.key with retries := 1 } }, rfl, rfl, base_nothingWaits 1, rfl⟩,
    ⟨{ base with key := { base.key with retries := 2 } }, rfl, rfl, base_nothingWaits 2, by decide⟩,
    ⟨{ keyed with key := { keyed.key with reseedDue := true } }, rfl, rfl, rfl⟩⟩

theorem wit_CharterLoadsAndStores_load :
    Safety.admitted base 0x50 ∧ base.gen.chrBusy = false ∧ isRunning base 4 0 = false ∧ base.lcs.act = none ∧ base.lcs.intentPending = false
      ∧ base.key.tampered = false := ⟨⟨rfl, by decide⟩, rfl, rfl, rfl, rfl, rfl⟩

theorem wit_CharterLoadsAndStores_store :
    ∃ (s : State) (l : ChrLoad), s.gen.load = some l ∧ s.gen.chrBusy = true ∧ coreDown s = false ∧ s.key.tampered = false ∧ 4 ∉ l.carried
      ∧ (s.hob.slices.any fun x => x.2.resetting && x.2.charter) = false :=
  ⟨{ base with gen := { base.gen with chrBusy := true, load := some { merged := chartered [], bind := 0#128, carried := [], slot := 0 } } }, _,
    rfl, rfl, rfl, rfl, by simp, rfl⟩

theorem wit_FunctionsStopAndDrain :
    Safety.admitted base 0x60
      ∧ ∃ s : State, coreDown s = false ∧ (funcStops s).getLsbD 24 = true ∧ s.gen.funcState.getLsbD 24 = false ∧ funcIdle s 24 = true :=
  ⟨⟨rfl, by decide⟩, { base with gen := { base.gen with funcStop := 0x01000000#32 } }, rfl, by decide, by decide, rfl⟩

/-- A request on channel 5 of a COMPUTE master in the TENANT world, epoch 1, naming the region at index 4096. -/
def req (addr : BitVec 52) : FabReq :=
  { ch := 5, addr := addr, shelf := 32768#24, cls := 0#4, budget := 0xFFFFFFFF#32, tag := 7#16, epoch := 1#32, mid := 0#32, dest := 3#14, count := 0#4,
    mask := BitVec.allOnes 64, data := [0#576] }

/-- The served block after READY, a COMMON lane and one lane for every port group. -/
def open_ : State :=
  { served with
    gen := { served.gen with ready := true }
    lane := { served.lane with l := (0, ({ st := .common } : Lane)) :: (List.range 24).map fun q => (q + 1, ({ st := .bound q } : Lane)) } }

theorem wit_FabRequestsRefused :
    fabClosed base = true ∧ fabClosed open_ = false ∧ (req 0#52).epoch = epochOf open_ 0 ∧ (req 0#52).addr.toNat % 1024 = 0
      ∧ ({ req 0#52 with epoch := 9#32 }).epoch ≠ epochOf open_ 0
      ∧ (∃ s : State, fabClosed s = false ∧ (req 0#52).epoch = epochOf s 0 ∧ s.key.tampered = true) :=
  ⟨rfl, rfl, rfl, rfl, by decide, { open_ with key := { open_.key with tampered := true } }, rfl, rfl, rfl⟩

theorem memPort_lt (s : State) (h : s.cfg.memPorts = 4) (l : Nat) : memPort s l < 4 := by
  unfold memPort; rw [h]; exact Nat.mod_lt _ (by decide)

theorem open_port : ∀ p < 4, portStopped open_ p = false ∧ noLanes open_ p = false := by decide +kernel

/-- Nothing answered with a command. -/
def noMem : MemIn := { lines := [] }

theorem wit_FabReadsAccepted :
    Safety.fabPasses open_ (req 0x1000#52) 64 ∧ snapState p0 = 0
      ∧ ∃ s1 m1, memGate open_ (whoOf open_ (req 0x1000#52)) .read 0 noMem = (.ok (4096, p0), s1, m1) ∧ Safety.imeQuiet s1
        ∧ Safety.keysReady s1 4096 p0 :=
  ⟨⟨rfl, by decide +kernel, (open_port _ (memPort_lt _ rfl _)).1, (open_port _ (memPort_lt _ rfl _)).2, rfl⟩, rfl,
    _, _, gated (by decide +kernel), ⟨rfl, rfl, rfl, rfl⟩, .inl rfl⟩

/-- A P1 region with compression at 64 KiB, index 4097, and a DOMAIN slot of tenant 1 whose keys are cached. -/
def p1 : Region := { p0 with mode := 1, base := 65536, compress := true }

def dom1 : Slot := { slot0 with kind := 1, tenant := 1, masks := { lcs := 63#6, world := 15#4, master := 255#8, vol := 255#8 } }

def opened : State :=
  let s := { open_ with ime := { open_.ime with cat := [(4096, p0), (4097, p1)] }, key := { open_.key with slots := [(64, dom1)] } }
  { s with key := { s.key with dkc := (lineHandles s 4097 p1 64 0).map fun h => { tag := h, stored := 0#576 } } }

/-- A request to the P1 region. -/
def req1 : FabReq := { req 0x10000#52 with shelf := 32769#24 }

theorem wit_FabReadsAccepted_cread :
    Safety.fabPasses opened req1 1024 ∧ snapState p1 = 0
      ∧ ∃ s1 m1, memGate opened (whoOf opened req1) .cread 0 noMem = (.ok (4097, p1), s1, m1) ∧ Safety.imeQuiet s1 ∧ Safety.keysReady s1 4097 p1 :=
  ⟨⟨rfl, by decide +kernel, (open_port _ (memPort_lt _ rfl _)).1, (open_port _ (memPort_lt _ rfl _)).2, rfl⟩, rfl,
    _, _, gated (by decide +kernel), ⟨rfl, rfl, rfl, rfl⟩,
    .inr ⟨64, dom1, by decide +kernel, rfl, by intro h hh; simp only [lineHandles, p1] at hh; simp at hh; subst hh; exact ⟨rfl, by decide +kernel⟩⟩⟩

theorem wit_FabWritesAccepted :
    (∃ s1 m1, memGate open_ (whoOf open_ (req 0x1000#52)) .write 0 noMem = (.ok (4096, p0), s1, m1) ∧ Safety.imeQuiet s1 ∧ s1.lane.flaw = [])
      ∧ p0.mode ≠ 3
      ∧ (∃ s1 m1, memGate opened (whoOf opened req1) .cwrite 0 noMem = (.ok (4097, p1), s1, m1) ∧ Safety.imeQuiet s1)
      ∧ bits (req1.data.headD 0#576).toNat 0 4 = req1.count.toNat :=
  ⟨⟨_, _, gated (by decide +kernel), ⟨rfl, rfl, rfl, rfl⟩, rfl⟩, by decide, ⟨_, _, gated (by decide +kernel), ⟨rfl, rfl, rfl, rfl⟩⟩, by decide +kernel⟩

/-- A P3 region in place of the P1 region, its root store entry 1 and its counter line in the cache. -/
def p3 : Region := { p1 with mode := 3, compress := false, rootIx := 1 }

def opened3 : State :=
  let s := { opened with ime := { opened.ime with cat := [(4097, p3)], cached := [(4097, 0, 0)] } }
  { s with key := { s.key with dkc := (lineHandles s 4097 p3 64 0).map fun h => { tag := h, stored := 0#576 } } }

theorem wit_FabWritesAccepted_p3 :
    ∃ s1 m1, memGate opened3 (whoOf opened3 req1) .write 0 noMem = (.ok (4097, p3), s1, m1) ∧ Safety.imeQuiet s1 ∧ s1.lane.flaw = []
      ∧ regionSlot s1 4097 p3 = some 64 ∧ slotAt s1 64 = some dom1 ∧ (fetchPath s1 4097 p3 0 0 m1).1 = true
      ∧ (ctrOf s1 4097 p3 0).parity = decide (curHalf dom1 = 1) ∧ (ctrOf s1 4097 p3 0).ended = false
      ∧ dget 0 (ctrOf s1 4097 p3 0).minors 0 < 127 ∧ renewDue s1 4097 p3 0 = false :=
  ⟨_, _, gated (by decide +kernel), ⟨rfl, rfl, rfl, rfl⟩, rfl, by decide +kernel, rfl, by decide +kernel, by decide +kernel, by decide +kernel,
    by decide +kernel, by decide +kernel⟩

/-- A DEBUG master in the TEST world. -/
def rawReq : FabReq := { req 0x1000#52 with mid := 26#32 }

/-- The served block with debug enabled, every scope, and the region's RAW_WRITE with every right. -/
def rawOpen : State :=
  { open_ with
    ime := { open_.ime with cat := [(4096, { p0 with rawWrite := true })] }
    lcs := { open_.lcs with debug := true, scope := 15 } }

theorem wit_FabWritesAccepted_raw :
    Safety.fabPasses rawOpen rawReq 64 ∧ snapState { p0 with rawWrite := true } = 0
      ∧ ∃ s1 m1, memGate rawOpen (whoOf rawOpen rawReq) .rawWrite 0 noMem = (.ok (4096, { p0 with rawWrite := true }), s1, m1) ∧ Safety.imeQuiet s1 :=
  ⟨⟨rfl, by decide +kernel, (open_port _ (memPort_lt _ rfl _)).1, (open_port _ (memPort_lt _ rfl _)).2, rfl⟩, rfl,
    _, _, gated (by decide +kernel), ⟨rfl, rfl, rfl, rfl⟩⟩

theorem wit_FabricOpsOriginate :
    ∃ s : State, Safety.fabricPasses s (req 0x40#52) ∧ (fld ((lineBytes (storedData ((req 0x40#52).data.headD 0#576))).take 32) 0 1 ≠ 11) :=
  ⟨{ open_ with ile := { open_.ile with routes := [(3, 0x80000002#32)] } },
    ⟨rfl, by decide +kernel, by decide +kernel, by decide +kernel, by decide +kernel, rfl, rfl, rfl⟩, by decide +kernel⟩

/-- One operation on port 0 of the served block, its controller trained. -/
def outstanding (k : MemKind) (ph : MemPhase) : State :=
  let s := setMemPin open_ 0 { trained := true, init := true }
  { s with ime := { s.ime with ents := [{ newEnt s (.fab 5 7#16 1#32) k (whoOf s (req 0x1000#52)) 4096 p0 0 none with port := 0, phase := ph }] } }

theorem wit_MemoryAnswersComplete (k : MemKind) (ph : MemPhase) :
    memTakes (outstanding k ph) 0 = true ∧ (9#32 : Word) ≠ epochOf (outstanding k ph) (domMem 0)
      ∧ ∃ e, (outstanding k ph).ime.ents = [e] ∧ e.port = 0 ∧ e.phase = ph ∧ e.src = .fab 5 7#16 1#32 ∧ e.kind = k ∧ e.fail = 0#8
        ∧ e.answered = false ∧ (outstanding k ph).ile.ingress = [] ∧ (outstanding k ph).ime.dying = [] ∧ heldCredits (outstanding k ph) = 0
        ∧ (outstanding k ph).lane.flaw = [] :=
  ⟨rfl, (by change (9#32 : Word) ≠ 0#32; decide), _, rfl, rfl, rfl, rfl, rfl, rfl, rfl, rfl, rfl, rfl, rfl⟩

theorem wit_MemoryAnswersComplete_region :
    ∀ e ∈ (outstanding .read .readOut).ime.ents ++ (outstanding .partial_ .readOut).ime.ents,
      (entRegion (outstanding .read .readOut) e).verify ≠ 2 ∧ (entRegion (outstanding .partial_ .readOut) e).mode = 0
        ∧ ∀ d, openHandles (outstanding .read .readOut) e.region (entRegion (outstanding .read .readOut) e) d = [] := by
  intro e h
  have hm : (entRegion (outstanding .read .readOut) e).mode = 0 := by
    revert e h; decide +kernel
  refine ⟨?_, ?_, fun d => by simp [openHandles, hm]⟩
  · revert e h; decide +kernel
  · revert e h; decide +kernel

/-- An operation of the P1 region, or of the P3 region, outstanding on port 0; the header of a CWRITE of one line brings its block. -/
def outstanding1 (k : MemKind) (s : State) (ix : Nat) (r : Region) : State :=
  let s := setMemPin s 0 { trained := true, init := true }
  { s with ime := { s.ime with
    ents := [{ newEnt s (.fab 5 7#16 1#32) k (whoOf s req1) ix r 0 none with port := 0, phase := .readOut, n := 1 }]
    blks := [{ id := 1, src := .fab 5 7#16 1#32, who := whoOf s req1, write := true, n := 1, s := 1, region := ix, deadline := none, cls := 0,
               port := 0, got := [], checked := false }] } }

theorem wit_MemoryAnswersComplete_head :
    memTakes (outstanding1 .cwHead opened 4097 p1) 0 = true ∧ (outstanding1 .cwHead opened 4097 p1).ime.ents.length = 1
      ∧ (outstanding1 .cwHead opened 4097 p1).ime.blks.length = 1
      ∧ (∀ e ∈ (outstanding1 .cwHead opened 4097 p1).ime.ents, entRegion (outstanding1 .cwHead opened 4097 p1) e = p1 ∧ e.kind = .cwHead ∧ e.n = 1
          ∧ e.lineIx = 0 ∧ e.answered = false ∧ e.gen = dom1.genCur)
      ∧ p1.mode = 1 ∧ regionSlot (outstanding1 .cwHead opened 4097 p1) 4097 p1 = some 64 ∧ slotAt (outstanding1 .cwHead opened 4097 p1) 64 = some dom1
      ∧ (∀ h ∈ lineHandles (outstanding1 .cwHead opened 4097 p1) 4097 p1 64 (curHalf dom1), (derive (outstanding1 .cwHead opened 4097 p1) h).isSome = true)
      ∧ ∀ h ∈ openHandles (outstanding1 .cwHead opened 4097 p1) 4097 p1 0#576, dkcHas (outstanding1 .cwHead opened 4097 p1) h = true := by
  refine ⟨rfl, rfl, rfl, by decide +kernel, rfl, by decide +kernel, rfl, ?_, by decide +kernel⟩
  intro h hh
  simp only [lineHandles, p1] at hh
  simp at hh
  subst hh
  rfl

theorem wit_MemoryAnswersComplete_tree :
    (∀ e ∈ (outstanding1 .read opened3 4097 p3).ime.ents, entRegion (outstanding1 .read opened3 4097 p3) e = p3 ∧ e.kind = .read ∧ e.fail = 0#8)
      ∧ p3.mode = 3 ∧ p3.verify ≠ 2 ∧ (pathArrived (outstanding1 .read opened3 4097 p3) 4097 p3 0 noMem).1 = true
      ∧ (pathArrived { outstanding1 .read opened3 4097 p3 with ime := { (outstanding1 .read opened3 4097 p3).ime with cached := [] } } 4097 p3 0
          { lines := [{ data := 0#576, poison := true }] }).1 = false := by
  refine ⟨by decide +kernel, rfl, by decide, by decide +kernel, by decide +kernel⟩

theorem wit_MemoryPortHandshakes_trained :
    ∃ s : State, s.pin.pwrok = true ∧ memPresent s 2 = true ∧ (memPin s 2).init = true ∧ (memPin s 2).trained = false ∧ (memPin s 2).srReq = false
      ∧ (memPin s 2).calReq = false := ⟨setMemPin base 2 { init := true }, rfl, rfl, rfl, rfl, rfl, rfl⟩

/-- A calibration request at port 2, its window open or not. -/
def calState (o : Bool) : State :=
  let s := setMemPin base 2 { init := true, trained := true, calReq := true, calGnt := o }
  { s with ime := { s.ime with cals := [{ port := 2, open_ := o, at_ := 0, limit := 0 }] } }

theorem wit_MemoryPortHandshakes_grant :
    (∀ c ∈ (calState false).ime.cals, c.open_ = false) ∧ (calState false).ime.cals.head?.map (·.port) = some 2
      ∧ (∀ e ∈ (calState false).ime.ents, (e.port = 2 → e.phase ≠ .readOut ∧ e.phase ≠ .writeOut) ∧ ∀ x ∈ e.fetches, x.1 ≠ 2) ∧ (calState false).lane.vacant = []
      ∧ (memPin (calState false) 2).trained = true ∧ (memPin (calState false) 2).init = true ∧ (memPin (calState false) 2).srReq = false
      ∧ coreDown (calState false) = false := ⟨by decide, rfl, fun e h => absurd h (by simp [calState, setMemPin, base, up, State.reset, Ime.reset]), rfl, rfl, rfl, rfl, rfl⟩

theorem wit_MemoryPortHandshakes_window :
    (calState true).pin.pwrok = true ∧ (memPin (calState true) 2).calReq = true ∧ (calState true).ime.cals = [{ port := 2, open_ := true, at_ := 0, limit := 0 }] ∧ coreDown (calState true) = false
      ∧ (calState true).flt.queue.length < 256 ∧ (calState true).flt.running = [] ∧ (calState true).flt.history = []
      ∧ epochOf (calState true) 4 ≠ 0xFFFFFFFF#32 := ⟨rfl, rfl, rfl, rfl, by decide, rfl, rfl, by decide⟩

theorem wit_MemoryPortHandshakes_sr :
    ∃ (s : State) (r : Running), runAt s 4 0 .selfRefresh = some r ∧ s.gen.released = true ∧ (memPin s 1).srReq = true ∧ 3 ∈ memPortsOf s ∧ (memPin s 3).srReq = true
      ∧ (memPin s 3).srAck = false :=
  let r : Running := { rung := 4, port := 0, phase := .selfRefresh, cls := 0xFF, start := StartIn.plain }
  ⟨{ setMemPin (setMemPin base 1 { srReq := true }) 3 { srReq := true } with flt := { base.flt with running := [r] } }, r, rfl, rfl, rfl, by decide, rfl, rfl⟩

/-- A region record: 4 KiB of P0 at 2^16, open to all, default SHAPE. -/
def record0 : List Byte := leBytes 8 65536 ++ leBytes 8 4096 ++ leBytes 4 0 ++ leBytes 4 0xFFDFDFC0 ++ zeros 40

/-- The served block with IME_CMD_SHELF at its P0 region, and as a region command of an OP on an entry starts. -/
def regionBase : State := { served with ime := { served.ime with cmdShelf := 32768#32 } }
def regionCmdd (op ix : Nat) : State := { regionBase with ime := { regionBase.ime with cmdOp := op, cmdIndex := ix } }

theorem wit_RegionCommandsComplete :
    ∃ (s1 s2 t1 t2 : State) (m1 m2 n1 n2 : MemIn), Safety.admitted regionBase 0x2008 ∧ regionBase.ime.cmdBusy = false ∧ regionBase.ime.formatted = true ∧ Safety.memIdle regionBase
      ∧ ctlRead (regionCmdd 1 4097) 32768 0 64 (memOf 1 record0) = (.ok record0, s1, m1) ∧ recordForm record0 = true
      ∧ catLook s1 4097 0 m1 = (0#8, s2, m2) ∧ catEnded s2 4097 = false
      ∧ createChecks s2 4097 (entryAt s2 4097) (recordRegion s2 (entryAt s2 4097) record0) = Rc.done
      ∧ ctlRead (regionCmdd 1 4096) 32768 0 64 (memOf 1 record0) = (.ok record0, t1, n1) ∧ catLook t1 4096 0 n1 = (0#8, t2, n2)
      ∧ catEnded t2 4096 = false ∧ createChecks t2 4096 (entryAt t2 4096) (recordRegion t2 (entryAt t2 4096) record0) ≠ Rc.done :=
  ⟨_, _, _, _, _, _, _, _, ⟨rfl, by decide +kernel⟩, rfl, rfl, ⟨rfl, rfl, rfl, rfl⟩, gated (by decide +kernel), by decide +kernel, gated (by decide +kernel),
    by decide +kernel, by decide +kernel, gated (by decide +kernel), gated (by decide +kernel), by decide +kernel, by decide +kernel⟩

theorem wit_RegionCommandsComplete_live :
    ∃ (s1 s2 s3 : State) (m1 m2 m3 : MemIn), ctlRead (regionCmdd 3 4096) 32768 0 64 (memOf 1 record0) = (.ok record0, s1, m1)
      ∧ catLook s1 4096 0 m1 = (0#8, s2, m2) ∧ catEnded s2 4096 = false ∧ regionAt s2 4096 = some p0
      ∧ Safety.imeQuiet regionBase ∧ catLook (regionCmdd 2 4096) 4096 0 (memOf 0 []) = (0#8, s3, m3) ∧ catEnded s3 4096 = false
      ∧ regionAt regionBase 4096 = some p0 ∧ snapState p0 = 0 :=
  ⟨_, _, _, _, _, _, gated (by decide +kernel), gated (by decide +kernel), by decide +kernel, by decide +kernel, ⟨rfl, rfl, rfl, rfl⟩,
    gated (by decide +kernel), by decide +kernel, by decide +kernel, rfl⟩

theorem wit_RegionCommandsComplete_format :
    ∃ s : State, s.ime.formatDue = true ∧ (slotAt s 2).isSome = true ∧ coreDown s = false ∧ ((memPortsOf s).all fun p => (memPin s p).trained) = true
      ∧ s.ime.cmdWait = none ∧ s.flash.formatEpoch ≠ 0xFFFF :=
  ⟨{ setMemPin (setMemPin (setMemPin (setMemPin keyed 0 { trained := true }) 1 { trained := true }) 2 { trained := true }) 3 { trained := true } with
      ime := { keyed.ime with formatDue := true }, key := { keyed.key with slots := [(2, slot0)] } },
    rfl, rfl, rfl, rfl, rfl, by decide⟩

/-- A P3 region of two pages at 128 KiB, index 4098, waiting for a sweep. -/
def p3s : Region := { p1 with mode := 3, compress := false, size := 8192, base := 131072, state := 2, treeOff := 4096, rootIx := 1 }

/-- The opened block with a P1 and a P3 region waiting for sweeps, and a page held. -/
def swept : State :=
  { opened with
    ime := { opened.ime with cat := [(4096, p0), (4097, { p1 with state := 2 }), (4098, p3s)], pageHeld := [(4098, 0)],
                             sweeps := [{ region := 4098, renew := false, ptr := 0, skipped := 0, failed := [], verifying := false }] } }

theorem wit_PagesAndSweeps_page :
    anyRegion swept 4098 = some p3s ∧ swept.ime.pageHeld.contains (4098, 0) = true ∧ coreDown swept = false ∧ pageBusy swept 4098 p3s 0 = false
      ∧ pageStopped swept (p3s.base / 64 + 64 * 0) = false ∧ regionSlot swept 4098 p3s = some 64 ∧ slotAt swept 64 = some dom1
      ∧ (halfKey swept 64 (curHalf dom1)).isSome = true ∧ (fetchPath swept 4098 p3s 0 0 noMem).1 = true ∧ swept.lane.flaw = [] :=
  ⟨by decide +kernel, by decide, rfl, by decide +kernel, by decide +kernel, by decide +kernel, rfl, by decide +kernel, by decide +kernel, rfl⟩

theorem wit_PagesAndSweeps_pageFails :
    ∃ m : MemIn, anyRegion swept 4098 = some p3s ∧ (fetchPath swept 4098 p3s 0 0 m).1 = false :=
  ⟨{ lines := [{ data := 0#576, poison := true }] }, by decide +kernel, by decide +kernel⟩

theorem wit_PagesAndSweeps_counter : (reencrypt swept 4098 p3s 0 64 dom1 0 false noMem).1.isSome = true := by
  have hf : (shelveReads swept (pageReads swept (p3s.base / 64 + 64 * 0)) 0 false).lane.flaw = [] := by decide +kernel
  have hp : ∀ l hs, (passLines (shelveReads swept (pageReads swept (p3s.base / 64 + 64 * 0)) 0 false) l hs).1 = true := fun l hs => by
    obtain ⟨c, d, h⟩ := passLines_clear _ l hs hf
    rw [h]
  unfold reencrypt
  dsimp only
  split
  · rfl
  · split
    · next h => exact absurd (hp _ _) (by simpa using h)
    · rfl

theorem wit_PagesAndSweeps_line :
    ∃ w : Sweep, anyRegion swept 4097 = some { p1 with state := 2 } ∧ sweepOf swept 4097 { p1 with state := 2 } = some w ∧ w.region = 4097
      ∧ w.verifying = false ∧ sweepReady swept w { p1 with state := 2 } = true ∧ regionSlot swept 4097 { p1 with state := 2 } = some 64
      ∧ (memOf 1 []).lines.head? = some { data := 0#576, poison := false } ∧ Safety.memIdle swept
      ∧ storedParity 0#576 = decide (curHalf dom1 = 1) ∧ w.ptr + 1 < p1.size / 64 ∧ (w.ptr + 1) % 4096 ≠ 0 :=
  ⟨{ region := 4097, renew := false, ptr := 0, skipped := 0, failed := [], verifying := false }, by decide +kernel, by decide +kernel, rfl, rfl,
    by decide +kernel, by decide +kernel, by decide +kernel, ⟨rfl, rfl, rfl, rfl⟩, by decide +kernel, by decide, by decide⟩

/-- The swept block where the slot stands one generation on, with the key of generation 0 as its previous. -/
def dom2 : Slot := { dom1 with genCur := 1, prevLive := true, half0 := dom1.half0, half1 := dom1.half0 }

def swept1 : State := { swept with key := { swept.key with slots := [(64, dom2)] } }

theorem wit_PagesAndSweeps_rewrite :
    ∃ (w : Sweep) (v : Slot) (p : Line) (d : Stored), sweepOf swept1 4097 { p1 with state := 2 } = some w ∧ sweepReady swept1 w { p1 with state := 2 } = true
      ∧ slotAt swept1 64 = some v ∧ storedParity 0#576 ≠ decide (curHalf v = 1) ∧ swept1.lane.flaw = [] ∧ catEnded swept1 4097 = false
      ∧ ownOpen swept1 4097 { p1 with state := 2 } 64 (p1.base / 64 + w.ptr) (0, 0) { data := 0#576, poison := false } = .ok p
      ∧ sealLine swept1 4097 { p1 with state := 2 } 64 (curHalf v) (p1.base / 64 + w.ptr) 0 0 p = some d :=
  ⟨{ region := 4097, renew := false, ptr := 0, skipped := 0, failed := [], verifying := false }, dom2,
    okOr (ownOpen swept1 4097 { p1 with state := 2 } 64 (p1.base / 64 + 0) (0, 0) { data := 0#576, poison := false }) 0#512, _, by decide +kernel, by decide +kernel, rfl,
    by decide +kernel, rfl, by decide +kernel, okOr_eq (by decide +kernel), (Option.some_get (by decide +kernel)).symm⟩

theorem wit_PagesAndSweeps_p3 :
    ∃ (w : Sweep) (s1 : State) (m1 : MemIn), anyRegion swept 4098 = some p3s ∧ sweepOf swept 4098 p3s = some w ∧ w.region = 4098 ∧ w.verifying = false
      ∧ w.failed = [] ∧ sweepReady swept w p3s = true ∧ fetchPath swept 4098 p3s (w.ptr / 64) (shelveClass swept) noMem = (true, s1, m1)
      ∧ (ctrOf s1 4098 p3s (w.ptr / 64)).parity = decide (curHalf dom1 = 1) ∧ renewDue s1 4098 p3s (w.ptr / 64) = false
      ∧ anyRegion s1 4098 = some p3s ∧ w.ptr + 64 < p3s.size / 64 ∧ (w.ptr + 64) % 4096 ≠ 0 :=
  ⟨{ region := 4098, renew := false, ptr := 0, skipped := 0, failed := [], verifying := false }, _, _, by decide +kernel, by decide +kernel, rfl, rfl,
    rfl, by decide +kernel, rfl, by decide +kernel, by decide +kernel, by decide +kernel, by decide, by decide⟩

theorem wit_PagesAndSweeps_verify :
    ∃ (s : State) (w : Sweep), anyRegion s 4097 = some { p1 with state := 3 } ∧ sweepOf s 4097 { p1 with state := 3 } = some w ∧ w.verifying = true
      ∧ (verifyRest 4097 { p1 with state := 3 } (p1.size / 64) s w noMem).1 = s ∧ p1.size / 64 ≤ (verifyRest 4097 { p1 with state := 3 } (p1.size / 64) s w noMem).2.ptr
      ∧ catEnded s 4097 = false ∧ s.ile.ingress = [] ∧ heldCredits s = 0 ∧ s.ime.dying = [] ∧ s.ime.ents = [] :=
  ⟨{ swept with ime := { swept.ime with cat := [(4097, { p1 with state := 3 })],
                                        sweeps := [{ region := 4097, renew := false, ptr := 1024, skipped := 0, failed := [], verifying := true }] } }, _,
    by decide +kernel, rfl, rfl, by decide +kernel, by decide +kernel, by decide +kernel, rfl, rfl, rfl, rfl⟩

/-- The keyed block with link port 2 released and its PHY up, in a port state. -/
def linked (p : LPort) : State :=
  setDom (setLport (setLnkPin { keyed with gen := { keyed.gen with glob := leBytes 8 4 ++ leBytes 8 1 } } 2 { en := true, up := true }) 2 p) 8 { inReset := false, epoch := 1#32 }

theorem wit_BringUpSends_hello :
    (linked {}).pin.pwrok = true ∧ lnkPresent (linked { fail := 8 }) 2 = true ∧ (lnkPin (linked { fail := 8 }) 2).en = true ∧ coreDown (linked { fail := 8 }) = false
      ∧ (domAt (linked { fail := 8 }) (domLnk 2)).inReset = false ∧ (linked { fail := 8 }).key.tampered = false
      ∧ (lportAt (linked { fail := 8 }) 2).st = .down ∧ drbgServes (linked { fail := 8 }) = true ∧ (lnkPin (linked { fail := 8 }) 2).up = true
      ∧ (lportAt (linked { fail := 8 }) 2).fail = 8 := ⟨rfl, rfl, rfl, rfl, rfl, rfl, rfl, rfl, rfl, rfl⟩

theorem wit_BringUpSends_times :
    ∃ s : State, (lportAt s 2).fail = 8 ∧ (lportAt s 2).stepAt + 100000000 ≤ s.tm.ns ∧ (lportAt s 2).stepAt + 10000000 ≤ s.tm.ns
      ∧ (lportAt s 2).st = .hello ∧ s.flt.queue.length < 256 :=
  ⟨{ linked { st := .hello, fail := 8 } with tm := { ns := 100000000, aclk := 10000000 } }, rfl, by decide, by decide, rfl, by decide⟩

theorem wit_BringUpSends_down :
    lnkPresent (linked { st := .open_ }) 2 = true ∧ (lportAt (linked { st := .open_ }) 2).st ≠ .failed ∧ (lportAt (linked { st := .hello }) 2).st = .hello
      ∧ (linked { st := .hello }).flt.queue.length < 256 := ⟨rfl, by decide, rfl, by decide⟩

/-- Port 2 of a keyed block with an identity, in HELLO. -/
def helloing (dom : Nat) (offers : List Byte) : State :=
  let s := linked { st := .hello }
  { s with gen := { s.gen with glob := leBytes 8 4 ++ leBytes 8 dom, charter := some (chartered [(9, offers)]) }, key := { s.key with idPub := some 1#768 } }

/-- An offer of version 3 of LINK and version 2 of FABRIC, and a peer's HELLO of domain 1. -/
def offers0 : List Byte := leBytes 4 (1 + 8 * 65536) ++ leBytes 4 (3 + 4 * 65536) ++ zeros 24
def hello0 (i : Nat) : List Byte :=
  leBytes 1 1 ++ leBytes 1 0 ++ leBytes 2 9 ++ leBytes 1 4 ++ leBytes 1 1 ++ zeros 2 ++ leBytes 8 i ++ leBytes 8 1 ++ leBytes 2 8 ++ leBytes 2 4 ++ zeros 36

theorem wit_BringUpMessages_hello :
    rxTakes (helloing 1 offers0) 2 = true ∧ (lportAt (helloing 1 offers0) 2).st = .hello ∧ Safety.helloForm 2 (hello0 5)
      ∧ tget (lportAt (helloing 1 offers0) 2).msgs 1 = none ∧ (helloing 1 offers0).key.idPub = some 1#768 ∧ domainId (helloing 0 offers0) = 0
      ∧ domainId (helloing 2 offers0) ≠ 0 ∧ fld (hello0 5) 0x10 8 ≠ domainId (helloing 2 offers0) ∧ fld (hello0 5) 0x10 8 = domainId (helloing 1 offers0)
      ∧ maskAnd (offerNow (helloing 1 (zeros 32)) (portKind 2)) (fld (hello0 5) 0x18 2) = 0
      ∧ maskAnd (offerNow (helloing 1 offers0) (portKind 2)) (fld (hello0 5) 0x18 2) ≠ 0 ∧ maskAnd (offerNow (helloing 1 offers0) 3) (fld (hello0 5) 0x1A 2) ≠ 0 := by
  refine ⟨rfl, rfl, ⟨rfl, ?_⟩, rfl, rfl, ?_⟩ <;> decide +kernel

theorem wit_BringUpMessages_identity :
    ∃ (s : State) (id : BitVec 384), rxTakes s 2 = true ∧ (lportAt s 2).st = .hello ∧ (tget (lportAt s 2).msgs 1).isSome = true
      ∧ (tget (lportAt s 2).msgs 2).isSome = true ∧ identity s = some id ∧ drbgServes s = true
      ∧ (2#8 :: zeros 111).length = 112 ∧ fld (2#8 :: zeros 111) 0 1 = 2 ∧ zeroBytes (slice (2#8 :: zeros 111) 1 15) = true :=
  let s := linked { st := .hello, msgs := [(0, []), (1, []), (2, [])] }
  ⟨{ s with key := { s.key with slots := [(0, { slot0 with half1 := some { masked := 0#256, keyNo := false, epoch := 0 } })] } }, _,
    rfl, rfl, rfl, rfl, rfl, rfl, rfl, by decide +kernel, by decide +kernel⟩

theorem wit_BringUpMessages_share :
    ∃ (s : State) (own : List Byte), rxTakes s 2 = true ∧ (lportAt s 2).st = .keying ∧ tget (lportAt s 2).msgs 4 = some own
      ∧ (tget (lportAt s 2).msgs 5).isNone = true ∧ (lportAt s 2).rekey = none ∧ (tget (lportAt s 2).msgs 3).isSome = true ∧ (3#8 :: zeros 207).length = 208 ∧ fld (3#8 :: zeros 207) 0 1 = 3
      ∧ zeroBytes (slice (3#8 :: zeros 207) 1 15) = true :=
  ⟨linked { st := .keying, msgs := [(3, []), (4, [])] }, [], rfl, rfl, rfl, rfl, rfl, rfl, rfl, by decide +kernel, by decide +kernel⟩

theorem wit_BringUpMessages_confirm :
    ∃ (s : State) (f : Frame), rxTakes s 2 = true ∧ (lportAt s 2).st = .keying ∧ (lportAt s 2).session ≠ 0 ∧ f.kind = 0#8
      ∧ s.lane.flaw = [] ∧ (lportAt s 2).fabVer ≠ 1 :=
  ⟨linked { st := .keying, session := 1 }, Safety.bringFrame [] |> fun f => { f with kind := 0#8 }, rfl, rfl, by decide, rfl, rfl, by decide⟩

/-- Port 2 open in session 1, with a key in its slot. -/
def openPort (p : LPort) : State :=
  let s := linked { p with st := .open_, session := 1 }
  { s with key := { s.key with slots := [(18, slot0)] }, att := { s.att with listed := true, member := 3 }, ile := { s.ile with routes := [(4, 0x80000005#32)] } }

/-- A frame that a port opens to the plaintext: sealed with the port's own receiving key. -/
def sealedFor (s : State) (b : List Byte) : Frame :=
  match sessKey s 2 false with
  | none => Safety.bringFrame []
  | some k =>
    let c := gcmCrypt k.1 (frameIv k.2 0) b
    let f : Frame := { version := 3#8, kind := 0#8, payloadLen := BitVec.ofNat 16 c.length, session := 1#32, sequence := 0#64, payload := c, tag := 0#128 }
    { f with tag := gcmTag k.1 (frameIv k.2 0) (outerBytes f) c }

theorem opens_sealed (s : State) (b : List Byte) (ht : rxTakes s 2 = true) (ho : portOpen s 2 = true) (hs : (sessUse s 2 false).2 = 1)
    (hr : (lportAt s 2).rxSeq = 0) (hk : (sessKey s 2 false).isSome = true) (hl : b.length % 16 = 0) (h1 : 16 ≤ b.length) (h2 : b.length ≤ 256)
    (hi : innerOk b = true) (hf : s.lane.flaw = []) : Safety.opens s 2 (sealedFor s b) b (fld b 0 1) (slice b 16 (fld b 2 2)) := by
  obtain ⟨k, hk⟩ := Option.isSome_iff_exists.mp hk
  have hm : 256 ≤ payloadMax s := by unfold payloadMax; split <;> decide
  have hlen := length_gcmCrypt k.1 (frameIv k.2 0) b hl
  refine ⟨ht, ho, hf, ?_, ?_, hi, rfl, rfl⟩
  · simp [sealedFor, hk]
  · have hmod : b.length % 65536 = b.length := Nat.mod_eq_of_lt (by omega)
    simp only [openFrame, sealedFor, hk, hlen, hs, hr, BitVec.toNat_ofNat, Nat.reducePow, hmod]
    rw [if_neg (by simp; omega)]
    simp [outerBytes, gcmCrypt_gcmCrypt k.1 (frameIv k.2 0) b hl]

/-- The plaintext of a frame: an inner header and content. -/
def inner (t : Nat) (content : List Byte) : List Byte := innerBytes t 2 content.length 0 ++ content

/-- An operation of 32 bytes with no data. -/
def opOf (op tag dest ttl : Nat) : List Byte :=
  leBytes 1 op ++ leBytes 1 (32 * ttl) ++ leBytes 2 0 ++ leBytes 4 tag ++ leBytes 8 0 ++ leBytes 4 32768 ++ leBytes 4 0 ++ leBytes 4 1 ++ leBytes 2 dest ++ leBytes 2 7

theorem open_opens (p : LPort) (hr : p.rxSeq = 0) (h0 : p.rekey = none) (b : List Byte) (hl : b.length % 16 = 0) (h1 : 16 ≤ b.length)
    (h2 : b.length ≤ 256) (hi : innerOk b = true) :
    Safety.opens (openPort p) 2 (sealedFor (openPort p) b) b (fld b 0 1) (slice b 16 (fld b 2 2)) := by
  have hp : lportAt (openPort p) 2 = { p with st := .open_, session := 1 } := rfl
  refine opens_sealed _ b ?_ ?_ ?_ (by rw [hp]; exact hr) ?_ hl h1 h2 hi rfl
  · simp only [rxTakes, hp]; rfl
  · simp only [portOpen, hp]; rfl
  · simp only [sessUse, hp, h0]; rfl
  · simp only [sessKey, sessUse, hp, h0, Option.isSome_map]; rfl

theorem wit_SealedFramesTaken_data :
    ∃ (s : State) (f g h : Frame) (a b c ca cb cc : List Byte) (oa ob oc : FabOp),
      Safety.opens s 2 f a 0 ca ∧ readOps (ca.length / 32 + 1) ca = [(oa, true)] ∧ s.ile.ingress.length < 1536 ∧ freedCredits (lportAt s 2) < 15
      ∧ some oa.dest ≠ ownMember s ∧ oa.ttl ≠ 0 ∧ routeValid (routeOf s oa.dest) = true ∧ routeEgress (routeOf s oa.dest) < 20
      ∧ lnkPresent s (routeEgress (routeOf s oa.dest)) = true ∧ needsFadd oa.op oa.data = false
      ∧ Safety.opens s 2 g b 0 cb ∧ readOps (cb.length / 32 + 1) cb = [(ob, true)] ∧ some ob.dest = ownMember s ∧ 0x10 ≤ ob.op ∧ origOf s ob.tag = none
      ∧ Safety.opens s 2 h c 0 cc ∧ readOps (cc.length / 32 + 1) cc = [(oc, true)] ∧ some oc.dest = ownMember s ∧ oc.op = 5 ∧ oc.last = false
      ∧ lenOk s oc = true ∧ nackedAhead s (fld c 1 1) oc = false :=
  ⟨openPort {}, _, _, _, inner 0 (opOf 1 0 4 7), inner 0 (opOf 0x11 5 3 7), inner 0 (opOf 5 0 3 7), _, _, _, (readOp (opOf 1 0 4 7)).1,
    (readOp (opOf 0x11 5 3 7)).1, (readOp (opOf 5 0 3 7)).1,
    open_opens {} rfl rfl _ (by decide +kernel) (by decide +kernel) (by decide +kernel) (by decide +kernel), by decide +kernel, by decide, by decide,
    by decide +kernel, by decide +kernel, by decide +kernel, by decide +kernel, by decide +kernel, by decide +kernel,
    open_opens {} rfl rfl _ (by decide +kernel) (by decide +kernel) (by decide +kernel) (by decide +kernel), by decide +kernel, by decide +kernel,
    by decide +kernel, by decide +kernel,
    open_opens {} rfl rfl _ (by decide +kernel) (by decide +kernel) (by decide +kernel) (by decide +kernel), by decide +kernel, by decide +kernel,
    by decide +kernel, by decide +kernel, by decide +kernel, by decide +kernel⟩

theorem wit_SealedFramesTaken_load :
    ∃ (s : State) (f : Frame) (a : List Byte), Safety.opens s 2 f a 0 (opOf 1 0 3 7) ∧ s.ile.nacked = [] ∧ Safety.memIdle s ∧ s.ile.resident = []
      ∧ s.ime.catCache.contains 4096 = true ∧ 8 ≤ classShare s 1024
      ∧ readOps ((opOf 1 0 3 7).length / 32 + 1) (opOf 1 0 3 7) = [((readOp (opOf 1 0 3 7)).1, true)]
      ∧ memChecks s { engWho 5 0 none none 32768 0 with agent := 7, tag := 0 } .read = .ok (4096, p0) ∧ p0.mode = 0 :=
  let s := { openPort {} with
    gen := { base.gen with glob := leBytes 8 4 ++ leBytes 8 1, charter := some (chartered [(3, tablesBody)]) }
    ime := { base.ime with formatted := true, cat := [(4096, p0)], catCache := [4096] } }
  ⟨s, sealedFor s (inner 0 (opOf 1 0 3 7)), _,
    opens_sealed s _ rfl rfl rfl rfl rfl (by decide +kernel) (by decide +kernel) (by decide +kernel) (by decide +kernel) rfl, rfl, ⟨rfl, rfl, rfl, rfl⟩, rfl,
    by decide, by decide +kernel,
    by decide +kernel, by decide +kernel, rfl⟩

theorem wit_SealedFramesTaken_nak :
    ∃ (s : State) (f g : Frame) (a : List Byte) (n : Nat), Safety.opens s 2 f a 2 (leBytes 8 n) ∧ (leBytes 8 n).length = 8 ∧ leNat (leBytes 8 n) = n
      ∧ (n, g) ∈ (lportAt s 2).replay ∧ g.session.toNat = (sessUse s 2 true).2 ∧ (lportAt s 2).nakCount < 3 :=
  ⟨openPort { replay := [(6, { Safety.bringFrame [] with session := 1#32 })] }, _, { Safety.bringFrame [] with session := 1#32 }, inner 2 (leBytes 8 6) ++ zeros 8, 6,
    open_opens _ rfl rfl _ (by decide +kernel) (by decide +kernel) (by decide +kernel) (by decide +kernel), by decide +kernel, by decide +kernel,
    List.mem_singleton.mpr rfl, by decide +kernel, by decide⟩

/-- A rekey under way at port 2 of the open block. -/
def rekeying (r : Rekey) : State :=
  let s := linked { st := .rekeying, session := 1, rekey := some r }
  { s with key := { s.key with slots := [(18, { slot0 with staged := some ownMasks, half1 := some { masked := 1#256, keyNo := false, epoch := 0 } })] } }

def rk0 : Rekey := { priv := some 0#384, pub := 0#768, peer := none, hash := 0#384, txDone := false, rxDone := false }

theorem wit_SealedFramesTaken_rekey :
    ∃ (s : State) (f : Frame) (a : List Byte) (v : Slot), Safety.opens s 2 f a 4 (zeros 96) ∧ (lportAt s 2).rekey = some rk0 ∧ slotAt s (sessSlot 2) = some v
      ∧ s.ile.cals = [] :=
  ⟨rekeying rk0, _, inner 4 (zeros 96), _,
    opens_sealed _ _ rfl rfl rfl rfl rfl (by decide +kernel) (by decide +kernel) (by decide +kernel) (by decide +kernel) rfl, rfl, rfl, rfl⟩

theorem wit_SealedFramesTaken_done :
    ∃ (s : State) (f : Frame) (a : List Byte) (r : Rekey) (v : Slot), Safety.opens s 2 f a 5 [] ∧ (lportAt s 2).rekey = some r ∧ r.peer.isSome = true
      ∧ r.txDone = true ∧ r.rxDone = false ∧ slotAt s (sessSlot 2) = some v :=
  ⟨rekeying { rk0 with peer := some 0#768, txDone := true }, _, inner 5 [], _, _,
    opens_sealed _ _ rfl rfl rfl rfl rfl (by decide +kernel) (by decide +kernel) (by decide +kernel) (by decide +kernel) rfl, rfl, rfl, rfl, rfl, rfl⟩

/-- Port 2 open and out of reset, at a sequence. -/
def seqPort (n : Nat) (r : Option Rekey) : State :=
  { linked { st := .open_, session := 1, txSeq := n, rekey := r, freed := [(2, 1)] } with
    key := { keyed.key with slots := [(18, slot0)] }, ile := { (linked { st := .open_, session := 1, txSeq := n, rekey := r, freed := [(2, 1)] }).ile with cals := [] } }

theorem wit_RekeysAndSequences_start :
    (lportAt (seqPort (2 ^ 40) none) 2).st = .open_ ∧ (lportAt (seqPort (2 ^ 40) none) 2).rekey = none ∧ coreDown (seqPort (2 ^ 40) none) = false
      ∧ (lportAt (seqPort (2 ^ 40) none) 2).session ≠ 0xFFFFFFFF ∧ drbgServes (seqPort (2 ^ 40) none) = true
      ∧ 2 ^ (lportAt (seqPort (2 ^ 40) none) 2).thresh ≤ max (lportAt (seqPort (2 ^ 40) none) 2).txSeq (lportAt (seqPort (2 ^ 40) none) 2).rxSeq
      ∧ Safety.admitted (seqPort (2 ^ 40) none) (0x440C + 0x40 * 2) ∧ lnkPresent (seqPort (2 ^ 40) none) 2 = true :=
  ⟨rfl, rfl, rfl, by decide, rfl, by decide, ⟨rfl, by decide⟩, rfl⟩

theorem wit_RekeysAndSequences_limits :
    portOpen (seqPort (2 ^ 42) (some rk0)) 2 = true ∧ (lportAt (seqPort (2 ^ 42) (some rk0)) 2).overdue = false
      ∧ 3 * 2 ^ (lportAt (seqPort (2 ^ 42) (some rk0)) 2).thresh / 2 ≤ max (lportAt (seqPort (2 ^ 42) (some rk0)) 2).txSeq (lportAt (seqPort (2 ^ 42) (some rk0)) 2).rxSeq
      ∧ (seqPort (2 ^ 42) (some rk0)).flt.queue.length < 256
      ∧ 2 ^ ((lportAt (seqPort (2 ^ 42) (some rk0)) 2).thresh + 1) + 16 ≤ max (lportAt (seqPort (2 ^ 42) (some rk0)) 2).txSeq (lportAt (seqPort (2 ^ 42) (some rk0)) 2).rxSeq
      ∧ (lportAt (seqPort (2 ^ 42) (some rk0)) 2).rekey = some rk0 ∧ (seqPort (2 ^ 42) (some rk0)).flt.running = []
      ∧ (seqPort (2 ^ 42) (some rk0)).flt.history = [] ∧ coreDown (seqPort (2 ^ 42) (some rk0)) = false ∧ epochOf (seqPort (2 ^ 42) (some rk0)) (2 + qpOfLnk 2) ≠ 0xFFFFFFFF#32 :=
  ⟨rfl, rfl, by decide, by decide, by decide, rfl, rfl, rfl, rfl, by decide⟩

/-- A block 200 ms after its start. -/
def later (s : State) : State := { s with tm := { ns := 200000000, aclk := 20000000 } }

theorem wit_RekeysAndSequences_timeout :
    (lportAt (later (seqPort 0 (some rk0))) 2).rekey = some rk0 ∧ rk0.since + 100000000 ≤ (later (seqPort 0 (some rk0))).tm.ns
      ∧ (later (seqPort 0 (some rk0))).flt.queue.length < 256 := ⟨rfl, by decide, by decide⟩

theorem wit_RekeysAndSequences_idle :
    linkIssues (seqPort 0 none) 2 = true ∧ (lportAt (seqPort 0 none) 2).freed.any (fun x => x.2 != 0) = true ∧ (sessKey (seqPort 0 none) 2 true).isSome = true :=
  ⟨by decide +kernel, rfl, rfl⟩

theorem wit_RekeysAndSequences_cadence :
    ∃ s : State, linkIssues s 2 = true ∧ vcPaced s 2 3 = true ∧ (∀ x ∈ (lportAt s 2).txq, x.vc ≠ 3) ∧ (sessKey s 2 true).isSome = true :=
  ⟨{ linked { st := .open_, session := 1, shape := some { mode := 0x80#64, cad := 0x05000000#64 } } with key := { keyed.key with slots := [(18, slot0)] } },
    by decide +kernel, by decide +kernel, by simp [linked, lportAt, setLport, setDom, setLnkPin, dget, dput, tput, tget, base, keyed, up, State.reset, Ile.reset], rfl⟩

/-- A calibration window of port 2. -/
def lnkCal (o : Bool) (p : LPort) : State :=
  let s := setLnkPin (linked p) 2 { en := true, up := true, calReq := true, calGnt := o }
  { s with ile := { s.ile with cals := [{ port := 2, open_ := o, at_ := 0, limit := 0 }] } }

theorem wit_LinkWindowsRoutesResends_windows :
    lnkPresent (linked {}) 2 = true ∧ (lnkPin (linked {}) 2).calReq = false ∧ ((lnkCal false { st := .open_ }).ile.cals.filter (·.open_)).length < 4
      ∧ ((lnkCal false { st := .open_ }).ile.cals.find? fun c => !c.open_).map (·.port) = some 2 ∧ portOpen (lnkCal false { st := .open_ }) 2 = true
      ∧ coreDown (lnkCal false { st := .open_ }) = false ∧ linkQuiet (lnkCal false { st := .open_ }) 2 = true ∧ (lnkPin (lnkCal true { st := .retrain }) 2).calReq = true
      ∧ (lportAt (lnkCal true { st := .retrain }) 2).st = .retrain ∧ (lportAt (lnkCal true { st := .retrain }) 2).resume ≠ .retrain
      ∧ ((lnkCal true { st := .retrain }).ile.cals.any fun c => c.port == 2 && c.open_ && decide (c.at_ + c.limit ≤ (lnkCal true { st := .retrain }).tm.ns)) = true ∧ (lnkCal true { st := .retrain }).flt.queue.length < 256 :=
  ⟨rfl, rfl, by decide, rfl, rfl, rfl, rfl, rfl, rfl, by decide, by decide, by decide⟩

theorem wit_LinkWindowsRoutesResends_route : Safety.admitted base 0x4014 := ⟨rfl, by decide⟩

/-- An entry of the origination table for a LOAD of FABPORT. -/
def orig0 (r : Bool) : Orig :=
  { src := .fab 5 7#16 1#32 0#32, op := (readOp (opOf 1 17 4 7)).1, egress := 2, vc := 2, who := ownWho 0, deadline := none, accepted := 0, posted := false,
    held := false, nacks := 0, resend := r, msg := none, seq := 0, pad := 0 }

theorem wit_LinkWindowsRoutesResends_orig :
    ∃ s : State, coreDown s = false ∧ s.ile.orig = [(17 % 4096, orig0 true)] ∧ (orig0 true).op.tag = 17 ∧ (orig0 true).op.op = 1 ∧ (orig0 true).resend = true
      ∧ (orig0 true).op.dest = 4 ∧ s.ile.heldOut = [] ∧ s.ile.sendq = []
      ∧ (orig0 true).op.flagged = false ∧ (orig0 true).accepted + deadNs s ≤ s.tm.ns :=
  ⟨{ openPort {} with tm := { (openPort {}).tm with ns := 2 ^ 40 }, ile := { (openPort {}).ile with orig := [(17, orig0 true)] } }, rfl, rfl, by decide +kernel, by decide +kernel, rfl, by decide +kernel, rfl, rfl, by decide +kernel, by decide +kernel⟩

/-- The served block with port 0 in service and one operation queued there. -/
def queued (ph : MemPhase) : State :=
  let s := setDom (outstanding .read ph) 2 { inReset := false, epoch := 1#32 }
  s

theorem wit_PortsServe_mem :
    portPresent (queued .ready) 0 = true ∧ memIssues (queued .ready) 0 = true ∧ dget 0 (queued .ready).qos.carry 0 < groupLanes (queued .ready) 0
      ∧ (queued .ready).ile.orig = []
      ∧ ∃ e, (queued .ready).ime.ents = [e] ∧ e.port = 0 ∧ e.phase = .ready ∧ e.fetches = [] ∧ (entRegion (queued .ready) e).mode ≠ 3 :=
  ⟨rfl, by decide +kernel, by decide +kernel, rfl, _, rfl, rfl, rfl, rfl, by decide +kernel⟩

theorem wit_PortsServe_tree :
    ∃ e, (outstanding1 .read opened3 4097 p3).ime.ents = [e] ∧ e.port = 0 ∧ e.fetches = [] ∧ isRaw e.kind = false
      ∧ (entRegion (outstanding1 .read opened3 4097 p3) e).mode = 3 :=
  ⟨_, rfl, rfl, rfl, rfl, by decide +kernel⟩

/-- Port 2 with one operation in VC 2 and the round robin there. -/
def framing : State :=
  let x : TxOp := { vc := 2, op := (readOp (opOf 1 17 4 7)).1, shape := 0, deadline := none, entered := 0, aged := false, orig := none, pad := 0, seq := 0 }
  let s := linked { st := .open_, session := 1, txq := [x], deficit := [(8, 2)] }
  { s with key := { keyed.key with slots := [(18, slot0)] }, lane := { s.lane with l := (List.range 24).map fun q => (q + 1, ({ st := .bound q } : Lane)) } }

theorem wit_PortsServe_link :
    ∃ x, (lportAt framing 2).txq = [x] ∧ x.vc = 2 ∧ lnkPresent framing 2 = true ∧ linkIssues framing 2 = true ∧ dget 0 (lportAt framing 2).used 2 < 64
      ∧ vcPaced framing 2 2 = false ∧ drrAt (lportAt framing 2) = (2, false) ∧ (sessKey framing 2 true).isSome = true
      ∧ 32 + txPayload framing 2 x ≤ dget 0 (lportAt framing 2).deficit 2 + vcWeight framing 2 2 * 64
      ∧ dget 0 framing.qos.carry (qpOfLnk 2) < groupLanes framing (qpOfLnk 2) ∧ framing.lane.flaw = [] ∧ framing.ile.orig = [] :=
  ⟨_, rfl, rfl, rfl, by decide +kernel, by decide +kernel, by decide +kernel, by decide +kernel, rfl, by decide +kernel, by decide +kernel, rfl, rfl⟩

theorem wit_PortsServe_aged : ∃ x, (lportAt framing (6 - 4)).txq[0]? = some x ∧ x.entered + x.age ≤ framing.tm.ns := ⟨_, rfl, by decide +kernel⟩

theorem wit_PortsServe_line :
    ∃ (s : State) (v : Resident), residentAt s 64 = some v ∧ v.dirty = true ∧ anyRegion s v.region = some p0 ∧ p0.mode = 0 ∧ Safety.memIdle s :=
  ⟨{ served with ile := { served.ile with resident := [{ line := 64, data := 1#512, region := 4096, dirty := true }] } }, _, rfl, rfl, by decide +kernel, rfl,
    ⟨rfl, rfl, rfl, rfl⟩⟩

/-- A barrier descriptor of group 9, epoch 0, collective 1, for `size` members, this one of rank 0: its table at 0x200, its key tenant 1's volume 2. -/
def barrier (size : Nat) : List Byte :=
  leBytes 8 0x101 ++ leBytes 4 9 ++ leBytes 4 0 ++ leBytes 4 1 ++ leBytes 2 size ++ leBytes 2 0 ++ zeros 8 ++ zeros 8 ++ zeros 24 ++ leBytes 8 0x200
    ++ leBytes 4 32768 ++ leBytes 4 32768 ++ leBytes 4 32768 ++ leBytes 4 (32768 + 8192) ++ leBytes 4 0x3F800000 ++ leBytes 2 0 ++ leBytes 1 12 ++ leBytes 1 0
    ++ zeros 48

def launch0 : Launch := { flight := 5, world := 0, slice := 0, context := 0, addr := 0, shelf := 32768, deadline := none, entered := 0 }

def flight0 : Flight :=
  { sq := 0, slice := 0, ctx := 0, world := 0, record := [], sqHead := 0, deadline := none, stage := .dispatched, result := 0, reason := 0#8, detail := [],
    refs := [], target := none, engaged := true, entered := 0 }

/-- The opened block as member 3, slice 0 of tenant 1, with the descriptor's command in flight and a route to member 4. -/
def launched (l : List Launch) : State :=
  let secs := [(3, tablesBody), (4, leBytes 2 1 ++ zeros 14 ++ leBytes 8 (2 ^ 20 + 5))]
  { opened with
    gen := { opened.gen with charter := some (chartered secs) }
    att := { opened.att with listed := true, member := 3 }
    ile := { opened.ile with routes := [(4, 0x80000002#32)] }
    sre := { opened.sre with launch := l }
    hob := { opened.hob with flight := [(5, flight0)] } }

/-- The state after the group table has taken group 9 at epoch 0, collective 1. -/
def grouped : State := { launched [] with sre := { (launched []).sre with groups := [(0, { group := 9, epoch := 0, last := 1 })] } }

/-- The read of a descriptor, and with its group taken that of its table. -/
def descRead (b : List Byte) (tb : List Nat) : Except Code (List Byte) × State × MemIn :=
  readBytes (launched []) (engWho 3 0 (some 0) (some 0) 32768 0) (flightCls (launched []) 5) 144 (memOf 4 (b ++ zeros 48 ++ packWords 2 tb))
def descGroup (b : List Byte) (tb : List Nat) : State := okOr (groupCheck (descRead b tb).2.1 b) (launched [])
def tableRead (b : List Byte) (tb : List Nat) : Except Code (List Byte) × State × MemIn :=
  readBytes (descGroup b tb) (engWho 3 0 (some 0) (some 0) (cdGroupShelf b) (cdTable b)) (cdClass b) (2 * cdSize b) (descRead b tb).2.2

set_option synthInstance.maxSize 1000 in
theorem wit_CollectivesOpenAndEnd_open (n : Nat) (tb : List Nat) (hn : (n, tb) = (1, [3]) ∨ (n, tb) = (2, [3, 4])) :
    ∃ (s1 s2 s3 : State) (m1 m2 : MemIn), descRead (barrier n) tb = (.ok (barrier n), s1, m1) ∧ (launched [launch0]).sre.launch = [launch0]
      ∧ coreDown (launched [launch0]) = false ∧ tget s1.hob.flight 5 = some flight0 ∧ cdCheck (forerunner s1) (barrier n) = 0#8
      ∧ cdBarrier (barrier n) = true ∧ cdSize (barrier n) = n ∧ cdRank (barrier n) = 0 ∧ cdMasked (barrier n) = false ∧ groupCheck s1 (barrier n) = .ok s2
      ∧ collKeys s2 launch0 (barrier n) = .ok (64, 0, 0, [])
      ∧ readBytes s2 (engWho 3 0 (some 0) (some 0) (cdGroupShelf (barrier n)) (cdTable (barrier n))) (cdClass (barrier n)) (2 * cdSize (barrier n)) m1
        = (.ok (packWords 2 tb), s3, m2)
      ∧ groupMembers s3 (barrier n) (packWords 2 tb) = some tb ∧ liveHalf s3 64 0 = some 0 ∧ slotAt s3 64 = some dom1 ∧ k6 dom1 0 2 = true
      ∧ (halfKey s3 64 0).isSome = true ∧ (launched []).lane.flaw = [] ∧ (n = 2 → sendCode s3 4 (cdShape (barrier n)) 96 = 0#8) := by
  refine ⟨(descRead (barrier n) tb).2.1, descGroup (barrier n) tb, (tableRead (barrier n) tb).2.1, (descRead (barrier n) tb).2.2,
    (tableRead (barrier n) tb).2.2, ?_⟩
  rcases hn with h | h <;> (cases h)
  all_goals
    refine ⟨gated (by decide +kernel), rfl, rfl, by decide +kernel, by decide +kernel, by decide +kernel, by decide +kernel, by decide +kernel,
      by decide +kernel, okOr_eq (by decide +kernel), by decide +kernel, gated (by decide +kernel), by decide +kernel, by decide +kernel, by decide +kernel,
      by decide +kernel, by decide +kernel, rfl, ?_⟩
  · exact fun h => absurd h (by decide)
  · exact fun _ => by decide +kernel

theorem wit_CollectivesOpenAndEnd_bad :
    ∃ (s1 : State) (m1 : MemIn), descRead (zeros 144) [] = (.ok (zeros 144), s1, m1) ∧ cdCheck (forerunner s1) (zeros 144) ≠ 0#8
      ∧ tget s1.hob.flight 5 = some flight0 :=
  ⟨_, _, gated (by decide +kernel), by decide +kernel, by decide +kernel⟩

/-- A context of the barrier of two, with one message whose SEND found a dead target. -/
def coll0 : Coll :=
  { flight := 5, world := 0, slice := 0, context := 0, deadline := none, desc := barrier 2, members := [3, 4], digests := zeros 32, slot := 64, half := 0,
    gen := 0, seed := 0#256, started := 0, timeoutMs := 0, window := 1, own := [], present := [], acc := [], ins := [{ rank := 1 }], outs := [{ rank := 1 }],
    unacked := [{ id := 0, rank := 1, chunk := false, bytes := zeros 96, due := some 0 }], nextMsg := 1, owedIn := 1, owedOut := 1, nonfinite := 0, overflow := 0 }

/-- That context open in the block. -/
def opened2 : State := { grouped with sre := { grouped.sre with colls := [(0, coll0)] } }

theorem wit_PortsServe_checks :
    portPresent opened2 0 = true ∧ opened2.pin.pwrok = true ∧ coreDown opened2 = false ∧ tget opened2.sre.colls 0 = some coll0 ∧ topRung opened2 = 0
      ∧ climbTo opened2 0 4 3 = 3
      ∧ opened2.lane.flaw = [] ∧ opened2.ile.orig = [] := ⟨rfl, rfl, by decide +kernel, rfl, rfl, by decide +kernel, rfl, rfl⟩

theorem wit_PortsServe_flaw :
    ∃ s : State, tget s.sre.colls 0 = some coll0 ∧ s.sre.flaw = some (false, true) ∧ s.lane.flaw = [] ∧ s.ile.orig = [] :=
  ⟨{ opened2 with sre := { opened2.sre with flaw := some (false, true) } }, rfl, rfl, rfl, rfl⟩

theorem wit_CollectivesOpenAndEnd_timeout :
    opened2.sre.colls = [(0, coll0)] ∧ tget opened2.hob.flight coll0.flight = some flight0 ∧ coll0.started + 1000000 * coll0.timeoutMs ≤ opened2.tm.ns
      ∧ (∃ u, coll0.unacked = [u] ∧ u.due = some 0
      ∧ segCount opened2 (sreSendOf coll0 (.sre coll0.gkey (cdColl coll0.desc) u.id) u.rank u.bytes) ≤ 4096) ∧ opened2.ile.orig = [] ∧ opened2.ile.sendq = [] :=
  ⟨rfl, rfl, by decide +kernel, ⟨_, rfl, rfl, by decide +kernel⟩, rfl, rfl⟩

theorem wit_CollectivesOpenAndEnd_expire :
    ∃ (s : State) (e u : EabMsg), s.sre.eab[0]? = some e ∧ e.until_ < s.tm.ns ∧ s.sre.eab[1]? = some u ∧ s.tm.ns ≤ u.until_ :=
  ⟨{ opened2 with tm := { opened2.tm with ns := 7 },
                  sre := { opened2.sre with eab := [{ src := 4, until_ := 6, bytes := zeros 96 }, { src := 4, until_ := 7, bytes := zeros 96 }] } },
    _, _, rfl, by decide, rfl, by decide⟩

theorem wit_CollectivesOpenAndEnd_retire :
    Safety.admitted grouped 0x5010 ∧ groupEnt grouped (9#32).toNat = some (0, { group := 9, epoch := 0, last := 1 }) ∧ grouped.sre.colls = []
      ∧ (∃ x ∈ opened2.sre.colls, cdGroup x.2.desc = (9#32).toNat) ∧ groupEnt (launched []) (9#32).toNat = none ∧ (launched []).sre.colls = [] :=
  ⟨⟨rfl, by decide +kernel⟩, rfl, rfl, ⟨_, List.mem_cons_self, by decide +kernel⟩, rfl, rfl⟩

/-- An EXPORT descriptor of tenant 1 under serial 1 of member 3: from 0x1000 to 0x4000, segments of 4 KiB. -/
def exportDesc (len : Nat) : List Byte :=
  leBytes 1 1 ++ leBytes 1 1 ++ leBytes 1 0 ++ leBytes 1 12 ++ zeros 4 ++ leBytes 4 (32768 + 4 * 4096) ++ leBytes 4 32768 ++ leBytes 4 32768 ++ zeros 4
    ++ leBytes 8 0x1000 ++ leBytes 8 len ++ leBytes 8 0x4000 ++ leBytes 8 0x4000 ++ leBytes 8 (3 * 2 ^ 48 + 1) ++ zeros 16

def job0 : Job := newJob State.reset 0 (some 5) none 0 0 0 0 0 32768 [] none

/-- The launched block with a COMMON lane, the region releasable without approval, and a job. -/
def bulk (j : Job) : State :=
  let s := launched []
  { s with
    lane := { s.lane with l := [(0, { st := .common })] }
    ime := { s.ime with cat := [(4096, { p0 with release := 0x4000 })] }
    bce := { s.bce with jobs := [j] } }

theorem wit_BulkJobsRun_refused :
    ∃ (c : Code) (pos : Nat) (k : Job) (s1 : State) (m1 : MemIn), bceRuns (bulk job0) = true ∧ (bulk job0).bce.jobs = [job0] ∧ job0.op ≠ 16
      ∧ job0.opened = false ∧ job0.engine = none ∧ job0.flight = some 5 ∧ tget s1.hob.flight 5 = some flight0 ∧ k.flight = some 5
      ∧ openJob (bulk job0) { job0 with engine := some 0 } true (memOf 2 (zeros 80)) = (.error (c, pos, k), s1, m1) := by
  have h : (match openJob (bulk job0) { job0 with engine := some 0 } true (memOf 2 (zeros 80)) with
    | (.error (_, _, k), s1, _) => decide (tget s1.hob.flight 5 = some flight0 ∧ k.flight = some 5) | _ => false) = true := by decide +kernel
  rcases hx : openJob (bulk job0) { job0 with engine := some 0 } true (memOf 2 (zeros 80)) with ⟨⟨c, pos, k⟩ | k, s1, m1⟩
  · rw [hx] at h
    have g := of_decide_eq_true h
    exact ⟨c, pos, k, s1, m1, by decide +kernel, rfl, by decide, rfl, rfl, rfl, g.1, g.2, rfl⟩
  · rw [hx] at h; exact absurd h (by simp)

theorem wit_BulkJobsRun_opened :
    ∃ (k : Job) (s1 : State) (m1 : MemIn), openJob (bulk job0) { job0 with engine := some 0 } true (memOf 3 (exportDesc 8192)) = (.ok k, s1, m1)
      ∧ tget s1.hob.flight 5 = some flight0 ∧ k.fail = 0#8 ∧ m1.lines = [] ∧ k.op ≠ 5 ∧ k.seg < k.segs ∧ k.off < (segIn k).bytes := by
  have h : (match openJob (bulk job0) { job0 with engine := some 0 } true (memOf 3 (exportDesc 8192)) with
    | (.ok k, s1, m1) => decide (tget s1.hob.flight 5 = some flight0 ∧ k.fail = 0#8 ∧ m1.lines.isEmpty = true ∧ k.op ≠ 5 ∧ k.seg < k.segs
        ∧ k.off < (segIn k).bytes)
    | _ => false) = true := by decide +kernel
  rcases hx : openJob (bulk job0) { job0 with engine := some 0 } true (memOf 3 (exportDesc 8192)) with ⟨c | k, s1, m1⟩
  · rw [hx] at h; exact absurd h (by simp)
  · rw [hx] at h
    have g := of_decide_eq_true h
    exact ⟨k, s1, m1, rfl, g.1, g.2.1, List.isEmpty_iff.mp g.2.2.1, g.2.2.2.1, g.2.2.2.2.1, g.2.2.2.2.2⟩

/-- That export open on engine `e`, at a segment. -/
def job1 (op seg : Nat) (e : Option Nat) (plain : List Byte) : Job :=
  { job0 with op := op, desc := exportDesc 8192, opened := true, engine := e, slot := 64, segs := 2, seg := seg, serial := 3 * 2 ^ 48 + 1, outHeader := zeros 64,
              plain := plain }

theorem wit_BulkJobsRun_resume :
    bceRuns (bulk (job1 1 0 none [])) = true ∧ (job1 1 0 none []).opened = true ∧ (job1 1 0 none []).seg < (job1 1 0 none []).segs
      ∧ (job1 1 0 none []).off < (segIn (job1 1 0 none [])).bytes ∧ (job1 1 0 none []).fail = 0#8
      ∧ tget (bulk (job1 1 0 none [])).hob.flight 5 = some flight0 ∧ (job1 1 2 (some 0) []).segs ≤ (job1 1 2 (some 0) []).seg
      ∧ (job1 1 2 (some 0) []).op = 1 ∧ (job1 4 2 (some 0) []).op = 4 :=
  ⟨by decide +kernel, rfl, by decide, by decide +kernel, rfl, rfl, by decide, rfl, rfl⟩

/-- The block as engine 0 takes its turn. -/
def turned (j : Job) : State := { bulk j with lane := { (bulk j).lane with turn := (0 + 1) % 4 } }

theorem wit_BulkJobsRun_piece :
    ∃ (k : Job) (s1 : State) (m1 : MemIn), (job1 1 0 (some 0) []).off < (segIn (job1 1 0 (some 0) [])).bytes
      ∧ readPiece (turned (job1 1 0 (some 0) [])) (job1 1 0 (some 0) []) (memOf 1 []) = (.ok k, s1, m1)
      ∧ k.fail = 0#8 ∧ k.op ≠ 5 ∧ k.seg < k.segs ∧ k.off < (segIn k).bytes ∧ m1.lines = [] := by
  have h : (match readPiece (turned (job1 1 0 (some 0) [])) (job1 1 0 (some 0) []) (memOf 1 []) with
    | (.ok k, _, m1) => decide (k.fail = 0#8 ∧ k.op ≠ 5 ∧ k.seg < k.segs ∧ k.off < (segIn k).bytes ∧ m1.lines.isEmpty = true) | _ => false) = true := by
    decide +kernel
  rcases hx : readPiece (turned (job1 1 0 (some 0) [])) (job1 1 0 (some 0) []) (memOf 1 []) with ⟨c | k, s1, m1⟩
  · rw [hx] at h; exact absurd h (by simp)
  · rw [hx] at h
    have g := of_decide_eq_true h
    exact ⟨k, s1, m1, by decide +kernel, rfl, g.1, g.2.1, g.2.2.1, g.2.2.2.1, List.isEmpty_iff.mp g.2.2.2.2⟩

/-- That export with its first segment read. -/
def job2 (slot : Nat) : Job := { job1 1 0 (some 0) [] with off := 4096, slot := slot }

theorem wit_BulkJobsRun_segment :
    ∃ (k : Job) (s1 : State) (m1 : MemIn), (segIn (job2 64)).bytes ≤ (job2 64).off ∧ segEnd (turned (job2 64)) (job2 64) (memOf 1 []) = (.ok k, s1, m1)
      ∧ k.fail = 0#8 ∧ k.op ≠ 5 ∧ k.seg < k.segs ∧ k.off < (segIn k).bytes ∧ m1.lines = [] := by
  have h : (match segEnd (turned (job2 64)) (job2 64) (memOf 1 []) with
    | (.ok k, _, m1) => decide (k.fail = 0#8 ∧ k.op ≠ 5 ∧ k.seg < k.segs ∧ k.off < (segIn k).bytes ∧ m1.lines.isEmpty = true) | _ => false) = true := by
    decide +kernel
  rcases hx : segEnd (turned (job2 64)) (job2 64) (memOf 1 []) with ⟨c | k, s1, m1⟩
  · rw [hx] at h; exact absurd h (by simp)
  · rw [hx] at h
    have g := of_decide_eq_true h
    exact ⟨k, s1, m1, by decide +kernel, rfl, g.1, g.2.1, g.2.2.1, g.2.2.2.1, List.isEmpty_iff.mp g.2.2.2.2⟩

theorem wit_BulkJobsRun_fails :
    (∃ (c : Code) (s1 : State) (m1 : MemIn), readPiece (turned (job1 1 0 (some 0) [])) (job1 1 0 (some 0) []) { lines := [{ data := 0#576, poison := true }] }
        = (.error c, s1, m1) ∧ tget s1.hob.flight 5 = some flight0)
      ∧ ∃ (c : Code) (k : Job) (s1 : State) (m1 : MemIn), segEnd (turned (job2 99)) (job2 99) (memOf 1 []) = (.error (c, k), s1, m1) ∧ k.flight = some 5
        ∧ tget s1.hob.flight 5 = some flight0 := by
  have h : (match readPiece (turned (job1 1 0 (some 0) [])) (job1 1 0 (some 0) []) { lines := [{ data := 0#576, poison := true }] } with
    | (.error _, s1, _) => decide (tget s1.hob.flight 5 = some flight0) | _ => false) = true := by decide +kernel
  have h2 : (match segEnd (turned (job2 99)) (job2 99) (memOf 1 []) with
    | (.error (_, k), s1, _) => decide (k.flight = some 5 ∧ tget s1.hob.flight 5 = some flight0) | _ => false) = true := by decide +kernel
  constructor
  · rcases hx : readPiece (turned (job1 1 0 (some 0) [])) (job1 1 0 (some 0) []) { lines := [{ data := 0#576, poison := true }] } with ⟨c | k, s1, m1⟩
    · rw [hx] at h; exact ⟨c, s1, m1, rfl, of_decide_eq_true h⟩
    · rw [hx] at h; exact absurd h (by simp)
  · rcases hx : segEnd (turned (job2 99)) (job2 99) (memOf 1 []) with ⟨⟨c, k⟩ | k, s1, m1⟩
    · rw [hx] at h2
      have g := of_decide_eq_true h2
      exact ⟨c, k, s1, m1, rfl, g.1, g.2⟩
    · rw [hx] at h2; exact absurd h2 (by simp)

/-- A STRATUM descriptor of tenant 1, stratum 1, one member of rank 0, its list at 0x200 and its manifest of `len` bytes at 0x400. -/
def stratumDesc (op regions len : Nat) : List Byte :=
  leBytes 1 1 ++ leBytes 1 op ++ zeros 2 ++ leBytes 4 (32768 + 3 * 4096) ++ leBytes 8 1 ++ leBytes 8 0 ++ leBytes 8 0x200 ++ leBytes 4 32768
    ++ leBytes 2 regions ++ leBytes 2 1 ++ leBytes 2 0 ++ leBytes 2 (if op = 1 then 4 else 0) ++ zeros 4
    ++ leBytes 8 (if op = 1 then 0 else 0x400) ++ leBytes 4 (if op = 1 then 0 else 32768) ++ zeros 4 ++ zeros 8 ++ leBytes 8 len

def job16 : Job := { job0 with op := 16 }

/-- The launched block with a region of 8 KiB, another for its shard, and a STRATUM command. -/
def strata : State :=
  let s := bulk job16
  { s with ime := { s.ime with cat := [(4096, { p0 with size := 8192 }), (4097, { p0 with base := 65536 })] } }

def listed : List Byte := leBytes 4 32768 ++ leBytes 4 32769 ++ leBytes 8 65536 ++ leBytes 8 8320 ++ zeros 8

/-- What memory answers when a descriptor and its list are read. -/
def stratumMem (d more : List Byte) (n : Nat) : MemIn := memOf n (d ++ zeros 48 ++ more)

/-- The read of a CUT of one region, and the check of its list. -/
def cutRead : Except (Code × List Byte) (List Byte × List CutRegion × List Nat) × State × MemIn :=
  readStratum strata job16 (stratumMem (stratumDesc 1 1 0) listed 3)

def cutListed : Except Code (List CutRegion) × State × MemIn :=
  cutRegionsOk cutRead.2.1 { job16 with desc := stratumDesc 1 1 0 } 1 (listEntries listed 1) cutRead.2.2 (listEntries listed 1)

theorem wit_StrataOpenFlushEnd_cut :
    ∃ (regions : List CutRegion) (s1 s2 : State) (m1 m2 : MemIn), nextStratum strata = some job16
      ∧ strata.pin.pwrok = true ∧ coreDown strata = false ∧ bceStopped strata = false
      ∧ cutRead = (.ok (stratumDesc 1 1 0, listEntries listed 1, []), s1, m1) ∧ sdOp (stratumDesc 1 1 0) = 1 ∧ s2.bce.early = [] ∧ s2.ime.catRenew = false
      ∧ cutEntry s1 1 = some 0 ∧ dget 0 s1.flash.stratumHigh 1 < sdStratum (stratumDesc 1 1 0)
      ∧ resolve s1 (engWho 4 job16.world (some job16.slice) (some job16.context) (sdKeyShelf (stratumDesc 1 1 0)) 0) [3] = .ok 64 ∧ slotAt s1 64 = some dom1
      ∧ k6Room s1 64 dom1 3 (((listEntries listed 1).filterMap fun r => regionAt s1 (regionIx r.shelf)).map fun g => shardBlocks g.size).sum = true
      ∧ cutListed = (.ok regions, s2, m2) ∧ (∀ r ∈ regions, dget 0 (ctrOf s2 catIx (catRegion s2) (regionIx r.shelf / 64)).minors (regionIx r.shelf % 64) < 127)
      ∧ regions ≠ [] := by
  refine ⟨okOr cutListed.1 [], cutRead.2.1, cutListed.2.1, cutRead.2.2, cutListed.2.2, by decide +kernel, rfl, rfl, by decide +kernel, gated ?_,
    by decide +kernel, by decide +kernel, by decide +kernel, by decide +kernel, by decide +kernel, by decide +kernel, by decide +kernel, by decide +kernel,
    gated (okOr_eq (by decide +kernel)), by decide +kernel, by decide +kernel⟩
  have h : okOr cutRead.1 ([], [], []) = (stratumDesc 1 1 0, listEntries listed 1, []) := by decide +kernel
  rw [okOr_eq (x := cutRead.1) (d := ([], [], [])) (by decide +kernel), h]

theorem wit_StrataOpenFlushEnd_bad :
    ∃ (e : Code) (d : List Byte) (s1 : State) (m1 : MemIn), readStratum strata job16 (memOf 2 (zeros 80)) = (.error (e, d), s1, m1) ∧ job16.flight = some 5
      ∧ tget s1.hob.flight 5 = some flight0 := by
  have h : (match readStratum strata job16 (memOf 2 (zeros 80)) with
    | (.error _, s1, _) => decide (tget s1.hob.flight 5 = some flight0) | _ => false) = true := by decide +kernel
  rcases hx : readStratum strata job16 (memOf 2 (zeros 80)) with ⟨⟨e, d⟩ | x, s1, m1⟩
  · rw [hx] at h; exact ⟨e, d, s1, m1, rfl, rfl, of_decide_eq_true h⟩
  · rw [hx] at h; exact absurd h (by simp)

/-- An open cut of the descriptor, in the flush step, of a member or (from 2 members on) of the archivist. -/
def cut0 (d : List Byte) : Cut := newCut strata job16 d [] [] 64 0 0

/-- The archivist's descriptor for 2 members. -/
def archDesc : List Byte := (stratumDesc 1 0 0).take 3 ++ leBytes 1 1 ++ ((stratumDesc 1 0 0).drop 4).take 34 ++ leBytes 2 2 ++ ((stratumDesc 1 0 0).drop 40)

def cutting (d : List Byte) : State := { strata with bce := { strata.bce with jobs := [], cuts := [(0, cut0 d)] } }

theorem wit_StrataOpenFlushEnd_flush :
    (cutting (stratumDesc 1 0 0)).bce.cuts = [(0, cut0 (stratumDesc 1 0 0))] ∧ (cut0 (stratumDesc 1 0 0)).restore = false ∧ (cut0 (stratumDesc 1 0 0)).step = .flush
      ∧ (cut0 (stratumDesc 1 0 0)).flush = [] ∧ sdArch (cut0 (stratumDesc 1 0 0)).desc = false ∧ slotAt (cutting (stratumDesc 1 0 0)) 64 = some dom1
      ∧ k6 dom1 (curHalf dom1) 3 = true ∧ (manifestKey (cutting (stratumDesc 1 0 0)) 64 (curHalf dom1) 1).isSome = true
      ∧ sendCode (cutting (stratumDesc 1 0 0)) (sdArchIdx (cut0 (stratumDesc 1 0 0)).desc) 0 64 = 0#8 ∧ (cutting (stratumDesc 1 0 0)).ile.orig = []
      ∧ (cutting (stratumDesc 1 0 0)).ile.sendq = [] ∧ sdArch (cut0 archDesc).desc = true ∧ 1 < sdMembers (cut0 archDesc).desc
      ∧ 1 ≠ sdRank (cut0 archDesc).desc ∧ 1 ∉ (cut0 archDesc).ready ∧ (cut0 archDesc).restore = false ∧ (cut0 archDesc).step = .flush ∧ (cut0 archDesc).flush = [] :=
  ⟨rfl, by decide +kernel, rfl, rfl, by decide +kernel, rfl, by decide +kernel, rfl, by decide +kernel, rfl, rfl, by decide +kernel, by decide +kernel,
    by decide +kernel, by decide +kernel, by decide +kernel, rfl, rfl⟩

theorem wit_StrataOpenFlushEnd_timeout :
    (cut0 (stratumDesc 1 0 0)).regions = [] ∧ tget (cutting (stratumDesc 1 0 0)).hob.flight (cut0 (stratumDesc 1 0 0)).flight = some flight0
      ∧ Safety.memIdle (cutting (stratumDesc 1 0 0)) ∧ (cutting (stratumDesc 1 0 0)).ile.heldOut = []
      ∧ (cut0 (stratumDesc 1 0 0)).started + 1000000 * (cut0 (stratumDesc 1 0 0)).timeoutMs ≤ ({ cutting (stratumDesc 1 0 0) with
          tm := { (cutting (stratumDesc 1 0 0)).tm with ns := 60000000000 } } : State).tm.ns := ⟨rfl, rfl, ⟨rfl, rfl, rfl, rfl⟩, rfl, by decide +kernel⟩

/-- A manifest of no shard, for the descriptor of one member. -/
def manifest0 : List Byte :=
  leBytes 4 0x4E4D5453 ++ leBytes 1 1 ++ zeros 3 ++ leBytes 2 1 ++ zeros 2 ++ leBytes 4 0 ++ leBytes 8 1 ++ leBytes 8 1 ++ leBytes 8 0 ++ leBytes 2 1 ++ zeros 2
    ++ leBytes 4 0 ++ zeros 16 ++ zeros 16

theorem wit_StrataOpenFlushEnd_restore :
    ∃ (d b : List Byte) (s1 s2 : State) (m1 m2 : MemIn), readStratum strata job16 (stratumMem (stratumDesc 2 0 80) manifest0 4) = (.ok (d, [], []), s1, m1)
      ∧ sdOp d = 2 ∧ sdRegions d = 0 ∧ cutEntry s1 (shTenant (sdKeyShelf d)) = some 0
      ∧ readBytes s1 (engWho 4 0 (some 0) (some 0) (sdManShelf d) (sdManAddr d)) (sdClass d) (min (sdManLen d) (80 + 2 ^ 28)) m1 = (.ok b, s2, m2)
      ∧ sdManLen d = b.length ∧ manifestOk s2 d b = true ∧ resolve s2 (engWho 4 0 (some 0) (some 0) (sdKeyShelf d) 0) [3] = .ok 64
      ∧ liveHalf s2 64 (fld b 0x0C 4) = some 0 ∧ fld b 0x28 2 = sdMembers d ∧ fld b 0x2C 4 = 0 ∧ tget s2.hob.flight 5 = some flight0 := by
  have h : (match readStratum strata job16 (stratumMem (stratumDesc 2 0 80) manifest0 4) with
    | (.ok (d, [], []), s1, m1) => decide (sdOp d = 2 ∧ sdRegions d = 0 ∧ cutEntry s1 (shTenant (sdKeyShelf d)) = some 0)
      && (match readBytes s1 (engWho 4 0 (some 0) (some 0) (sdManShelf d) (sdManAddr d)) (sdClass d) (min (sdManLen d) (80 + 2 ^ 28)) m1 with
        | (.ok b, s2, _) => decide (sdManLen d = b.length ∧ manifestOk s2 d b = true ∧ resolve s2 (engWho 4 0 (some 0) (some 0) (sdKeyShelf d) 0) [3] = .ok 64
            ∧ liveHalf s2 64 (fld b 0x0C 4) = some 0 ∧ fld b 0x28 2 = sdMembers d ∧ fld b 0x2C 4 = 0 ∧ tget s2.hob.flight 5 = some flight0)
        | _ => false)
    | _ => false) = true := by decide +kernel
  rcases hx : readStratum strata job16 (stratumMem (stratumDesc 2 0 80) manifest0 4) with ⟨e | ⟨d, l, r⟩, s1, m1⟩
  · rw [hx] at h; exact absurd h (by simp)
  · rw [hx] at h
    cases l with
    | cons _ _ => exact absurd h (by simp)
    | nil => cases r with
      | cons _ _ => exact absurd h (by simp)
      | nil =>
        obtain ⟨h1, h2⟩ := Bool.and_eq_true_iff.mp h
        have g := of_decide_eq_true h1
        rcases hy : readBytes s1 (engWho 4 0 (some 0) (some 0) (sdManShelf d) (sdManAddr d)) (sdClass d) (min (sdManLen d) (80 + 2 ^ 28)) m1 with ⟨e | b, s2, m2⟩
        · rw [hy] at h2; exact absurd h2 (by simp)
        · rw [hy] at h2
          have k := of_decide_eq_true h2
          exact ⟨d, b, s1, s2, m1, m2, rfl, g.1, g.2.1, g.2.2, hy, k.1, k.2.1, k.2.2.1, k.2.2.2.1, k.2.2.2.2.1, k.2.2.2.2.2.1, k.2.2.2.2.2.2⟩

/-- The launched block with a live context 0 of slice 0, a completion queue 1, and HOB_CMD_SHELF at the region. -/
def hosting : State :=
  let s := launched []
  { s with hob := { s.hob with
      cmdShelf := 32768#32, flight := [], slices := [(0, { live := some 0 })], ctxs := [(0, { slice := 0, world := 2 }), (7, { slice := 0, world := 2 })]
      queues := [(1, { kind := 2, ctx := 0, slice := 0, sizeLog2 := 4, slotLog2 := 0, shelf := 32768, addr := 4096, cq := 0, notify := true, head := 0,
                       tail := 0, reserved := 1 })]
      events := [(3, { slice := 0, value := 5, ignored := 0, mirror := false, mShelf := 0, mAddr := 0 })] } }

theorem wit_HostObjectsMade_ctx :
    Safety.hobTakes hosting 0 false 2 ∧ Safety.hobTakes hosting 0 false 0 ∧ Safety.hobTakes hosting 0 false 21 ∧ Safety.hobTakes hosting 0 true 0
      ∧ Safety.hobTakes hosting 0 true 21 ∧ tget hosting.hob.ctxs 5 = none ∧ tget hosting.hob.ctxs 7 = some { slice := 0, world := 2 }
      ∧ (sliceAt hosting 0).live ≠ some 7 ∧ (∀ q ∈ hosting.hob.queues, q.2.ctx ≠ 7) :=
  ⟨⟨⟨rfl, by decide +kernel⟩, rfl, rfl, by decide +kernel⟩, ⟨⟨rfl, by decide +kernel⟩, rfl, rfl, by decide +kernel⟩,
    ⟨⟨rfl, by decide +kernel⟩, rfl, rfl, by decide +kernel⟩, ⟨⟨rfl, by decide +kernel⟩, rfl, rfl, by decide +kernel⟩,
    ⟨⟨rfl, by decide +kernel⟩, rfl, rfl, by decide +kernel⟩, rfl, rfl, by decide, by decide +kernel⟩

/-- A submission queue record of 16 entries at 0x2000, context 0, completion queue 1. -/
def queueRec : List Byte := leBytes 1 1 ++ leBytes 1 1 ++ leBytes 1 4 ++ leBytes 1 0 ++ leBytes 4 32768 ++ leBytes 8 0x2000 ++ leBytes 2 0 ++ leBytes 2 1 ++ zeros 44

/-- Its read and the check that its ring may be read. -/
def queueRead : Except Code (List Byte) × State × MemIn := ctlRead hosting hosting.hob.cmdShelf.toNat hosting.hob.cmdAddr.toNat 64 (memOf 1 queueRec)
def ringRead : Except Code (Nat × Region) × State × MemIn :=
  admitted queueRead.2.1 (hobWho (ctxWorld queueRead.2.1 0) 0 0 (fld queueRec 4 3) (fld queueRec 8 8)) (64 * 2 ^ 4) .read (hostClass queueRead.2.1) queueRead.2.2

theorem wit_HostObjectsMade_queue :
    ∃ (x y : Nat × Region) (s1 s2 s3 : State) (m1 m2 m3 : MemIn), tget hosting.hob.queues 0 = none ∧ queueRead = (.ok queueRec, s1, m1)
      ∧ queueForm queueRec = true ∧ ctxOf s1 0 (fld queueRec 0x10 2) = true
      ∧ (∃ c, tget s1.hob.queues (fld queueRec 0x12 2) = some c ∧ c.kind = 2 ∧ c.slice = 0) ∧ ringRead = (.ok x, s2, m2)
      ∧ admitted s2 (hobWho (ctxWorld s1 (fld queueRec 0x10 2)) 0 (fld queueRec 0x10 2) (fld queueRec 4 3) (fld queueRec 8 8)) (64 * 2 ^ 4) .write
          (hostClass s2) m2 = (.ok y, s3, m3) :=
  ⟨(4096, p0), (4096, p0), _, _, _, _, _, _, rfl, gated (by decide +kernel), by decide +kernel, by decide +kernel,
    ⟨{ kind := 2, ctx := 0, slice := 0, sizeLog2 := 4, slotLog2 := 0, shelf := 32768, addr := 4096, cq := 0, notify := true, head := 0, tail := 0, reserved := 1 },
      by decide +kernel, rfl, rfl⟩, gated (by decide +kernel), gated (by decide +kernel)⟩

/-- An event record of value 5, no mirror. -/
def eventRec : List Byte := leBytes 8 1 ++ leBytes 8 5 ++ zeros 16

theorem wit_HostObjectsMade_event :
    ∃ (s1 : State) (m1 : MemIn), tget hosting.hob.events 0 = none
      ∧ ctlRead hosting hosting.hob.cmdShelf.toNat hosting.hob.cmdAddr.toNat 32 (memOf 1 eventRec) = (.ok eventRec, s1, m1)
      ∧ fld eventRec 0 1 = 1 ∧ fld eventRec 1 1 < 2 ∧ fld eventRec 2 2 = 0 ∧ fld eventRec 7 1 = 0 ∧ fld eventRec 0x10 8 = 0 ∧ fld eventRec 0x18 8 = 0
      ∧ fld eventRec 4 4 = 0 :=
  ⟨_, _, rfl, gated (by decide +kernel), by decide +kernel, by decide +kernel, by decide +kernel, by decide +kernel,
    by decide +kernel, by decide +kernel, by decide +kernel⟩

theorem wit_HostObjectsMade_destroy :
    ∃ (q : HQueue) (e : HEvent), hosting.hob.flight = [] ∧ tget hosting.hob.queues 1 = some q ∧ q.slice = 0
      ∧ (∀ x ∈ hosting.hob.queues, x.2.cq = 1 → x.2.kind = 2) ∧ (∀ g ∈ hosting.ile.msgs, g.queue ≠ 1) ∧ tget hosting.hob.events 3 = some e ∧ e.slice = 0 :=
  ⟨_, _, rfl, rfl, rfl, by decide +kernel, by decide +kernel, rfl, rfl⟩

/-- The hosting block with HOB_CMD_ARG at a catalogue index, its entry verified before. -/
def arged (cat : Nat) : State :=
  { hosting with ime := { hosting.ime with catCache := [4096, 4098] }, hob := { hosting.hob with cmdArg := BitVec.ofNat 32 cat } }

/-- The record of a region at 128 KiB as OBJ_CREATE reads it. -/
def objRead : Except Code (List Byte) × State × MemIn :=
  ctlRead (arged 4098) (arged 4098).hob.cmdShelf.toNat (arged 4098).hob.cmdAddr.toNat 64 (memOf 1 (leBytes 8 131072 ++ record0.drop 8))

theorem wit_HostObjectsMade_create :
    ∃ (s1 s2 : State) (m1 : MemIn), sliceTenant (arged 4098) 0 = some (bits (arged 4098).hob.cmdArg.toNat 0 21 / 4096)
      ∧ Safety.hobTakes (arged 4098) 0 true 21 ∧ (arged 4098).ime.formatted = true ∧ tget (arged 4098).hob.objs 0 = none
      ∧ objRead = (.ok (leBytes 8 131072 ++ record0.drop 8), s1, m1)
      ∧ regionCreate s1 (bits s1.hob.cmdArg.toNat 0 21) (leBytes 8 131072 ++ record0.drop 8) m1 = (Rc.done, s2) :=
  ⟨objRead.2.1, (regionCreate objRead.2.1 (bits objRead.2.1.hob.cmdArg.toNat 0 21) (leBytes 8 131072 ++ record0.drop 8) objRead.2.2).2, objRead.2.2,
    by decide +kernel, ⟨⟨rfl, by decide +kernel⟩, rfl, rfl, by decide +kernel⟩, rfl, rfl, gated (by decide +kernel), Prod.ext (by decide +kernel) rfl⟩

theorem wit_HostObjectsMade_adopt :
    regionAt (arged 4096) (bits (arged 4096).hob.cmdArg.toNat 0 21) = some p0 ∧ sliceTenant (arged 4096) 0 = some (bits (arged 4096).hob.cmdArg.toNat 0 21 / 4096)
      ∧ Safety.hobTakes (arged 4096) 0 false 21 := ⟨by decide +kernel, by decide +kernel, ⟨⟨rfl, by decide +kernel⟩, rfl, rfl, by decide +kernel⟩⟩

/-- The hosting block with an object of the P0 region. -/
def held (st refs : Nat) (hold : Bool) : State :=
  { hosting with hob := { hosting.hob with objs := [(0, { slice := 0, cat := 4096, state := st, hold := hold, refs := refs })] } }

theorem wit_HostObjectsMade_free :
    (∃ o, tget (held 1 2 true).hob.objs 0 = some o ∧ o.slice = 0 ∧ o.state = 1 ∧ 1 < o.refs ∧ Safety.hobTakes (held 1 2 true) 0 false 0)
      ∧ (∃ o, tget (held 1 1 true).hob.objs 0 = some o ∧ o.slice = 0 ∧ o.state = 1 ∧ o.refs = 1 ∧ Safety.hobTakes (held 1 1 true) 0 false 0)
      ∧ Safety.memIdle (held 1 1 true) ∧ Safety.imeQuiet (held 1 1 true)
      ∧ ∃ s1 m1, catLook (held 2 0 false) 4096 0 (memOf 0 []) = (0#8, s1, m1) ∧ catEnded s1 4096 = false ∧ regionAt (held 2 0 false) 4096 = some p0
        ∧ snapState p0 = 0 :=
  ⟨⟨_, rfl, rfl, rfl, by decide, ⟨⟨rfl, by decide +kernel⟩, rfl, rfl, by decide +kernel⟩⟩,
    ⟨_, rfl, rfl, rfl, rfl, ⟨⟨rfl, by decide +kernel⟩, rfl, rfl, by decide +kernel⟩⟩, ⟨rfl, rfl, rfl, rfl⟩, ⟨rfl, rfl, rfl, rfl⟩,
    _, _, gated (by decide +kernel), by decide +kernel, by decide +kernel, rfl⟩

/-- An object whose DESTROY was tried at 0, seen 100 µs later, and one whose catalogue index is free. -/
theorem wit_HostObjectsMade_retry :
    (∃ (s : State) (o : HObj), tget s.hob.objs 0 = some o ∧ hobUp s = true ∧ o.state = 2 ∧ o.refs = 0 ∧ o.tried + 100000 ≤ s.tm.ns)
      ∧ (∃ (s : State) (o : HObj), tget s.hob.objs 0 = some o ∧ s.tm.ns < o.tried + 100000)
      ∧ (regionDestroy { held 1 1 true with ime := { (held 1 1 true).ime with cat := [] } } 4096 false (memOf 0 [])).1 ≠ Rc.done :=
  ⟨⟨{ held 2 0 false with tm := { (held 2 0 false).tm with ns := 100000 } }, _, rfl, by decide +kernel, rfl, rfl, by decide⟩,
    ⟨held 2 0 false, _, rfl, by decide +kernel⟩, by decide +kernel⟩

/-- A command record: operation, flags, and its arguments, naming no object. -/
def cmdRec (op flags arg0 arg1 arg2 : Nat) : List Byte :=
  leBytes 1 op ++ leBytes 1 flags ++ leBytes 2 0 ++ leBytes 4 0xFFFFFFFF ++ leBytes 8 77 ++ leBytes 2 0 ++ leBytes 2 (if flags = 2 then 3 else 0)
    ++ leBytes 2 0xFFFF ++ leBytes 2 0xFFFF ++ leBytes 8 0 ++ leBytes 8 (if flags = 2 then 9 else 0) ++ leBytes 8 arg0 ++ leBytes 8 arg1 ++ leBytes 8 arg2

/-- A command in flight from queue 0. -/
def flightOf (op flags : Nat) (st : FlightSt) : Flight :=
  { flight0 with record := cmdRec op flags (if op = 5 then 77 else 0) 0 0, stage := st, engaged := false, world := 2 }

/-- The hosting block with submission queue 0 of one waiting record at 0x2000, and commands in flight. -/
def fetching (l : Tbl Flight) : State :=
  { hosting with hob := { hosting.hob with
      flight := l
      queues := (0, { kind := 1, ctx := 0, slice := 0, sizeLog2 := 4, slotLog2 := 0, shelf := 32768, addr := 0x2000, cq := 1, notify := false, head := 0,
                      tail := 1, reserved := 0 }) :: hosting.hob.queues } }

theorem wit_HostCommandsFlow_doorbell :
    ∃ q, Safety.admitted (fetching []) 0x8010 ∧ tget (fetching []).hob.queues (bits (0x00100000#32).toNat 0 12) = some q ∧ q.kind = 1
      ∧ (bits (0x00100000#32).toNat 16 16 + 65536 - q.head) % 65536 ≤ 2 ^ q.sizeLog2
      ∧ tget (fetching []).hob.queues (bits (0x00110000#32).toNat 0 12) = some q
      ∧ 2 ^ q.sizeLog2 < (bits (0x00110000#32).toNat 16 16 + 65536 - q.head) % 65536 :=
  ⟨_, ⟨rfl, by decide +kernel⟩, rfl, rfl, by decide +kernel, rfl, by decide +kernel⟩

theorem wit_HostCommandsFlow_fetch (op : Nat) (h : op = 0 ∨ op = 6) :
    ∃ (q : HQueue) (s1 : State) (m1 : MemIn), tget (fetching []).hob.queues 0 = some q ∧ mayFetch (fetching []) 0 = true ∧ q.cq ≠ 0
      ∧ readLine (fetching []) (hobWho (ctxWorld (fetching []) q.ctx) q.slice q.ctx q.shelf (q.addr + 64 * (q.head % 2 ^ q.sizeLog2)))
          (hostClass (fetching [])) .live (memOf 1 (cmdRec op 0 0 0 0)) = (.ok (bytesLine (cmdRec op 0 0 0 0)), s1, m1)
      ∧ crOk (lineBytes (bytesLine (cmdRec op 0 0 0 0))) = decide (op = 0) ∧ crWait (lineBytes (bytesLine (cmdRec op 0 0 0 0))) = false
      ∧ crSignal (lineBytes (bytesLine (cmdRec op 0 0 0 0))) = false ∧ crObjA (lineBytes (bytesLine (cmdRec op 0 0 0 0))) = 0xFFFF
      ∧ crObjB (lineBytes (bytesLine (cmdRec op 0 0 0 0))) = 0xFFFF := by
  rcases h with rfl | rfl <;>
    exact ⟨_, _, _, rfl, by decide +kernel, by decide, gated (by decide +kernel), by decide +kernel, by decide +kernel,
      by decide +kernel, by decide +kernel, by decide +kernel⟩

theorem wit_HostCommandsFlow_dispatch (op : Nat) (h : op < 6) :
    fetchedOf (fetching [(5, flightOf op 0 .fetched)]) 0 = some (5, flightOf op 0 .fetched)
      ∧ tget (fetching [(5, flightOf op 0 .fetched)]).hob.flight 5 = some (flightOf op 0 .fetched)
      ∧ mayDispatch (fetching [(5, flightOf op 0 .fetched)]) 5 (flightOf op 0 .fetched) = true ∧ crOp (flightOf op 0 .fetched).record = op
      ∧ (fetching [(5, flightOf op 0 .fetched)]).sre.launch.length < 256
      ∧ ((fetching [(5, flightOf op 0 .fetched)]).bce.jobs.filter fun j => !j.opened).length < 256
      ∧ sendCode (fetching [(5, flightOf op 0 .fetched)]) (bits (crArg2 (flightOf op 0 .fetched).record) 0 14)
          (bits (crArg1 (flightOf op 0 .fetched).record) 49 2) (bits (crArg1 (flightOf op 0 .fetched).record) 32 17) ≠ 0#8
      ∧ ∀ x ∈ (fetching [(5, flightOf op 0 .fetched)]).hob.flight, x.1 ≠ 5 → False := by
  have : op = 0 ∨ op = 1 ∨ op = 2 ∨ op = 3 ∨ op = 4 ∨ op = 5 := by omega
  rcases this with rfl | rfl | rfl | rfl | rfl | rfl <;>
    exact ⟨rfl, rfl, by decide +kernel, by decide +kernel, by decide, by decide, by decide +kernel, by intro x hx hn; simp [fetching] at hx; exact hn (hx ▸ rfl)⟩

theorem wit_HostCommandsFlow_cancel :
    fetchedOf (fetching [(5, flightOf 5 0 .fetched), (6, flightOf 1 0 .fetched)]) 0 = some (5, flightOf 5 0 .fetched)
      ∧ mayDispatch (fetching [(5, flightOf 5 0 .fetched), (6, flightOf 1 0 .fetched)]) 5 (flightOf 5 0 .fetched) = true
      ∧ (flightOf 1 0 .fetched).slice = (flightOf 5 0 .fetched).slice ∧ (flightOf 1 0 .fetched).sq = crArg1 (flightOf 5 0 .fetched).record
      ∧ crTag (flightOf 1 0 .fetched).record = crArg0 (flightOf 5 0 .fetched).record
      ∧ ∃ q, tget (fetching []).hob.queues (crArg1 (flightOf 5 0 .fetched).record) = some q ∧ q.slice = 0 :=
  ⟨rfl, by decide +kernel, rfl, by decide +kernel, by decide +kernel,
    { kind := 1, ctx := 0, slice := 0, sizeLog2 := 4, slotLog2 := 0, shelf := 32768, addr := 0x2000, cq := 1, notify := false, head := 0, tail := 1, reserved := 0 },
    by decide +kernel, rfl⟩

/-- A CANCEL of slice 1 that names queue 0 of slice 0, and a malformed command with ALWAYS. -/
theorem wit_HostCommandsFlow_foreign :
    (∃ q, tget (fetching []).hob.queues (crArg1 (flightOf 5 0 .fetched).record) = some q ∧ q.slice ≠ ({ flightOf 5 0 .fetched with slice := 1 } : Flight).slice)
      ∧ crAlways (cmdRec 0 6 1 0 0) = true ∧ crSignal (cmdRec 0 6 1 0 0) = true ∧ crOk (cmdRec 0 6 1 0 0) = false :=
  ⟨⟨{ kind := 1, ctx := 0, slice := 0, sizeLog2 := 4, slotLog2 := 0, shelf := 32768, addr := 0x2000, cq := 1, notify := false, head := 0, tail := 1, reserved := 0 },
    by decide +kernel, by decide⟩, by decide +kernel, by decide +kernel, by decide +kernel⟩

theorem wit_HostCommandsFlow_complete :
    ∃ (q c : HQueue) (s1 : State) (m1 : MemIn), tget (fetching [(5, flightOf 0 0 .ended)]).hob.flight 5 = some (flightOf 0 0 .ended) ∧ hobUp (fetching [(5, flightOf 0 0 .ended)]) = true
      ∧ tget (fetching [(5, flightOf 0 0 .ended)]).hob.queues 0 = some q ∧ tget (fetching [(5, flightOf 0 0 .ended)]).hob.queues q.cq = some c
      ∧ crSignal (flightOf 0 0 .ended).record = false ∧ (flightOf 0 0 .ended).reason ≠ Rsn.queueFull ∧ Safety.imeQuiet (fetching [(5, flightOf 0 0 .ended)])
      ∧ memGate (fetching [(5, flightOf 0 0 .ended)]) (hobWho (ctxWorld (fetching [(5, flightOf 0 0 .ended)]) c.ctx) c.slice c.ctx c.shelf
          (c.addr + 64 * (c.tail % 2 ^ c.sizeLog2))) .write (hostClass (fetching [(5, flightOf 0 0 .ended)])) (memOf 0 []) = (.ok (4096, p0), s1, m1) ∧ p0.mode = 0 ∧ snapState p0 = 0 ∧ c.notify = true :=
  ⟨_, _, _, _, rfl, by decide +kernel, rfl, rfl, by decide +kernel, by decide +kernel, ⟨rfl, rfl, rfl, rfl⟩, gated (by decide +kernel), rfl, rfl, rfl⟩

theorem wit_HostCommandsFlow_signal :
    ∃ e, tget (fetching [(5, flightOf 0 2 .ended)]).hob.events (crSigEvent (flightOf 0 2 .ended).record) = some e ∧ crSignal (flightOf 0 2 .ended).record = true
      ∧ e.slice = 0 ∧ e.mirror = false ∧ e.value < crSigValue (flightOf 0 2 .ended).record ∧ e.value ≠ 2 ^ 64 - 1 :=
  ⟨{ slice := 0, value := 5, ignored := 0, mirror := false, mShelf := 0, mAddr := 0 }, by decide +kernel, by decide +kernel, rfl, rfl, by decide +kernel,
    by decide⟩

/-- The hosting block with slice 0 in reset. -/
def resetting (sq : Bool) (l : Tbl Flight) (o : Tbl Orig) : State :=
  { hosting with hob := { hosting.hob with flight := l, slices := [(0, { live := some 0, resetting := true, squash := sq, driver := true })] }, ile := { hosting.ile with orig := o } }

theorem wit_SliceResetsRun_start :
    Safety.hobTakes (fetching []) 0 false 0 ∧ (fetching []).ile.orig = [] ∧ (fetching []).ile.sendq = []
      ∧ Safety.hobTakes (fetching [(5, flightOf 1 0 .fetched)]) 0 false 0 ∧ (flightOf 1 0 .fetched).slice = 0 ∧ (flightOf 1 0 .fetched).stage = .fetched
      ∧ ∃ (s : State) (o : Orig), Safety.hobTakes s 0 false 0 ∧ s.hob.flight = [] ∧ s.ile.sendq = [] ∧ s.ile.orig = [(17, o)] ∧ o.who.slice = some 0
        ∧ o.src = .fab 5 7#16 1#32 0#32 ∧ o.posted = false :=
  ⟨⟨⟨rfl, by decide +kernel⟩, rfl, rfl, by decide +kernel⟩, rfl, rfl, ⟨⟨rfl, by decide +kernel⟩, rfl, rfl, by decide +kernel⟩, rfl, rfl,
    { fetching [] with ile := { (fetching []).ile with orig := [(17, { orig0 false with who := hobWho 0 0 0 0 0 })] } }, _,
    ⟨⟨rfl, by decide +kernel⟩, rfl, rfl, by decide +kernel⟩, rfl, rfl, rfl, rfl, rfl, rfl⟩

theorem wit_SliceResetsRun_settle :
    (sliceAt (resetting false [] []) 0).resetting = true ∧ (sliceAt (resetting false [] []) 0).driver = true ∧ sliceQuiet (resetting false [] []) 0 = true
      ∧ hobUp (resetting false [] []) = true ∧ (resetting false [] []).hob.busyHit = false ∧ (resetting false [] []).gen.chrBusy = false
      ∧ (sliceAt (resetting false [] []) 0).squash = false
      ∧ ∃ s : State, (sliceAt s 0).resetting = true ∧ (sliceAt s 0).squash = false ∧ hobUp s = true ∧ sliceQuiet s 0 = false
        ∧ (sliceAt s 0).since + 1000000 * (sliceAt s 0).drainMs ≤ s.tm.ns ∧ s.hob.flight = [] ∧ s.ile.orig = [] ∧ s.ile.sendq = [] :=
  ⟨rfl, rfl, by decide +kernel, rfl, rfl, rfl, rfl,
    { resetting false [] [] with ime := { (resetting false [] []).ime with
        ents := [newEnt (resetting false [] []) .own .read (hobWho 0 0 0 32768 0) 4096 p0 0 none] } },
    rfl, rfl, rfl, by decide +kernel, by decide +kernel, rfl, rfl, rfl⟩

theorem wit_SliceResetsRun_busy :
    ∃ s : State, Safety.admitted s 0x8014 ∧ s.hob.cmdBusy = true ∧ (sliceAt s 0).driver = true ∧ (sliceAt s 0).resetting = true
      ∧ s.tm.ns < (sliceAt s 0).since + 1000000 * (sliceAt s 0).drainMs :=
  ⟨{ resetting false [] [] with hob := { (resetting false [] []).hob with
      cmdBusy := true, slices := [(0, { resetting := true, driver := true, drainMs := 100 })] } }, ⟨rfl, by decide +kernel⟩, rfl, rfl, rfl, by decide +kernel⟩

theorem wit_SliceResetsRun_hang :
    (sliceAt (resetting true [(5, flightOf 1 0 .dispatched)] []) 0).squash = true ∧ hobUp (resetting true [(5, flightOf 1 0 .dispatched)] []) = true
      ∧ sliceQuiet (resetting true [(5, flightOf 1 0 .dispatched)] []) 0 = false ∧ (resetting true [(5, flightOf 1 0 .dispatched)] []).flt.running = []
      ∧ (∀ d ∈ rungDomains 3 0, epochOf (resetting true [(5, flightOf 1 0 .dispatched)] []) d ≠ 0xFFFFFFFF#32)
      ∧ hangPort (resetting true [(5, flightOf 1 0 .dispatched)] []) 0 = none
      ∧ sliceQuiet (resetting true [] [(17, { orig0 false with who := hobWho 0 0 0 0 0 })]) 0 = false
      ∧ hangPort (resetting true [] [(17, { orig0 false with who := hobWho 0 0 0 0 0 })]) 0 = some 6
      ∧ (∀ d ∈ rungDomains 1 6, epochOf (resetting true [] [(17, { orig0 false with who := hobWho 0 0 0 0 0 })]) d ≠ 0xFFFFFFFF#32) :=
  ⟨rfl, rfl, by decide +kernel, rfl, by decide +kernel, by decide +kernel, by decide +kernel, by decide +kernel, by decide +kernel⟩

theorem wit_ResetsRun_hang :
    ∃ s : State, s.gen.released = true ∧ watchCan s 24 = true ∧ watchCan s 0 = true ∧ s.flt.running = [] ∧ s.flt.history = [] ∧ s.flt.queue.length < 256
      ∧ (∀ d ∈ rungDomains (watchRung 24) 24, epochOf s d ≠ 0xFFFFFFFF#32) ∧ ∀ d ∈ rungDomains (watchRung 0) 0, epochOf s d ≠ 0xFFFFFFFF#32 :=
  ⟨outstanding .read .readOut, rfl, rfl, by decide +kernel, rfl, rfl, by decide, by decide +kernel, by decide +kernel⟩

/-- The powered block with every domain out of reset. -/
def allUp : State := { base with dom := { base.dom with d := (List.range 26).map fun d => (d, { inReset := false, epoch := 1#32 }) } }

theorem wit_ResetsRun_ports :
    allUp.gen.released = true ∧ portPresent allUp 0 = true ∧ portPresent allUp 23 = true ∧ allUp.flt.coldReq = false ∧ allUp.flt.running = [] ∧ allUp.flt.history = []
      ∧ mayRelease allUp 0 = true ∧ mayRelease allUp 23 = true ∧ (domAt allUp 2).inReset = false ∧ (domAt allUp 25).inReset = false ∧ failHeld allUp 19 = false
      ∧ epochOf allUp (2 + 0) ≠ 0xFFFFFFFF#32 ∧ epochOf allUp (2 + 23) ≠ 0xFFFFFFFF#32 ∧ (domAt allUp 1).clockLost = false ∧ epochOf allUp 1 ≠ 0xFFFFFFFF#32
      ∧ allUp.gen.chrBusy = false ∧ (∀ d, d < 26 → epochOf allUp d ≠ 0xFFFFFFFF#32) ∧ allUp.bce.cuts = [] ∧ allUp.bce.jobs = [] ∧ Safety.imeQuiet allUp
      ∧ allUp.ile.orig = [] ∧ allUp.ile.sendq = [] ∧ allUp.key.tampered = false :=
  ⟨rfl, by decide, by decide, rfl, rfl, rfl, by decide +kernel, by decide +kernel, by decide +kernel, by decide +kernel, by decide +kernel, by decide, by decide, rfl,
    by decide, rfl, by decide +kernel, rfl, rfl, ⟨rfl, rfl, rfl, rfl⟩, rfl, rfl, rfl⟩

/-- That block in a reset. -/
def inReset (r : Running) : State :=
  { allUp with
    flt := { allUp.flt with running := [r] }
    pin := { allUp.pin with mem := [(0, { init := true })] } }

theorem wit_ResetsRun_expiry (n : Nat) (_ : 0 < n) (_ : n < 5) :
    ∃ (r : Running), (inReset r).flt.running = [r] ∧ r.due ≤ (inReset r).tm.ns ∧ r.rung = n ∧ (inReset r).flt.history = [] ∧ (inReset r).flt.queue.length < 256
      ∧ ∀ d, d < 26 → epochOf (inReset r) d ≠ 0xFFFFFFFF#32 :=
  ⟨{ rung := n, port := 3, phase := .restart, cls := 0xFF, start := StartIn.plain }, rfl, Nat.zero_le _, rfl, rfl, by simp [inReset, allUp, base, up, State.reset, Flt.reset],
    by intro d hd; have : epochOf (inReset { rung := n, port := 3, phase := .restart, cls := 0xFF, start := StartIn.plain }) d = epochOf allUp d := rfl
       rw [this]; exact (wit_ResetsRun_ports.2.2.2.2.2.2.2.2.2.2.2.2.2.2.2.2.1) d hd⟩

theorem wit_ResetsRun_drained (n : Nat) (hn : n = 3 ∨ n = 4) :
    ∃ (r : Running), (inReset r).flt.running = [r] ∧ r.rung = n ∧ r.phase = .drain ∧ (inReset r).gen.released = true ∧ (inReset r).ile.resident = [] ∧ (inReset r).flt.portWait = []
      ∧ (inReset r).ime.ents = [] ∧ (inReset r).ime.blks = [] ∧ (inReset r).ime.dirty = [] ∧ (inReset r).hob.cmdWait = none
      ∧ ((memPortsOf (inReset r)).any fun p => (memPin (inReset r) p).init) = true ∧ (domAt (inReset r) 0).clockLost = false
      ∧ (∀ d, 2 ≤ d → d < 26 → (domAt (inReset r) d).inReset = false)
      ∧ ∃ s : State, s.flt.running = [r] ∧ (domAt s 0).clockLost = true ∧ s.flt.portWait = [] ∧ s.hob.cmdWait = none ∧ coreDown s = true :=
  ⟨{ rung := n, port := 0, phase := .drain, cls := 0xFF, start := StartIn.plain }, rfl, rfl, rfl, rfl, rfl, rfl, rfl, rfl, rfl, rfl,
    by rcases hn with rfl | rfl <;> decide +kernel, rfl, by rcases hn with rfl | rfl <;> decide +kernel,
    setDom { allUp with flt := { allUp.flt with running := [{ rung := n, port := 0, phase := .drain, cls := 0xFF, start := StartIn.plain }] } } 0
      { inReset := true, clockLost := true }, rfl, rfl, rfl, rfl, rfl⟩

/-- A record of unit 6. -/
def rec0 : FaultRec := { cls := 24, verdict := 0, action := 0, reason := 0#8, unit := 6, loc := 0, who := none, epoch := 0#32, detail := 0, time := 0, hours := 0, boot := 0 }

def dump0 : Dump := { cause := 5, cls := 0xFF, time := 0, hours := 0, boot := 0, recovery := 0, secs := [{ unit := 1, status := 0, words := [], pending := [] }] }

/-- The powered block with a due dump and a queued record. -/
def due (d : Bool) : State := { base with flt := { base.flt with dump := some dump0, dumpDue := d, queue := [rec0] } }

theorem wit_DumpsAnnalsHours :
    Safety.admitted base 0x10010 ∧ base.flt.queue.length < 256 ∧ base.key.tampered = false
      ∧ (∃ s : State, Safety.admitted s 0x10010 ∧ s.flt.queue.length < 256 ∧ s.key.tampered = true)
      ∧ (due true).flt.dump = some dump0 ∧ (due true).flt.dumpDue = true ∧ quiescing (due true) = false ∧ (due true).pin.pwrok = true
      ∧ (due true).flt.queue = [rec0] ∧ (due true).flt.stalled = [] ∧ (due true).gen.load = none ∧ (due false).flt.dumpDue = false
      ∧ (due false).gen.load = none :=
  ⟨⟨rfl, by decide⟩, by decide, rfl, ⟨{ base with key := { base.key with tampered := true } }, ⟨rfl, by decide⟩, by decide, rfl⟩, rfl, rfl, by decide, rfl, rfl, rfl, rfl, rfl, rfl⟩

/-- One hour counts on a block in use (11 R333). -/
theorem test_hour_counts : ∃ t, exec (.hourTick true) base = .next t ∧ t.flash.hours = 1 := ⟨_, rfl, rfl⟩

/-- A block with an identity and a chain whose leaf is its key, or without an identity, whose mailbox holds a request of a connection. -/
def signing (id : Bool) (m : Mbx) (q : List Byte) : State :=
  { keyed with
    key := { keyed.key with
      slots := if id then [(0, { slot0 with half1 := some { masked := 0#256, keyNo := false, epoch := 0 } })] else []
      idPub := some 1#768 }
    flash := { keyed.flash with certChain := some (leBytes 4 0 ++ 0x04#8 :: bytes96 1#768) }
    att := { keyed.att with mbxCtl := { m with req := bufFill [] 0 q, reqLen := q.length, busy := true }, mbxOrder := [(false, 0)] } }

/-- A connection of version 1.1 whose algorithms are negotiated. -/
def conn (caps algs : Bool) : Mbx := { version := 1, caps := caps, algs := algs, vca := [1#8] }

theorem wit_SignerAnswers_version : Safety.asked (signing true {} [0x10#8, 0x84#8, 0#8, 0#8]) false [0x10#8, 0x84#8, 0#8, 0#8] :=
  ⟨rfl, rfl, rfl, rfl, by decide +kernel⟩

theorem wit_SignerAnswers_caps :
    Safety.asked (signing true (conn false false) (0x12#8 :: 0xE1#8 :: zeros 18)) false (0x12#8 :: 0xE1#8 :: zeros 18)
      ∧ bit (spdmOffer (signing true (conn false false) (0x12#8 :: 0xE1#8 :: zeros 18))) 2 = true :=
  ⟨⟨rfl, rfl, rfl, rfl, by decide +kernel⟩, by decide +kernel⟩

theorem wit_SignerAnswers_algs :
    ∃ q : List Byte, Safety.asked (signing true (conn true false) q) false q ∧ fld q 1 1 = 0xE3 ∧ fld q 0 1 = 0x10 + 1 ∧ q.length = 32 ∧ fld q 4 2 = q.length
      ∧ bit (fld q 6 1) 0 = true ∧ bit (fld q 8 4) 7 = true ∧ bit (fld q 12 4) 1 = true :=
  ⟨[0x11#8, 0xE3#8, 0#8, 0#8, 32#8, 0#8, 1#8, 0#8, 0x80#8, 0#8, 0#8, 0#8, 2#8, 0#8, 0#8, 0#8] ++ zeros 16,
    ⟨rfl, rfl, rfl, rfl, by decide +kernel⟩, by decide +kernel, by decide +kernel, rfl, by decide +kernel, by decide +kernel, by decide +kernel, by decide +kernel⟩

/-- The same with no measurements offered. -/
theorem wit_SignerAnswers_noDmtf :
    ∃ q : List Byte, Safety.asked (signing true (conn true false) q) false q ∧ fld q 1 1 = 0xE3 ∧ fld q 0 1 = 0x10 + 1 ∧ q.length = 32 ∧ fld q 4 2 = q.length
      ∧ bit (fld q 6 1) 0 = false :=
  ⟨[0x11#8, 0xE3#8, 0#8, 0#8, 32#8, 0#8, 0#8, 0#8, 0x80#8, 0#8, 0#8, 0#8, 2#8, 0#8, 0#8, 0#8] ++ zeros 16,
    ⟨rfl, rfl, rfl, rfl, by decide +kernel⟩, by decide +kernel, by decide +kernel, rfl, by decide +kernel, by decide +kernel⟩

theorem wit_SignerAnswers_signed (q : List Byte) (h : q ∈ [0x11#8 :: 0x81#8 :: zeros 2, 0x11#8 :: 0x82#8 :: zeros 6, 0x11#8 :: 0x83#8 :: zeros 34,
      [0x11#8, 0xE0#8, 1#8, 1#8] ++ zeros 33, 0x11#8 :: 0xE0#8 :: zeros 2, 0x11#8 :: 0xE0#8 :: [2#8, 0#8], 0x11#8 :: 0xFF#8 :: zeros 2]) :
    Safety.asked (signing true (conn true true) q) false q ∧ (identity (signing true (conn true true) q)).isSome = true
      ∧ chainOf (signing true (conn true true) q) = some (0x04#8 :: bytes96 1#768) ∧ fld q 0 1 = 0x10 + 1 := by
  simp only [List.mem_cons, List.not_mem_nil, or_false] at h
  rcases h with rfl | rfl | rfl | rfl | rfl | rfl | rfl <;> exact ⟨⟨rfl, rfl, rfl, rfl, by decide +kernel⟩, rfl, by decide +kernel, by decide +kernel⟩

theorem wit_SignerAnswers_without :
    Safety.asked (signing false (conn true true) (0x11#8 :: 0x83#8 :: zeros 34)) false (0x11#8 :: 0x83#8 :: zeros 34)
      ∧ identity (signing false (conn true true) (0x11#8 :: 0x83#8 :: zeros 34)) = none := ⟨⟨rfl, rfl, rfl, rfl, by decide +kernel⟩, rfl⟩

theorem wit_SignerAnswers_mailbox :
    Safety.admitted base 0x11040 ∧ base.att.mbxCtl.busy = false ∧ base.att.mbxCtl.rspReady = false ∧ 1 ≤ bits (0x80001000#32).toNat 0 13
      ∧ bits (0x80001000#32).toNat 0 13 ≤ 4096 ∧ bit (0x80001000#32).toNat 31 = true ∧ base.att.mbxOrder = [] :=
  ⟨⟨rfl, by decide⟩, rfl, rfl, by decide, by decide, by decide, rfl⟩

/-- The served block appointed by a record, with a roster of one entry at 5, one of its nonces held. -/
def attending (rec : List Byte) (id : Bool) : State :=
  { served with
    gen := { served.gen with charter := some (chartered [(3, tablesBody), (7, zeros 480), (9, leBytes 4 (6 + 4 * 65536) ++ zeros 28)]) }
    lcs := { served.lcs with st := 3 }
    key := { served.key with
      kill := { served.key.kill with bedrock := some 0#256 }
      slots := if id then [(0, { slot0 with half1 := some { masked := 0#256, keyNo := false, epoch := 0 } })] else served.key.slots }
    flash := { served.flash with appoint := some rec }
    ile := { served.ile with roster := [(5, { inst := 9, kind := 0, admitted := 0, kex := zeros 16 })] }
    att := { served.att with cmdShelf := 32768#32, admitted := [zeros 48], nonces := [(zeros 32, 1)], locked := false } }

/-- An operand block: input at 0x40, output at 0x1000. -/
def aob (len outLen arg arg2 : Nat) : List Byte :=
  leBytes 8 64 ++ leBytes 4 32768 ++ leBytes 4 len ++ leBytes 8 4096 ++ leBytes 4 32768 ++ leBytes 4 outLen ++ zeros 8 ++ leBytes 8 arg ++ leBytes 8 arg2
    ++ zeros 8

/-- What follows once the operand block has been read. -/
def afterBlock (s : State) (m : MemIn) (b : List Byte) (f : State → MemIn → Bool) : Bool :=
  match ctlRead s s.att.cmdShelf.toNat s.att.cmdAddr.toNat 64 m with
  | (.ok y, s1, m1) => decide (y = b) && f s1 m1
  | _ => false

/-- What follows once the input has been read. -/
def afterIn (s : State) (m : MemIn) (b x : List Byte) (f : State → MemIn → Bool) : Bool :=
  afterBlock s m b fun s0 m0 =>
    match ctlRead s0 (aoShelf b) (aoAddr b) (aoLen b) m0 with
    | (.ok y, s1, m1) => decide (y = x) && f s1 m1
    | _ => false

/-- Whether an output is written. -/
def putsOk (s : State) (b out : List Byte) (m : MemIn) : Bool :=
  decide (out.length ≤ aoOutLen b) && match ctlWrite s (aoOutShelf b) (aoOutAddr b) out m with | (.ok _, _, _) => true | _ => false

theorem attTakes_of (s : State) (arch : Bool) (m : MemIn) (b : List Byte) (f : State → MemIn → Bool) (h0 : Safety.admitted s 0x11000)
    (h1 : attBusy s = false) (hw : s.att.wait = none) (h2 : s.key.tampered = false) (h3 : arch = true → roleOf s = 2) (h5 : aoOk b = true) (h4 : afterBlock s m b f = true) :
    ∃ s1 m1, Safety.attTakes s arch m b s1 m1 ∧ f s1 m1 = true := by
  unfold afterBlock at h4
  match hx : ctlRead s s.att.cmdShelf.toNat s.att.cmdAddr.toNat 64 m with
  | (.error e, s1, m1) => rw [hx] at h4; cases h4
  | (.ok y, s1, m1) =>
    rw [hx] at h4
    have h6 := (Bool.and_eq_true_iff.mp h4)
    have := of_decide_eq_true h6.1; subst this; exact ⟨s1, m1, ⟨h0, h1, hw, h2, h3, hx, h5⟩, h6.2⟩

theorem attTakesIn_of (s : State) (arch : Bool) (m : MemIn) (b x : List Byte) (f : State → MemIn → Bool) (h0 : Safety.admitted s 0x11000)
    (h1 : attBusy s = false) (hw : s.att.wait = none) (h2 : s.key.tampered = false) (h3 : arch = true → roleOf s = 2) (h5 : aoOk b = true) (h4 : afterIn s m b x f = true) :
    ∃ s1 m1, Safety.attTakesIn s arch m b x s1 m1 ∧ f s1 m1 = true := by
  obtain ⟨s0, m0, h6, h7⟩ := attTakes_of s arch m b _ h0 h1 hw h2 h3 h5 h4
  match hx : ctlRead s0 (aoShelf b) (aoAddr b) (aoLen b) m0 with
  | (.error e, s1, m1) => simp only [hx] at h7; cases h7
  | (.ok y, s1, m1) =>
    simp only [hx] at h7
    have h8 := (Bool.and_eq_true_iff.mp h7)
    have := of_decide_eq_true h8.1; subst this; exact ⟨s1, m1, ⟨s0, m0, h6, hx⟩, h8.2⟩

theorem attPuts_of (s : State) (b out : List Byte) (m : MemIn) (h : putsOk s b out m = true) : ∃ s1, Safety.attPuts s b out m s1 := by
  unfold putsOk at h
  match hx : ctlWrite s (aoOutShelf b) (aoOutAddr b) out m with
  | (.error e, s1, m1) => rw [hx] at h; simp at h
  | (.ok (), s1, m1) => rw [hx] at h; exact ⟨s1, by simpa using h, m1, hx⟩

theorem wit_RosterKept_nonce :
    ∃ s1 m1 n s2 s3, Safety.attTakes (attending (zeros 224) true) true (memOf 2 (aob 0 32 5 0)) (aob 0 32 5 0) s1 m1 ∧ drbgServes s1 = true
      ∧ drbgTake 256 s1 = (n, s2) ∧ Safety.attPuts s2 (aob 0 32 5 0) (leBytes 32 n.toNat) m1 s3 := by
  obtain ⟨s1, m1, h, h'⟩ := attTakes_of (attending (zeros 224) true) true (memOf 2 (aob 0 32 5 0)) (aob 0 32 5 0)
    (fun s1 m1 => drbgServes s1 && putsOk (drbgTake 256 s1).2 (aob 0 32 5 0) (leBytes 32 (drbgTake 256 s1).1.toNat) m1)
    ⟨rfl, by decide +kernel⟩ (by decide +kernel) rfl rfl (fun _ => by decide +kernel) (by decide +kernel) (by decide +kernel)
  obtain ⟨h1, h2⟩ := Bool.and_eq_true_iff.mp h'
  obtain ⟨s3, h3⟩ := attPuts_of _ _ _ _ h2
  exact ⟨s1, m1, _, _, s3, h, h1, rfl, h3⟩

theorem wit_RosterKept_delist :
    ∃ s1 m1, Safety.attTakes (attending (zeros 224) true) true (memOf 1 (aob 0 0 5 0)) (aob 0 0 5 0) s1 m1
      ∧ (decide (aoArg (aob 0 0 5 0) < 16384) && ((tget s1.ile.roster (aoArg (aob 0 0 5 0))).isSome
        && (lnkPortsOf s1).all fun p => (lportAt s1 p).st != .down || (lportAt s1 p).fail != 7)) = true :=
  attTakes_of (attending (zeros 224) true) true (memOf 1 (aob 0 0 5 0)) (aob 0 0 5 0) _
    ⟨rfl, by decide +kernel⟩ (by decide +kernel) rfl rfl (fun _ => by decide +kernel) (by decide +kernel) (by decide +kernel)

theorem wit_RosterKept_expire :
    ∃ (s : State) (x y : List Byte × Nat), s.att.nonces[0]? = some x ∧ x.2 ≤ s.tm.ns ∧ s.att.nonces[1]? = some y ∧ s.tm.ns < y.2 :=
  ⟨{ base with att := { base.att with nonces := [([], 0), ([], 1)] } }, _, _, rfl, by decide, rfl, by decide⟩

theorem wit_RosterKept_sign :
    ∃ s1 m1 d s2, Safety.attTakes (attending (zeros 224) true) true (memOf 5 (aob 0 4096 5 0)) (aob 0 4096 5 0) s1 m1 ∧ identity s1 = some d
      ∧ s1.ile.roster ≠ [] ∧ Safety.attPuts s1 (aob 0 4096 5 0) (rosterBody s1 ++ bytes96 (Config.ecdsaSign d (rosterBody s1) 0)) m1 s2 := by
  obtain ⟨s1, m1, h, h'⟩ := attTakes_of (attending (zeros 224) true) true (memOf 5 (aob 0 4096 5 0)) (aob 0 4096 5 0)
    (fun s1 m1 => !s1.ile.roster.isEmpty && match identity s1 with
      | some d => putsOk s1 (aob 0 4096 5 0) (rosterBody s1 ++ bytes96 (Config.ecdsaSign d (rosterBody s1) 0)) m1 | none => false)
    ⟨rfl, by decide +kernel⟩ (by decide +kernel) rfl rfl (fun _ => by decide +kernel) (by decide +kernel) (by decide +kernel)
  obtain ⟨h1, h2⟩ := Bool.and_eq_true_iff.mp h'
  match hd : identity s1 with
  | none => rw [hd] at h2; cases h2
  | some d =>
    rw [hd] at h2
    obtain ⟨s2, h3⟩ := attPuts_of _ _ _ _ h2
    exact ⟨s1, m1, d, s2, h, hd, (by intro h; rw [h] at h1; cases h1), h3⟩

/-- A capsule of SPDM 1.2 with blocks 1, 2, 12 and 14 of zeros and a signature of zeros. -/
def capsule0 : List Byte :=
  let blk (i n : Nat) : List Byte := leBytes 1 i ++ leBytes 1 1 ++ leBytes 2 (n + 3) ++ leBytes 1 0 ++ leBytes 2 n ++ zeros n
  let vca := leBytes 1 0x10 ++ leBytes 1 0x84 ++ zeros 2 ++ (leBytes 1 0x10 ++ leBytes 1 0x04 ++ zeros 3 ++ leBytes 1 1 ++ zeros 2)
    ++ (leBytes 1 0x12 ++ leBytes 1 0xE1 ++ zeros 18) ++ (leBytes 1 0x12 ++ leBytes 1 0x61 ++ zeros 18)
    ++ (leBytes 1 0x12 ++ leBytes 1 0xE3 ++ zeros 2 ++ leBytes 2 32 ++ zeros 26)
    ++ (leBytes 1 0x12 ++ leBytes 1 0x63 ++ zeros 2 ++ leBytes 2 36 ++ zeros 6 ++ leBytes 4 0x80 ++ leBytes 4 2 ++ zeros 16)
  let req := leBytes 1 0x12 ++ leBytes 1 0xE0 ++ leBytes 1 1 ++ leBytes 1 0xFF ++ zeros 33
  let blks := blk 1 32 ++ blk 2 8 ++ blk 12 64 ++ blk 14 304
  let rsp := leBytes 1 0x12 ++ leBytes 1 0x60 ++ zeros 2 ++ leBytes 1 4 ++ leBytes 3 blks.length ++ blks ++ zeros 34 ++ zeros 96
  leBytes 4 0x4E4F4C43 ++ leBytes 1 1 ++ zeros 3 ++ leBytes 4 vca.length ++ leBytes 4 req.length ++ leBytes 4 rsp.length ++ zeros 12 ++ vca ++ req ++ rsp

theorem wit_RosterKept_enlist :
    ∃ s1 m1 v t, Safety.attTakesIn (attending (zeros 224) true) true (memOf 13 (aob 763 0 0 0 ++ capsule0)) (aob 763 0 0 0) capsule0 s1 m1
      ∧ 32 ≤ aoLen (aob 763 0 0 0) ∧ aoLen (aob 763 0 0 0) ≤ 8192 ∧ capParse s1 capsule0 = some (v, t)
      ∧ ∃ x ∈ s1.att.nonces, x.1 = slice (capReq capsule0) 4 32 ∧ s1.tm.ns < x.2 := by
  obtain ⟨s1, m1, h, h'⟩ := attTakesIn_of (attending (zeros 224) true) true (memOf 13 (aob 763 0 0 0 ++ capsule0)) (aob 763 0 0 0) capsule0
    (fun s1 _ => (capParse s1 capsule0).isSome && s1.att.nonces.any fun x => decide (x.1 = slice (capReq capsule0) 4 32 ∧ s1.tm.ns < x.2))
    ⟨rfl, by decide +kernel⟩ (by decide +kernel) rfl rfl (fun _ => by decide +kernel) (by decide +kernel) (by decide +kernel)
  obtain ⟨h1, h2⟩ := Bool.and_eq_true_iff.mp h'
  obtain ⟨⟨v, t⟩, h3⟩ := Option.isSome_iff_exists.mp h1
  obtain ⟨x, h4, h5⟩ := List.any_eq_true.mp h2
  exact ⟨s1, m1, v, t, h, by decide +kernel, by decide +kernel, h3, x, h4, of_decide_eq_true h5⟩

/-- A roster of one entry for the appointment of zeros, of an epoch. -/
def rosterRec (n : Nat) : List Byte :=
  leBytes 4 0x54534F52 ++ leBytes 1 1 ++ leBytes 1 1 ++ leBytes 2 1 ++ zeros 12 ++ leBytes 4 n ++ zeros 40 ++ zeros 48
    ++ (leBytes 8 9 ++ leBytes 2 5 ++ zeros 22) ++ zeros 96

theorem wit_RosterKept_load (n : Nat) (hn : n < 2) :
    ∃ s1 m1, Safety.attTakesIn { attending (zeros 224) false with att := { (attending (zeros 224) false).att with rosterEpoch := 1 } } false
        (memOf 5 (aob 240 0 0 0 ++ rosterRec n)) (aob 240 0 0 0) (rosterRec n) s1 m1
      ∧ 168 < aoLen (aob 240 0 0 0) ∧ aoLen (aob 240 0 0 0) ≤ 525216 ∧ rosterOk (rosterRec n) = true
      ∧ (appointFits s1 (rosterRec n) 8 0x10 0x18 && decide (n = 0 ↔ fld (rosterRec n) 0x14 4 < s1.att.rosterEpoch)) = true := by
  have key : ∀ n, n = 0 ∨ n = 1 → rosterOk (rosterRec n) = true
      ∧ afterIn { attending (zeros 224) false with att := { (attending (zeros 224) false).att with rosterEpoch := 1 } }
        (memOf 5 (aob 240 0 0 0 ++ rosterRec n)) (aob 240 0 0 0) (rosterRec n)
        (fun s1 _ => appointFits s1 (rosterRec n) 8 0x10 0x18 && decide (n = 0 ↔ fld (rosterRec n) 0x14 4 < s1.att.rosterEpoch)) = true := by
    rintro n (rfl | rfl) <;> decide +kernel
  obtain ⟨k1, k2⟩ := key n (by omega)
  obtain ⟨s1, m1, h, h'⟩ := attTakesIn_of _ false _ (aob 240 0 0 0) (rosterRec n) _ ⟨rfl, by decide +kernel⟩ (by decide +kernel) rfl rfl
    (fun h => by cases h) (by decide +kernel) k2
  exact ⟨s1, m1, h, by decide +kernel, by decide +kernel, k1, h'⟩

/-- An appointment record of DOMAIN_ID 1 and a count. -/
def appointRec (n : Nat) : List Byte := leBytes 4 0x54505041 ++ leBytes 1 1 ++ zeros 3 ++ leBytes 8 1 ++ leBytes 4 n ++ zeros 204

theorem wit_RosterKept_appoint (n : Nat) (hn : n < 2) :
    ∃ s1 m1, Safety.attTakesIn (attending (zeros 224) false) false (memOf 5 (aob 224 0 0 0 ++ appointRec n)) (aob 224 0 0 0) (appointRec n) s1 m1
      ∧ (decide (n = 0 ↔ fld (appointRec n) 0x10 4 ≤ fld (appointment s1) 0x10 4) && (decide (fld (appointRec n) 8 8 = domainId s1)
        && decide (accRoom s1 false = 0#8 ∧ s1.lcs.st = 3 ∧ (roleKey s1 3).isSome = true))) = true := by
  have key : ∀ n, n = 0 ∨ n = 1 → afterIn (attending (zeros 224) false) (memOf 5 (aob 224 0 0 0 ++ appointRec n)) (aob 224 0 0 0) (appointRec n)
        (fun s1 _ => decide (n = 0 ↔ fld (appointRec n) 0x10 4 ≤ fld (appointment s1) 0x10 4) && (decide (fld (appointRec n) 8 8 = domainId s1)
          && decide (accRoom s1 false = 0#8 ∧ s1.lcs.st = 3 ∧ (roleKey s1 3).isSome = true))) = true := by
    rintro n (rfl | rfl) <;> decide +kernel
  exact attTakesIn_of _ false _ (aob 224 0 0 0) (appointRec n) _ ⟨rfl, by decide +kernel⟩ (by decide +kernel) rfl rfl (fun h => by cases h)
    (by decide +kernel) (key n (by omega))

/-- The attending block with the tenant 1 DOMAIN key in slot 64, the roster locked, its chain room left, and members 5 and 6 dies. -/
def issuing : State :=
  let s := attending (zeros 224) true
  { s with
    key := { s.key with slots := s.key.slots ++ [(64, { slot0 with kind := 1, tenant := 1 })] }
    lcs := { s.lcs with st := 1 }
    att := { s.att with locked := true }
    ile := { s.ile with roster := s.ile.roster ++ [(6, { inst := 8, kind := 0, admitted := 0, kex := zeros 16 })] } }

theorem wit_TenantKeysIssued_colophon :
    ∃ s1 m1 c s2 s3, Safety.attTakesIn issuing false (memOf 10 (aob 32 4096 0 0)) (aob 32 4096 0 0) (zeros 32) s1 m1 ∧ (identity s1).isSome = true
      ∧ capsule s1 (zeros 32) = (c, s2) ∧ Safety.attPuts s2 (aob 32 4096 0 0) c m1 s3 := by
  obtain ⟨s1, m1, h, h'⟩ := attTakesIn_of issuing false (memOf 10 (aob 32 4096 0 0)) (aob 32 4096 0 0) (zeros 32)
    (fun s1 m1 => (identity s1).isSome && putsOk (capsule s1 (zeros 32)).2 (aob 32 4096 0 0) (capsule s1 (zeros 32)).1 m1)
    ⟨rfl, by decide +kernel⟩ (by decide +kernel) rfl rfl (fun h => by cases h) (by decide +kernel) (by decide +kernel)
  obtain ⟨h1, h2⟩ := Bool.and_eq_true_iff.mp h'
  obtain ⟨s3, h3⟩ := attPuts_of _ _ _ _ h2
  exact ⟨s1, m1, _, _, s3, h, h1, rfl, h3⟩

theorem wit_TenantKeysIssued_wrap :
    ∃ s1 m1 e v mk k h gen r s2 s3, Safety.attTakesIn issuing true (memOf 12 (aob 96 4096 5 1)) (aob 96 4096 5 1) (zeros 96) s1 m1 ∧ s1.att.locked = true
      ∧ bits (aoArg2 (aob 96 4096 5 1)) 9 7 = 0
      ∧ tget s1.ile.roster 5 = some e ∧ e.kind = 0 ∧ slotFor s1 1 0 = some 64 ∧ slotAt s1 64 = some v ∧ wrapHalf v false = some (h, mk, gen)
      ∧ halfKey s1 64 h = some k ∧ drbgServes s1 = true ∧ wrapRecord s1 1 1 gen mk (zeros 96) k = (r, s2) ∧ Safety.attPuts s2 (aob 96 4096 5 1) r m1 s3 := by
  obtain ⟨s1, m1, h, h'⟩ := attTakesIn_of issuing true (memOf 12 (aob 96 4096 5 1)) (aob 96 4096 5 1) (zeros 96)
    (fun s1 m1 => (decide (s1.att.locked = true ∧ slotFor s1 1 0 = some 64 ∧ (tget s1.ile.roster 5).map (·.kind) = some 0) && drbgServes s1) &&
      match slotAt s1 64 with
      | some v => match wrapHalf v false with
        | some (h, mk, gen) => match halfKey s1 64 h with
          | some k => putsOk (wrapRecord s1 1 1 gen mk (zeros 96) k).2 (aob 96 4096 5 1) (wrapRecord s1 1 1 gen mk (zeros 96) k).1 m1
          | none => false
        | none => false
      | none => false)
    ⟨rfl, by decide +kernel⟩ (by decide +kernel) rfl rfl (fun _ => by decide +kernel) (by decide +kernel) (by decide +kernel)
  obtain ⟨h1, h2⟩ := Bool.and_eq_true_iff.mp h'
  obtain ⟨h1, hd⟩ := Bool.and_eq_true_iff.mp h1
  obtain ⟨hl, hs, hr⟩ := of_decide_eq_true h1
  obtain ⟨e, he, hk⟩ := Option.map_eq_some_iff.mp hr
  match hv : slotAt s1 64 with
  | none => rw [hv] at h2; cases h2
  | some v =>
    rw [hv] at h2; dsimp only at h2
    match hw : wrapHalf v false with
    | none => rw [hw] at h2; cases h2
    | some (hf, mk, gen) =>
      rw [hw] at h2; dsimp only at h2
      match hh : halfKey s1 64 hf with
      | none => rw [hh] at h2; cases h2
      | some k =>
        rw [hh] at h2
        obtain ⟨s3, h3⟩ := attPuts_of _ _ _ _ h2
        exact ⟨s1, m1, e, v, mk, k, hf, gen, (wrapRecord s1 1 1 gen mk (zeros 96) k).1, (wrapRecord s1 1 1 gen mk (zeros 96) k).2, s3, h, hl, by decide +kernel, he, hk, hs, hv, hw, hh, hd, rfl, h3⟩

theorem wit_TenantKeysIssued_pair :
    ∃ s1 m1 k s2 s3 s4 s5 r0 r1, Safety.attTakesIn issuing true (memOf 20 (aob 192 4096 (5 + 6 * 65536) 1)) (aob 192 4096 (5 + 6 * 65536) 1) (zeros 192) s1 m1
      ∧ bits (aoArg (aob 192 4096 (5 + 6 * 65536) 1)) 14 2 = 0 ∧ bits (aoArg2 (aob 192 4096 (5 + 6 * 65536) 1)) 9 23 = 0
      ∧ (s1.att.locked = true ∧ slotFor s1 1 0 = some 64 ∧ (tget s1.ile.roster 5).map (·.kind) = some 0 ∧ (tget s1.ile.roster 6).map (·.kind) = some 0)
      ∧ drbgServes s1 = true ∧ drbgTake 256 s1 = (k, s2) ∧ wrapRecord s2 2 1 0 pairMasks ((zeros 192).take 96) k = (r0, s3)
      ∧ wrapRecord s3 2 1 0 pairMasks ((zeros 192).drop 96) k = (r1, s4) ∧ Safety.attPuts s4 (aob 192 4096 (5 + 6 * 65536) 1) (r0 ++ r1) m1 s5 := by
  obtain ⟨s1, m1, h, h'⟩ := attTakesIn_of issuing true (memOf 20 (aob 192 4096 (5 + 6 * 65536) 1)) (aob 192 4096 (5 + 6 * 65536) 1) (zeros 192)
    (fun s1 m1 => (decide (s1.att.locked = true ∧ slotFor s1 1 0 = some 64 ∧ (tget s1.ile.roster 5).map (·.kind) = some 0
        ∧ (tget s1.ile.roster 6).map (·.kind) = some 0) && drbgServes s1) &&
      let k := drbgTake 256 s1
      let r0 := wrapRecord k.2 2 1 0 pairMasks ((zeros 192).take 96) k.1
      let r1 := wrapRecord r0.2 2 1 0 pairMasks ((zeros 192).drop 96) k.1
      putsOk r1.2 (aob 192 4096 (5 + 6 * 65536) 1) (r0.1 ++ r1.1) m1)
    ⟨rfl, by decide +kernel⟩ (by decide +kernel) rfl rfl (fun _ => by decide +kernel) (by decide +kernel) (by decide +kernel)
  obtain ⟨h1, h2⟩ := Bool.and_eq_true_iff.mp h'
  obtain ⟨h1, hd⟩ := Bool.and_eq_true_iff.mp h1
  dsimp only at h2
  generalize hk : drbgTake 256 s1 = k at h2
  generalize hr0 : wrapRecord k.2 2 1 0 pairMasks ((zeros 192).take 96) k.1 = r0 at h2
  generalize hr1 : wrapRecord r0.2 2 1 0 pairMasks ((zeros 192).drop 96) k.1 = r1 at h2
  obtain ⟨s3, h3⟩ := attPuts_of _ _ _ _ h2
  exact ⟨s1, m1, k.1, k.2, r0.2, r1.2, s3, r0.1, r1.1, h, by decide +kernel, by decide +kernel, of_decide_eq_true h1, hd, hk, hr0, hr1, h3⟩

theorem wit_TenantKeysIssued_issue :
    ∃ s1 m1 d s2, Safety.attTakes issuing true (memOf 5 (aob 0 4096 0 0)) (aob 0 4096 0 0) s1 m1 ∧ identity s1 = some d
      ∧ Safety.attPuts s1 (aob 0 4096 0 0) (noticeBody s1 ++ bytes96 (Config.ecdsaSign d (noticeBody s1) 0)) m1 s2 := by
  obtain ⟨s1, m1, h, h'⟩ := attTakes_of issuing true (memOf 5 (aob 0 4096 0 0)) (aob 0 4096 0 0)
    (fun s1 m1 => match identity s1 with
      | some d => putsOk s1 (aob 0 4096 0 0) (noticeBody s1 ++ bytes96 (Config.ecdsaSign d (noticeBody s1) 0)) m1 | none => false)
    ⟨rfl, by decide +kernel⟩ (by decide +kernel) rfl rfl (fun _ => by decide +kernel) (by decide +kernel) (by decide +kernel)
  match hd : identity s1 with
  | none => rw [hd] at h'; cases h'
  | some d =>
    rw [hd] at h'
    obtain ⟨s2, h3⟩ := attPuts_of _ _ _ _ h'
    exact ⟨s1, m1, d, s2, h, hd, h3⟩

/-- A rekey notice of epoch 1 for the appointment of zeros. -/
def notice0 : List Byte := leBytes 4 0x594B4552 ++ leBytes 1 1 ++ zeros 15 ++ leBytes 4 1 ++ zeros 104

theorem wit_TenantKeysIssued_apply :
    ∃ s1 m1, Safety.attTakesIn issuing false (memOf 3 (aob 128 0 0 0 ++ notice0)) (aob 128 0 0 0) notice0 s1 m1
      ∧ (appointFits s1 notice0 8 0x10 0x18 && decide (s1.att.rekeyEpoch < fld notice0 0x14 4)) = true :=
  attTakesIn_of issuing false (memOf 3 (aob 128 0 0 0 ++ notice0)) (aob 128 0 0 0) notice0 _
    ⟨rfl, by decide +kernel⟩ (by decide +kernel) rfl rfl (fun h => by cases h) (by decide +kernel) (by decide +kernel)

theorem wit_TenantKeysIssued_stores :
    (∃ s1 m1, Safety.attTakesIn { issuing with key := { issuing.key with idPub := some 1#768 } } false (memOf 3 (aob 112 0 0 0 ++ leBytes 1 1 ++ zeros 111))
        (aob 112 0 0 0) (leBytes 1 1 ++ zeros 111) s1 m1
      ∧ decide (s1.key.idPub = some 1#768 ∧ (roleKey s1 1).isSome = true ∧ (identity s1).isSome = true ∧ s1.lcs.st = 1 ∧ accRoom s1 false = 0#8) = true)
    ∧ ∃ s1 m1, Safety.attTakesIn { issuing with key := { issuing.key with idPub := some 1#768 } } false (memOf 3 (aob 97 0 0 0 ++ 0x04#8 :: bytes96 1#768))
        (aob 97 0 0 0) (0x04#8 :: bytes96 1#768) s1 m1
      ∧ decide (s1.key.idPub = some 1#768 ∧ (identity s1).isSome = true ∧ slice (0x04#8 :: bytes96 1#768) (aoArg (aob 97 0 0 0)) 97 = 0x04#8 :: bytes96 1#768)
        = true :=
  ⟨attTakesIn_of _ false _ (aob 112 0 0 0) (leBytes 1 1 ++ zeros 111) _
      ⟨rfl, by decide +kernel⟩ (by decide +kernel) rfl rfl (fun h => by cases h) (by decide +kernel) (by decide +kernel),
    attTakesIn_of _ false _ (aob 97 0 0 0) (0x04#8 :: bytes96 1#768) _
      ⟨rfl, by decide +kernel⟩ (by decide +kernel) rfl rfl (fun h => by cases h) (by decide +kernel) (by decide +kernel)⟩

/-- A firmware statement of component 2, self-signed by binding, with an image of one line. -/
def statement0 : List Byte := leBytes 4 0x57464853 ++ leBytes 1 1 ++ leBytes 1 2 ++ zeros 2 ++ leBytes 4 7 ++ zeros 4 ++ leBytes 8 64 ++ zeros 48 ++ zeros 104

/-- The issuing block with a current entry of a version, and a staged one. -/
def measuring (cur : Option Nat) : State :=
  { issuing with att := { issuing.att with
      fwCur := match cur with | some n => [(2, { version := n, digest := zeros 48 })] | none => []
      fwStg := [(2, { version := 9, digest := zeros 48 })] } }

theorem wit_FirmwareMeasured_load (cur : Option Nat) (h : cur = none ∨ cur = some 7 ∨ cur = some 8) :
    ∃ s1 m1, Safety.attTakesIn (measuring cur) false (memOf 5 (aob 176 64 0 0 ++ statement0)) (aob 176 64 0 0) statement0 s1 m1
      ∧ fwOk statement0 = true ∧ aoOutLen (aob 176 64 0 0) = fwLen statement0 ∧ (tget s1.att.fwCur (fwComp statement0)).isSome = cur.isSome
      ∧ ∃ img s2 m2, ctlRead s1 (aoOutShelf (aob 176 64 0 0)) (aoOutAddr (aob 176 64 0 0)) (fwLen statement0) m1 = (.ok img, s2, m2)
        ∧ accRoom s2 false = 0#8 := by
  have key : ∀ cur, cur = none ∨ cur = some 7 ∨ cur = some 8 →
      Safety.admitted (measuring cur) 0x11000 ∧ attBusy (measuring cur) = false ∧ (measuring cur).att.wait = none ∧ (measuring cur).key.tampered = false
      ∧ afterIn (measuring cur) (memOf 5 (aob 176 64 0 0 ++ statement0)) (aob 176 64 0 0) statement0 (fun s1 m1 =>
        decide ((tget s1.att.fwCur (fwComp statement0)).isSome = cur.isSome) &&
          match ctlRead s1 (aoOutShelf (aob 176 64 0 0)) (aoOutAddr (aob 176 64 0 0)) (fwLen statement0) m1 with
          | (.ok _, s2, _) => decide (accRoom s2 false = 0#8) | _ => false) = true := by
    rintro cur (rfl | rfl | rfl) <;> exact ⟨⟨rfl, by decide +kernel⟩, by decide +kernel, rfl, rfl, by decide +kernel⟩
  obtain ⟨k0, k1, kw, k2, k3⟩ := key cur h
  obtain ⟨s1, m1, h1, h2⟩ := attTakesIn_of _ false _ (aob 176 64 0 0) statement0 _ k0 k1 kw k2 (fun h => by cases h) (by decide +kernel) k3
  obtain ⟨h3, h4⟩ := Bool.and_eq_true_iff.mp h2
  refine ⟨s1, m1, h1, by decide +kernel, by decide +kernel, of_decide_eq_true h3, ?_⟩
  match hx : ctlRead s1 (aoOutShelf (aob 176 64 0 0)) (aoOutAddr (aob 176 64 0 0)) (fwLen statement0) m1 with
  | (.error e, s2, m2) => rw [hx] at h4; cases h4
  | (.ok y, s2, m2) => rw [hx] at h4; exact ⟨y, s2, m2, rfl, of_decide_eq_true h4⟩

theorem wit_FirmwareMeasured_staged :
    ∃ s1 m1, Safety.attTakes (measuring none) false (memOf 1 (aob 0 0 2 0)) (aob 0 0 2 0) s1 m1
      ∧ decide (aoArg (aob 0 0 2 0) < 4 ∧ (tget s1.att.fwStg (aoArg (aob 0 0 2 0))).isSome = true) = true :=
  attTakes_of (measuring none) false (memOf 1 (aob 0 0 2 0)) (aob 0 0 2 0) _
    ⟨rfl, by decide +kernel⟩ (by decide +kernel) rfl rfl (fun h => by cases h) (by decide +kernel) (by decide +kernel)

/-- The issuing block with stream 3 open, its next half staged or not, and a receiver bound. -/
def streaming (staged : Bool) : State :=
  { issuing with
    key := { issuing.key with slots := tput issuing.key.slots 39 { slot0 with staged := if staged then some ownMasks else none } }
    att := { issuing.att with ideRecv := some 0#768, ide := [(3, { streamId := 8, keySet := 0 })] } }

theorem wit_HostLinkKeys_bind :
    ∃ s1 m1, Safety.attTakesIn issuing false (memOf 3 (aob 96 0 0 0)) (aob 96 0 0 0) (zeros 96) s1 m1
      ∧ ((List.range 28).all fun k => decide (ideState s1 k = 0)) = true :=
  attTakesIn_of issuing false (memOf 3 (aob 96 0 0 0)) (aob 96 0 0 0) (zeros 96) _
    ⟨rfl, by decide +kernel⟩ (by decide +kernel) rfl rfl (fun h => by cases h) (by decide +kernel) (by decide +kernel)

theorem wit_HostLinkKeys_keyex (k : Nat) (hk : k = 2 ∨ k = 3) :
    ∃ s1 m1 d e s2 s3, Safety.attTakesIn (streaming false) false (memOf 10 (aob 128 4096 k 8)) (aob 128 4096 k 8) (zeros 128) s1 m1
      ∧ identity s1 = some d ∧ ideState s1 (aoArg (aob 128 4096 k 8)) ≠ 2 ∧ drbgServes s1 = true ∧ drbgTake 384 s1 = (e, s2)
      ∧ Safety.attPuts s2 (aob 128 4096 k 8) (ideReply s2 (aoArg (aob 128 4096 k 8)) 8 ((zeros 128).take 96) (slice (zeros 128) 96 32)
          (bytes96 (Config.pubOf e)) ++ bytes96 (Config.ecdsaSign d (ideReply s2 (aoArg (aob 128 4096 k 8)) 8 ((zeros 128).take 96)
          (slice (zeros 128) 96 32) (bytes96 (Config.pubOf e))) 0)) m1 s3 := by
  have key : ∀ k, k = 2 ∨ k = 3 → aoOk (aob 128 4096 k 8) = true ∧ afterIn (streaming false) (memOf 10 (aob 128 4096 k 8)) (aob 128 4096 k 8) (zeros 128)
      (fun s1 m1 => (decide (ideState s1 (aoArg (aob 128 4096 k 8)) ≠ 2) && drbgServes s1) && match identity s1 with
        | some d =>
          let e := drbgTake 384 s1
          let body := ideReply e.2 (aoArg (aob 128 4096 k 8)) 8 ((zeros 128).take 96) (slice (zeros 128) 96 32) (bytes96 (Config.pubOf e.1))
          putsOk e.2 (aob 128 4096 k 8) (body ++ bytes96 (Config.ecdsaSign d body 0)) m1
        | none => false) = true := by
    rintro k (rfl | rfl) <;> exact ⟨by decide +kernel, by decide +kernel⟩
  obtain ⟨k1, k2⟩ := key k hk
  obtain ⟨s1, m1, h, h'⟩ := attTakesIn_of (streaming false) false _ (aob 128 4096 k 8) (zeros 128) _
    ⟨rfl, by decide +kernel⟩ (by decide +kernel) rfl rfl (fun h => by cases h) k1 k2
  obtain ⟨h1, h2⟩ := Bool.and_eq_true_iff.mp h'
  obtain ⟨h1, hd⟩ := Bool.and_eq_true_iff.mp h1
  match hi : identity s1 with
  | none => rw [hi] at h2; cases h2
  | some d =>
    rw [hi] at h2
    obtain ⟨s3, h3⟩ := attPuts_of _ _ _ _ h2
    exact ⟨s1, m1, d, _, _, s3, h, hi, of_decide_eq_true h1, hd, rfl, h3⟩

theorem wit_HostLinkKeys_deliver :
    ∃ s1 m1 h recv v r s2 s3, Safety.attTakes (streaming false) false (memOf 12 (aob 0 4096 3 0)) (aob 0 4096 3 0) s1 m1
      ∧ ideHalf s1 3 false = some h ∧ s1.att.ideRecv = some recv ∧ tget s1.att.ide 3 = some v ∧ drbgServes s1 = true
      ∧ ideRecord s1 3 v.streamId 0 recv (ideKeys s1 3 h v.streamId 0) = (r, s2) ∧ Safety.attPuts s2 (aob 0 4096 3 0) r m1 s3 := by
  obtain ⟨s1, m1, h, h'⟩ := attTakes_of (streaming false) false (memOf 12 (aob 0 4096 3 0)) (aob 0 4096 3 0)
    (fun s1 m1 => drbgServes s1 && match ideHalf s1 3 false, s1.att.ideRecv, tget s1.att.ide 3 with
      | some h, some recv, some v =>
        putsOk (ideRecord s1 3 v.streamId 0 recv (ideKeys s1 3 h v.streamId 0)).2 (aob 0 4096 3 0)
          (ideRecord s1 3 v.streamId 0 recv (ideKeys s1 3 h v.streamId 0)).1 m1
      | _, _, _ => false)
    ⟨rfl, by decide +kernel⟩ (by decide +kernel) rfl rfl (fun h => by cases h) (by decide +kernel) (by decide +kernel)
  obtain ⟨h1, h2⟩ := Bool.and_eq_true_iff.mp h'
  match ha : ideHalf s1 3 false, hb : s1.att.ideRecv, hc : tget s1.att.ide 3 with
  | some x, some recv, some v =>
    rw [ha, hb, hc] at h2
    obtain ⟨s3, h3⟩ := attPuts_of _ _ _ _ h2
    exact ⟨s1, m1, x, recv, v, _, _, s3, h, ha, hb, hc, h1, rfl, h3⟩
  | none, _, _ => rw [ha] at h2; cases h2
  | some _, none, _ => rw [ha, hb] at h2; cases h2
  | some _, some _, none => rw [ha, hb, hc] at h2; cases h2

theorem wit_HostLinkKeys_switch :
    ∃ s1 m1, Safety.attTakes (streaming true) false (memOf 1 (aob 0 0 3 0)) (aob 0 0 3 0) s1 m1
      ∧ decide (aoArg (aob 0 0 3 0) < 28 ∧ (slotAt s1 (ideSlot (aoArg (aob 0 0 3 0)))).map (·.staged) = some (some ownMasks)) = true :=
  attTakes_of (streaming true) false (memOf 1 (aob 0 0 3 0)) (aob 0 0 3 0) _
    ⟨rfl, by decide +kernel⟩ (by decide +kernel) rfl rfl (fun h => by cases h) (by decide +kernel) (by decide +kernel)

/-- An action record: action, role, state, ARG0. -/
def actRec (act role st arg serial : Nat) : List Byte :=
  leBytes 4 0x54434152 ++ leBytes 1 1 ++ leBytes 1 act ++ leBytes 1 role ++ leBytes 1 st ++ leBytes 8 serial ++ zeros 8 ++ leBytes 8 arg ++ zeros 272

/-- The issuing block in a state, with a staged record and FLOOR_EPOCH 9. -/
def acting (st : Nat) (b : List Byte) : State :=
  { issuing with
    gen := { issuing.gen with charter := some { chartered [(3, tablesBody), (7, zeros 480)] with sequence := 9 * 2 ^ 48 } }
    lcs := { issuing.lcs with st := st, stage := bufFill [] 0 b, cmdShelf := 32768#32 } }

theorem wit_LifeCycleActs_records (x : Nat × List Byte) (h : x ∈ [(1, actRec 1 2 1 2 0), (0, actRec 1 1 0 1 5), (1, actRec 2 1 1 1 0), (1, actRec 2 1 1 4 0),
      (2, actRec 4 2 2 3 0), (1, actRec 5 1 1 0 0)]) :
    Safety.lcsTakes (acting x.1 x.2) true (memOf 0 []) x.2 { acting x.1 x.2 with lcs := { (acting x.1 x.2).lcs with overrun := false } }
      ∧ Safety.recordFits { acting x.1 x.2 with lcs := { (acting x.1 x.2).lcs with overrun := false } } x.2
      ∧ accRoom { acting x.1 x.2 with lcs := { (acting x.1 x.2).lcs with overrun := false } } false = 0#8 := by
  simp only [List.mem_cons, List.not_mem_nil, or_false] at h
  rcases h with rfl | rfl | rfl | rfl | rfl | rfl <;>
  exact ⟨⟨⟨rfl, by decide +kernel⟩, rfl, by decide +kernel, rfl, fun _ => ⟨by decide +kernel, rfl⟩, fun h => by cases h⟩,
    ⟨by decide +kernel, by decide +kernel, by decide +kernel, by decide +kernel, by decide +kernel, by decide +kernel, by decide +kernel, rfl, rfl⟩,
    by decide +kernel⟩

theorem wit_LifeCycleActs_actions :
    ((acting 1 (actRec 1 2 1 2 0)).lcs.debug = false ∧ (acting 1 (actRec 1 2 1 2 0)).key.bedrockFail = false ∧ arArg (actRec 1 2 1 2 0) = 2)
      ∧ (arArg (actRec 1 1 0 1 5) = 1 ∧ drbgServes (acting 0 (actRec 1 1 0 1 5)) = true ∧ t2Dirty (acting 0 (actRec 1 1 0 1 5)).fuse.blown = false)
      ∧ (Nat.land (arArg (actRec 2 1 1 1 0)) (scopesOf 1) = 1 ∧ Nat.land (arArg (actRec 2 1 1 4 0)) (scopesOf 1) ≠ arArg (actRec 2 1 1 4 0))
      ∧ floorCount (acting 2 (actRec 4 2 2 3 0)).fuse.shadow < arArg (actRec 4 2 2 3 0) ∧ arArg (actRec 4 2 2 3 0) ≤ floorEpoch (acting 2 (actRec 4 2 2 3 0)) :=
  ⟨⟨rfl, rfl, by decide +kernel⟩, ⟨by decide +kernel, rfl, by decide +kernel⟩, ⟨by decide +kernel, by decide +kernel⟩, by decide +kernel, by decide +kernel⟩

theorem wit_LifeCycleActs_memory :
    ∃ b s1, Safety.lcsTakes (acting 1 []) false (memOf 5 (actRec 1 2 1 2 0)) b s1 ∧ Safety.recordFits s1 b := by
  have h : (match ctlRead { acting 1 [] with lcs := { (acting 1 []).lcs with overrun := false } } (acting 1 []).lcs.cmdShelf.toNat
      (acting 1 []).lcs.cmdAddr.toNat 304 (memOf 5 (actRec 1 2 1 2 0)) with
    | (.ok b, s1, _) => decide (arForm b = true ∧ arLcs b = s1.lcs.st ∧ (s1.lcs.st = 0 → arSerial b ≠ 0) ∧ (s1.lcs.st ≠ 0 → arSerial b = serialOf s1.fuse.shadow)
        ∧ arCount b = s1.lcs.accCount ∧ (arAction b = 1 → (transOf s1.lcs.st (arArg b)).map (·.1) = some (arRole b))
        ∧ (arAction b ≠ 1 → (arRights (arAction b) s1.lcs.st).contains (arRole b) = true) ∧ s1.gen.chrBusy = false ∧ s1.att.cmdBusy = false)
    | _ => false) = true := by decide +kernel
  match hx : ctlRead { acting 1 [] with lcs := { (acting 1 []).lcs with overrun := false } } (acting 1 []).lcs.cmdShelf.toNat
      (acting 1 []).lcs.cmdAddr.toNat 304 (memOf 5 (actRec 1 2 1 2 0)) with
  | (.error e, s1, m1) => rw [hx] at h; cases h
  | (.ok b, s1, m1) =>
    rw [hx] at h
    exact ⟨b, s1, ⟨⟨rfl, by decide +kernel⟩, rfl, by decide +kernel, rfl, fun h => (by cases h), fun _ => ⟨rfl, m1, hx⟩⟩, by unfold Safety.recordFits; exact of_decide_eq_true h⟩

theorem wit_LifeCycleActs_disable :
    Safety.admitted (acting 1 []) 0x14000 ∧ (acting 1 []).lcs.cmdBusy = false ∧ coreDown (acting 1 []) = false ∧ (acting 1 []).lcs.intentPending = false
      ∧ accRoom (acting 1 []) false = 0#8 := ⟨⟨rfl, by decide +kernel⟩, rfl, by decide +kernel, rfl, by decide +kernel⟩

theorem wit_LifeCycleActs_blows (a : LcsAct) (h : a = { record := actRec 1 1 0 1 5, bits := [64, 65], tries := 0, flashOk := true }
      ∨ a = { record := actRec 1 1 0 1 5, bits := [65], tries := 0, flashOk := true } ∨ a = { record := actRec 4 2 2 3 0, bits := [896], tries := 0, flashOk := true }) :
    ∃ s x rest, s.pin.pwrok = true ∧ s.lcs.act = some a ∧ a.bits = x :: rest ∧ a.tries < 7 ∧ a.flashOk = true
      ∧ accRoom s (decide (4 ≤ arArg a.record)) = 0#8 := by
  rcases h with rfl | rfl | rfl <;>
  exact ⟨{ acting 0 [] with lcs := { (acting 0 []).lcs with act := some _, cmdBusy := true } }, _, _, rfl, rfl, rfl, by decide, rfl, by decide +kernel⟩

theorem wit_RegisterWritesTake :
    (∀ a ∈ [0x14, 0x48, 0x84, 0x1018, 0x1040, 0x2018, 0x4010, 0x8020, 0x8024, 0x8030, 0x8040, 0x10024, 0x11010, 0x14010, 0x14018, 0x4C, 0x180, 0x4018,
        0x6008, 0x10028, 0x80, 0x40, 0x1010, 0x2010, 0x8018, 0x11008, 0x14008, 0x44, 0x1014, 0x20000, 0x2FFFC, 0x3000, 0x9000, 0x1FFFC, 0x3FFFC, 0xA0],
      ∃ o : BitVec 16, 4 * o.toNat = a ∧ open_.pin.pwrok = true ∧ ctlErr open_ (4 * o.toNat) true = 0)
      ∧ (∃ s : State, s.pin.pwrok = true ∧ ctlErr s (4 * (0x10#16).toNat) true ≠ 0 )
      ∧ ∃ s : State, s.pin.pwrok = true ∧ ctlErr s 0x1014 true = 0 ∧ tget s.gen.wlatch 0x1010 = some 7#32 :=
  ⟨by
      intro a ha
      exact ⟨BitVec.ofNat 16 (a / 4), by revert a; decide +kernel, rfl, by revert a; decide +kernel⟩,
    ⟨{ open_ with dom := { open_.dom with d := [(0, { inReset := true, epoch := 1#32 }), (1, { inReset := false, epoch := 1#32 })] } }, rfl, by decide +kernel⟩,
    ⟨{ open_ with gen := { open_.gen with wlatch := [(0x1010, 7#32)] } }, rfl, by decide +kernel, rfl⟩⟩

theorem wit_RegisterWritesTake_commit :
    Safety.admitted open_ 0xA0 ∧ bits open_.sre.ctrlShadow.toNat 16 16 ≤ bits open_.sre.eabShadow.toNat 0 16
      ∧ linkCode open_ 3 = false ∧ linkCode open_ 4 = true ∧ shapeAgrees (shadowOf open_ 0) = true
      ∧ (∃ s : State, Safety.admitted s 0xA0 ∧ bits s.sre.eabShadow.toNat 0 16 < bits s.sre.ctrlShadow.toNat 16 16)
      ∧ ∃ s : State, Safety.admitted s 0xA0 ∧ linkCode s 4 = true ∧ shapeAgrees (shadowOf s 0) = false :=
  ⟨⟨rfl, by decide +kernel⟩, by decide +kernel, by decide +kernel, by decide +kernel, by decide +kernel,
    ⟨{ open_ with sre := { open_.sre with eabShadow := 1#32 } }, ⟨rfl, by decide +kernel⟩, by decide +kernel⟩,
    ⟨setLport open_ 0 { lportAt open_ 0 with shadow := some { mode := 0#64, cad := 5#64 } }, ⟨rfl, by decide +kernel⟩, by decide +kernel, by decide +kernel⟩⟩

/-- The open block with debug enabled and every scope, its region raw, and a mailbox. -/
def debugging (m : Mbx) : State :=
  { open_ with
    ime := { open_.ime with cat := [(4096, { p0 with rawRead := true, rawWrite := true })] }
    lcs := { open_.lcs with debug := true, scope := 7 }
    att := { open_.att with mbxDbg := m } }

theorem wit_DebugPathServes_mailbox :
    dbgUp (debugging {}) = true ∧ (debugging {}).att.mbxDbg.busy = false ∧ (debugging {}).att.mbxDbg.reqLen < 4096
      ∧ (debugging { reqLen := 4 }).att.mbxDbg.rspReady = false ∧ (debugging { reqLen := 4 }).att.mbxDbg.reqLen ≠ 0
      ∧ (debugging { rsp := [1#8, 2#8], rspReady := true, pos := 1 }).att.mbxDbg.rsp[1]? = some 2#8 := ⟨rfl, rfl, by decide, rfl, by decide, rfl⟩

theorem wit_DebugPathServes_regs :
    regsStatus (debugging {}) (4 * (0x10#16).toNat) false = 0 ∧ regsStatus (debugging {}) (4 * (0x10#16).toNat) true = 0
      ∧ regsStatus open_ (4 * (0x10#16).toNat) false ≠ 0 ∧ regsStatus open_ (4 * (0x10#16).toNat) true ≠ 0 ∧ dbgUp open_ = true
      ∧ scopeHas (debugging {}) 2 = true ∧ scopeHas open_ 2 = false ∧ (zeros 304).length = 304 :=
  ⟨by decide +kernel, by decide +kernel, by decide +kernel, by decide +kernel, rfl, rfl, rfl, by decide +kernel⟩

theorem wit_DebugPathServes_fabric :
    dbgUp (debugging {}) = true ∧ (debugging {}).dbg.fabPending = false ∧ scopeHas (debugging {}) 1 = true ∧ fabClosed (debugging {}) = false
      ∧ (debugging {}).key.tampered = false ∧ (debugging {}).gen.unchartered = false
      ∧ portStopped (debugging {}) (memPort (debugging {}) ((0x1000#52).toNat / 64)) = false
      ∧ noLanes (debugging {}) (memPort (debugging {}) ((0x1000#52).toNat / 64)) = false
      ∧ ∀ k ∈ [MemKind.read, .rawRead, .write, .rawWrite], ∃ s1 m1, memGate { debugging {} with dbg := { (debugging {}).dbg with
          ir := 0x13#8, fabPending := true, fab := 8#704 } } (dbgWho 32768#24 0x1000#52) k 0 noMem
        = (.ok (4096, { p0 with rawRead := true, rawWrite := true }), s1, m1) ∧ Safety.imeQuiet s1 ∧ Safety.keysReady s1 4096 { p0 with rawRead := true, rawWrite := true } :=
  ⟨rfl, rfl, rfl, by decide +kernel, rfl, rfl, (open_port _ (memPort_lt _ rfl _)).1, (open_port _ (memPort_lt _ rfl _)).2,
    by
      intro k hk; simp only [List.mem_cons, List.not_mem_nil, or_false] at hk
      rcases hk with rfl | rfl | rfl | rfl <;> exact ⟨_, _, gated (by decide +kernel), ⟨rfl, rfl, rfl, rfl⟩, .inl rfl⟩⟩

theorem wit_ScrapStaysOut :
    (∃ s t : State, s.lcs.st = 5 ∧ s.gen.halted = true ∧ s.gen.released = false ∧ s.gen.ready = false ∧ exec (.hourTick true) s = .next t ∧ t.lcs.st = 5)
      ∧ ∃ t, exec (.hourTick true) State.reset = .next t :=
  ⟨⟨{ base with lcs := { base.lcs with st := 5 }, gen := { base.gen with halted := true, released := false } }, _, rfl, rfl, rfl, rfl, rfl, rfl⟩, _, rfl⟩

theorem wit_GenerationsNeverWrap_activate :
    ∃ (s : State) (v : Slot), Safety.admitted s 0x100C ∧ s.key.cmdBusy = false ∧ s.key.tampered = false ∧ slotAt s (64#10).toNat = some v
      ∧ v.staged = some ownMasks ∧ v.genCur = 0xFFFFFEFF ∧ s.flt.queue.length < 256 :=
  ⟨{ keyed with key := { keyed.key with slots := [(64, { slot0 with staged := some ownMasks, genCur := 0xFFFFFEFF })] } }, _,
    ⟨rfl, by decide +kernel⟩, rfl, rfl, rfl, rfl, rfl, by decide⟩

theorem wit_GenerationsNeverWrap_load (n : Nat) (h : n = 0 ∨ n = 0xFFFFFF00) :
    ∃ (m1 : MemIn) (s s1 : State), Safety.admitted s 0x100C ∧ s.key.cmdBusy = false ∧ s.key.tampered = false
      ∧ ctlRead s s.key.cmdShelf.toNat s.key.cmdAddr.toNat 192 (memOf 3 (wrapped n)) = (.ok (wrapped n), s1, m1)
      ∧ wrOk (wrapped n) = true ∧ wrDomain (wrapped n) ≠ 0 ∧ wrDomain (wrapped n) = domainId s1 ∧ tenantAvail s1 = true
      ∧ (n = 0 → ∃ v, slotAt s1 (64#10).toNat = some v ∧ v.kind = wrKind (wrapped n) ∧ v.tenant = wrTenant (wrapped n) ∧ v.staged = none ∧ v.prevLive = false
        ∧ v.genCur = 0xFFFFFFFF)
      ∧ (n ≠ 0 → slotAt s1 (65#10).toNat = none ∧ tenantTaken s1 (wrKind (wrapped n)) (wrTenant (wrapped n)) = false ∧ 0xFFFFFF00 ≤ wrGen (wrapped n)) := by
  let s : State := { served with key := { served.key with slots := [(64, { slot0 with tenant := 1, genCur := 0xFFFFFFFF })] } }
  rcases h with rfl | rfl
  · exact ⟨_, s, _, ⟨rfl, by decide +kernel⟩, rfl, rfl, gated (by decide +kernel), by decide +kernel, by decide +kernel,
      by decide +kernel, by decide +kernel, fun _ => ⟨{ slot0 with tenant := 1, genCur := 0xFFFFFFFF }, by decide +kernel, by decide +kernel, by decide +kernel, rfl, rfl, rfl⟩, fun h => absurd rfl h⟩
  · exact ⟨_, s, _, ⟨rfl, by decide +kernel⟩, rfl, rfl, gated (by decide +kernel), by decide +kernel, by decide +kernel,
      by decide +kernel, by decide +kernel, fun h => absurd h (by decide), fun _ => ⟨by decide +kernel, by decide +kernel, by decide +kernel⟩⟩

theorem wit_EffectiveOffers :
    ∃ (s : State) (x : Nat × Nat × Option Nat), x ∈ Safety.versions ∧ s.gen.unchartered = false ∧ bits s.gen.verSel.toNat 0 3 = x.1
      ∧ bit (offerNow s x.1) x.2.1 = true :=
  ⟨{ attending [] false with gen := { (attending [] false).gen with verSel := 6#32 } }, (6, 2, some 1), by decide, rfl, by decide +kernel, by decide +kernel⟩

theorem wit_DomainIndices : (domAt State.reset 0).inReset = true ∧ coreDown base = false := ⟨rfl, rfl⟩

theorem wit_AnnalsRead :
    Safety.admitted base 0x10020 ∧ (∃ s : State, s.pin.pwrok = true ∧ s.flt.queue = [rec0]) ∧ (∃ s : State, Safety.admitted s 0x10020
      ∧ s.flash.standing[bits (0xF0000#32).toNat 0 10]? = some (1, 2, 3) ∧ (dget [] s.flash.rings (bits (0x30000#32).toNat 16 4))[bits (0x30000#32).toNat 0 10]? = some rec0)
      ∧ bits (0xF0000#32).toNat 16 4 = 15 :=
  ⟨⟨rfl, by decide +kernel⟩, ⟨due false, rfl, rfl⟩,
    ⟨{ base with flash := { base.flash with standing := [(1, 2, 3)], rings := [(3, [rec0])] } }, ⟨rfl, by decide +kernel⟩, rfl, rfl⟩, by decide +kernel⟩

theorem wit_FusesKeptByOthers : Safety.changesFuses (.hourTick true) = false ∧ ∃ t, exec (.hourTick true) base = .next t := ⟨rfl, _, rfl⟩

theorem wit_LifeCycleKeptByOthers : Safety.changesLifeCycle .hostReset = false ∧ ∃ t, exec .hostReset base = .next t := ⟨rfl, _, rfl⟩

theorem wit_AttestationKeptByOthers : Safety.changesAttestation .hostReset = false ∧ ∃ t, exec .hostReset base = .next t := ⟨rfl, _, rfl⟩

theorem wit_VaultKeptByOthers : Safety.changesVault .hostReset = false ∧ ∃ t, exec .hostReset base = .next t := ⟨rfl, _, rfl⟩

/-- One ill-formed command for each bound that well-formedness checks. -/
def illFormed : List Instr :=
  let q : FabReq := { req 0#52 with data := [] }
  let f : Frame := { Safety.bringFrame [] with payload := List.replicate 65536 0#8 }
  [.laneBeat 208 beat0 false false, .laneReplace 0 [208], .clockLost 26, .functionDrained 26, .memTrained 4, .linkUp 20, .cadenceTick 0 8, .retryResend 16384 0,
    .memWriteAck 0 2048 0#32, .sweepStep (2 ^ 21) (memOf 0 []), .ctxCreate 512 0, .ctxCreate 0 65536, .commandFetch 4096 (memOf 0 []), .objDestroyRetry ⟨8192, noMem⟩,
    .cutTimeout 4, .watchdogHang 31, .rungTimerExpiry 0 0, .rungTimerExpiry 5 0, .rungTimerExpiry 1 24, .rungTimerExpiry 3 1, .dumpUnitTimeout 10 0,
    .enlistNonceExpire 64, .lcsStage (zeros 303), .powerGood { StartIn.plain with badLanes := [208] }, .powerGood { StartIn.plain with stuckFuses := [8192] },
    .powerGood { StartIn.plain with srHeld := [true, true, true, true, true] }, .hello 0 f, .fabRead { q with ch := 128 } noMem, .fabWrite q noMem noMem,
    .fabCwrite { q with count := 3#4 } noMem, .portSelect 24 .none_, .portSelect 4 (.halfLost 1024 0), .genCommitShape 24]

theorem test_illFormed_refused : (illFormed.map Instr.wf).all (· == false) = true := by decide +kernel

theorem test_wellFormed_passes : ([.laneBeat 207 beat0 false false, .linkUp 19, .rungTimerExpiry 1 23, .lcsStage (zeros 304), .fabRead (req 0#52) noMem,
    .powerGood StartIn.plain] : List Instr).all Instr.wf = true := by decide +kernel

/-- 04 R124's example: line 0x8000_0041, REGION_GEN 0x0003_0002. -/
theorem test_tweak_bytes : blkBytes (xtsTweak (0x0000002000001040 / 64) 0x00030002)
    = [0x41#8, 0#8, 0#8, 0x80#8, 0#8, 0#8, 0#8, 0#8, 2#8, 0#8, 3#8, 0#8, 0#8, 0#8, 0#8, 0#8] := by decide

/-- 15 R468's example, steps 1 and 2: the shadow changes alone, and a shorter HOLD_MS disagrees. -/
theorem test_commit_disagrees :
    (match exec (.registerWrite (BitVec.ofNat 16 (0x5000 / 4)) 0x13880004#32 (memOf 0 [])) open_ with
      | .next s => regValue s 0x5000 == some 0x07D00004 && match exec .genCommitSreTiming s with
        | .next t => regValue t 0xA4 == some 0x00010001 && regValue t 0x5000 == some 0x07D00004
        | _ => false
      | _ => false) = true := by decide +kernel

/-- The same example, steps 3 and 4: HOLD_MS agrees, and both registers take effect. -/
theorem test_commit_done :
    (match exec .genCommitSreTiming { open_ with sre := { open_.sre with ctrlShadow := 0x13880004#32, eabShadow := 0x00001388#32 } } with
      | .next t => regValue t 0xA4 == some 0x00010000 && regValue t 0x5000 == some 0x13880004 && regValue t 0x5004 == some 0x00001388
      | _ => false) = true := by decide +kernel

/-- 11 R345's example: a fourth CORE warm reset in 60 s is a block warm recovery. -/
theorem test_reset_climbs :
    topRung (startRung { base with flt := { base.flt with history := [1, 2, 3].map fun i => { rung := 3, port := 0, ns := i } } } 3 0 0xFF) = 4
      ∧ topRung (startRung { base with flt := { base.flt with history := [1, 2].map fun i => { rung := 3, port := 0, ns := i } } } 3 0 0xFF) = 3 := by decide +kernel

/-- A command in front of the queue runs; an empty queue counts one ACLK (10 R309). -/
theorem test_step_runs_front :
    (match step { base with pending := [.hourTick true] } with | .next t => t.pending == [] && t.flash.hours == 1 | _ => false) = true
      ∧ (match step base with | .next t => t.tm.ns == base.tm.ns + 10 | _ => false) = true := by decide +kernel

end Sys2Proof.Tests
end

namespace Sys2Proof.Proofs

open Sys2Proof.Machine

/-! CTLPORT writes (14 R438): what an admitted and a refused one give. -/

theorem ctlWriteBy_admitted {s : State} {off : Nat} (h : Safety.admitted s off) (f : State → State) : ctlWriteBy s off f = Safety.okay (f s) := by
  obtain ⟨hp, he⟩ := h
  simp [ctlWriteBy, hp, he, Safety.okay]

theorem ctlWriteBy_refused {s : State} {off : Nat} (hp : s.pin.pwrok = true) (he : ctlErr s off true ≠ 0) (f : State → State) :
    ctlWriteBy s off f = emit s (.ctlRsp 0#32 (ctlErr s off true)) := by
  simp [ctlWriteBy, hp, he]

end Sys2Proof.Proofs

/-! The signer: what a served mailbox holds, and what each request is answered with (12 R363 to R368; 15 R471). -/
namespace Sys2Proof.Proofs.Signer

open Sys2Proof.Machine

variable {s : State} {m : Mbx} {q c : List Byte} {d : BitVec 384}

/-! ### Serving a mailbox -/

/-- A request whose turn has come and whose code fits is answered with what the signer makes of it, where the signer draws at most free values. -/
theorem serve_replied {b : Bool} {fits : Nat → Bool} {f : State → Mbx → List Byte → Reply} {r : List Byte} {m' : Mbx} (i : Nat)
    (h : Safety.asked s b q) (hfits : fits (fld q 1 1) = true) (hf : f s (mbxOf s b) q = (r, m', { s with freeIx := i })) :
    Safety.replied s (serve s b fits f) b r m' := by
  obtain ⟨hp, hd, hb, ho, hq⟩ := h
  have he : serve s b fits f = (if b then id else (raiseIrq · 6))
      (setMbx { s with freeIx := i, att := { s.att with mbxOrder := s.att.mbxOrder.tail } } b
        { m' with rsp := r, rspReady := true, busy := false, pos := 0, reqLen := if b then 0 else m'.reqLen }) := by
    cases b <;> simp [serve, setMbx, hp, hd, hb, ho, hq, hfits, hf]
  rw [he]
  cases b <;> simp [Safety.replied, mbxOf, setMbx, raiseIrq]

/-! ### The place of a request in its connection -/

/-- A request at its place in the connection, under the version chosen, passes: stage 1 before CAPABILITIES, 2 before ALGORITHMS, 3 after. -/
theorem spdmGate_passes {stage : Nat} (hv : m.vca ≠ []) (hc : m.caps = decide (2 ≤ stage)) (ha : 2 ≤ stage → m.algs = decide (3 ≤ stage))
    (hq : 2 ≤ stage → fld q 0 1 = verByte m) : spdmGate m q stage = 0 := by
  unfold spdmGate
  by_cases h2 : 2 ≤ stage
  · simp [hv, hc, h2, hq h2, ha h2]; omega
  · simp [hv, hc, h2]; omega

/-- With the algorithms chosen, a request under the version chosen passes. -/
theorem spdmGate_connected (hv : m.vca ≠ []) (hc : m.caps = true) (ha : m.algs = true) (hq : fld q 0 1 = verByte m) : spdmGate m q 3 = 0 :=
  spdmGate_passes hv (by simp [hc]) (fun _ => by simp [ha]) fun _ => hq

theorem needsIdentity_held {f : BitVec 384 → Reply} (hi : identity s = some d) (hg : spdmGate m q 3 = 0) : needsIdentity s m q f = f d := by
  simp [needsIdentity, hi, hg]

theorem needsIdentity_missing {f : BitVec 384 → Reply} (hi : identity s = none) : needsIdentity s m q f = spdmError s m 0x05 (keyState s) := by
  simp [needsIdentity, hi]

/-! ### A free value drawn leaves the chain and the measurements (log 3) -/

@[simp] theorem chainOf_freeIx (i : Nat) : chainOf { s with freeIx := i } = chainOf s := rfl

@[simp] theorem measBlock_freeIx (i k : Nat) : measBlock { s with freeIx := i } k = measBlock s k := rfl

/-- The nonce that a signed response and MEASUREMENTS carry. -/
def nonce (s : State) : Nat := (freshBits 256 s).1.toNat

/-! ### The answers that choose a connection -/

theorem ansVersion_starts (hver : fld q 0 1 = 0x10) (hl : q.length = 4) {vs : List Nat} (hvs : vs = (List.range 16).filter fun n => bit (spdmOffer s) n)
    {r : List Byte} (hr : r = leBytes 1 0x10 ++ leBytes 1 0x04 ++ zeros 3 ++ leBytes 1 vs.length ++ vs.flatMap fun n => leBytes 2 (0x1000 + n * 0x100)) :
    ansVersion s m q = (r, { m with version := 0, caps := false, algs := false, vca := q ++ r, meas := [], auth := [] }, s) := by
  subst hvs hr
  simp [ansVersion, hver, hl]

theorem ansCapabilities_fixes {v : Nat} (hq : v = fld q 0 1) (hg : spdmGate m q 1 = 0) (h1 : v / 16 = 1) (hoff : bit (spdmOffer s) (v % 16) = true)
    (hl : q.length = if v = 0x11 then 12 else 20) {r : List Byte}
    (hr : r = leBytes 1 v ++ leBytes 1 0x61 ++ zeros 3 ++ leBytes 1 15 ++ zeros 2 ++ leBytes 4 (capFlags s)
      ++ if v = 0x11 then [] else leBytes 4 4096 ++ leBytes 4 4096) :
    ansCapabilities s m q = (r, { m with version := v % 16, caps := true, vca := m.vca ++ q ++ r }, s) := by
  subst hq hr
  simp [ansCapabilities, hg, h1, hoff, hl]

theorem ansAlgorithms_chooses (hg : spdmGate m q 2 = 0) (hl : 32 ≤ q.length) (hlen : fld q 4 2 = q.length) (hmeas : bit (fld q 6 1) 0 = true)
    (hsig : bit (fld q 8 4) 7 = true) (hhash : bit (fld q 12 4) 1 = true) {r : List Byte}
    (hr : r = leBytes 1 (verByte m) ++ leBytes 1 0x63 ++ zeros 2 ++ leBytes 2 36 ++ leBytes 1 1 ++ zeros 1 ++ leBytes 4 4 ++ leBytes 4 0x80
      ++ leBytes 4 2 ++ zeros 16) :
    ansAlgorithms s m q = (r, { m with algs := true, vca := m.vca ++ q ++ r }, s) := by
  subst hr
  simp [ansAlgorithms, hg, hl, hlen, hmeas, hsig, hhash]

/-- An offer that lacks DMTF measurements, P-384 or SHA-384 (00 R15; log 155). -/
theorem ansAlgorithms_lacking (hg : spdmGate m q 2 = 0)
    (hlack : bit (fld q 6 1) 0 = false ∨ bit (fld q 8 4) 7 = false ∨ bit (fld q 12 4) 1 = false) : ansAlgorithms s m q = spdmError s m 0x01 0 := by
  rcases hlack with h | h | h <;> simp [ansAlgorithms, hg, h]

/-! ### The answers that need the identity -/

section
variable (hi : identity s = some d) (hg : spdmGate m q 3 = 0) (hc : chainOf s = some c)
include hi hg hc

theorem ansDigests_chain {r : List Byte} (hr : r = leBytes 1 (verByte m) ++ leBytes 1 1 ++ zeros 1 ++ leBytes 1 1 ++ shaBytes c) :
    ansDigests s m q = (r, { m with auth := m.auth ++ q ++ r, meas := [] }, s) := by
  subst hr
  simp [ansDigests, needsIdentity_held hi hg, hc]

theorem ansCertificate_chain {n : Nat} (hn : n = min (fld q 6 2) (min 4088 (c.length - fld q 4 2))) (hl : q.length = 8) (hslot : fld q 2 1 = 0)
    (hoff : fld q 4 2 < c.length) {r : List Byte}
    (hr : r = leBytes 1 (verByte m) ++ leBytes 1 2 ++ zeros 2 ++ leBytes 2 n ++ leBytes 2 (c.length - fld q 4 2 - n) ++ slice c (fld q 4 2) n) :
    ansCertificate s m q = (r, { m with auth := m.auth ++ q ++ r, meas := [] }, s) := by
  subst hn hr
  simp [ansCertificate, needsIdentity_held hi hg, hc, hl, hslot, hoff]

/-- CHALLENGE of slot 0 with no measurement summary asked for. -/
theorem ansChallenge_signs (hl : q.length = 36) (hslot : fld q 2 1 = 0) (hsum : fld q 3 1 = 0) {r : List Byte}
    (hr : r = leBytes 1 (verByte m) ++ leBytes 1 3 ++ leBytes 1 0 ++ leBytes 1 1 ++ shaBytes c ++ leBytes 32 (nonce s) ++ zeros 2) :
    ansChallenge s m q = (r ++ spdmSign d m.version "responder-challenge_auth signing" (m.vca ++ m.auth ++ q ++ r), { m with auth := [], meas := [] },
      { s with freeIx := s.freeIx + 1 }) := by
  subst hr
  simp [ansChallenge, needsIdentity_held hi hg, hc, hl, hslot, hsum, freshBits, nonce]

/-- GET_MEASUREMENTS of one block, with a signature by slot 0. -/
theorem ansMeasurements_signs (hl : q.length = 37) (hattr : fld q 2 1 = 1) (hop : fld q 3 1 = 1) (hslot : fld q 36 1 = 0) {r : List Byte}
    (hr : r = leBytes 1 (verByte m) ++ leBytes 1 0x60 ++ leBytes 1 0 ++ leBytes 1 0 ++ leBytes 1 1 ++ leBytes 3 (measBlock s 1).length ++ measBlock s 1
      ++ leBytes 32 (nonce s) ++ zeros 2) :
    ansMeasurements s m q = (r ++ spdmSign d m.version "responder-measurements signing" ((if m.version < 2 then [] else m.vca) ++ m.meas ++ q ++ r),
      { m with auth := [], meas := [] }, { s with freeIx := s.freeIx + 1 }) := by
  subst hr
  simp [ansMeasurements, needsIdentity_held hi hg, hc, hl, hattr, hop, hslot, bit, bits, signSlot, measReply, freshBits, nonce]

end

/-! ### MEASUREMENTS without a signature -/

/-- A signature not asked for, but a request bit that Table 12-1 does not name. -/
theorem ansMeasurements_unnamed (hg : spdmGate m q 3 = 0) (hsig : bit (fld q 2 1) 0 = false) (hattr : fld q 2 1 ≠ 0) :
    ansMeasurements s m q = spdmError s m 0x01 0 := by
  have h2 : ¬ fld q 2 1 < 2 := by simp [bit, bits] at hsig; omega
  simp [ansMeasurements, hg, hsig, h2]

theorem ansMeasurements_count (hg : spdmGate m q 3 = 0) (hl : q.length = 4) (hattr : fld q 2 1 = 0) (hop : fld q 3 1 = 0) {r : List Byte}
    (hr : r = leBytes 1 (verByte m) ++ leBytes 1 0x60 ++ leBytes 1 16 ++ leBytes 1 0 ++ leBytes 1 0 ++ leBytes 3 0 ++ leBytes 32 (nonce s) ++ zeros 2) :
    ansMeasurements s m q = (r, { m with meas := m.meas ++ q ++ r, auth := [] }, { s with freeIx := s.freeIx + 1 }) := by
  subst hr
  simp [ansMeasurements, hg, hl, hattr, hop, bit, bits, measReply, freshBits, nonce]

theorem ansUnsupported_eq : ansUnsupported s m q = (
    if (identity s).isSome then leBytes 1 (0x10 + m.version) ++ leBytes 1 0x7F ++ leBytes 1 7 ++ leBytes 1 (fld q 1 1)
    else leBytes 1 (0x10 + m.version) ++ leBytes 1 0x7F ++ leBytes 1 5 ++ leBytes 1 (keyState s), m, s) := by
  cases h : identity s <;> simp [ansUnsupported, h, spdmError, verByte]

/-- Without the identity, DIGESTS, CERTIFICATE and CHALLENGE are answered alike (12 R367). -/
theorem identityless_replied {b : Bool} (h : Safety.asked s b q) (hi : identity s = none) {k : Instr × Nat}
    (hk : k ∈ [(Instr.getDigests b, 0x81), (.getCertificate b, 0x82), (.challenge b, 0x83)]) (hcode : fld q 1 1 = k.2) :
    ∃ t, exec k.1 s = .next t ∧ Safety.replied s t b
      (leBytes 1 (0x10 + (mbxOf s b).version) ++ leBytes 1 0x7F ++ leBytes 1 5 ++ leBytes 1 (keyState s)) (mbxOf s b) := by
  simp only [List.mem_cons, List.not_mem_nil, or_false] at hk
  rcases hk with rfl | rfl | rfl <;> exact ⟨_, rfl, serve_replied s.freeIx h (by simp [hcode]) (needsIdentity_missing hi)⟩

/-! ### The mailbox registers (15 R471) -/

/-- SEND on a free mailbox, with no other request waiting; RELEASE finds no response. -/
theorem mbxCtrl_sends {v : Word} (hb : s.att.mbxCtl.busy = false) (hr : s.att.mbxCtl.rspReady = false) (h1 : 1 ≤ bits v.toNat 0 13)
    (h2 : bits v.toNat 0 13 ≤ 4096) (hsend : bit v.toNat 31 = true) (ho : s.att.mbxOrder = []) :
    mbxCtrl s v = { s with att := { s.att with
      mbxCtl := { s.att.mbxCtl with busy := true, reqLen := bits v.toNat 0 13 }, mbxOrder := [(false, s.tm.aclk)] } } := by
  simp [mbxCtrl, mbxTakes, mbxHand, mbxArrive, mbxOf, setMbx, hb, hr, h1, h2, hsend, ho]

end Sys2Proof.Proofs.Signer

namespace Sys2Proof.Proofs

open Sys2Proof.Machine Signer

/-- Settles O43: each request goes through `serve_replied`, with the answer that its own lemma gives. -/
theorem signerAnswers : Obligations.SignerAnswers := by
  unfold Obligations.SignerAnswers
  refine ⟨?requests, fun v s hs => ⟨?send, ?release⟩⟩
  case send =>
    intro hb hr h1 h2 hsend ho
    exact congrArg _ ((ctlWriteBy_admitted hs _).trans (congrArg _ (mbxCtrl_sends hb hr h1 h2 hsend ho)))
  case release => exact congrArg _ (ctlWriteBy_admitted hs _)
  case requests =>
    rintro b q s m h rfl
    refine ⟨?version, ?capabilities, ?algorithms, ?identity, ?unsigned, ?identityless, ?other⟩
    case version =>
      intro hver hcode hl
      exact ⟨_, _, rfl, rfl, serve_replied s.freeIx h (by simp [hcode]) (ansVersion_starts hver hl rfl rfl)⟩
    case capabilities =>
      intro v hv hcode hvca hcaps h1 hoff hl
      have hg : spdmGate (mbxOf s b) q 1 = 0 := spdmGate_passes hvca (by simp [hcaps]) (by omega) (by omega)
      exact ⟨_, _, rfl, List.take_left' (by simp [zeros]),
        serve_replied s.freeIx h (by simp [hcode]) (ansCapabilities_fixes hv hg h1 hoff hl rfl)⟩
    case algorithms =>
      intro hcode hvca hcaps halgs hver hl hlen
      have hg : spdmGate (mbxOf s b) q 2 = 0 := spdmGate_passes hvca (by simp [hcaps]) (fun _ => by simp [halgs]) fun _ => hver
      exact ⟨fun hmeas hsig hhash => ⟨_, _, rfl, rfl,
          serve_replied s.freeIx h (by simp [hcode]) (ansAlgorithms_chooses hg hl hlen hmeas hsig hhash rfl)⟩,
        fun hlack => ⟨_, rfl, serve_replied s.freeIx h (by simp [hcode]) (ansAlgorithms_lacking hg hlack)⟩⟩
    case identity =>
      intro d c hi hvca hcaps halgs hver hc
      have hg := spdmGate_connected hvca hcaps halgs hver
      refine ⟨?digests, ?certificate, ?challenge, ?measurements⟩
      case digests =>
        intro hcode
        exact ⟨_, _, rfl, rfl, serve_replied s.freeIx h (by simp [hcode]) (ansDigests_chain hi hg hc rfl)⟩
      case certificate =>
        intro n hn hcode hl hslot hoff
        exact ⟨_, _, rfl, rfl, serve_replied s.freeIx h (by simp [hcode]) (ansCertificate_chain hi hg hc hn hl hslot hoff rfl)⟩
      case challenge =>
        intro hcode hl hslot hsum
        exact ⟨_, _, _, rfl, rfl, serve_replied _ h (by simp [hcode]) (ansChallenge_signs hi hg hc hl hslot hsum rfl)⟩
      case measurements =>
        intro hcode hl hattr hop hslot
        exact ⟨_, _, _, rfl, rfl, serve_replied _ h (by simp [hcode]) (ansMeasurements_signs hi hg hc hl hattr hop hslot rfl)⟩
    case unsigned =>
      intro hvca hcaps halgs hver hcode hl hsig
      have hg := spdmGate_connected hvca hcaps halgs hver
      exact ⟨fun hattr => ⟨_, rfl, serve_replied s.freeIx h (by simp [hcode]) (ansMeasurements_unnamed hg hsig hattr)⟩,
        fun hattr hop => ⟨_, _, _, rfl, rfl, serve_replied _ h (by simp [hcode]) (ansMeasurements_count hg hl hattr hop rfl)⟩⟩
    case identityless => exact fun hi k hk hcode => identityless_replied h hi hk hcode
    case other =>
      intro hcode
      exact ⟨_, rfl, serve_replied s.freeIx h (by simpa using hcode) ansUnsupported_eq⟩

end Sys2Proof.Proofs

/-! The register window: which register an offset names, what a write of a field leaves, the windows, and the commit pairs (00 R10, R11; 14 R437 to
R439; 15 R451 to R468). -/
namespace Sys2Proof.Proofs.Registers

open Sys2Proof.Machine

/-! ### Bit fields -/

/-- A field put in a value stands between the bits above it and the bits below it. -/
theorem putBits_eq (v lo w x : Nat) : putBits v lo w x = 2 ^ lo * (2 ^ w * (v / 2 ^ (lo + w)) + x % 2 ^ w) + v % 2 ^ lo := by
  have hv : v = 2 ^ lo * (2 ^ w * (v / 2 ^ (lo + w)) + bits v lo w) + v % 2 ^ lo := by
    rw [bits, Nat.pow_add, ← Nat.div_div_eq_div_mul, Nat.div_add_mod, Nat.div_add_mod]
  rw [putBits]
  generalize bits v lo w = b at hv ⊢
  generalize v / 2 ^ (lo + w) = a at hv ⊢
  rw [Nat.mul_comm b, Nat.mul_comm (x % 2 ^ w)]
  rw [Nat.mul_add] at hv ⊢
  omega

theorem bits_putBits_same (v lo w x : Nat) : bits (putBits v lo w (bits x lo w)) lo w = bits x lo w := by
  rw [putBits_eq, bits, Nat.mul_add_div (Nat.two_pow_pos lo), Nat.div_eq_of_lt (Nat.mod_lt _ (Nat.two_pow_pos lo)), Nat.add_zero, Nat.mul_add_mod,
    Nat.mod_mod, bits, Nat.mod_mod]

/-- A register of enough bits keeps a field whole. -/
theorem bits_mod {lo w k : Nat} (h : lo + w ≤ k) (n : Nat) : bits (n % 2 ^ k) lo w = bits n lo w := by
  obtain ⟨j, rfl⟩ := Nat.exists_eq_add_of_le h
  rw [bits, bits, Nat.pow_add, Nat.pow_add, Nat.mul_assoc, Nat.mod_mul_right_div_self, Nat.mod_mul_right_mod]

theorem putFields_taken {old new : Nat} {f : RegField} (h : f.2.2 (bits new f.1 f.2.1) = true) :
    putFields old new [f] = (putBits old f.1 f.2.1 (bits new f.1 f.2.1), false) := by
  simp [putFields, h]

theorem putFields_reserved {old new : Nat} {f : RegField} (h : f.2.2 (bits new f.1 f.2.1) = false) : putFields old new [f] = (old, true) := by
  simp [putFields, h]

theorem setFields_taken {old new n : Nat} {fs : List RegField} (h : putFields old new fs = (n, false)) (s : State) (off : Nat)
    (k : State → Nat → State) : setFields s off old new fs k = k s n := by
  rw [setFields, h]; rfl

theorem setFields_reserved {old new n : Nat} {fs : List RegField} (h : putFields old new fs = (n, true)) (s : State) (off : Nat)
    (k : State → Nat → State) : setFields s off old new fs k = ignoreWrite (k s n) (off / 4) := by
  rw [setFields, h]; rfl

/-! ### Which register an offset names -/

theorem windowWrite_none {off : Nat} (s : State) (w : Word)
    (h : off < 0x12000 ∨ 0x13000 ≤ off ∧ off < 0x14100 ∨ 0x14230 ≤ off ∧ off < 0x20000 ∨ 0x30000 ≤ off) : windowWrite s off w = none := by
  unfold windowWrite
  rw [if_neg (by omega), if_neg (by omega), if_neg (by omega)]

/-- The effect that the group of a base offset gives a whole value written there, none where nothing is writable. -/
def groupWrite (s : State) (off base v : Nat) (m : MemIn) : Option State :=
  if base < 0x1000 then genWrite s off v m base
  else if base < 0x3000 then keyImeWrite s off v m base
  else if 0x4000 ≤ base ∧ base < 0x5000 then ileWrite s off v base
  else if 0x5000 ≤ base ∧ base < 0x8000 then engWrite s off v base
  else if 0x8000 ≤ base ∧ base < 0x9000 then hobWrite s off v m base
  else if 0x10000 ≤ base ∧ base < 0x15000 then aonWrite s off v m base
  else none

theorem regPut_writable {s t : State} {off base v : Nat} {m : MemIn} (h : groupWrite s off base v m = some t) : regPut s off base v m = t := by
  unfold groupWrite at h
  simp [regPut, h]

theorem regPut_unwritable {s : State} {off base v : Nat} {m : MemIn} (h : groupWrite s off base v m = none) (hr : regValue s base = none)
    (hw : windowWord s off = none) : regPut s off base v m = ignoreWrite s (off / 4) := by
  unfold groupWrite at h
  simp [regPut, h, hr, hw]

theorem regWrite_single {s : State} {off : Nat} {w : Word} {m : MemIn} (hb : regBase off = (off, 1))
    (hw : windowWrite s off w = none) : regWrite s off w m = regPut s off off w.toNat m := by
  simp [regWrite, hb, hw]

/-- The lower word of a register of two waits (14 R439). -/
theorem regWrite_lower {s : State} {off : Nat} {w : Word} {m : MemIn} (hb : regBase off = (off, 2)) (hw : windowWrite s off w = none) :
    regWrite s off w m = { s with gen := { s.gen with wlatch := tput s.gen.wlatch off w } } := by
  simp [regWrite, hb, hw]

/-- The words that wait for a register of two words at `base` are dropped. -/
def unlatch (s : State) (base : Nat) : State :=
  { s with gen := { s.gen with wlatch := s.gen.wlatch.filter fun x => !(decide (base ≤ x.1) && decide (x.1 < base + 8)) } }

theorem tget_filter_dropped {α : Type} {t : Tbl α} {p : Nat × α → Bool} {j : Nat} (h : ∀ v, p (j, v) = false) : tget (t.filter p) j = none := by
  induction t with
  | nil => rfl
  | cons x r ih =>
    obtain ⟨i, v⟩ := x
    rw [List.filter_cons]
    split
    · next hp =>
      rw [tget, if_neg, ih]
      rintro rfl
      simp [h] at hp
    · exact ih

theorem tget_unlatch (s : State) (base : Nat) : tget (unlatch s base).gen.wlatch base = none := tget_filter_dropped (by simp)

/-- The higher word makes the whole take effect, with the lower one that waited (14 R439). -/
theorem regWrite_higher {s : State} {base : Nat} {lo w : Word} {m : MemIn} (hb : regBase (base + 4) = (base, 2))
    (hw : windowWrite s (base + 4) w = none) (hlo : tget s.gen.wlatch base = some lo) :
    regWrite s (base + 4) w m = regPut (unlatch s base) (base + 4) base (lo.toNat + w.toNat * 2 ^ 32) m := by
  have hl : latchedBelow s base 2 = lo.toNat := by simp [latchedBelow, hlo]
  simp [regWrite, hb, hw, hl, unlatch]

/-! ### Registers that hold fields -/

/-- A register of one or two words at `base` that only stores its fields `fs`: `get` reads it, `put` replaces it. -/
structure FieldReg (base words : Nat) (fs : List RegField) (get : State → Nat) (put : State → Nat → State) : Prop where
  regBase_eq : ∀ i < words, regBase (base + 4 * i) = (base, words)
  below : base + 4 * words ≤ 0x12000 ∨ 0x13000 ≤ base ∧ base + 4 * words ≤ 0x14100
  write : ∀ s off v m, regPut s off base v m = setFields s off (get s) v fs put
  read : ∀ s, regValue s base = some (get s)
  get_lt : ∀ s, get s < 2 ^ (32 * words)
  get_put : ∀ s n, get (put s n) = n % 2 ^ (32 * words)
  get_ignoreWrite : ∀ s o, get (ignoreWrite s o) = get s
  put_frame : ∀ s n, (put s n).out = s.out ∧ (put s n).flt.ignoredWrite = s.flt.ignoredWrite ∧ (put s n).key.slots = s.key.slots
    ∧ (put s n).flash = s.flash ∧ (put s n).fuse = s.fuse ∧ (put s n).gen.wlatch = s.gen.wlatch

/-- The registers of one field that takes every value: offset, lowest bit, width. -/
def plainRegs : List (Nat × Nat × Nat) :=
  [(0x14, 0, 3), (0x48, 0, 24), (0x84, 0, 11), (0x1018, 0, 24), (0x1040, 0, 10), (0x2018, 0, 24), (0x4010, 0, 14), (0x8020, 0, 24), (0x8030, 0, 13),
   (0x8040, 0, 14), (0x11010, 0, 24), (0x14010, 0, 24), (0x14018, 0, 16)]

theorem plainRegs_fit : ∀ x ∈ plainRegs, x.2.1 + x.2.2 ≤ 32 := by decide

theorem fieldReg_plain : ∀ x ∈ plainRegs, ∃ get put, FieldReg x.1 1 [(x.2.1, x.2.2, anyValue)] get put := by
  intro x hx
  fin_cases hx <;>
  exact ⟨_, _, by decide, by decide, fun _ _ _ _ => regPut_writable rfl, fun _ => rfl, fun _ => BitVec.isLt _, fun _ _ => rfl, fun _ _ => rfl,
    fun _ _ => ⟨rfl, rfl, rfl, rfl, rfl, rfl⟩⟩

/-- FLT_DUMP_SEL. -/
theorem fieldReg_dumpSel : ∃ get put, FieldReg 0x10024 1 [(16, 2, anyValue), (0, 10, anyValue)] get put :=
  ⟨_, _, by decide, by decide, fun _ _ _ _ => regPut_writable rfl, fun _ => rfl, fun _ => BitVec.isLt _, fun _ _ => rfl, fun _ _ => rfl,
    fun _ _ => ⟨rfl, rfl, rfl, rfl, rfl, rfl⟩⟩

/-- The registers of one field from bit 0 with reserved encodings: offset, width, least and greatest value taken. -/
def rangedRegs : List (Nat × Nat × Nat × Nat) := [(0x4C, 17, 16, 65536), (0x180, 5, 0, 24), (0x4018, 7, 1, 64), (0x6008, 16, 1, 60000), (0x10028, 5, 0, 25)]

theorem rangedRegs_fit : ∀ x ∈ rangedRegs, 0 + x.2.1 ≤ 32 := by decide

theorem fieldReg_ranged : ∀ x ∈ rangedRegs, ∃ get put, FieldReg x.1 1 [(0, x.2.1, inRange x.2.2.1 x.2.2.2)] get put ∧ ∀ s n, (put s n).key = s.key := by
  intro x hx
  fin_cases hx <;>
  exact ⟨_, _, ⟨by decide, by decide, fun _ _ _ _ => regPut_writable rfl, fun _ => rfl, fun _ => BitVec.isLt _, fun _ _ => rfl, fun _ _ => rfl,
    fun _ _ => ⟨rfl, rfl, rfl, rfl, rfl, rfl⟩⟩, fun _ _ => rfl⟩

/-- The address registers (15 R454). -/
def addrRegs : List Nat := [0x40, 0x1010, 0x2010, 0x8018, 0x11008, 0x14008]

theorem fieldReg_addr : ∀ a ∈ addrRegs, ∃ get put, FieldReg a 2 addrFields get put := by
  intro a ha
  fin_cases ha <;>
  exact ⟨_, _, by decide, by decide, fun _ _ _ _ => regPut_writable rfl, fun _ => rfl, fun _ => BitVec.isLt _, fun _ _ => rfl, fun _ _ => rfl,
    fun _ _ => ⟨rfl, rfl, rfl, rfl, rfl, rfl⟩⟩

section
variable {base words : Nat} {fs : List RegField} {get : State → Nat} {put : State → Nat → State} (h : FieldReg base words fs get put)
include h

theorem FieldReg.windowWrite_eq {i : Nat} (hi : i < words) (s : State) (w : Word) : windowWrite s (base + 4 * i) w = none :=
  windowWrite_none s w (by have := h.below; omega)

/-- Fields put in the register stand in what it then reads as. -/
theorem FieldReg.regValue_put (s : State) (n : Nat) : regValue (put s n) base = some (n % 2 ^ (32 * words)) := by rw [h.read, h.get_put]

theorem FieldReg.regValue_put_ignored (s : State) (o : Nat) : regValue (ignoreWrite (put s (get s)) o) base = regValue s base := by
  rw [h.read, h.read, h.get_ignoreWrite, h.get_put, Nat.mod_eq_of_lt (h.get_lt s)]

end

theorem FieldReg.regWrite_eq {off : Nat} {fs : List RegField} {get : State → Nat} {put : State → Nat → State} (h : FieldReg off 1 fs get put) (s : State)
    (v : Word) (m : MemIn) : regWrite s off v m = setFields s off (get s) v.toNat fs put :=
  (regWrite_single (h.regBase_eq 0 (by decide)) (h.windowWrite_eq (i := 0) (by decide) s v)).trans (h.write s off _ m)

/-! ### What a write gives a plain field -/

/-- A write to the word at `off` gives the field of `w` bits from `lo` the value written, and what is not the register's stays. -/
def TakesField (off lo w : Nat) : Prop :=
  ∀ (s : State) (v : Word) (m : MemIn), ∃ t n, regWrite s off v m = t ∧ regValue t off = some n ∧ bits n lo w = bits v.toNat lo w
    ∧ t.out = s.out ∧ t.flt.ignoredWrite = s.flt.ignoredWrite ∧ t.key.slots = s.key.slots ∧ t.flash = s.flash ∧ t.fuse = s.fuse

/-- A register whose fields all take their values, one of them the field. -/
theorem FieldReg.takesField {off lo w : Nat} {fs : List RegField} {get : State → Nat} {put : State → Nat → State} (h : FieldReg off 1 fs get put)
    (hw : lo + w ≤ 32) (hfs : ∀ old new, ∃ n, putFields old new fs = (n, false) ∧ bits n lo w = bits new lo w) : TakesField off lo w := by
  intro s v m
  obtain ⟨n, hput, hn⟩ := hfs (get s) v.toNat
  have hwrite : regWrite s off v m = put s n := by
    rw [h.regWrite_eq, setFields_taken hput]
  obtain ⟨hout, hign, hslots, hflash, hfuse, -⟩ := h.put_frame s n
  exact ⟨put s n, _, hwrite, h.regValue_put s n, (bits_mod hw n).trans hn, hout, hign, hslots, hflash, hfuse⟩

theorem takesField_plain {x : Nat × Nat × Nat} (hx : x ∈ plainRegs) : TakesField x.1 x.2.1 x.2.2 := by
  obtain ⟨get, put, h⟩ := fieldReg_plain x hx
  exact h.takesField (plainRegs_fit x hx) fun old new => ⟨_, putFields_taken rfl, bits_putBits_same _ _ _ _⟩

theorem putFields_dumpSel (old new : Nat) :
    ∃ n, putFields old new [(16, 2, anyValue), (0, 10, anyValue)] = (n, false) ∧ bits n 16 2 = bits new 16 2 ∧ bits n 0 10 = bits new 0 10 := by
  refine ⟨putBits (putBits old 16 2 (bits new 16 2)) 0 10 (bits new 0 10), rfl, ?_, bits_putBits_same _ _ _ _⟩
  simp only [bits, putBits]
  omega

theorem takesField_hobArg : TakesField 0x8024 0 32 := by
  intro s v m
  have hwrite : regWrite s 0x8024 v m = { s with hob := { s.hob with cmdArg := v } } := by
    rw [regWrite_single (by decide) (windowWrite_none s v (by decide))]
    exact (regPut_writable rfl).trans (by rw [BitVec.ofNat_toNat, BitVec.setWidth_eq])
  exact ⟨_, _, hwrite, rfl, rfl, rfl, rfl, rfl, rfl, rfl⟩

theorem takesField_of_mem : ∀ x ∈ [(0x14, 0, 3), (0x48, 0, 24), (0x84, 0, 11), (0x1018, 0, 24), (0x1040, 0, 10), (0x2018, 0, 24), (0x4010, 0, 14),
    (0x8020, 0, 24), (0x8024, 0, 32), (0x8030, 0, 13), (0x8040, 0, 14), (0x10024, 16, 2), (0x10024, 0, 10), (0x11010, 0, 24), (0x14010, 0, 24),
    (0x14018, 0, 16)], TakesField x.1 x.2.1 x.2.2 := by
  intro x hx
  have hcases : x ∈ plainRegs ∨ x = (0x8024, 0, 32) ∨ x = (0x10024, 16, 2) ∨ x = (0x10024, 0, 10) := by revert x; decide
  obtain ⟨get, put, hdump⟩ := fieldReg_dumpSel
  rcases hcases with hx | rfl | rfl | rfl
  · exact takesField_plain hx
  · exact takesField_hobArg
  · exact hdump.takesField (by decide) fun old new => (putFields_dumpSel old new).imp fun n h => ⟨h.1, h.2.1⟩
  · exact hdump.takesField (by decide) fun old new => (putFields_dumpSel old new).imp fun n h => ⟨h.1, h.2.2⟩

/-! ### What a write gives a field with reserved encodings (00 R11) -/

theorem regWrite_ranged {x : Nat × Nat × Nat × Nat} (hx : x ∈ rangedRegs) (s : State) (v : Word) (m : MemIn) :
    ∃ t n, regWrite s x.1 v m = t ∧ regValue t x.1 = some n ∧ t.out = s.out ∧ t.flash = s.flash ∧ t.key = s.key
      ∧ (inRange x.2.2.1 x.2.2.2 (bits v.toNat 0 x.2.1) = true → bits n 0 x.2.1 = bits v.toNat 0 x.2.1 ∧ t.flt.ignoredWrite = s.flt.ignoredWrite)
      ∧ (inRange x.2.2.1 x.2.2.2 (bits v.toNat 0 x.2.1) = false → regValue s x.1 = some n ∧ t.flt.ignoredWrite = true
        ∧ t.flt.ignoredOffset = x.1 / 4 % 65536) := by
  obtain ⟨get, put, h, hkey⟩ := fieldReg_ranged x hx
  have hw := rangedRegs_fit x hx
  have hput : regWrite s x.1 v m = setFields s x.1 (get s) v.toNat [(0, x.2.1, inRange x.2.2.1 x.2.2.2)] put := h.regWrite_eq s v m
  cases hr : inRange x.2.2.1 x.2.2.2 (bits v.toNat 0 x.2.1)
  case true =>
    obtain ⟨hout, hign, -, hflash, -, -⟩ := h.put_frame s (putBits (get s) 0 x.2.1 (bits v.toNat 0 x.2.1))
    exact ⟨_, _, hput.trans (setFields_taken (putFields_taken hr) s _ put), h.regValue_put s _, hout, hflash, hkey s _,
      fun _ => ⟨(bits_mod hw _).trans (bits_putBits_same _ _ _ _), hign⟩, by simp⟩
  case false =>
    obtain ⟨hout, -, -, hflash, -, -⟩ := h.put_frame s (get s)
    exact ⟨_, _, hput.trans (setFields_reserved (putFields_reserved hr) s _ put), (h.regValue_put_ignored s _).trans (h.read s), hout, hflash, hkey s _,
      by simp, fun _ => ⟨h.read s, rfl, rfl⟩⟩

/-! ### Address registers (14 R439; 15 R454) -/

theorem regWrite_addr_lower {a : Nat} (ha : a ∈ addrRegs) (s : State) (v : Word) (m : MemIn) :
    regWrite s a v m = { s with gen := { s.gen with wlatch := tput s.gen.wlatch a v } } := by
  obtain ⟨get, put, h⟩ := fieldReg_addr a ha
  exact regWrite_lower (h.regBase_eq 0 (by decide)) (h.windowWrite_eq (i := 0) (by decide) s v)

theorem regWrite_addr_higher {a : Nat} (ha : a ∈ addrRegs) {s : State} {lo : Word} (hlo : tget s.gen.wlatch a = some lo) (v : Word) (m : MemIn) :
    ∃ t n, regWrite s (a + 4) v m = t ∧ regValue t a = some n ∧ bits n 0 52 = bits (lo.toNat + v.toNat * 2 ^ 32) 0 52
      ∧ tget t.gen.wlatch a = none ∧ t.out = s.out := by
  obtain ⟨get, put, h⟩ := fieldReg_addr a ha
  have hput := (regWrite_higher (m := m) (h.regBase_eq 1 (by decide)) (h.windowWrite_eq (i := 1) (by decide) s v) hlo).trans (h.write _ _ _ m)
  obtain ⟨hout, -, -, -, -, hlatch⟩ := h.put_frame (unlatch s a)
    (putBits (get (unlatch s a)) 0 52 (bits (lo.toNat + v.toNat * 2 ^ 32) 0 52))
  exact ⟨_, _, hput.trans (setFields_taken (putFields_taken rfl) _ _ put), h.regValue_put _ _,
    (bits_mod (by decide) _).trans (bits_putBits_same _ _ _ _), (congrArg (tget · a) hlatch).trans (tget_unlatch s a), hout⟩

/-! ### The charter window -/

theorem extractLsb'_append_bytes (w : Word) : w.extractLsb' 24 8 ++ w.extractLsb' 16 8 ++ w.extractLsb' 8 8 ++ w.extractLsb' 0 8 = w := by
  rw [BitVec.extractLsb'_append_extractLsb'_eq_extractLsb' (by decide), BitVec.extractLsb'_append_extractLsb'_eq_extractLsb' (by decide),
    BitVec.extractLsb'_append_extractLsb'_eq_extractLsb' (by decide)]
  exact BitVec.extractLsb'_eq_self

theorem bufWord_bufPutWord (b : List Host.Cell) (a : Nat) (w : Word) : bufWord (bufPutWord b a w) a = w := by
  have hread (i : Nat) (hi : i < 4) := bufRead_bufFill_in b a [w.extractLsb' 0 8, w.extractLsb' 8 8, w.extractLsb' 16 8, w.extractLsb' 24 8] i hi
  have h0 := hread 0 (by decide)
  rw [Nat.add_zero] at h0
  rw [bufWord, bufPutWord, hread 3 (by decide), hread 2 (by decide), hread 1 (by decide), h0]
  exact extractLsb'_append_bytes w

theorem bufRead_bufPutWord_other (b : List Host.Cell) {a j : Nat} (w : Word) (h : j < a ∨ a + 4 ≤ j) :
    bufRead (bufPutWord b a w) j = bufRead b j :=
  h.elim (bufRead_bufFill_below b a _ j) fun h => bufRead_bufFill_above b a _ j h

theorem regWrite_chrWindow {off : Nat} (h : 0x20000 ≤ off ∧ off < 0x30000) (s : State) (v : Word) (m : MemIn) :
    regWrite s off v m = { s with gen := { s.gen with chrWindow := bufPutWord s.gen.chrWindow (off - 0x20000) v } } := by
  simp [regWrite, windowWrite, h]

/-! ### Offsets with no register -/

/-- Every wide register lies below the first gap of the window or between two gaps. -/
theorem wideRegs_apart : ∀ r ∈ wideRegs, r.1 + 4 * r.2 ≤ 0x3000 ∨ 0x4000 ≤ r.1 ∧ r.1 + 4 * r.2 ≤ 0x9000 ∨ 0x10000 ≤ r.1 ∧ r.1 + 4 * r.2 ≤ 0x15000 := by
  decide

/-- The gaps between the groups of the window. -/
def inGap (off : Nat) : Prop :=
  0x3000 ≤ off ∧ off < 0x4000 ∨ 0x9000 ≤ off ∧ off < 0x10000 ∨ 0x15000 ≤ off ∧ off < 0x20000 ∨ 0x30000 ≤ off ∧ off < 0x40000

section
variable {off : Nat} (h : inGap off)
include h

theorem regBase_gap : regBase off = (off, 1) := by
  unfold inGap at h
  have hwide : wideRegs.find? (fun r => decide (r.1 ≤ off) && decide (off < r.1 + 4 * r.2)) = none :=
    List.find?_eq_none.mpr fun r hr => by have := wideRegs_apart r hr; simp; omega
  have hile : ileBlock off = none := by rw [ileBlock, if_neg (by omega)]
  simp only [regBase, hwide, hile]

theorem windowWrite_gap (s : State) (v : Word) : windowWrite s off v = none :=
  windowWrite_none s v (by unfold inGap at h; omega)

theorem regPut_gap (s : State) (v : Nat) (m : MemIn) : regPut s off off v m = ignoreWrite s (off / 4) := by
  unfold inGap at h
  refine regPut_unwritable ?_ ?_ ?_
  · unfold groupWrite
    rw [if_neg (by omega), if_neg (by omega), if_neg (by omega), if_neg (by omega), if_neg (by omega), if_neg (by omega)]
  · unfold regValue
    rw [if_neg (by omega), if_neg (by omega), if_neg (by omega), if_neg (by omega), if_neg (by omega)]
  · unfold windowWord
    rw [if_neg (by omega), if_neg (by omega), if_neg (by omega), if_neg (by omega)]

theorem regWrite_gap (s : State) (v : Word) (m : MemIn) : regWrite s off v m = ignoreWrite s (off / 4) :=
  (regWrite_single (regBase_gap h) (windowWrite_gap h s v)).trans (regPut_gap h s _ m)

end

/-! ### The interrupt sources (15 R459) -/

theorem regWrite_irqStatus (s : State) (v : Word) (m : MemIn) :
    regWrite s 0x80 v m = { s with gen := { s.gen with irqStatus := s.gen.irqStatus &&& ~~~v } } := by
  rw [regWrite_single (by decide) (windowWrite_none s v (by decide))]
  exact (regPut_writable rfl).trans (by rw [BitVec.ofNat_toNat, BitVec.setWidth_eq])

/-! ### Commit pairs (15 R467, R468) -/

theorem commitEnd_irq (s : State) (pair port code : Nat) : (commitEnd s pair port code).gen.irqStatus.getLsbD 10 = true := by
  simp [commitEnd, raiseIrq]

theorem commitSre_agreed {s : State} (h : sreTimeout s.sre.ctrlShadow ≤ sreHold s.sre.eabShadow) :
    commitSre s = commitEnd { s with sre := { s.sre with ctrl := s.sre.ctrlShadow, eabCtrl := s.sre.eabShadow } } 1 0 0 :=
  if_neg (Nat.not_lt.mpr h)

theorem commitSre_disagreed {s : State} (h : sreHold s.sre.eabShadow < sreTimeout s.sre.ctrlShadow) : commitSre s = commitEnd s 1 0 1 := if_pos h

theorem commitShape_absent {s : State} {q : Nat} (h : linkCode s q = false) : commitShape s q = commitEnd s 2 q 2 := by simp [commitShape, h]

theorem commitShape_disagreed {s : State} {q : Nat} (h : linkCode s q = true) (hs : shapeAgrees (shadowOf s (q - 4)) = false) :
    commitShape s q = commitEnd s 2 q 1 := by simp [commitShape, h, hs]

/-- The port as a SHAPE commit leaves it. -/
def committed (s : State) (e : Nat) : LPort := { lportAt s e with shape := some (shadowOf s e), shadow := some (shadowOf s e) }

theorem commitShape_agreed {s : State} {q : Nat} (h : linkCode s q = true) (hs : shapeAgrees (shadowOf s (q - 4)) = true) :
    commitShape s q = commitEnd (setLport s (q - 4) (committed s (q - 4))) 2 q 0 := by simp [commitShape, h, hs, committed]

theorem lportAt_commitEnd (s : State) (pair port code e : Nat) : lportAt (commitEnd s pair port code) e = lportAt s e := rfl

/-- A commit of agreeing shadows makes them the values in use at its port, and leaves every other port. -/
theorem commitShape_takes {s : State} {q : Nat} (h : linkCode s q = true) (hs : shapeAgrees (shadowOf s (q - 4)) = true) :
    shapeOf (commitShape s q) (q - 4) = shadowOf s (q - 4) ∧ ∀ e, e ≠ q - 4 → lportAt (commitShape s q) e = lportAt s e := by
  have hport : ∀ e, lportAt (commitShape s q) e = if q - 4 = e then committed s (q - 4) else lportAt s e := fun e => by
    rw [commitShape_agreed h hs, lportAt_commitEnd, lportAt_setLport]
  refine ⟨?_, fun e he => by rw [hport, if_neg he.symm]⟩
  rw [shapeOf, hport, if_pos rfl]
  rfl

/-! ### The commands -/

theorem regValue_okay (s : State) (off : Nat) : regValue (Safety.okay s) off = regValue s off := rfl

theorem exec_registerWrite {o : BitVec 16} {s : State} {off : Nat} (ho : 4 * o.toNat = off) (h : Safety.admitted s (4 * o.toNat)) (v : Word) (m : MemIn) :
    exec (.registerWrite o v m) s = .next (Safety.okay (regWrite s off v m)) := by
  subst ho
  exact congrArg _ (ctlWriteBy_admitted h _)

theorem exec_genCommitSreTiming {s : State} (h : Safety.admitted s 0xA0) : exec .genCommitSreTiming s = .next (Safety.okay (commitSre s)) :=
  congrArg _ (ctlWriteBy_admitted h _)

theorem exec_genCommitShape {s : State} (h : Safety.admitted s 0xA0) {p : Nat} (hp : p < 32) :
    exec (.genCommitShape p) s = .next (Safety.okay (commitShape s p)) := by
  rw [← Nat.mod_eq_of_lt hp]
  exact congrArg _ ((ctlWriteBy_admitted h _).trans (by rw [Nat.mod_mod]))

/-- A SHAPE commit of any port ends with the COMMIT source, and names the pair and the port. -/
theorem commitShape_ends (s : State) (q : Nat) :
    (commitShape s q).gen.irqStatus.getLsbD 10 = true ∧ (commitShape s q).gen.commitPair = 2 ∧ (commitShape s q).gen.commitPort = q := by
  cases hl : linkCode s q
  · rw [commitShape_absent hl]; exact ⟨commitEnd_irq .., rfl, rfl⟩
  · cases hs : shapeAgrees (shadowOf s (q - 4))
    · rw [commitShape_disagreed hl hs]; exact ⟨commitEnd_irq .., rfl, rfl⟩
    · rw [commitShape_agreed hl hs]; exact ⟨commitEnd_irq .., rfl, rfl⟩

/-- The SRE commit makes both shadows the values in use where HOLD_MS is at least TIMEOUT_MS. -/
theorem genCommitSreTiming_ends {s : State} (hs : Safety.admitted s 0xA0) :
    ∃ t, exec .genCommitSreTiming s = .next t ∧ t.gen.irqStatus.getLsbD 10 = true ∧ t.gen.commitPair = 1
      ∧ (sreTimeout s.sre.ctrlShadow ≤ sreHold s.sre.eabShadow →
        t.gen.commitCode = 0#8 ∧ t.sre = { s.sre with ctrl := s.sre.ctrlShadow, eabCtrl := s.sre.eabShadow })
      ∧ (sreHold s.sre.eabShadow < sreTimeout s.sre.ctrlShadow → t.gen.commitCode = 1#8 ∧ t.sre = s.sre) := by
  refine ⟨_, exec_genCommitSreTiming hs, ?_⟩
  rcases Nat.lt_or_ge (sreHold s.sre.eabShadow) (sreTimeout s.sre.ctrlShadow) with h | h
  · rw [commitSre_disagreed h]
    exact ⟨commitEnd_irq .., rfl, fun h' => absurd h (Nat.not_lt.mpr h'), fun _ => ⟨rfl, rfl⟩⟩
  · rw [commitSre_agreed h]
    exact ⟨commitEnd_irq .., rfl, fun _ => ⟨rfl, rfl⟩, fun h' => absurd h' (Nat.not_lt.mpr h)⟩

end Sys2Proof.Proofs.Registers

namespace Sys2Proof.Proofs

open Sys2Proof.Machine Registers

/-- Settles O49: a field register stores its fields (`FieldReg`), and each other write has its own lemma. -/
theorem registerWritesTake : Obligations.RegisterWritesTake := by
  unfold Obligations.RegisterWritesTake
  refine ⟨fun o v m s hp he => ?admitted, fun o v m s hp he => ?refused, fun s hs => ⟨genCommitSreTiming_ends hs, fun p hp => ?shape⟩⟩
  case refused => exact congrArg _ (ctlWriteBy_refused hp he _)
  case shape =>
    obtain ⟨hirq, hpair, hport⟩ := commitShape_ends s p
    refine ⟨_, exec_genCommitShape hs hp, hirq, hpair, hport, ?absent, ?disagreed, ?agreed⟩
    case absent => intro hl; rw [commitShape_absent hl]; exact ⟨rfl, rfl⟩
    case disagreed => intro hl hd; rw [commitShape_disagreed hl hd]; exact ⟨rfl, rfl⟩
    case agreed =>
      intro hl hd
      obtain ⟨hshape, hports⟩ := commitShape_takes hl hd
      exact ⟨by rw [commitShape_agreed hl hd]; rfl, hshape, hports⟩
  case admitted =>
    refine ⟨fun x hx ho => ?plain, fun x hx ho => ?ranged, fun ho => ?irq, fun a ha => ⟨fun ho => ?lower, fun lo ho hlo => ?higher⟩,
      fun hlo hhi => ?window, fun ⟨x, hx, hlo, hhi⟩ => ?gap⟩
    case plain =>
      obtain ⟨t, n, rfl, hn, hbits, hout, hign, hslots, hflash, hfuse⟩ := takesField_of_mem x hx s v m
      exact ⟨_, n, exec_registerWrite ho ⟨hp, he⟩ v m, (regValue_okay _ _).trans hn, hbits, congrArg (· ++ _) hout, hign, hslots, hflash, hfuse⟩
    case ranged =>
      obtain ⟨t, n, rfl, hn, hout, hflash, hkey, htaken, hkept⟩ := regWrite_ranged hx s v m
      refine ⟨_, n, exec_registerWrite ho ⟨hp, he⟩ v m, (regValue_okay _ _).trans hn, congrArg (· ++ _) hout, hflash, hkey, ?_, ?_⟩
      · exact fun h1 h2 => htaken (by simp [inRange, h1, h2])
      · intro hr
        obtain ⟨hold, hign, hoff⟩ := hkept (by simpa [inRange] using hr)
        exact ⟨hold, hign, hoff.trans (by omega)⟩
    case irq => exact (exec_registerWrite ho ⟨hp, he⟩ v m).trans (by rw [regWrite_irqStatus])
    case lower => exact (exec_registerWrite ho ⟨hp, he⟩ v m).trans (by rw [regWrite_addr_lower ha])
    case higher =>
      obtain ⟨t, n, rfl, hn, hbits, hlatch, hout⟩ := regWrite_addr_higher ha hlo v m
      exact ⟨_, n, exec_registerWrite ho ⟨hp, he⟩ v m, (regValue_okay _ _).trans hn, hbits, hlatch, congrArg (· ++ _) hout⟩
    case window =>
      refine ⟨_, exec_registerWrite rfl ⟨hp, he⟩ v m, ?_⟩
      rw [regWrite_chrWindow ⟨hlo, hhi⟩]
      exact ⟨bufWord_bufPutWord _ _ _, rfl, fun a ha => bufRead_bufPutWord_other _ _ ha⟩
    case gap =>
      have hgap : inGap (4 * o.toNat) := by
        simp only [List.mem_cons, List.not_mem_nil, or_false] at hx
        unfold inGap
        rcases hx with rfl | rfl | rfl | rfl <;> omega
      have hoff : 4 * o.toNat / 4 % 65536 = o.toNat := by omega
      refine (exec_registerWrite rfl ⟨hp, he⟩ v m).trans ?_
      rw [regWrite_gap hgap, ignoreWrite, hoff]

end Sys2Proof.Proofs

/-! The return of HOST's clock: what it does to the domains, and a table of domains that lists HOST twice (01 R36, R39). -/
namespace Sys2Proof.Proofs.Clocks

open Sys2Proof.Machine

@[simp] theorem lateWipe_dom (s : State) : (lateWipe s).dom = s.dom := by
  unfold lateWipe
  split <;> rfl

@[simp] theorem lateWipe_gen (s : State) : (lateWipe s).gen = s.gen := by
  unfold lateWipe
  split <;> rfl

@[simp] theorem lateWipe_flt (s : State) : (lateWipe s).flt = s.flt := by
  unfold lateWipe
  split <;> rfl

theorem domAt_lateWipe (s : State) (d : Nat) : domAt (lateWipe s) d = domAt s d := by
  unfold domAt
  rw [lateWipe_dom]

/-- HOST as a clock that returns leaves it: out of reset, its epoch one more. -/
def hostBack (s : State) : Dom := { domAt s 1 with clockLost := false, inReset := false, first := false, epoch := epochOf s 1 + 1#32 }

/-- A HOST clock that returns, read domain by domain: HOST leaves reset with the next epoch and no other domain moves (01 R36, R39). This holds of every
state; O11 asks it of the table itself, as a list. -/
theorem domAt_clockReturn_host {s : State} (hp : s.pin.pwrok = true) (hl : (domAt s 1).clockLost = true) (hr : s.gen.released = true)
    (hc : s.flt.coldReq = false) (hw : s.gen.c5Wait = none) (he : epochOf s 1 ≠ 0xFFFFFFFF#32) (bad : List Nat) (j : Nat) :
    domAt (clockReturn s 1 bad) j = if 1 = j then hostBack s else domAt s j := by
  let t := lateWipe (setDom s 1 { domAt s 1 with clockLost := false })
  have hdom (j : Nat) : domAt t j = if 1 = j then { domAt s 1 with clockLost := false } else domAt s j :=
    (domAt_lateWipe _ j).trans (domAt_setDom ..)
  have hepoch : epochOf t 1 = epochOf s 1 := by rw [epochOf, hdom, if_pos rfl]; rfl
  have hreturn : clockReturn s 1 bad = exitReset (resetDom t 1) 1 := by
    unfold clockReturn
    simp [hl, hp, hw, hr, hc, he, t, hepoch]
  rw [hreturn, domAt_exitReset, epochOf, resetDom, domAt_setDom_same, domAt_setDom, hdom, hdom]
  split <;> rfl

/-- A powered block whose table of domains lists HOST twice: read by index, HOST is as power left it, its clock lost. -/
def hostTwice : State :=
  { State.reset with
    pin := { State.reset.pin with pwrok := true }
    gen := { State.reset.gen with released := true }
    dom := { State.reset.dom with d := [(1, { clockLost := true }), (1, {})] } }

/-- HOST with its clock running, and nothing else, is what an unlisted domain reads as: both entries go, and HOST's exit lists it once. -/
theorem hostTwice_listed_once : (clockReturn hostTwice 1 []).dom.d.length = 1 := by decide

theorem hostTwice_setDom_listed_twice : (setDom hostTwice 1 (hostBack hostTwice)).dom.d.length = 2 := by decide

end Sys2Proof.Proofs.Clocks

namespace Sys2Proof.Proofs

open Sys2Proof.Machine Clocks

/-- Refutes O11: the clause of HOST's return equates two tables of domains as lists, and `hostTwice`, whose table is not in canonical form, gives
lists of different lengths. Read by index the clause holds of every state (`domAt_clockReturn_host`). -/
theorem not_clockLossAndReturn : ¬ Obligations.ClockLossAndReturn := by
  unfold Obligations.ClockLossAndReturn
  rintro ⟨-, hreturn, -⟩
  obtain ⟨t, ht, hhost, -⟩ := hreturn 1 [] hostTwice rfl rfl rfl rfl rfl (by decide)
  obtain rfl : clockReturn hostTwice 1 [] = t := Host.Outcome.next.inj ht
  have hlen : (clockReturn hostTwice 1 []).dom.d.length = (setDom hostTwice 1 (hostBack hostTwice)).dom.d.length := by rw [hhost rfl]; rfl
  rw [hostTwice_listed_once, hostTwice_setDom_listed_twice] at hlen
  exact absurd hlen (by decide)

end Sys2Proof.Proofs

/-! The lane pool: which fields the lane operations write, and what a beat releases or fences (01 R18 to R31; 11 R336 to R338). -/
namespace Sys2Proof.Proofs.Lanes

open Sys2Proof.Machine

/-! ### Fencing, tests and replacement write the lanes, fault records, standing list and interrupt sources alone -/

/-- `t` differs from `s` at most in the lanes, the fault unit, the GEN_ group, flash and the outputs. -/
def LanesOnly (s t : State) : Prop := t = { s with lane := t.lane, flt := t.flt, gen := t.gen, flash := t.flash, out := t.out }

theorem LanesOnly.refl (s : State) : LanesOnly s s := rfl

theorem LanesOnly.trans {s t u : State} (h : LanesOnly s t) (h' : LanesOnly t u) : LanesOnly s u := by
  unfold LanesOnly at *
  rw [h] at h'
  exact h'

theorem LanesOnly.foldl {α : Type} {f : State → α → State} (hf : ∀ s a, LanesOnly s (f s a)) (l : List α) (s : State) : LanesOnly s (l.foldl f s) := by
  induction l generalizing s with
  | nil => exact .refl s
  | cons a l ih => exact (hf s a).trans (ih _)

theorem lanesOnly_setLane (s : State) (i : Nat) (v : Lane) : LanesOnly s (setLane s i v) := rfl

theorem lanesOnly_emit (s : State) (o : Out) : LanesOnly s (emit s o) := rfl

theorem lanesOnly_record (s : State) (c u loc act : Nat) (rsn : Code) (who : Option Who) (detail : Nat) :
    LanesOnly s (record s c u loc act rsn who detail) := by
  obtain ⟨_, _, _, _, _, _, h⟩ := record_eq s c u loc act rsn who detail
  rw [h]
  rfl

theorem lanesOnly_trimVacant (s : State) (g : Nat) : LanesOnly s (trimVacant s g) := by
  unfold trimVacant
  split <;> rfl

theorem lanesOnly_becomeSpare (s : State) (i : Nat) : LanesOnly s (becomeSpare s i) := by
  unfold becomeSpare
  dsimp only
  split
  · exact ((lanesOnly_setLane ..).trans (lanesOnly_setLane ..)).trans (lanesOnly_trimVacant ..)
  · exact lanesOnly_setLane ..

theorem lanesOnly_fenceLane (s : State) (i : Nat) : LanesOnly s (fenceLane s i) := by
  unfold fenceLane
  dsimp only
  split <;> rfl

theorem lanesOnly_failSpares (s : State) (failing : List Nat) : LanesOnly s (failSpares s failing) :=
  .foldl (fun s i => (lanesOnly_setLane s i _).trans (lanesOnly_record ..)) _ s

theorem lanesOnly_replaceLane (s : State) (i : Nat) (failing : List Nat) : LanesOnly s (replaceLane s i failing) := by
  unfold replaceLane
  split
  · exact .refl s
  · next v _ =>
    dsimp only
    split
    · exact .refl s
    · have hplace : LanesOnly s { s with lane := { s.lane with vacant := s.lane.vacant.filter fun x => x != v } } := rfl
      have hfail := hplace.trans (lanesOnly_failSpares _ failing)
      split
      · exact hplace
      · split
        · exact hfail.trans (lanesOnly_setLane ..)
        · split
          · exact hfail.trans (lanesOnly_record ..)
          · exact hfail

theorem lanesOnly_fenceTest (s : State) (i : Nat) (pass : Bool) : LanesOnly s (fenceTest s i pass) := by
  unfold fenceTest
  dsimp only
  have htested := lanesOnly_setLane s i { laneAt s i with testing := false, selfOk := pass }
  split
  · exact .refl s
  · split
    · exact htested.trans (lanesOnly_record ..)
    · have hspare := htested.trans (lanesOnly_becomeSpare _ i)
      split
      · split
        · exact htested
        · exact hspare
      · split
        · exact hspare
        · exact htested

theorem lanesOnly_spareTest (s : State) (i : Nat) (pass : Bool) : LanesOnly s (spareTest s i pass) := by
  unfold spareTest
  dsimp only
  split
  · exact .refl s
  · split
    · exact lanesOnly_setLane ..
    · exact (lanesOnly_setLane ..).trans (lanesOnly_record ..)

theorem lanesOnly_driverFence (s : State) (w : Word) : LanesOnly s (driverFence s w) := by
  unfold driverFence
  dsimp only
  split
  · rfl
  · split
    · rfl
    · exact (lanesOnly_fenceLane ..).trans (lanesOnly_setLane ..)

theorem lanesOnly_driverUnfence (s : State) (w : Word) : LanesOnly s (driverUnfence s w) := by
  unfold driverUnfence
  dsimp only
  repeat' split
  all_goals rfl

theorem lanesOnly_ctlWriteBy (s : State) (off : Nat) {f : State → State} (hf : LanesOnly s (f s)) : LanesOnly s (ctlWriteBy s off f) :=
  ctlWriteBy_keeps (LanesOnly s) s off f (fun _ _ h => h.trans (lanesOnly_emit ..)) (fun _ => hf) (.refl s)

end Sys2Proof.Proofs.Lanes

namespace Sys2Proof.Proofs

open Sys2Proof.Machine Lanes

/-- Settles O14: each of the five commands writes what `LanesOnly` allows and nothing else. -/
theorem laneCommandsFrame : Obligations.LaneCommandsFrame := by
  unfold Obligations.LaneCommandsFrame
  intro c s t hc he
  have h : LanesOnly s t := by
    rcases hc with ⟨l, f, rfl⟩ | ⟨l, p, rfl⟩ | ⟨l, p, rfl⟩ | ⟨v, rfl⟩ | ⟨v, rfl⟩ <;> cases he
    · exact lanesOnly_replaceLane s l f
    · exact lanesOnly_fenceTest s l p
    · exact lanesOnly_spareTest s l p
    · exact lanesOnly_ctlWriteBy s _ (lanesOnly_driverFence s v)
    · exact lanesOnly_ctlWriteBy s _ (lanesOnly_driverUnfence s v)
  rw [h]
  exact ⟨rfl, rfl, rfl, rfl, rfl, rfl, rfl, rfl, rfl, rfl, rfl, rfl, rfl, rfl⟩

end Sys2Proof.Proofs


namespace Sys2Proof.Proofs.Lanes

open Sys2Proof.Machine

variable {s : State} {i g : Nat} {b : Beat} {k : List Byte}

/-! ### What a fence leaves of the lanes and the outputs -/

@[simp] theorem laneAt_record (s : State) (c u loc act : Nat) (rsn : Code) (who : Option Who) (detail j : Nat) :
    laneAt (record s c u loc act rsn who detail) j = laneAt s j := by
  unfold laneAt
  rw [record_lane]

theorem laneAt_fenceLane (s : State) (i j : Nat) :
    laneAt (fenceLane s i) j = if i = j then { laneAt s i with st := .fenced, fenceMark := true } else laneAt s j := by
  rw [← laneAt_setLane]
  unfold fenceLane
  dsimp only
  split <;> rfl

@[simp] theorem fenceLane_out (s : State) (i : Nat) : (fenceLane s i).out = s.out := by
  unfold fenceLane
  dsimp only
  split <;> rfl

/-- A lane whose compare failed is FENCED, marked and under test; no other lane moves. -/
theorem laneAt_fenceFault (s : State) (i : Nat) (who : Option Who) (tag j : Nat) :
    laneAt (fenceFault s i who tag) j =
      if i = j then
        { laneAt s i with st := .fenced, fenceMark := true, testing := true, testByDriver := false, verdict := verdictOf (fenceLane s i) Flc.laneCheck 0 i }
      else laneAt s j := by
  simp only [fenceFault, laneAt_record, laneAt_setLane, laneAt_fenceLane, if_true]
  split <;> rfl

@[simp] theorem fenceFault_out (s : State) (i : Nat) (who : Option Who) (tag : Nat) : (fenceFault s i who tag).out = s.out := by
  simp [fenceFault]

theorem lanesOnly_fenceFault (s : State) (i : Nat) (who : Option Who) (tag : Nat) : LanesOnly s (fenceFault s i who tag) := by
  unfold fenceFault
  exact ((lanesOnly_fenceLane s i).trans (lanesOnly_setLane ..)).trans (lanesOnly_record ..)

/-! ### A beat that is done is released at its turn, and waits before it (01 R24) -/

/-- No done beat of a group's request waits. -/
def noneWaits (s : State) (g req : Nat) : Prop := ∀ x ∈ s.lane.done, ¬(x.group = g ∧ x.req = req)

/-- A beat as it stands among the done ones. -/
def waiting (g lane : Nat) (b : Beat) (o : Line) : BeatDone :=
  { group := g, req := b.reqTag, index := b.index, last := b.last, lane := lane, data := o }

/-- The next beats to release once `b` of a group has left. -/
def nextAfter (s : State) (g : Nat) (b : Beat) : List (Nat × Nat × Nat) :=
  let rest := s.lane.next.filter fun x => !(x.1 == g && x.2.1 == b.reqTag)
  if b.last then rest else rest ++ [(g, b.reqTag, b.index + 1)]

theorem nextBeat_nextAfter {t : State} (h : t.lane.next = nextAfter s g b) : nextBeat t g b.reqTag = if b.last then 0 else b.index + 1 := by
  have hrest : ((s.lane.next.filter fun x => !(x.1 == g && x.2.1 == b.reqTag)).find? fun x => x.1 == g && x.2.1 == b.reqTag) = none :=
    List.find?_eq_none.mpr fun x hx => by simpa only [Bool.not_eq_true, Bool.not_eq_true'] using (List.mem_filter.mp hx).2
  unfold nextBeat
  rw [h]
  dsimp only [nextAfter]
  split
  · rw [hrest]; rfl
  · rw [List.find?_append, hrest]; simp

theorem releaseBeats_held {req : Nat} (h : ∀ x ∈ s.lane.done, ¬(x.group = g ∧ x.req = req ∧ x.index = nextBeat s g req)) (f : Nat) :
    releaseBeats g req f s = s := by
  cases f with
  | zero => rfl
  | succ f =>
    have hnone : (s.lane.done.find? fun x => x.group == g && x.req == req && x.index == nextBeat s g req) = none :=
      List.find?_eq_none.mpr fun x hx => by simpa [and_assoc] using h x hx
    simp only [releaseBeats, hnone]

theorem beatDone_next (hw : noneWaits s g b.reqTag) (hn : nextBeat s g b.reqTag = b.index) (j : Nat) (o : Line) :
    beatDone s g j b o = emit { s with lane := { s.lane with next := nextAfter s g b } } (.lane j o b.reqTag) := by
  let d := waiting g j b o
  have hfind : (s.lane.done ++ [d]).find? (fun x => x.group == g && x.req == b.reqTag && x.index == b.index) = some d := by
    rw [List.find?_append, List.find?_eq_none.mpr fun x hx => by have := hw x hx; simp; tauto]
    simp [d, waiting]
  have hkeep : (s.lane.done ++ [d]).filter (fun x => x != d) = s.lane.done := by
    rw [List.filter_append, List.filter_eq_self.mpr fun x hx => by simp only [bne_iff_ne]; rintro rfl; exact hw _ hx ⟨rfl, rfl⟩]
    simp
  let t := emit { s with lane := { s.lane with next := nextAfter s g b } } (.lane j o b.reqTag)
  have hrelease : beatDone s g j b o = releaseBeats g b.reqTag s.lane.done.length t := by
    have hn' : nextBeat { s with lane := { s.lane with done := s.lane.done ++ [d] } } g b.reqTag = b.index := hn
    change releaseBeats g b.reqTag (s.lane.done.length + 1) { s with lane := { s.lane with done := s.lane.done ++ [d] } } = _
    simp only [releaseBeats, hn', hfind, hkeep]
    rfl
  rw [hrelease]
  exact releaseBeats_held (s := t) (fun x hx ⟨hg, hr, _⟩ => hw x hx ⟨hg, hr⟩) _

theorem beatDone_early (hw : noneWaits s g b.reqTag) (hn : nextBeat s g b.reqTag ≠ b.index) (j : Nat) (o : Line) :
    beatDone s g j b o = { s with lane := { s.lane with done := s.lane.done ++ [waiting g j b o] } } := by
  refine releaseBeats_held (fun x hx => ?_) _
  rintro ⟨hg, hr, hi⟩
  rcases List.mem_append.mp hx with hx | hx
  · exact hw x hx ⟨hg, hr⟩
  · obtain rfl := List.mem_singleton.mp hx
    exact hn hi.symm

/-! ### The outcomes of a beat whose key is at hand (01 R22, R23) -/

/-- A beat's key is at hand: its lane serves a group, CORE runs untampered, and the cache holds the key. -/
structure keyReady (s : State) (i g : Nat) (b : Beat) (k : List Byte) : Prop where
  group : groupOf (laneAt s i).st = some g
  untampered : s.key.tampered = false
  core : coreDown s = false
  cached : dkcHas s b.key = true
  derived : derive s b.key = some k

/-- A key used: the cache and the buffers in another order (03 R85; 01 R25). -/
def keyed (s : State) (c : List DkEntry) (d : Tbl (List DkEntry)) : State :=
  { s with key := { s.key with dkc := c }, lane := { s.lane with ctx := d } }

theorem ctxPut_dkcTouch (s : State) (g : Nat) (h : KeyHandle) (hc : dkcHas s h = true) : ∃ c d, ctxPut (dkcTouch s h) g h = keyed s c d := by
  obtain ⟨c, hu⟩ := keyUse_eq s h
  rw [keyUse, if_pos hc] at hu
  obtain ⟨d, hd⟩ := ctxPut_eq (dkcTouch s h) g h
  exact ⟨c, d, by rw [hd, hu]; rfl⟩

/-- A request's beats that fail twice are forgotten: none waits and none is next. -/
def forget (s : State) (g req : Nat) : State :=
  { s with lane := { s.lane with
    done := s.lane.done.filter (fun x => !(x.group == g && x.req == req)), next := s.lane.next.filter (fun x => !(x.1 == g && x.2.1 == req)) } }

/-- A beat that failed on lane `i` and on its replay lane `j`: both are fenced, and its request will end poisoned. -/
def failTwice (s : State) (i j g req : Nat) : State :=
  let who := reqWho s g req
  let t := fenceFault (poisonReq (forget s g req) g req Rsn.laneCheck) i who req
  if j = i then t else fenceFault t j who req

/-- A beat of a ready key: its output is done, or its lane is fenced with the replay's output done, or it has failed twice. -/
theorem laneBeat_ready (h : keyReady s i g b k) (mis mis2 : Bool) : ∃ c d, laneBeat s i b mis mis2 =
    let t := keyed s c d
    let o := beatOut b.op k b.tweak b.data
    if mis = false then beatDone t g i b o
    else if mis2 = false then fenceFault (beatDone t g (replayLane s i g) b o) i (reqWho t g b.reqTag) b.reqTag
    else failTwice t i (replayLane s i g) g b.reqTag := by
  obtain ⟨c, d, hk⟩ := ctxPut_dkcTouch s g b.key h.cached
  refine ⟨c, d, ?_⟩
  have hj : replayLane (keyed s c d) i g = replayLane s i g := rfl
  unfold laneBeat
  simp only [h.group, h.untampered, h.core, h.cached, h.derived, hk, hj]
  cases mis <;> cases mis2 <;> simp [failTwice, forget]

theorem failTwice_lanesOnly (s : State) (i j g req : Nat) :
    LanesOnly (poisonReq (forget s g req) g req Rsn.laneCheck) (failTwice s i j g req) := by
  unfold failTwice
  dsimp only
  split
  · exact lanesOnly_fenceFault ..
  · exact (lanesOnly_fenceFault ..).trans (lanesOnly_fenceFault ..)

theorem failTwice_fenced (s : State) (i j g req : Nat) : (laneAt (failTwice s i j g req) i).st = .fenced := by
  unfold failTwice
  dsimp only
  split
  · rw [laneAt_fenceFault, if_pos rfl]
  · next hj => rw [laneAt_fenceFault, if_neg hj, laneAt_fenceFault, if_pos rfl]

theorem failTwice_out (s : State) (i j g req : Nat) : (failTwice s i j g req).out = s.out := by
  unfold failTwice
  dsimp only
  split <;> simp [forget]

theorem poisonReq_congr {t : State} (hi : t.ime = s.ime) (hl : t.ile = s.ile) (hb : t.bce = s.bce) (g tag : Nat) (c : Code) :
    (poisonReq t g tag c).ime = (poisonReq s g tag c).ime ∧ (poisonReq t g tag c).ile = (poisonReq s g tag c).ile
      ∧ (poisonReq t g tag c).bce = (poisonReq s g tag c).bce := by
  unfold poisonReq
  rw [hi, hl, hb]
  split
  · exact ⟨rfl, rfl, rfl⟩
  · split <;> exact ⟨rfl, rfl, rfl⟩

end Sys2Proof.Proofs.Lanes

namespace Sys2Proof.Proofs

open Sys2Proof.Machine Lanes

/-- Settles O12: `laneBeat_ready` gives the outcome, `beatDone_next` and `beatDone_early` what leaves, `laneAt_fenceFault` the fenced lane. -/
theorem laneBeatReleasesOrFences : Obligations.LaneBeatReleasesOrFences := by
  unfold Obligations.LaneBeatReleasesOrFences
  intro i g b k s hg ht hc hk hd hw
  have hready : keyReady s i g b k := ⟨hg, ht, hc, hk, hd⟩
  refine ⟨fun hn => ⟨fun r => ?agreed, ?replayed⟩, fun hn r => ?early, ?failed⟩
  case agreed =>
    obtain ⟨c, d, h⟩ := laneBeat_ready hready false r
    have hnext := beatDone_next (s := keyed s c d) hw hn i (beatOut b.op k b.tweak b.data)
    exact ⟨_, congrArg Host.Outcome.next (h.trans hnext), rfl, rfl, nextBeat_nextAfter (s := keyed s c d) rfl, rfl⟩
  case replayed =>
    obtain ⟨c, d, h⟩ := laneBeat_ready hready true false
    simp only [Bool.true_eq_false, if_false, if_true] at h
    refine ⟨_, congrArg Host.Outcome.next h, ?_⟩
    rw [laneAt_fenceFault, if_pos rfl, fenceFault_out, beatDone_next (s := keyed s c d) hw hn]
    exact ⟨rfl, rfl, rfl, rfl⟩
  case early =>
    obtain ⟨c, d, h⟩ := laneBeat_ready hready false r
    have hearly := beatDone_early (s := keyed s c d) hw hn i (beatOut b.op k b.tweak b.data)
    exact ⟨_, congrArg Host.Outcome.next (h.trans hearly), rfl, rfl, rfl⟩
  case failed =>
    obtain ⟨c, d, h⟩ := laneBeat_ready hready true true
    simp only [Bool.true_eq_false, if_false] at h
    have hkept := failTwice_lanesOnly (keyed s c d) i (replayLane s i g) g b.reqTag
    obtain ⟨hime, hile, hbce⟩ := poisonReq_congr (s := s) (t := forget (keyed s c d) g b.reqTag) rfl rfl rfl g b.reqTag Rsn.laneCheck
    refine ⟨_, congrArg Host.Outcome.next h, failTwice_fenced .., failTwice_out .., ?_⟩
    rw [hkept]
    exact ⟨hime, hile, hbce⟩

end Sys2Proof.Proofs

/-! What a memory controller's answer does: a line opened, released, merged and sealed (04 R106, R131, R136, R137, R148; 14 R431). -/
namespace Sys2Proof.Proofs.Memory

open Sys2Proof.Machine

variable {s t u : State} {e : MemEnt} {o : Opened} {ch : Nat} {tg : BitVec 16} {fe : Word} {ents : List MemEnt} {blks : List Blk} {beats : List Out}

/-! ### Where nothing is held, a memory operation that has moved moves nothing else -/

/-- Every operation has its place: none is held, and none waits to be opened. -/
def allPlaced (l : List MemEnt) : Prop := ∀ e ∈ l, holdPhase e.phase = false ∧ e.phase ≠ .openWait

theorem allPlaced_nil : allPlaced [] := fun _ h => absurd h (List.not_mem_nil)

theorem allPlaced_single (h : e.phase = .readOut ∨ e.phase = .writeReady) : allPlaced [e] := by
  intro x hx
  obtain rfl := List.mem_singleton.mp hx
  rcases h with h | h <;> simp [h, holdPhase]

theorem advance_placed (h : allPlaced s.ime.ents) (seq : Nat) : advance s seq = s := by
  unfold advance
  split
  · rfl
  · next e he =>
    obtain ⟨hhold, hopen⟩ := h e (List.mem_of_find?_eq_some he)
    simp [hhold, hopen]

theorem settle_placed (h : allPlaced s.ime.ents) : settle s = s := by
  unfold settle
  induction s.ime.ents.map (·.seq) with
  | nil => rfl
  | cons q l ih => rw [List.foldl_cons, advance_placed h, ih]

/-- No remote operation waits, no credit is held back, and no region closes. -/
structure Calm (s : State) : Prop where
  ingress : s.ile.ingress = []
  credits : heldCredits s = 0
  dying : s.ime.dying = []

theorem drainIngress_calm (h : Calm s) : drainIngress s = s := by simp [drainIngress, ingressPass, returnCredits, h.ingress, h.credits]

theorem afterMem_placed (h : allPlaced s.ime.ents) (hc : Calm s) : afterMem s = s := by
  rw [afterMem, settle_placed h, drainIngress_calm hc, settle_placed h, finishDying, hc.dying, List.foldl_nil]

/-! ### A fault record leaves every line, key and region -/

/-- `t` differs from `s` at most by fault records. -/
def Recorded (s t : State) : Prop := t = { s with flt := t.flt, flash := t.flash, gen := { s.gen with irqStatus := t.gen.irqStatus } }

theorem Recorded.refl (s : State) : Recorded s s := rfl

theorem Recorded.trans (h : Recorded s t) (h' : Recorded t u) : Recorded s u := by
  unfold Recorded at *
  rw [h] at h'
  exact h'

theorem Recorded.ime (h : Recorded s t) : t.ime = s.ime := by rw [h]

theorem Recorded.ile (h : Recorded s t) : t.ile = s.ile := by rw [h]

theorem Recorded.tm (h : Recorded s t) : t.tm = s.tm := by rw [h]

theorem Recorded.out (h : Recorded s t) : t.out = s.out := by rw [h]

theorem recorded_record (s : State) (c u loc act : Nat) (rsn : Code) (who : Option Who) (detail : Nat) :
    Recorded s (record s c u loc act rsn who detail) := by
  obtain ⟨_, _, _, _, _, _, h⟩ := record_eq s c u loc act rsn who detail
  rw [h]
  rfl

theorem recorded_lineFault (s : State) (e : MemEnt) (c : Code) : Recorded s (lineFault s e c) := recorded_record ..

theorem recorded_tagUnit (s : State) (e : MemEnt) (mism : Nat) : Recorded s (tagUnit s e mism) := by
  unfold tagUnit
  split
  · exact .refl s
  · split <;> exact recorded_record ..

theorem Recorded.foldl {α : Type} {f : State → α → State} (hf : ∀ s a, Recorded s (f s a)) (l : List α) (s : State) : Recorded s (l.foldl f s) := by
  induction l generalizing s with
  | nil => exact .refl s
  | cons a l ih => exact (hf s a).trans (ih _)

/-- Counting blocks under a half changes key services, and records (03 R97). -/
theorem countBlocks_recorded (s : State) (slot half vol n : Nat) : ∃ k, Recorded { s with key := k } (countBlocks s slot half vol n) := by
  unfold countBlocks
  split
  · exact ⟨s.key, .refl s⟩
  · refine ⟨_, .foldl (fun t mark => ?_) _ (setSlot s slot _)⟩
    split
    · exact recorded_record ..
    · exact .refl t

/-! ### A completed request's answer at FABPORT (14 R427) -/

theorem fabBeats_tm (h : t.tm = s.tm) : fabBeats t = fabBeats s := by
  unfold fabBeats serviceOf lateness16 latenessOf
  rw [h]

theorem imeReason_ime (s : State) (c : Code) : ∃ r, (imeReason s c).ime = { s.ime with lastReason := r } := by
  unfold imeReason keyReason
  split
  · exact ⟨c, rfl⟩
  · split <;> exact ⟨s.ime.lastReason, rfl⟩

/-- `t` is `s` with its memory operations and compressed blocks as given and some beats put out; nothing began that makes others go on. -/
structure Completes (s t : State) (ents : List MemEnt) (blks : List Blk) (beats : List Out) : Prop where
  ents : t.ime.ents = ents
  blks : t.ime.blks = blks
  out : t.out = s.out ++ beats
  ile : t.ile = s.ile
  dying : t.ime.dying = s.ime.dying

theorem Completes.after (h : Completes t u ents blks beats) (hout : t.out = s.out) (hile : t.ile = s.ile) (hdying : t.ime.dying = s.ime.dying) :
    Completes s u ents blks beats :=
  ⟨h.ents, h.blks, hout ▸ h.out, hile ▸ h.ile, hdying ▸ h.dying⟩

theorem Completes.recorded (h : Completes t u ents blks beats) (hr : Recorded s t) : Completes s u ents blks beats :=
  h.after hr.out hr.ile (congrArg Ime.dying hr.ime)

theorem Completes.afterMem (h : Completes s t ents blks beats) (hc : Calm s) (hp : allPlaced ents) : Machine.afterMem t = t := by
  refine afterMem_placed (by rwa [h.ents]) ⟨by rw [h.ile, hc.ingress], ?_, by rw [h.dying, hc.dying]⟩
  unfold heldCredits
  rw [h.ile]
  exact hc.credits

/-- The result a FABPORT request completes with: 0 done, 1 failed, 2 refused (14 Table 14-2). -/
def resultOf (c : Code) (refused : Bool) : Nat := if c = 0#8 then 0 else if refused = true then 2 else 1

theorem finishMem_fab (s : State) (ch : Nat) (tg : BitVec 16) (fe : Word) (port cls : Nat) (deadline : Option Nat) (c : Code) (refused : Bool)
    (data : List (Stored × Bool)) :
    Completes s (finishMem s (.fab ch tg fe) port cls deadline c refused data) s.ime.ents s.ime.blks
      (fabBeats s ch tg fe (resultOf c refused) c deadline data) := by
  obtain ⟨r, hr⟩ := imeReason_ime s c
  have hbeats : fabBeats (imeReason s c) = fabBeats s := fabBeats_tm (imeReason_tm s c)
  have hres : (if c = 0#8 then 0 else if refused = true ∧ ¬c = 0#8 then 2 else 1) = resultOf c refused := by by_cases hc : c = 0#8 <;> simp [resultOf, hc]
  refine ⟨?_, ?_, ?_, ?_, ?_⟩ <;> simp [finishMem, countOutcome, hr, hbeats, hres]

/-- The same of an operation that leaves its queue. -/
theorem finishMem_dropped (s : State) (q ch : Nat) (tg : BitVec 16) (fe : Word) (port cls : Nat) (deadline : Option Nat) (c : Code)
    (data : List (Stored × Bool)) :
    Completes s (finishMem (dropEnt s q) (.fab ch tg fe) port cls deadline c false data) (s.ime.ents.filter fun x => x.seq != q) s.ime.blks
      (fabBeats s ch tg fe (resultOf c false) c deadline data) :=
  (finishMem_fab (dropEnt s q) ch tg fe port cls deadline c false data).after rfl rfl rfl

/-! ### A line whose verdict is known -/

/-- The answer of a read: its plaintext, or its reason, poisoned. -/
def readBeats (s : State) (e : MemEnt) (ch : Nat) (tg : BitVec 16) (fe : Word) (o : Opened) : List Out :=
  if o.code = 0#8 then fabBeats s ch tg fe 0 0 e.deadline [(withSide o.plain 0#56 false 0, false)]
  else fabBeats s ch tg fe 1 o.code e.deadline [(0#576, true)]

/-- A read released under STRICT leaves its queue and is answered (04 R136). -/
theorem releaseRead_strict (hsrc : e.src = .fab ch tg fe) (hv : (entRegion s e).verify ≠ 2) (o : Opened) :
    Completes s (releaseRead s e o) (s.ime.ents.filter fun x => x.seq != e.seq) s.ime.blks (readBeats s e ch tg fe o) := by
  have hfinish := finishMem_dropped s e.seq ch tg fe e.port e.cls e.deadline
  unfold releaseRead readBeats
  by_cases hc : o.code = 0#8
  · simpa [hc, hsrc, resultOf] using hfinish 0#8 [(withSide o.plain 0#56 false 0, false)]
  · simpa [hc, hsrc, hv, resultOf] using hfinish o.code [(0#576, true)]

/-- Before what its kind does, a line that is known records the fault of a tree line that failed. -/
def noted (s : State) (e : MemEnt) (o : Opened) : State := if o.code = Rsn.treeFail ∧ !isPad s e then lineFault s e o.code else s

theorem recorded_noted (s : State) (e : MemEnt) (o : Opened) : Recorded s (noted s e o) := by
  unfold noted
  split
  · exact recorded_lineFault ..
  · exact .refl s

theorem noted_opened (s : State) (e : MemEnt) (ho : o.code = 0#8) : noted s e o = s := by
  unfold noted
  rw [if_neg]
  rintro ⟨h, -⟩
  exact absurd (ho.symm.trans h) (by decide)

theorem lineKnown_read (hk : e.kind = .read) (hsrc : e.src = .fab ch tg fe) (hv : (entRegion s e).verify ≠ 2) (o : Opened) :
    Completes s (lineKnown s e o) (s.ime.ents.filter fun x => x.seq != e.seq) s.ime.blks (readBeats s e ch tg fe o) := by
  have hrec := recorded_noted s e o
  have hregion : entRegion (noted s e o) e = entRegion s e := by rw [hrec]; rfl
  have hbeats : readBeats (noted s e o) e ch tg fe o = readBeats s e ch tg fe o := by unfold readBeats; rw [fabBeats_tm hrec.tm]
  have hknown : lineKnown s e o = releaseRead (noted s e o) e o := by unfold lineKnown; rw [hk]; rfl
  have h := (releaseRead_strict (s := noted s e o) hsrc (by rwa [hregion]) o).recorded hrec
  rwa [hrec.ime, hbeats, ← hknown] at h

theorem rawKnown_fab (hsrc : e.src = .fab ch tg fe) (hf : e.fail = 0#8) (d : Stored) (poison : Bool) :
    Completes s (rawKnown s e d poison) (s.ime.ents.filter fun x => x.seq != e.seq) s.ime.blks
      (if poison = true then fabBeats s ch tg fe 1 Rsn.memPoison e.deadline [(0#576, true)] else fabBeats s ch tg fe 0 0 e.deadline [(d, false)]) := by
  have hfinish := finishMem_dropped s e.seq ch tg fe e.port e.cls e.deadline
  have hpoison : resultOf Rsn.memPoison false = 1 := by decide
  unfold rawKnown
  cases poison
  · simpa [hsrc, hf, resultOf] using hfinish 0#8 [(d, false)]
  · simpa [hsrc, hpoison] using hfinish Rsn.memPoison [(0#576, true)]

end Sys2Proof.Proofs.Memory

/-! What moves before a line that arrives is opened: the key cache, and the counter cache with its tree path (03 R86; 04 R130, R131). -/
namespace Sys2Proof.Proofs.Memory

open Sys2Proof.Machine Lanes

variable {s t u : State} {e : MemEnt} {o : Opened} {ch : Nat} {tg : BitVec 16} {fe : Word}

/-! ### What the arrival of a line moves before the line is opened -/

/-- `t` differs from `s` at most by what a line that arrives moves before its verdict: records, outputs and their charges, the order of the key
cache and the buffers, and the counter cache with the writes of what leaves it. -/
def Arrived (s t : State) : Prop :=
  t = { s with
    flash := t.flash, flt := t.flt, qos := t.qos, out := t.out
    gen := { s.gen with irqStatus := t.gen.irqStatus }
    lane := { s.lane with ctx := t.lane.ctx }
    key := { s.key with dkc := t.key.dkc }
    ime := { s.ime with ents := t.ime.ents, seq := t.ime.seq, cached := t.ime.cached, dirty := t.ime.dirty, node := t.ime.node, roots := t.ime.roots } }

theorem Arrived.refl (s : State) : Arrived s s := rfl

theorem Arrived.trans (h : Arrived s t) (h' : Arrived t u) : Arrived s u := by
  unfold Arrived at *
  rw [h] at h'
  exact h'

theorem Recorded.arrived (h : Recorded s t) : Arrived s t := by rw [h]; rfl

theorem arrived_keyed (s : State) (c : List DkEntry) (d : Tbl (List DkEntry)) : Arrived s (keyed s c d) := rfl

theorem Arrived.entRegion (h : Arrived s t) (e : MemEnt) : entRegion t e = entRegion s e := by rw [h]; rfl

theorem Arrived.openEnt (h : Arrived s t) (e : MemEnt) (d : Stored) (poison : Bool) : openEnt t e d poison = openEnt s e d poison := by rw [h]; rfl

theorem Arrived.openHandles (h : Arrived s t) (ix : Nat) (r : Region) (d : Stored) : openHandles t ix r d = openHandles s ix r d := by rw [h]; rfl

theorem Arrived.flaw (h : Arrived s t) : t.lane.flaw = s.lane.flaw := by rw [h]

theorem Arrived.tm (h : Arrived s t) : t.tm = s.tm := by rw [h]

theorem Arrived.blks (h : Arrived s t) : t.ime.blks = s.ime.blks := by rw [h]

theorem Arrived.calm (h : Arrived s t) (hc : Calm s) : Calm t := by
  obtain ⟨hi, hcr, hd⟩ := hc
  rw [h]
  exact ⟨hi, hcr, hd⟩

/-! ### Opening with the keys at hand (03 R86; 01 R17, R23) -/

/-- The keys that open a stored line for an operation are in the cache, and no lane is about to fail its compare. -/
structure KeysAtHand (s : State) (e : MemEnt) (d : Stored) : Prop where
  cached : ∀ h ∈ openHandles s e.region (entRegion s e) d, dkcHas s h = true
  lanes : s.lane.flaw = []

theorem openWhen_keys (h : KeysAtHand s e e.stored) : ∃ c d, openWhen s e = lineKnown (keyed s c d) e (openEnt s e e.stored false) := by
  unfold openWhen
  dsimp only
  generalize hhs : (if e.fail = 0#8 then openHandles s e.region (entRegion s e) e.stored else []) = hs
  have hcached : ∀ k ∈ hs, dkcHas s k = true := by
    subst hhs
    split
    · exact h.cached
    · simp
  have hmiss : hs.filter (fun k => (derive s k).isSome && !dkcHas s k) = [] := List.filter_eq_nil_iff.mpr fun k hk => by simp [hcached k hk]
  simp only [hmiss, List.isEmpty_nil, Bool.not_true, Bool.false_eq_true, if_false]
  split
  · exact ⟨s.key.dkc, s.lane.ctx, rfl⟩
  · obtain ⟨c, d, hpass⟩ := lanePass_clear s e.port hs (some e.who) e.who.tag h.lanes
    refine ⟨c, d, ?_⟩
    rw [hpass]
    rfl

/-! ### The counter cache on the way to a line (04 R130, R131) -/

/-- A step of the counter cache: keys stay, and the writes of what leaves it have their places. -/
structure TreeStep (s t : State) : Prop where
  arrived : Arrived s t
  key : t.key = s.key
  placed : allPlaced s.ime.ents → allPlaced t.ime.ents

theorem TreeStep.refl (s : State) : TreeStep s s := ⟨.refl s, rfl, id⟩

theorem TreeStep.trans (h : TreeStep s t) (h' : TreeStep t u) : TreeStep s u := ⟨h.arrived.trans h'.arrived, h'.key.trans h.key, h'.placed ∘ h.placed⟩

theorem TreeStep.foldl {α : Type} {f : State → α → State} (hf : ∀ s a, TreeStep s (f s a)) (l : List α) (s : State) : TreeStep s (l.foldl f s) := by
  induction l generalizing s with
  | nil => exact .refl s
  | cons a l ih => exact (hf s a).trans (ih _)

theorem Recorded.treeStep (h : Recorded s t) : TreeStep s t := ⟨h.arrived, by rw [h], by rw [h.ime]; exact id⟩

theorem chargePort_qos (s : State) (q cls beats : Nat) (aged : Bool) : ∃ w, chargePort s q cls beats aged = { s with qos := w } := by
  unfold chargePort
  dsimp only
  split <;> exact ⟨_, rfl⟩

/-- The block's own reads are outputs, each charged to its class. -/
theorem ownReads_eq (s : State) (lines : List Nat) (cls : Nat) : ∃ w o, ownReads s lines cls = { s with qos := w, out := o } := by
  unfold ownReads
  suffices ∀ (l : List (Nat × Nat × Nat)) (t : State), (∃ w o, t = { s with qos := w, out := o }) →
      ∃ w o, l.foldl (fun t x => chargePort (emit t (.memCmd x.2.1 false x.1 x.2.2 (epochOf s (domMem x.2.1)) cls 0#576)) x.2.1 cls 1 false) t
        = { s with qos := w, out := o } from this _ s ⟨s.qos, s.out, rfl⟩
  intro l
  induction l with
  | nil => exact fun t h => h
  | cons x l ih =>
    rintro t ⟨w, o, rfl⟩
    refine ih _ ?_
    obtain ⟨w', h⟩ := chargePort_qos (emit { s with qos := w, out := o } (.memCmd x.2.1 false x.1 x.2.2 (epochOf s (domMem x.2.1)) cls 0#576)) x.2.1 cls 1
      false
    exact ⟨w', _, h⟩

theorem treeStep_ownReads (s : State) (lines : List Nat) (cls : Nat) : TreeStep s (ownReads s lines cls) := by
  obtain ⟨w, o, h⟩ := ownReads_eq s lines cls
  rw [h]
  exact ⟨rfl, rfl, id⟩

theorem treeStep_bumpParent (s : State) (ix : Nat) (r : Region) (level i : Nat) : TreeStep s (bumpParent s ix r level i) := by
  unfold bumpParent
  dsimp only
  split <;> exact ⟨rfl, rfl, id⟩

theorem treeStep_pushOwn (s : State) (line : Nat) (d : Stored) (cls : Nat) : TreeStep s (pushOwn s line d cls) := by
  refine ⟨rfl, rfl, fun h x hx => ?_⟩
  rcases List.mem_append.mp hx with hx | hx
  · exact h x hx
  · obtain rfl := List.mem_singleton.mp hx
    exact ⟨rfl, by simp⟩

theorem treeStep_writeTree (s : State) (ix : Nat) (r : Region) (level i cls : Nat) : TreeStep s (writeTree s ix r level i cls) := by
  unfold writeTree
  split
  · exact treeStep_pushOwn ..
  · exact .refl s

theorem treeStep_writeTrees (ix : Nat) (r : Region) (cls : Nat) (l : List (Nat × Nat)) (s : State) :
    TreeStep s (l.foldl (fun s x => writeTree s ix r x.1 x.2 cls) s) :=
  .foldl (α := Nat × Nat) (f := fun s x => writeTree s ix r x.1 x.2 cls) (fun t x => treeStep_writeTree t ix r x.1 x.2 cls) l s

theorem treeStep_bumpPath (s : State) (ix : Nat) (r : Region) (i : Nat) : TreeStep s (bumpPath s ix r i) :=
  .foldl (f := fun s k => bumpParent s ix r k (i / 8 ^ k)) (fun t k => treeStep_bumpParent t ix r k (i / 8 ^ k)) _ s

theorem treeStep_cleaned (s : State) (l : List (Nat × Nat × CtrLine)) : TreeStep s { s with ime := { s.ime with dirty := l } } := ⟨rfl, rfl, id⟩

theorem treeStep_writeCtr (s : State) (ix : Nat) (r : Region) (page cls : Nat) : TreeStep s (writeCtr s ix r page cls) := by
  unfold writeCtr
  dsimp only
  generalize List.filter _ (List.map _ _) = lines
  have hread := treeStep_ownReads s lines cls
  generalize ownReads s lines cls = t at hread ⊢
  have hbump := hread.trans (treeStep_bumpPath t ix r page)
  generalize bumpPath t ix r page = u at hbump ⊢
  have hwrite := hbump.trans (treeStep_writeTrees ix r cls (upperLevels r page) u)
  generalize List.foldl _ u _ = v at hwrite ⊢
  exact (hwrite.trans (treeStep_cleaned v _)).trans (treeStep_writeTree ..)

theorem treeStep_evictTree (s : State) (x : Nat × Nat × Nat) : TreeStep s (evictTree s x) := by
  unfold evictTree
  split
  · split
    · exact treeStep_writeCtr ..
    · exact .refl s
  · exact .refl s

theorem treeStep_touchTree (s : State) (x : Nat × Nat × Nat) : TreeStep s (touchTree s x) := by
  unfold touchTree
  dsimp only
  have hcached (l : List (Nat × Nat × Nat)) : TreeStep s { s with ime := { s.ime with cached := l } } := ⟨rfl, rfl, id⟩
  exact (hcached _).trans (.foldl treeStep_evictTree _ _)

theorem treeStep_touchTrees (ix : Nat) (l : List (Nat × Nat)) (s : State) : TreeStep s (l.foldl (fun s x => touchTree s (ix, x.1, x.2)) s) :=
  .foldl (α := Nat × Nat) (f := fun s x => touchTree s (ix, x.1, x.2)) (fun t x => treeStep_touchTree t (ix, x.1, x.2)) l s

theorem treeStep_pathArrived (s : State) (ix : Nat) (r : Region) (page : Nat) (m : MemIn) : TreeStep s (pathArrived s ix r page m).2.1 := by
  unfold pathArrived touchCtr
  generalize missingOf s ix r page = l
  dsimp only
  cases (pathGood s ix r l m).1 with
  | false => exact .refl s
  | true => exact (treeStep_touchTrees ix l.reverse s).trans (treeStep_touchTree ..)

/-! ### Records and outputs do not move the verdict of a tree path -/

/-- `t` differs from `s` at most by records, outputs and their charges. -/
def Emitted (s t : State) : Prop :=
  t = { s with flash := t.flash, flt := t.flt, qos := t.qos, out := t.out, gen := { s.gen with irqStatus := t.gen.irqStatus } }

theorem Emitted.pathGood (h : Emitted s t) (ix : Nat) (r : Region) (l : List (Nat × Nat)) (m : MemIn) : pathGood t ix r l m = pathGood s ix r l m := by
  have hlast (n : Nat) : lastWrite t n = lastWrite s n := by rw [h]; rfl
  have hline (k i : Nat) : treeLine t r k i = treeLine s r k i := by rw [h]; rfl
  have hgood (k i : Nat) (a : MemAnswer) : treeGood t ix r k i a = treeGood s ix r k i a := by rw [h]; rfl
  induction l generalizing m with
  | nil => rfl
  | cons x l ih => simp only [Machine.pathGood, hlast, hline, hgood, ih]

theorem Emitted.missingOf (h : Emitted s t) (ix : Nat) (r : Region) (page : Nat) : missingOf t ix r page = missingOf s ix r page := by
  have hcached (k i : Nat) : treeCached t ix k i = treeCached s ix k i := by rw [h]; rfl
  unfold Machine.missingOf
  generalize (treeLevels r).length = n
  generalize 0 = k
  induction n generalizing k page with
  | zero => rfl
  | succ n ih => simp only [missingPath, hcached, ih]

theorem Emitted.pathArrived (h : Emitted s t) (ix : Nat) (r : Region) (page : Nat) (m : MemIn) :
    (pathArrived t ix r page m).1 = (pathArrived s ix r page m).1 := by
  unfold Machine.pathArrived
  rw [h.missingOf]
  generalize Machine.missingOf s ix r page = l
  dsimp only
  rw [h.pathGood]
  cases (Machine.pathGood s ix r l m).1 <;> rfl

end Sys2Proof.Proofs.Memory

/-! Reads answered by a memory controller: which commands reach them, and the verdict outside P3 and in P3 (04 R106, R136, R148). -/
namespace Sys2Proof.Proofs.Memory

open Sys2Proof.Machine Lanes

variable {s t u : State} {e e' x : MemEnt} {o : Opened} {ch : Nat} {tg : BitVec 16} {fe : Word} {ents : List MemEnt} {blks : List Blk} {beats : List Out}
  {a : MemAnswer} {m : MemIn} {p mism slot half : Nat} {d : Stored} {poison : Bool} {r : Region} {b : Blk} {v : Slot}

/-! ### Work that leaves the queue of memory operations and FABPORT -/

/-- `t` has the memory operations, the routes, the time and the outputs of `s`. -/
structure SameQueue (s t : State) : Prop where
  ime : t.ime = s.ime
  ile : t.ile = s.ile
  tm : t.tm = s.tm
  out : t.out = s.out

theorem SameQueue.completes (h : SameQueue s t) (hc : Completes t u ents blks beats) : Completes s u ents blks beats :=
  hc.after h.out h.ile (congrArg Ime.dying h.ime)

theorem Recorded.sameQueue (h : Recorded s t) : SameQueue s t := ⟨h.ime, h.ile, h.tm, h.out⟩

/-- A line that is opened without its tree changes records, the order of the key cache and the buffers alone. -/
def Opening (s t : State) : Prop := ∃ c d, Recorded (keyed s c d) t

theorem Opening.sameQueue (h : Opening s t) : SameQueue s t := by
  obtain ⟨c, d, h⟩ := h
  exact ⟨h.ime, h.ile, h.tm, h.out⟩

theorem Opening.arrived (h : Opening s t) : Arrived s t := by
  obtain ⟨c, d, h⟩ := h
  exact (arrived_keyed s c d).trans h.arrived

theorem Recorded.opening (h : Recorded s t) : Opening s t := ⟨s.key.dkc, s.lane.ctx, h⟩

theorem Recorded.opening_keyed (h : Recorded s t) (c : List DkEntry) (d : Tbl (List DkEntry)) : Opening s (keyed t c d) :=
  ⟨c, d, by rw [h]; rfl⟩

theorem Opening.derive (h : Opening s t) (k : KeyHandle) : derive t k = derive s k := by
  obtain ⟨c, d, h⟩ := h
  rw [h]
  rfl

theorem Opening.sealLine (h : Opening s t) (ix : Nat) (r : Region) (slot half line major minor : Nat) (p : Line) :
    sealLine t ix r slot half line major minor p = sealLine s ix r slot half line major minor p := by
  obtain ⟨c, d, h⟩ := h
  rw [h]
  rfl

/-! ### The one operation that a port answers -/

/-- A port that takes answers has one operation out, the only one the engine holds. -/
structure OneRead (s : State) (p : Nat) (e : MemEnt) : Prop where
  takes : memTakes s p = true
  ents : s.ime.ents = [e]
  port : e.port = p
  phase : e.phase = .readOut

theorem memRead_one (h : OneRead s p e) (a : MemAnswer) (m : MemIn) (mism : Nat) :
    memRead s p e.tag (epochOf s (domMem p)) a m mism = afterMem (readArrived s e a.data a.poison m mism) := by
  simp [memRead, h.takes, h.ents, h.port, h.phase]

theorem memReadData_completes (h : OneRead s p e) (hcalm : Calm s) (hp : allPlaced ents)
    (hc : Completes s (readArrived s e a.data a.poison m mism) ents blks beats) :
    ∃ t, exec (.memReadData p e.tag (epochOf s (domMem p)) a m mism) s = .next t ∧ Completes s t ents blks beats := by
  refine ⟨_, rfl, ?_⟩
  rwa [memRead_one h, hc.afterMem hcalm hp]

theorem memReadData_stale (ht : memTakes s p = true) (tag : Nat) {ep : Word} (he : ep ≠ epochOf s (domMem p)) (a : MemAnswer) (m : MemIn) (mism : Nat) :
    exec (.memReadData p tag ep a m mism) s = .next (countDrop s (domMem p)) := by
  show Host.Outcome.next (memRead s p tag ep a m mism) = _
  simp [memRead, ht, he]

theorem memWriteAck_stale (ht : memTakes s p = true) (tag : Nat) {ep : Word} (he : ep ≠ epochOf s (domMem p)) :
    exec (.memWriteAck p tag ep) s = .next (countDrop s (domMem p)) := by
  show Host.Outcome.next (memAck s p tag ep) = _
  simp [memAck, ht, he]

/-- A write that is acknowledged leaves its queue (14 R431). -/
theorem memWriteAck_one (ht : memTakes s p = true) (hents : s.ime.ents = [e]) (hport : e.port = p) (hphase : e.phase = .writeOut) (hcalm : Calm s) :
    exec (.memWriteAck p e.tag (epochOf s (domMem p))) s = .next { s with ime := { s.ime with ents := [] } } := by
  have hdrop : dropEnt s e.seq = { s with ime := { s.ime with ents := [] } } := by simp [dropEnt, hents]
  have hack : memAck s p e.tag (epochOf s (domMem p)) = afterMem (dropEnt s e.seq) := by simp [memAck, ht, hents, hport, hphase]
  have hrest : Calm { s with ime := { s.ime with ents := [] } } := ⟨hcalm.ingress, hcalm.credits, hcalm.dying⟩
  show Host.Outcome.next (memAck s p e.tag (epochOf s (domMem p))) = _
  rw [hack, hdrop, afterMem_placed allPlaced_nil hrest]

/-! ### A read outside P3 -/

/-- A line whose tree is not asked for is opened at once (04 R131, R136). -/
theorem readArrived_opened (hkind : e.kind ≠ .rawRead) (hmode : (entRegion s e).mode ≠ 3) (he' : e' = { e with fetches := [], stored := d, mism := mism })
    (hkeys : KeysAtHand s e' d) (poison : Bool) (m : MemIn) :
    ∃ t, Opening s t ∧ readArrived s e d poison m mism = lineKnown t e' (openEnt s e' d poison) := by
  have htag := recorded_tagUnit s e mism
  have hmode' : (entRegion (tagUnit s e mism) e).mode ≠ 3 := by rwa [htag.arrived.entRegion]
  unfold readArrived
  rw [if_neg hkind]
  dsimp only
  rw [← he']
  cases poison with
  | true => exact ⟨_, htag.opening, by rw [if_pos rfl, htag.arrived.openEnt]⟩
  | false =>
    have hstored : e'.stored = d := by rw [he']
    have hkeys' : KeysAtHand (tagUnit s e mism) e' e'.stored := by
      refine ⟨fun k hk => ?_, by rw [htag.arrived.flaw, hkeys.lanes]⟩
      rw [htag.arrived.openHandles, htag.arrived.entRegion, hstored] at hk
      rw [htag]
      exact hkeys.cached k hk
    obtain ⟨c, dk, hopen⟩ := openWhen_keys hkeys'
    refine ⟨_, htag.opening_keyed c dk, ?_⟩
    rw [if_neg (by simp), if_pos hmode', hopen, hstored, htag.arrived.openEnt]

/-- A STRICT read outside P3 is answered (04 R106, R136). -/
theorem readArrived_read (hkind : e.kind = .read) (hsrc : e.src = .fab ch tg fe) (hv : (entRegion s e).verify ≠ 2) (hmode : (entRegion s e).mode ≠ 3)
    (he' : e' = { e with fetches := [], stored := d, mism := mism }) (hkeys : KeysAtHand s e' d) (hents : s.ime.ents = [e]) (poison : Bool) (m : MemIn) :
    Completes s (readArrived s e d poison m mism) [] s.ime.blks (readBeats s e ch tg fe (openEnt s e' d poison)) := by
  obtain ⟨t, ht, hr⟩ := readArrived_opened (by simp [hkind]) hmode he' hkeys poison m
  have hregion : entRegion t e' = entRegion s e := by rw [ht.arrived.entRegion, he']; rfl
  have hknown := ht.sameQueue.completes (lineKnown_read (s := t) (e := e') (by rw [he']; exact hkind) (by rw [he']; exact hsrc) (by rwa [hregion])
    (openEnt s e' d poison))
  rw [← hr, ht.sameQueue.ime, hents] at hknown
  have hbeats : readBeats t e' ch tg fe (openEnt s e' d poison) = readBeats s e ch tg fe (openEnt s e' d poison) := by
    unfold readBeats
    rw [fabBeats_tm ht.sameQueue.tm, he']
  rw [hbeats] at hknown
  have hdrop : [e].filter (fun x => x.seq != e'.seq) = [] := by simp [he']
  rwa [hdrop] at hknown

/-- A RAW_READ is answered with the line as it came, whatever the keys (04 R148). -/
theorem readArrived_raw (hkind : e.kind = .rawRead) (hsrc : e.src = .fab ch tg fe) (hfail : e.fail = 0#8) (hents : s.ime.ents = [e]) (d : Stored)
    (poison : Bool) (m : MemIn) (mism : Nat) :
    Completes s (readArrived s e d poison m mism) [] s.ime.blks
      (if poison = true then fabBeats s ch tg fe 1 Rsn.memPoison e.deadline [(0#576, true)] else fabBeats s ch tg fe 0 0 e.deadline [(d, false)]) := by
  have h := rawKnown_fab (s := s) hsrc hfail d poison
  have hdrop : [e].filter (fun x => x.seq != e.seq) = [] := by simp
  rw [hents, hdrop] at h
  unfold readArrived
  rwa [if_pos hkind]

/-! ### A read of P3 -/

/-- The operation as it is opened once its tree path has been verified (04 R131). -/
def pathChecked (e : MemEnt) (ok : Bool) : MemEnt := if ok then e else { e with fail := Rsn.treeFail }

theorem Recorded.emitted (h : Recorded s t) : Emitted s t := by unfold Emitted; rw [h]

theorem Emitted.ownReads (h : Emitted s t) (lines : List Nat) (cls : Nat) : Emitted s (ownReads t lines cls) := by
  obtain ⟨w, o, hw⟩ := ownReads_eq t lines cls
  unfold Emitted at *
  rw [hw, h]

/-- Once its tree path has arrived a line with its keys at hand is known, as the path verifies. -/
theorem openWhen_path (hstep : TreeStep s t) (hem : Emitted s t) (hkeys : KeysAtHand s e e.stored) (ix : Nat) (r : Region) (pg : Nat) (m : MemIn) :
    ∃ u, Arrived s u ∧ (allPlaced s.ime.ents → allPlaced u.ime.ents) ∧
      openWhen (pathArrived t ix r pg m).2.1 (pathChecked e (pathArrived t ix r pg m).1) =
        lineKnown u (pathChecked e (pathArrived s ix r pg m).1) (openEnt s (pathChecked e (pathArrived s ix r pg m).1) e.stored false) := by
  have hpath := hstep.trans (treeStep_pathArrived t ix r pg m)
  rw [hem.pathArrived ix r pg m]
  generalize (pathArrived t ix r pg m).2.1 = w at hpath ⊢
  generalize (pathArrived s ix r pg m).1 = ok
  have hstored : (pathChecked e ok).stored = e.stored := by cases ok <;> rfl
  have hhandles : openHandles w (pathChecked e ok).region (entRegion w (pathChecked e ok)) e.stored = openHandles s e.region (entRegion s e) e.stored := by
    rw [hpath.arrived.openHandles, hpath.arrived.entRegion]
    cases ok <;> rfl
  have hcached : ∀ k ∈ openHandles w (pathChecked e ok).region (entRegion w (pathChecked e ok)) e.stored, dkcHas w k = true := by
    rw [hhandles]
    unfold dkcHas
    rw [hpath.key]
    exact hkeys.cached
  obtain ⟨c, d, hopen⟩ := openWhen_keys (s := w) (e := pathChecked e ok) ⟨by rwa [hstored], by rw [hpath.arrived.flaw, hkeys.lanes]⟩
  refine ⟨keyed w c d, hpath.arrived.trans (arrived_keyed ..), hpath.placed, ?_⟩
  rw [hopen, hstored, hpath.arrived.openEnt]

/-- A P3 line is opened after its tree lines are verified or have failed. -/
theorem readArrived_tree (hkind : e.kind = .read) (hmode : (entRegion s e).mode = 3) (hfail : e.fail = 0#8)
    (he' : e' = { e with fetches := [], stored := d, mism := mism }) (hkeys : KeysAtHand s e' d) (m : MemIn) :
    ∃ t, Arrived s t ∧ (allPlaced s.ime.ents → allPlaced t.ime.ents) ∧ readArrived s e d false m mism =
      lineKnown t (pathChecked e' (pathArrived s e.region (entRegion s e) (pageOf (entRegion s e) e.line) m).1)
        (openEnt s (pathChecked e' (pathArrived s e.region (entRegion s e) (pageOf (entRegion s e) e.line) m).1) d false) := by
  have hstored : e'.stored = d := by rw [he']
  have htag := recorded_tagUnit s e mism
  rw [← hstored] at hkeys
  have hread : readArrived s e d false m mism =
      let w := tagUnit s e mism
      let r := entRegion s e
      let x := if e.fetches.isEmpty then fetchPath w e.region r (pageOf r e.line) e.cls m else pathArrived w e.region r (pageOf r e.line) m
      openWhen x.2.1 (pathChecked e' x.1) := by
    unfold readArrived
    rw [if_neg (by simp [hkind])]
    dsimp only
    rw [htag.arrived.entRegion, if_neg (by simp), if_neg (by simp [hmode])]
    simp [hfail, pathChecked, he']
  rw [hread, ← hstored]
  dsimp only
  cases e.fetches.isEmpty with
  | true => exact openWhen_path (htag.treeStep.trans (treeStep_ownReads ..)) (htag.emitted.ownReads ..) hkeys ..
  | false => exact openWhen_path htag.treeStep htag.emitted hkeys ..

end Sys2Proof.Proofs.Memory

/-! Sealing one line with its keys at hand, and the compressed block it ends (04 R121 to R126, R137, R146). -/
namespace Sys2Proof.Proofs.Memory

open Sys2Proof.Machine Lanes

variable {s t u : State} {e e' x : MemEnt} {o : Opened} {ch : Nat} {tg : BitVec 16} {fe : Word} {ents : List MemEnt} {blks : List Blk} {beats : List Out}
  {a : MemAnswer} {m : MemIn} {p mism slot half : Nat} {d : Stored} {poison : Bool} {r : Region} {b : Blk} {v : Slot} {c : Code}

/-! ### A line sealed and waiting for MEMPORT (04 R109, R121 to R126) -/

/-- The operation as it waits with its sealed line. -/
def sealedEnt (e : MemEnt) (d : Stored) (major minor : Nat) : MemEnt :=
  { e with stored := d, phase := .writeReady, major := major, minor := minor, answered := true }

theorem setEnt_single (h : s.ime.ents = [x]) (hq : x.seq = e.seq) : (setEnt s e).ime.ents = [e] := by simp [setEnt, h, hq]

/-- A sealed line of its own is answered DONE as it begins to wait. -/
theorem sealed_completes (hkind : e.kind ≠ .cwrite) (ha : e.answered = false) (hsrc : e.src = .fab ch tg fe) (hents : s.ime.ents = [x])
    (hq : x.seq = e.seq) (d : Stored) (major minor : Nat) :
    Completes s (sealed s e d major minor) [sealedEnt e d major minor] s.ime.blks (fabBeats s ch tg fe 0 0 e.deadline [(0#576, false)]) := by
  have hset : (setEnt s (sealedEnt e d major minor)).ime.ents = [sealedEnt e d major minor] := setEnt_single hents hq
  have hfinish := finishMem_fab (setEnt s (sealedEnt e d major minor)) ch tg fe e.port e.cls e.deadline 0#8 false [(0#576, false)]
  have hsealed : sealed s e d major minor =
      finishMem (setEnt s (sealedEnt e d major minor)) (.fab ch tg fe) e.port e.cls e.deadline 0#8 false [(0#576, false)] := by
    simp [sealed, sealedEnt, ha, hkind, hsrc]
  rw [hset, ← hsealed] at hfinish
  exact hfinish.after rfl rfl rfl

/-- The last line of a compressed block to be sealed completes the block (04 R146). -/
theorem blkLine_last (hb : s.ime.blks = [b]) (hs : b.s = 1) (hgot : b.got = []) (hw : b.write = true) (hsrc : b.src = .fab ch tg fe) (l : Line) :
    Completes s (blkLine s b.id 0 l 0#8) s.ime.ents [] (fabBeats s ch tg fe 0 0 b.deadline [(0#576, false)]) := by
  have hfinish := finishMem_fab { s with ime := { s.ime with blks := [] } } ch tg fe b.port b.cls b.deadline 0#8 true [(0#576, false)]
  have hline : blkLine s b.id 0 l 0#8 =
      finishMem { s with ime := { s.ime with blks := [] } } (.fab ch tg fe) b.port b.cls b.deadline 0#8 true [(0#576, false)] := by
    simp [blkLine, hb, hs, hgot, hw, hsrc, tput, firstFail, tget]
  rw [← hline] at hfinish
  exact hfinish.after rfl rfl rfl

/-- A CWRITE whose header line fails ends before a line is written (04 R137). -/
theorem blkFail_only (hb : s.ime.blks = [b]) (hsrc : b.src = .fab ch tg fe) (hents : s.ime.ents = [x]) (hkind : x.kind = .cwHead) (hn : x.n = b.id)
    (hc : c ≠ 0#8) :
    Completes s (blkFail s b.id c false) [] [] (fabBeats s ch tg fe 1 c b.deadline [(0#576, false)]) := by
  have hfinish := finishMem_fab { s with ime := { s.ime with blks := [], ents := [] } } ch tg fe b.port b.cls b.deadline c false [(0#576, false)]
  have hfail : blkFail s b.id c false =
      finishMem { s with ime := { s.ime with blks := [], ents := [] } } (.fab ch tg fe) b.port b.cls b.deadline c false [(0#576, false)] := by
    simp [blkFail, hb, hsrc, hents, hkind, hn]
  rw [← hfail, resultOf, if_neg hc] at hfinish
  exact hfinish.after rfl rfl rfl

/-! ### Sealing with the keys at hand (03 R93; 04 R121) -/

/-- Outside P0 and P3 an operation accepted under the current generation of its region's slot. -/
structure SealsUnder (s : State) (e : MemEnt) (slot : Nat) (v : Slot) : Prop where
  mode : (entRegion s e).mode = 1 ∨ (entRegion s e).mode = 2
  keyed : regionSlot s e.region (entRegion s e) = some slot
  valid : slotAt s slot = some v
  gen : e.gen = v.genCur

theorem sealEnt_current (h : SealsUnder s e slot v) : sealEnt s e = sealOut s e (entRegion s e) slot (curHalf v) 0 0 := by
  obtain ⟨hmode, hslot, hv, hgen⟩ := h
  have hlive : liveHalf s slot e.gen = some (curHalf v) := by simp [liveHalf, hv, hgen]
  rcases hmode with h | h <;> simp [sealEnt, h, hslot, hv, hlive]

/-- Where every working key of its line can be derived, a line is sealed. -/
theorem sealLine_derived {ix : Nat} (hmode : r.mode = 1 ∨ r.mode = 2) (hkeys : ∀ k ∈ lineHandles s ix r slot half, (derive s k).isSome = true)
    (line : Nat) (l : Line) : ∃ d, sealLine s ix r slot half line 0 0 l = some d := by
  rcases hmode with h | h
  · simp only [lineHandles, h] at hkeys
    obtain ⟨kd, hkd⟩ := Option.isSome_iff_exists.mp (hkeys (regionHandle s ix r slot half 0x0301 512) (by simp))
    simp [sealLine, h, hkd]
  · simp only [lineHandles, h] at hkeys
    obtain ⟨kd, hkd⟩ := Option.isSome_iff_exists.mp (hkeys (regionHandle s ix r slot half 0x0301 512) (by simp))
    obtain ⟨kt, hkt⟩ := Option.isSome_iff_exists.mp (hkeys (regionHandle s ix r slot half 0x0302 256) (by simp))
    simp [sealLine, h, hkd, hkt]

/-- A line that can be sealed passes its lanes, is counted, and waits sealed (01 R17; 03 R97). -/
theorem sealOut_sealed (hlanes : s.lane.flaw = []) (hfail : e.fail = 0#8) {major minor : Nat}
    (hd : sealLine s e.region r slot half e.line major minor e.plain = some d) :
    ∃ t, SameQueue s t ∧ sealOut s e r slot half major minor = sealed t e d major minor := by
  obtain ⟨c, k, hpass⟩ := lanePass_clear s e.port (lineHandles s e.region r slot half) (some e.who) e.who.tag hlanes
  have hd' : sealLine (keyed s c k) e.region r slot half e.line major minor e.plain = some d := by
    rw [← hd]
    exact Opening.sealLine ((Recorded.refl s).opening_keyed c k) ..
  obtain ⟨ks, hcount⟩ := countBlocks_recorded (keyed s c k) slot half r.volume 4
  refine ⟨countBlocks (keyed s c k) slot half r.volume 4, ⟨hcount.ime, hcount.ile, hcount.tm, hcount.out⟩, ?_⟩
  unfold sealOut
  rw [hpass]
  change (if !true then _ else if e.fail ≠ 0#8 then _ else match sealLine (keyed s c k) e.region r slot half e.line major minor e.plain with
    | some d => sealed (countBlocks (keyed s c k) slot half r.volume 4) e d major minor
    | none => unsealed (keyed s c k) e Rsn.keyRevoked) = _
  simp [hd', hfail]

end Sys2Proof.Proofs.Memory

/-! The two reads that a write makes: the line of a partial write and the header line of a CWRITE (04 R109, R137). -/
namespace Sys2Proof.Proofs.Memory

open Sys2Proof.Machine Lanes

variable {s t u : State} {e e' x : MemEnt} {o : Opened} {ch : Nat} {tg : BitVec 16} {fe : Word} {ents : List MemEnt} {blks : List Blk} {beats : List Out}
  {a : MemAnswer} {m : MemIn} {p mism slot half : Nat} {d : Stored} {poison : Bool} {r : Region} {b : Blk} {v : Slot} {c : Code}

/-! ### A partial write (04 R109) -/

/-- A partial write as it goes on to be sealed, merged with the line that was read. -/
def mergedEnt (e : MemEnt) (l : Line) : MemEnt := { e with plain := mergeLine e.mask l e.plain, kind := .ownWrite, phase := .lineWait }

/-- A P0 partial write is answered DONE and waits as a write of the merged line. -/
theorem lineKnown_partial (hkind : e.kind = .partial_) (hmode : (entRegion s e).mode = 0) (ha : e.answered = false) (hsrc : e.src = .fab ch tg fe)
    (hents : s.ime.ents = [x]) (hq : x.seq = e.seq) (ho : o.code = 0#8) :
    Completes s (lineKnown s e o) [sealedEnt (mergedEnt e o.plain) (withSide (mergeLine e.mask o.plain e.plain) 0#56 false 0) 0 0] s.ime.blks
      (fabBeats s ch tg fe 0 0 e.deadline [(0#576, false)]) := by
  have hknown : lineKnown s e o = sealEnt (setEnt (noted s e o) (mergedEnt e o.plain)) (mergedEnt e o.plain) := by
    unfold lineKnown
    rw [hkind]
    simp [ho, mergedEnt, noted]
  have hregion : (entRegion (setEnt s (mergedEnt e o.plain)) (mergedEnt e o.plain)).mode = 0 := hmode
  have hset : (setEnt s (mergedEnt e o.plain)).ime.ents = [mergedEnt e o.plain] := setEnt_single hents hq
  have h := sealed_completes (s := setEnt s (mergedEnt e o.plain)) (e := mergedEnt e o.plain) (by simp [mergedEnt]) ha hsrc hset rfl
    (withSide (mergeLine e.mask o.plain e.plain) 0#56 false 0) 0 0
  rw [hknown, noted_opened s e ho, sealEnt, if_pos hregion]
  exact h.after rfl rfl rfl

/-! ### The header line of a CWRITE (04 R137) -/

/-- The header line as it goes on to be sealed. -/
def headEnt (e : MemEnt) : MemEnt := { e with kind := .cwrite, phase := .lineWait }

/-- The engine with the header line of its one compressed block checked. -/
def headChecked (s : State) (b : Blk) (e : MemEnt) : State :=
  setEnt { s with ime := { s.ime with blks := [{ b with checked := true }] } } (headEnt e)

/-- The header line of a CWRITE of one line, the only compressed block. -/
structure OneLineCwrite (s : State) (e : MemEnt) (b : Blk) (ch : Nat) (tg : BitVec 16) (fe : Word) : Prop where
  kind : e.kind = .cwHead
  blks : s.ime.blks = [b]
  id : b.id = e.n
  write : b.write = true
  one : b.s = 1
  got : b.got = []
  first : e.lineIx = 0
  src : b.src = .fab ch tg fe
  unanswered : e.answered = false

theorem lineKnown_cwHead_good (h : OneLineCwrite s e b ch tg fe) (ho : o.code = 0#8) :
    lineKnown s e o = sealEnt (headChecked s b e) (headEnt e) := by
  have hnoted := noted_opened s e ho
  unfold lineKnown
  rw [h.kind]
  change (if o.code ≠ 0#8 then _ else sealEnt (setEnt { noted s e o with ime := { (noted s e o).ime with
    blks := (noted s e o).ime.blks.map fun b => if b.id = e.n then { b with checked := true } else b } } (headEnt e)) (headEnt e)) = _
  rw [if_neg (by simp [ho]), hnoted, h.blks, headChecked]
  simp [h.id]

/-- A header line that does not open ends the CWRITE with its reason. -/
theorem lineKnown_cwHead_bad (h : OneLineCwrite s e b ch tg fe) (hents : s.ime.ents = [x]) (hx : x.kind = .cwHead) (hn : x.n = b.id)
    (ho : o.code ≠ 0#8) : Completes s (lineKnown s e o) [] [] (fabBeats s ch tg fe 1 o.code b.deadline [(0#576, false)]) := by
  have hnoted := recorded_noted s e o
  obtain ⟨t, ht, hknown⟩ : ∃ t, Recorded s t ∧ lineKnown s e o = blkFail t b.id o.code false := by
    refine ⟨if o.code = Rsn.treeFail then noted s e o else lineFault (noted s e o) e o.code, ?_, ?_⟩
    · split
      · exact hnoted
      · exact hnoted.trans (recorded_lineFault ..)
    · unfold lineKnown
      rw [h.kind, h.id]
      exact if_pos ho
  rw [hknown, ← fabBeats_tm ht.tm]
  exact (blkFail_only (by rw [ht.ime, h.blks]) h.src (by rw [ht.ime, hents]) hx hn ho).recorded ht

/-- The line of a checked block of one line, sealed, is answered DONE with its block. -/
theorem sealed_head (h : OneLineCwrite s e b ch tg fe) (ht : SameQueue (headChecked s b e) t) (hents : s.ime.ents = [x]) (hq : x.seq = e.seq) (d : Stored) :
    Completes t (sealed t (headEnt e) d 0 0) [sealedEnt (headEnt e) d 0 0] [] (fabBeats t ch tg fe 0 0 b.deadline [(0#576, false)]) := by
  have hset : (headChecked s b e).ime.ents = [headEnt e] := setEnt_single (by exact hents) hq
  have hblk : sealed t (headEnt e) d 0 0 = blkLine (setEnt t (sealedEnt (headEnt e) d 0 0)) b.id 0 e.plain 0#8 := by
    simp [sealed, sealedEnt, headEnt, h.unanswered, h.id, h.first]
  have hblks : (setEnt t (sealedEnt (headEnt e) d 0 0)).ime.blks = [{ b with checked := true }] := by
    show t.ime.blks = _
    rw [ht.ime]
    rfl
  have hents' : (setEnt t (sealedEnt (headEnt e) d 0 0)).ime.ents = [sealedEnt (headEnt e) d 0 0] :=
    setEnt_single (x := headEnt e) (by rw [ht.ime, hset]) rfl
  have hlast := blkLine_last (b := { b with checked := true }) hblks h.one h.got h.write h.src e.plain
  rw [hents'] at hlast
  rw [hblk]
  exact hlast.after rfl rfl rfl

/-- A header line that opens lets the one line of its CWRITE be sealed, and the block is answered DONE. -/
theorem lineKnown_cwHead_sealed (h : OneLineCwrite s e b ch tg fe) (hunder : SealsUnder s e slot v) (hfail : e.fail = 0#8) (hlanes : s.lane.flaw = [])
    (hents : s.ime.ents = [x]) (hq : x.seq = e.seq)
    (hd : sealLine s e.region (entRegion s e) slot (curHalf v) e.line 0 0 e.plain = some d) (ho : o.code = 0#8) :
    Completes s (lineKnown s e o) [sealedEnt (headEnt e) d 0 0] [] (fabBeats s ch tg fe 0 0 b.deadline [(0#576, false)]) := by
  obtain ⟨t, ht, hseal⟩ := sealOut_sealed (s := headChecked s b e) (e := headEnt e) (r := entRegion s e) (slot := slot) (half := curHalf v)
    (major := 0) (minor := 0) (d := d) hlanes hfail hd
  have hunder' : SealsUnder (headChecked s b e) (headEnt e) slot v := ⟨hunder.mode, hunder.keyed, hunder.valid, hunder.gen⟩
  have hcur : sealEnt (headChecked s b e) (headEnt e) = sealOut (headChecked s b e) (headEnt e) (entRegion s e) slot (curHalf v) 0 0 :=
    sealEnt_current hunder'
  have hsealed := sealed_head h ht hents hq d
  rw [fabBeats_tm ht.tm] at hsealed
  rw [lineKnown_cwHead_good h ho, hcur, hseal]
  exact (ht.completes hsealed).after rfl rfl rfl

/-! ### Both as their line arrives -/

/-- A P0 partial write is merged with the line that arrives (04 R109). -/
theorem readArrived_partial (hkind : e.kind = .partial_) (hmode : (entRegion s e).mode = 0) (ha : e.answered = false) (hsrc : e.src = .fab ch tg fe)
    (hfail : e.fail = 0#8) (he' : e' = { e with fetches := [], stored := d, mism := mism }) (hkeys : KeysAtHand s e' d) (hents : s.ime.ents = [e])
    (m : MemIn) :
    Completes s (readArrived s e d false m mism) [sealedEnt (mergedEnt e' (storedData d)) (withSide (mergeLine e.mask (storedData d) e.plain) 0#56 false 0) 0 0]
      s.ime.blks (fabBeats s ch tg fe 0 0 e.deadline [(0#576, false)]) := by
  obtain ⟨t, ht, hread⟩ := readArrived_opened (by simp [hkind]) (by simp [hmode]) he' hkeys false m
  have hregion : entRegion s e' = entRegion s e := by rw [he']; rfl
  have hfail' : e'.fail = 0#8 := by rw [he']; exact hfail
  have hopen : openEnt s e' d false = { plain := storedData d, code := 0#8, late := false } := by simp [openEnt, hregion, hmode, hfail']
  have hknown := lineKnown_partial (s := t) (e := e') (x := e) (ch := ch) (tg := tg) (fe := fe) (o := openEnt s e' d false) (by rw [he']; exact hkind)
    (by rw [ht.arrived.entRegion, hregion, hmode]) (by rw [he']; exact ha) (by rw [he']; exact hsrc) (by rw [ht.sameQueue.ime, hents]) (by rw [he'])
    (by rw [hopen])
  rw [← hread, hopen, fabBeats_tm ht.sameQueue.tm, ht.sameQueue.ime] at hknown
  have hsame : e'.mask = e.mask ∧ e'.plain = e.plain ∧ e'.deadline = e.deadline := by rw [he']; exact ⟨rfl, rfl, rfl⟩
  obtain ⟨hmask, hplain, hdeadline⟩ := hsame
  rw [hmask, hplain, hdeadline] at hknown
  exact ht.sameQueue.completes hknown

theorem Opening.oneLineCwrite (ht : Opening s t) (h : OneLineCwrite s e b ch tg fe) (he' : e' = { e with fetches := [], stored := d, mism := mism }) :
    OneLineCwrite t e' b ch tg fe := by
  subst he'
  exact ⟨h.kind, by rw [ht.sameQueue.ime, h.blks], h.id, h.write, h.one, h.got, h.first, h.src, h.unanswered⟩

theorem Opening.sealsUnder (ht : Opening s t) (h : SealsUnder s e slot v) (he' : e' = { e with fetches := [], stored := d, mism := mism }) :
    SealsUnder t e' slot v := by
  obtain ⟨hmode, hslot, hv, hgen⟩ := h
  obtain ⟨c, k, ht⟩ := ht
  subst he'
  rw [ht]
  exact ⟨hmode, hslot, hv, hgen⟩

/-- The header line of a CWRITE of one line, opened or not (04 R137). -/
theorem readArrived_cwHead (h : OneLineCwrite s e b ch tg fe) (hunder : SealsUnder s e slot v) (hfail : e.fail = 0#8)
    (he' : e' = { e with fetches := [], stored := d, mism := mism }) (hkeys : KeysAtHand s e' d) (hents : s.ime.ents = [e]) (poison : Bool) (m : MemIn) :
    ((openEnt s e' d poison).code = 0#8 → ∀ w, sealLine s e.region (entRegion s e) slot (curHalf v) e.line 0 0 e.plain = some w →
      Completes s (readArrived s e d poison m mism) [sealedEnt (headEnt e') w 0 0] [] (fabBeats s ch tg fe 0 0 b.deadline [(0#576, false)]))
    ∧ ((openEnt s e' d poison).code ≠ 0#8 →
      Completes s (readArrived s e d poison m mism) [] [] (fabBeats s ch tg fe 1 (openEnt s e' d poison).code b.deadline [(0#576, false)])) := by
  have hmode : (entRegion s e).mode ≠ 3 := by rcases hunder.mode with h | h <;> simp [h]
  obtain ⟨t, ht, hread⟩ := readArrived_opened (by simp [h.kind]) hmode he' hkeys poison m
  have hcw := ht.oneLineCwrite h he'
  have hents' : t.ime.ents = [e] := by rw [ht.sameQueue.ime, hents]
  rw [hread, ← fabBeats_tm ht.sameQueue.tm]
  refine ⟨fun ho w hw => ht.sameQueue.completes ?_, fun ho => ht.sameQueue.completes (lineKnown_cwHead_bad hcw hents' h.kind h.id.symm ho)⟩
  refine lineKnown_cwHead_sealed hcw (ht.sealsUnder hunder he') (by rw [he']; exact hfail) (by rw [ht.arrived.flaw, hkeys.lanes]) hents' (by rw [he']) ?_ ho
  rw [ht.sealLine, ht.arrived.entRegion, he']
  exact hw

end Sys2Proof.Proofs.Memory

/-! A P3 read at its command, and the obligation. -/
namespace Sys2Proof.Proofs.Memory

open Sys2Proof.Machine

variable {s : State} {e e' : MemEnt} {ch : Nat} {tg : BitVec 16} {fe : Word} {p mism : Nat} {d : Stored} {ents : List MemEnt} {blks : List Blk}
  {beats : List Out} {a : MemAnswer} {m : MemIn}

/-- The outcome of a P3 read: its line opened where its tree lines verify, else TREE_FAIL (04 R131, R136). -/
def treeOpened (s : State) (e : MemEnt) (d : Stored) (ok : Bool) : Opened :=
  if ok then openEnt s e d false else { plain := 0#512, code := Rsn.treeFail, late := false }

theorem openEnt_pathChecked (s : State) (e : MemEnt) (d : Stored) (ok : Bool) : openEnt s (pathChecked e ok) d false = treeOpened s e d ok := by
  cases ok <;> rfl

/-- A STRICT read of P3 is answered as its tree lines verify; what leaves the counter cache waits to be written (04 R130, R131, R136). -/
theorem memReadData_tree (h : OneRead s p e) (hcalm : Calm s) (hkind : e.kind = .read) (hsrc : e.src = .fab ch tg fe) (hv : (entRegion s e).verify ≠ 2)
    (hmode : (entRegion s e).mode = 3) (hfail : e.fail = 0#8) (he' : e' = { e with fetches := [], stored := a.data, mism := mism })
    (hkeys : KeysAtHand s e' a.data) (hpoison : a.poison = false) (m : MemIn) :
    ∃ t, exec (.memReadData p e.tag (epochOf s (domMem p)) a m mism) s = .next t ∧ ∀ b ∈ readBeats s e ch tg fe
      (treeOpened s e' a.data (pathArrived s e.region (entRegion s e) (pageOf (entRegion s e) e.line) m).1), b ∈ t.out := by
  obtain ⟨t, ht, hplaced, hread⟩ := readArrived_tree hkind hmode hfail he' hkeys m
  generalize (pathArrived s e.region (entRegion s e) (pageOf (entRegion s e) e.line) m).1 = ok at *
  have hchecked : (pathChecked e' ok).kind = .read ∧ (pathChecked e' ok).src = .fab ch tg fe ∧ (pathChecked e' ok).deadline = e.deadline
      ∧ entRegion t (pathChecked e' ok) = entRegion s e := by
    rw [ht.entRegion, he']
    cases ok <;> exact ⟨hkind, hsrc, rfl, rfl⟩
  obtain ⟨hk, hs, hd, hr⟩ := hchecked
  have hknown := lineKnown_read (s := t) hk hs (by rwa [hr]) (treeOpened s e' a.data ok)
  rw [openEnt_pathChecked] at hread
  rw [← hread] at hknown
  have hone : allPlaced s.ime.ents := by rw [h.ents]; exact allPlaced_single (.inl h.phase)
  have hrest : Machine.afterMem (readArrived s e a.data a.poison m mism) = readArrived s e a.data false m mism := by
    rw [hpoison]
    exact hknown.afterMem (ht.calm hcalm) fun x hx => hplaced hone x (List.mem_filter.mp hx).1
  have hbeats : readBeats t (pathChecked e' ok) ch tg fe (treeOpened s e' a.data ok) = readBeats s e ch tg fe (treeOpened s e' a.data ok) := by
    unfold readBeats
    rw [fabBeats_tm ht.tm, hd]
  refine ⟨_, congrArg Host.Outcome.next ((memRead_one h a m mism).trans hrest), fun b hb => ?_⟩
  rw [hknown.out, hbeats]
  exact List.mem_append_right _ hb

end Sys2Proof.Proofs.Memory

namespace Sys2Proof.Proofs

open Sys2Proof.Machine Memory

/-- Settles O25: each answer is followed to its end; what a line that arrives moves on its way (records, the key cache, the counter cache) leaves
its verdict as it was, and with nothing else waiting its completion sets nothing else going. -/
theorem memoryAnswersComplete : Obligations.MemoryAnswersComplete := by
  unfold Obligations.MemoryAnswersComplete
  refine ⟨fun p tag mism ep a m s ht he => ⟨memReadData_stale ht tag he a m mism, memWriteAck_stale ht tag he⟩, ?_,
    fun p e s ht hents hport hphase hin hdy hcr => memWriteAck_one ht hents hport hphase ⟨hin, hcr, hdy⟩⟩
  rintro p mism ch tg fe a m e e' r s ht hents hport hphase hsrc hin hdy hcr rfl he' hfail hlanes hcached
  have hone : OneRead s p e := ⟨ht, hents, hport, hphase⟩
  have hcalm : Calm s := ⟨hin, hcr, hdy⟩
  have hkeys : KeysAtHand s e' a.data := ⟨by rw [he']; exact hcached, hlanes⟩
  refine ⟨fun hkind hv hmode => ?read, fun hkind hv hmode hpoison => ?tree, fun hkind => ?raw, fun hkind ha hmode hpoison => ?merge, ?header⟩
  case read =>
    obtain ⟨t, hexec, hc⟩ := memReadData_completes hone hcalm allPlaced_nil (readArrived_read hkind hsrc hv hmode he' hkeys hents a.poison m)
    exact ⟨t, hexec, hc.ents, hc.out⟩
  case tree =>
    obtain ⟨t, hexec, hout⟩ := memReadData_tree hone hcalm hkind hsrc hv hmode hfail he' hkeys hpoison m
    refine ⟨t, hexec, fun hok => ?_, fun hok hgood => ?_, fun hok hbad => ?_⟩
    · rw [hok] at hout
      exact hout
    · simpa [hok, treeOpened, readBeats, hgood] using hout
    · simpa [hok, treeOpened, readBeats, hbad] using hout
  case raw =>
    obtain ⟨t, hexec, hc⟩ := memReadData_completes hone hcalm allPlaced_nil (readArrived_raw hkind hsrc hfail hents a.data a.poison m mism)
    exact ⟨t, hexec, hc.ents, hc.out⟩
  case merge =>
    have hknown := readArrived_partial hkind hmode ha hsrc hfail he' hkeys hents m
    obtain ⟨t, hexec, hc⟩ := memReadData_completes hone hcalm (allPlaced_single (.inr rfl)) (by rwa [hpoison])
    exact ⟨t, _, hexec, hc.ents, rfl, by rw [he']; rfl, rfl, hc.out⟩
  case header =>
    intro b slot v hkind hb hid hw hs hgot hix hbsrc ha hmode hslot hv hgen hder
    have hcw : OneLineCwrite s e b ch tg fe := ⟨hkind, hb, hid, hw, hs, hgot, hix, hbsrc.trans hsrc, ha⟩
    obtain ⟨hgood, hbad⟩ := readArrived_cwHead hcw ⟨hmode, hslot, hv, hgen⟩ hfail he' hkeys hents a.poison m
    refine ⟨fun ho => ?_, fun ho => ?_⟩
    · obtain ⟨w, hseal⟩ := sealLine_derived hmode hder e.line e.plain
      obtain ⟨t, hexec, hc⟩ := memReadData_completes hone hcalm (allPlaced_single (.inr rfl)) (hgood ho w hseal)
      exact ⟨t, _, hexec, hc.blks, hc.ents, rfl, hseal, hc.out⟩
    · obtain ⟨t, hexec, hc⟩ := memReadData_completes hone hcalm allPlaced_nil (hbad ho)
      exact ⟨t, hexec, hc.blks, hc.ents, hc.out⟩

end Sys2Proof.Proofs

/-! The effective offers of the interfaces: the versions that both OFFER_MASK and the block have (02 R59). -/
namespace Sys2Proof.Proofs.Offers
open Sys2Proof.Machine

theorem bit_eq_testBit (v i : Nat) : bit v i = v.testBit i := by
  simp [bit, bits, Nat.testBit_eq_decide_div_mod_eq]

/-- The bits two masks of 16 versions share are the bits of both. -/
theorem bit_maskAnd (a b n : Nat) : bit (maskAnd a b) n = true ↔ n < 16 ∧ bit a n = true ∧ bit b n = true := by
  simp only [bit_eq_testBit, maskAnd, BitVec.testBit_toNat, BitVec.getLsbD_and, BitVec.getLsbD_ofNat, Bool.and_eq_true, decide_eq_true_eq]
  tauto

theorem maskAnd_lt (a b : Nat) : maskAnd a b < 2 ^ 16 := (BitVec.ofNat 16 a &&& BitVec.ofNat 16 b).isLt

/-- The versions the block implements of an interface, under a setting of compatibility, are those of Table 2-6. -/
theorem implemented_versions : ∀ x ∈ Safety.versions, ∀ fore : Bool, ∀ n < 16,
    bit (nativeMask x.1 + if fore then foreMask x.1 else 0) n = true ↔ n = x.2.1 ∨ (fore = true ∧ x.2.2 = some n) := by
  decide

theorem offerNow_bit {x : Nat × Nat × Option Nat} (hx : x ∈ Safety.versions) (s : State) (n : Nat) :
    bit (offerNow s x.1) n = true ↔ bit (offerMask s x.1) n = true ∧ n < 16 ∧ (n = x.2.1 ∨ (forerunner s = true ∧ x.2.2 = some n)) := by
  have himp : n < 16 → _ := implemented_versions x hx (forerunner s) n
  rw [offerNow, effOffer, bit_maskAnd]
  exact ⟨fun ⟨hn, ho, hv⟩ => ⟨ho, hn, (himp hn).mp hv⟩, fun ⟨ho, hn, hv⟩ => ⟨hn, ho, (himp hn).mpr hv⟩⟩

theorem interface_masks : ∀ x ∈ Safety.versions, x.1 ≠ 0 ∧ nativeMask x.1 + foreMask x.1 < 2 ^ 16 := by decide

theorem verData_offer {x : Nat × Nat × Option Nat} (hx : x ∈ Safety.versions) {s : State} (hc : s.gen.unchartered = false)
    (hsel : bits s.gen.verSel.toNat 0 3 = x.1) : bits (verData s) 16 16 = offerNow s x.1 := by
  obtain ⟨hne, hlow⟩ := interface_masks x hx
  have hoff : offerNow s x.1 < 2 ^ 16 := maskAnd_lt ..
  have hdata : verData s = nativeMask x.1 + foreMask x.1 + offerNow s x.1 * 2 ^ 16 := by simp [verData, hsel, hne, hc]
  rw [hdata, bits]
  omega

end Sys2Proof.Proofs.Offers

namespace Sys2Proof.Proofs
open Sys2Proof.Machine Offers

/-- Settles O53: a version is offered where both masks have its bit, and GEN_VER_DATA holds the offer in its upper half. -/
theorem effectiveOffers : Obligations.EffectiveOffers := by
  unfold Obligations.EffectiveOffers
  refine fun s x hx => ⟨offerNow_bit hx s, fun hc hsel => ?_⟩
  have hread : regValue s 0x18 = some (verData s) := rfl
  rw [hread, Option.map_some, verData_offer hx hc hsel]

end Sys2Proof.Proofs

/-! GEN_FUNC_STOP: functions told to stop, held by a load, and drained (02 R60, R61). -/
namespace Sys2Proof.Proofs.Functions
open Sys2Proof.Machine

/-- The functions that a write of GEN_FUNC_STOP leaves held until the load under way ends (02 R61). -/
def stillHeld (s : State) (w : Word) : BitVec 32 := if s.gen.chrBusy then (s.gen.funcHeld ||| s.gen.funcStop) &&& ~~~w else 0#32

/-- GEN_FUNC_STOP as a write leaves it, with what it holds and what stays stopped. -/
def stopped (s : State) (w : Word) : Gen :=
  { s.gen with funcStop := w, funcHeld := stillHeld s w, funcState := s.gen.funcState &&& (w ||| stillHeld s w) }

/-- The BCE once a write of its stop bit is in force: every job suspended. -/
def suspended (b : Bce) : Bce := { b with jobs := b.jobs.map fun j => { j with engine := none } }

/-- A write of GEN_FUNC_STOP changes the stop bits, the BCE where it stops it, and records a write of an absent function. -/
theorem funcStopWrite_eq (s : State) (v : Word) :
    ∃ f, funcStopWrite s v = { s with
      flt := f
      gen := stopped s (v &&& funcPresent s)
      bce := if (v &&& funcPresent s).getLsbD 24 then suspended s.bce else s.bce } := by
  unfold funcStopWrite
  dsimp only
  generalize (v &&& ~~~(funcPresent s) &&& 0x00FFFFFF#32 != 0#32) = absent
  generalize v &&& funcPresent s = w
  refine ⟨(if absent then ignoreWrite s (0x60 / 4) else s).flt, ?_⟩
  cases absent <;> cases w.getLsbD 24 <;> rfl

theorem stopped_in_force {s : State} {w : Word} {i : Nat} (hb : s.gen.chrBusy = true)
    (hi : s.gen.funcStop.getLsbD i = true ∨ s.gen.funcHeld.getLsbD i = true) : ((stopped s w).funcStop ||| (stopped s w).funcHeld).getLsbD i = true := by
  have hlt : i < 32 := by rcases hi with h | h <;> exact BitVec.lt_of_getLsbD h
  have hheld : (s.gen.funcHeld ||| s.gen.funcStop).getLsbD i = true := by rcases hi with h | h <;> simp [h]
  simp only [stopped, stillHeld, hb, if_true, BitVec.getLsbD_or, BitVec.getLsbD_and, BitVec.getLsbD_not, hlt, decide_true, Bool.true_and]
  rw [← BitVec.getLsbD_or, hheld]
  cases w.getLsbD i <;> rfl

theorem functionDrained_idle {s : State} {f : Nat} (hc : coreDown s = false) (hs : (funcStops s).getLsbD f = true)
    (hn : s.gen.funcState.getLsbD f = false) (hi : funcIdle s f = true) :
    functionDrained s f = { s with gen := { s.gen with funcState := s.gen.funcState ||| (1#32 <<< f) } } := by
  simp [functionDrained, hc, hs, hn, hi]

end Sys2Proof.Proofs.Functions

namespace Sys2Proof.Proofs
open Sys2Proof.Machine Functions

/-- Settles O20: `funcStopWrite_eq` gives every field that a write of GEN_FUNC_STOP leaves. -/
theorem functionsStopAndDrain : Obligations.FunctionsStopAndDrain := by
  unfold Obligations.FunctionsStopAndDrain
  refine ⟨fun v s hs => ?_, fun f s hc hst hn hi => congrArg Host.Outcome.next (functionDrained_idle hc hst hn hi)⟩
  obtain ⟨f, hw⟩ := funcStopWrite_eq s v
  refine ⟨_, congrArg Host.Outcome.next ((ctlWriteBy_admitted hs _).trans (congrArg Safety.okay hw)), rfl,
    fun hb => ?_, fun hb i => stopped_in_force hb, fun h24 => ?_, fun h24 => ?_, rfl, rfl, rfl, rfl, rfl, rfl, rfl, rfl, rfl, rfl, rfl, rfl, rfl, rfl, rfl, rfl⟩
  · simp [Safety.okay, stopped, stillHeld, hb]
  · simp only [Safety.okay, emit_bce, h24, if_true, suspended, List.mem_map]
    rintro _ ⟨j, -, rfl⟩
    rfl
  · simp only [Safety.okay, emit_bce, h24, Bool.false_eq_true, if_false]

end Sys2Proof.Proofs

/-! Steps C6, C12 and C13 of a start: the root regenerated, the random keys and the DRBG, READY (02 R66; 03 R78, R79, R98, R101). -/
namespace Sys2Proof.Proofs.StartSteps
open Sys2Proof.Machine

variable {s t u : State} {e : Nat}

/-! ### Step C6 -/

theorem geodeRegenerate_helper {h : Helper} (hr : s.gen.released = true) (h6 : s.gen.c6Done = false) (hp : s.key.pufRead = false)
    (hc : coreDown s = false) (hs : s.key.slateOn = false) (ht : s.key.tampered = false) (hh : s.flash.helper = some h) (puf : BitVec 20460)
    (flashOk : Bool) : geodeRegenerate s puf flashOk = geodeEnd s (regenFrom s h puf) := by
  simp [geodeRegenerate, hr, h6, hp, hc, hs, ht, hh]

theorem geodeEnd_c6Done (s : State) (r : Except Nat (BitVec 256)) : (geodeEnd s r).gen.c6Done = true := by
  cases r <;> simp [geodeEnd, recordPlain]

theorem geodeEnd_pufRead (s : State) (r : Except Nat (BitVec 256)) : (geodeEnd s r).key.pufRead = true := by
  cases r <;> simp [geodeEnd, recordPlain]

theorem geodeEnd_error (s : State) (c : Nat) :
    (geodeEnd s (.error c)).key = { s.key with pufRead := true, geodeFail := true, geodeCause := c } := by
  simp [geodeEnd, recordPlain]

/-! ### Step C12 -/

/-- `t` differs from `s` at most in the block's own slots and public keys, the counts of the DRBG, the free values drawn, and the IME. -/
def Provisioned (s t : State) : Prop :=
  t = { s with
    freeIx := t.freeIx, ime := t.ime
    key := { s.key with
      slots := t.key.slots, idPub := t.key.idPub, kexPub := t.key.kexPub, drbgReqs := t.key.drbgReqs, reseedDue := t.key.reseedDue } }

theorem Provisioned.trans (h : Provisioned s t) (h' : Provisioned t u) : Provisioned s u := by
  unfold Provisioned at *
  rw [h] at h'
  exact h'

theorem provisioned_writeIdentity (s : State) : Provisioned s (writeIdentity s) := by
  unfold writeIdentity
  split
  · rfl
  · dsimp only
    split
    · rfl
    · split <;> rfl

theorem provisioned_drbgTake (w : Nat) (s : State) : Provisioned s (drbgTake w s).2 := by
  unfold drbgTake
  dsimp only
  split <;> rfl

theorem provisioned_fillCatalogueKey (s : State) : Provisioned s (fillCatalogueKey s) := by
  unfold fillCatalogueKey
  split
  · rfl
  · exact (provisioned_drbgTake 256 s).trans rfl

theorem provisioned_seedPads (s : State) : Provisioned s (seedPads s) := by
  unfold seedPads
  split
  · rfl
  · exact (provisioned_drbgTake 256 s).trans rfl

/-- The mask key in use of a kill bank. -/
def maskOf (cur : Bool) (k : KillBank) : Option (BitVec 256) := if cur then k.mask1 else k.mask0

/-- Random keys fill what the kill bank lacks: the present mask key and the scrambling key stand, the roots stay (03 R98, R99). -/
theorem fillBank_eq (s : State) :
    ∃ i k, fillBank s = { s with freeIx := i, key := { s.key with kill := k } } ∧ (maskOf s.key.maskCur k).isSome = true
      ∧ k.scramble.isSome = true ∧ s.key.kill.geode = k.geode ∧ s.key.kill.bedrock = k.bedrock := by
  unfold fillBank
  extract_lets t
  have ht : ∃ i k, t = { s with freeIx := i, key := { s.key with kill := k } } ∧ (maskOf s.key.maskCur k).isSome = true
      ∧ s.key.kill.geode = k.geode ∧ s.key.kill.bedrock = k.bedrock := by
    unfold t
    split
    · next hm => exact ⟨_, s.key.kill, rfl, hm, rfl, rfl⟩
    · refine ⟨_, _, rfl, ?_⟩
      cases s.key.maskCur <;> exact ⟨rfl, rfl, rfl⟩
  obtain ⟨i, k, ht, hm, hg, hb⟩ := ht
  rw [ht]
  split
  · next hsc => exact ⟨i, k, rfl, hm, hsc, hg, hb⟩
  · exact ⟨_, { k with scramble := some _ }, rfl, hm, rfl, hg, hb⟩

/-- Step C12 with nothing waiting for a seed: the DRBG up unless the entropy source has failed, and the random keys of the kill bank (03 R98, R101). -/
theorem instantiate_eq (hw : s.key.seedWait = 0) :
    ∃ k, (maskOf s.key.maskCur k).isSome = true ∧ k.scramble.isSome = true ∧ s.key.kill.geode = k.geode ∧ s.key.kill.bedrock = k.bedrock
      ∧ Provisioned { s with
          key := { s.key with drbgUp := !s.key.drbgFail, kill := k }
          gen := { s.gen with c12Done := true, startDrbg := s.key.drbgFail } } (instantiate s) := by
  unfold instantiate
  extract_lets _ _ t
  obtain ⟨i, k, ht, hm, hsc, hg, hb⟩ := fillBank_eq t
  refine ⟨k, hm, hsc, hg, hb, ?_⟩
  rw [ht]
  refine Provisioned.trans ?_ (((provisioned_writeIdentity _).trans (provisioned_fillCatalogueKey _)).trans (provisioned_seedPads _))
  simp only [Provisioned, t, hw, Nat.zero_sub]
  exact hw.symm ▸ rfl

/-! ### What waits for random numbers -/

theorem wakeLink_idle (h : (lportAt s e).helloDue = false ∧ (lportAt s e).shareDue = false ∧ (lportAt s e).rekeyDue = false) : wakeLink s e = s := by
  obtain ⟨hh, hs, hr⟩ := h
  simp [wakeLink, hh, hs, hr]

theorem wakeLinks_idle (h : ∀ e, (lportAt s e).helloDue = false ∧ (lportAt s e).shareDue = false ∧ (lportAt s e).rekeyDue = false) :
    wakeLinks s = s := by
  unfold wakeLinks
  induction lnkPortsOf s with
  | nil => rfl
  | cons e l ih => rw [List.foldl_cons, wakeLink_idle (h e), ih]

/-- With nothing waiting for a seed, none is served (03 R100). -/
theorem serveSeed_idle (h : Safety.nothingWaitsForSeed s) : serveSeed s = s := by
  obtain ⟨hw, hg, ha, hl, hp⟩ := h
  simp [serveSeed, serveGen, serveAtt, serveLcs, wakeLinks_idle hp, hw, hg, ha, hl, bit, bits]

theorem Provisioned.nothingWaits (h : Provisioned s t) (hs : Safety.nothingWaitsForSeed s) : Safety.nothingWaitsForSeed t := by
  rw [h]
  exact hs

theorem drbgInstantiate_idle (h6 : s.gen.c6Done = true) (h10 : s.gen.c10Done = true) (h12 : s.gen.c12Done = false) (hc : coreDown s = false)
    (ht : s.key.tampered = false) (hr : s.key.retries = 0) (hs : Safety.nothingWaitsForSeed s) : drbgInstantiate s = instantiate s := by
  obtain ⟨k, -, -, -, -, hi⟩ := instantiate_eq hs.1
  have hidle : Safety.nothingWaitsForSeed (instantiate s) := hi.nothingWaits hs
  simp [drbgInstantiate, h6, h10, h12, hc, ht, hr, serveSeed_idle hidle]

/-! ### Step C13 -/

theorem startReady_trained (hp : s.pin.pwrok = true) (hr : s.gen.released = true) (hh : s.gen.halted = false) (h10 : s.gen.c10Done = true)
    (h12 : s.gen.c12Done = true) (hn : s.gen.ready = false) (hc : coreDown s = false) (hq : s.flt.coldReq = false) (ht : portsTrained s = true)
    (hw : ∀ r ∈ s.flt.running, ¬(r.rung = 4 ∧ r.phase = .restart)) : startReady s = { s with gen := { s.gen with ready := true } } := by
  have hany : (s.flt.running.any fun r => r.rung == 4 && r.phase == .restart) = false := by simpa [List.any_eq_false] using hw
  simp [startReady, hp, hr, hh, h10, h12, hn, hc, hq, ht, hany]

end Sys2Proof.Proofs.StartSteps

namespace Sys2Proof.Proofs

open Sys2Proof.Machine StartSteps

/-- Settles O9: C6 ends as the regeneration does, `instantiate_eq` gives what C12 leaves, a failed entropy source included (log 66), and C13 raises
READY alone. -/
theorem startStepsComplete : Obligations.StartStepsComplete := by
  unfold Obligations.StartStepsComplete
  refine ⟨fun puf flashOk h s hr h6 hp hc hs ht hh => ?c6, fun s h6 h10 h12 hc ht hr hs => ?c12,
    fun s hp hr hh h10 h12 hn hc hq ht hw => congrArg Host.Outcome.next (startReady_trained hp hr hh h10 h12 hn hc hq ht hw)⟩
  case c6 =>
    refine ⟨_, congrArg Host.Outcome.next (geodeRegenerate_helper hr h6 hp hc hs ht hh puf flashOk), geodeEnd_c6Done .., geodeEnd_pufRead .., ?_, ?_⟩
    · intro root hroot
      rw [hroot]
      exact ⟨rfl, rfl, rfl⟩
    · intro c hcause
      rw [hcause, geodeEnd_error]
      exact ⟨rfl, rfl, rfl⟩
  case c12 =>
    obtain ⟨k, hm, hsc, hg, hb, hi⟩ := instantiate_eq hs.1
    refine ⟨_, congrArg Host.Outcome.next (drbgInstantiate_idle h6 h10 h12 hc ht hr hs), ?_⟩
    rw [hi]
    exact ⟨rfl, rfl, hm, hsc, hg, hb⟩

end Sys2Proof.Proofs

/-! Steps C9 to C11 of a start and the release of ports: lanes grouped afresh, ports out of reset, bring-up begun (02 R56, R66, R67). Nothing of it
moves CORE or HOST, the life cycle, the charter, the slices, or flash but for the standing list. -/
namespace Sys2Proof.Proofs.BringUp
open Sys2Proof.Machine

variable {s t u : State}

/-- `t` differs from `s` at most in the domains of ports, lanes, keys, links, credits, records, port pins and outputs. -/
def BroughtUp (s t : State) : Prop :=
  (∀ d < 2, domAt t d = domAt s d)
    ∧ t = { s with
      dom := t.dom, lane := t.lane, key := t.key, ile := t.ile, qos := t.qos, flt := t.flt, out := t.out, freeIx := t.freeIx
      pin := { s.pin with mem := t.pin.mem, lnk := t.pin.lnk }
      gen := { s.gen with irqStatus := t.gen.irqStatus }
      flash := { s.flash with standing := t.flash.standing } }

namespace BroughtUp

theorem of_dom (hd : t.dom = s.dom)
    (h : t = { s with
      lane := t.lane, key := t.key, ile := t.ile, qos := t.qos, flt := t.flt, out := t.out, freeIx := t.freeIx
      pin := { s.pin with mem := t.pin.mem, lnk := t.pin.lnk }
      gen := { s.gen with irqStatus := t.gen.irqStatus }
      flash := { s.flash with standing := t.flash.standing } }) : BroughtUp s t :=
  ⟨fun d _ => by rw [domAt, domAt, hd], by rw [hd]; exact h⟩

theorem refl (s : State) : BroughtUp s s := .of_dom rfl rfl

theorem trans (h : BroughtUp s t) (h' : BroughtUp t u) : BroughtUp s u := by
  obtain ⟨hd, he⟩ := h
  obtain ⟨hd', he'⟩ := h'
  refine ⟨fun d hlt => (hd' d hlt).trans (hd d hlt), ?_⟩
  rw [he] at he'
  exact he'

theorem foldl {α : Type} {f : State → α → State} (hf : ∀ s a, BroughtUp s (f s a)) (l : List α) (s : State) : BroughtUp s (l.foldl f s) := by
  induction l generalizing s with
  | nil => exact .refl s
  | cons a l ih => exact (hf s a).trans (ih _)

end BroughtUp

theorem broughtUp_recordPlain (s : State) (c un loc act : Nat) : BroughtUp s (recordPlain s c un loc act) := by
  unfold recordPlain
  obtain ⟨_, _, _, _, _, _, h⟩ := record_eq s c un loc act 0#8 none 0
  rw [h]
  exact .of_dom rfl rfl

/-! ### Lanes -/

theorem broughtUp_setLane (s : State) (i : Nat) (v : Lane) : BroughtUp s (setLane s i v) := .of_dom rfl rfl

theorem broughtUp_c10Test (bad : List Nat) (s : State) (i : Nat) : BroughtUp s (c10Test bad s i) := by
  unfold c10Test
  dsimp only
  split
  · exact .of_dom rfl rfl
  · split
    · exact (broughtUp_setLane ..).trans (broughtUp_recordPlain ..)
    · exact .of_dom rfl rfl

theorem broughtUp_fillGroups (s : State) (gs ls : List Nat) : BroughtUp s (fillGroups s gs ls) := by
  induction gs generalizing s ls with
  | nil => exact .foldl (fun t i => broughtUp_setLane t i _) ls s
  | cons g gs ih => exact (BroughtUp.foldl (fun t i => broughtUp_setLane t i _) _ s).trans (ih _ _)

theorem broughtUp_laneStart (s : State) (bad : List Nat) : BroughtUp s (laneStart s bad) := by
  unfold laneStart
  extract_lets _ t v _ _
  have ht : BroughtUp s t := .of_dom rfl rfl
  have hv : BroughtUp t v := .foldl (broughtUp_c10Test bad) _ t
  exact (ht.trans hv).trans (broughtUp_fillGroups ..)

/-- What brings up a block does so whether or not C10 counts as done. -/
theorem BroughtUp.tested (h : BroughtUp s t) :
    BroughtUp { s with gen := { s.gen with c10Done := true } } { t with gen := { t.gen with c10Done := true } } := by
  obtain ⟨hd, he⟩ := h
  refine ⟨hd, ?_⟩
  rw [he]

/-- C9 and C10 leave the lanes grouped and c10Done set. -/
theorem broughtUp_chooseLanes (s : State) (bad : List Nat) : BroughtUp { s with gen := { s.gen with c10Done := true } } (chooseLanes s bad) := by
  unfold chooseLanes
  have hv : BroughtUp s { s with lane := { s.lane with size := (sizesOf s).1, bceMin := (sizesOf s).2 } } := .of_dom rfl rfl
  exact (hv.trans (broughtUp_laneStart _ bad)).tested

/-! ### Ports -/

theorem broughtUp_startCredits (s : State) (q : Nat) : BroughtUp s (startCredits s q) := by
  unfold startCredits
  extract_lets t
  have ht : BroughtUp s t := .foldl (f := fun t c => setCredit t q c (ceiling t q c)) (fun _ _ => .of_dom rfl rfl) _ s
  clear_value t
  exact ht.trans (.of_dom rfl rfl)

theorem broughtUp_setPortSt (s : State) (e : Nat) (st : PortSt) : BroughtUp s (setPortSt s e st) := by
  unfold setPortSt
  dsimp only
  split
  · exact .of_dom rfl rfl
  · split <;> exact .of_dom rfl rfl

theorem broughtUp_drbgTake (w : Nat) (s : State) : BroughtUp s (drbgTake w s).2 := by
  unfold drbgTake
  dsimp only
  split <;> exact .of_dom rfl rfl

theorem broughtUp_clearSession (s : State) (e : Nat) : BroughtUp s (clearSession s e) := .of_dom rfl rfl

theorem broughtUp_sendBringup (s : State) (e i : Nat) (m m' : List Byte) : BroughtUp s (sendBringup (keepMsg s e i m) e m') := .of_dom rfl rfl

theorem broughtUp_startHello (s : State) (e : Nat) : BroughtUp s (startHello s e) := by
  unfold startHello
  split
  · exact .refl s
  · split
    · exact .of_dom rfl rfl
    · have ht := broughtUp_drbgTake 256 s
      generalize drbgTake 256 s = r at ht ⊢
      have hu := (broughtUp_clearSession r.2 e).trans (broughtUp_setPortSt _ e .hello)
      exact (ht.trans hu).trans (broughtUp_sendBringup ..)

/-- A port domain out of reset: neither CORE nor HOST moves. -/
theorem broughtUp_exitReset (s : State) (d : Nat) (hd : 2 ≤ d) : BroughtUp s (exitReset s d) := by
  refine ⟨fun j hj => by rw [domAt_exitReset, if_neg (by omega)], ?_⟩
  unfold exitReset
  dsimp only
  rw [if_neg (by omega)]
  rfl

theorem broughtUp_memPortOut (s : State) (p : Nat) : BroughtUp s (memPortOut s p) := by
  unfold memPortOut
  split
  · exact .refl s
  · have ht := broughtUp_exitReset s (domMem p) (by unfold domMem; omega)
    generalize exitReset s (domMem p) = t at ht ⊢
    exact (ht.trans (u := setMemPin t p _) (.of_dom rfl rfl)).trans (broughtUp_startCredits ..)

theorem broughtUp_lnkPortOut (s : State) (e : Nat) : BroughtUp s (lnkPortOut s e) := by
  unfold lnkPortOut
  have ht := broughtUp_exitReset s (domLnk e) (by unfold domLnk; omega)
  generalize exitReset s (domLnk e) = t at ht ⊢
  split
  · exact .refl s
  · split
    · exact ht.trans (.of_dom rfl rfl)
    · exact ((ht.trans (u := releaseLink t e) (.of_dom rfl rfl)).trans (broughtUp_startCredits ..)).trans (broughtUp_startHello ..)

theorem broughtUp_portOut (s : State) (q : Nat) : BroughtUp s (portOut s q) := by
  unfold portOut
  split
  · exact broughtUp_memPortOut s q
  · exact broughtUp_lnkPortOut s (q - 4)

theorem broughtUp_settleRekeyCtrl (s : State) : BroughtUp s (settleRekeyCtrl s) :=
  .foldl (f := fun t e => setLport t e { lportAt t e with rekeyCtrl := if forerunner t then 0x20#32 else 0x28#32 }) (fun _ _ => .of_dom rfl rfl) _ s

theorem broughtUp_releaseWaiting (s : State) : BroughtUp s (releaseWaiting s) := by
  refine .foldl (f := fun t q => if (domAt t (2 + q)).inReset then portOut t q else t) (fun t q => ?_) _ s
  split
  · exact broughtUp_portOut t q
  · exact .refl t

theorem broughtUp_releasePorts (s : State) : BroughtUp s (releasePorts s) := by
  unfold releasePorts
  split
  · exact .refl s
  · exact (broughtUp_settleRekeyCtrl s).trans (broughtUp_releaseWaiting _)

end Sys2Proof.Proofs.BringUp

/-! A cold start from POWER_GOOD to the release of CORE and HOST, and power lost (02 R66; 13 R394, R396; 14 R418). -/
namespace Sys2Proof.Proofs.ColdStart
open Sys2Proof.Machine BringUp

variable {s t : State} {e : StartIn} {st : Nat} {g : Bool}

/-- What a start decides early and keeps: power, the fuses and their decode, the start's kind, the release, the intent record, CORE and HOST. -/
structure View where
  pwrok : Bool
  fuse : Fuse
  st : Nat
  disagree : Bool
  lastStart : Nat
  released : Bool
  intent : Option Intent
  core : Dom
  host : Dom

def view (s : State) : View :=
  { pwrok := s.pin.pwrok, fuse := s.fuse, st := s.lcs.st, disagree := s.lcs.disagree, lastStart := s.gen.lastStart, released := s.gen.released
    intent := s.flash.intent, core := domAt s 0, host := domAt s 1 }

theorem view_foldl {α : Type} {f : State → α → State} (hf : ∀ s a, view (f s a) = view s) (l : List α) (s : State) :
    view (l.foldl f s) = view s := by
  induction l generalizing s with
  | nil => rfl
  | cons a l ih => exact (ih _).trans (hf s a)

theorem view_recordPlain (s : State) (c un loc act : Nat) : view (recordPlain s c un loc act) = view s := by
  unfold recordPlain
  obtain ⟨_, _, _, _, _, _, h⟩ := record_eq s c un loc act 0#8 none 0
  rw [h]
  rfl

theorem view_of_broughtUp (h : BroughtUp s t) : view t = view s := by
  obtain ⟨hd, he⟩ := h
  unfold view
  rw [hd 0 (by decide), hd 1 (by decide), he]

/-! ### Steps C1 to C4 -/

theorem view_freeze (s : State) : view (freeze s) = view s := by
  unfold freeze
  split <;> rfl

theorem view_tamperAtC3 (s : State) : view (tamperAtC3 s) = view s := by
  unfold tamperAtC3
  split
  · rfl
  · exact (view_recordPlain ..).trans (view_freeze s)

theorem view_takeDecode (s : State) (st : Nat) (g : Bool) : view (takeDecode s (.state st g)) = { view s with st := st, disagree := g } := rfl

theorem view_settleDebug (s : State) : view (settleDebug s) = view s := rfl

theorem broughtUp_emptySlots (l : List (Nat × Slot)) (s : State) : BroughtUp s (l.foldl (fun s x => emptySlot s x.1) s) :=
  .foldl (f := fun s (x : Nat × Slot) => emptySlot s x.1) (fun _ _ => .of_dom rfl rfl) l s

theorem view_settleSlate (s : State) : view (settleSlate s) = view s := by
  unfold settleSlate
  extract_lets _ gone t
  have ht : BroughtUp s t := broughtUp_emptySlots gone s
  clear_value t
  split
  · rfl
  · exact view_of_broughtUp (ht.trans (.of_dom rfl rfl))

theorem view_settleBedrock (s : State) : view (settleBedrock s) = view s := by
  unfold settleBedrock
  dsimp only
  split
  · exact (view_recordPlain ..).trans (view_of_broughtUp (.of_dom rfl rfl))
  · exact view_of_broughtUp (.of_dom rfl rfl)

/-- A domain at power good: in reset at epoch 1, its clock lost or there (01 R36, R39). -/
def atPower (lost : Bool) : Dom := { inReset := true, epoch := 1#32, clockLost := lost }

/-- Step C1: power good, the fuses sensed, every domain in reset (01 R36, R39). -/
def poweredOn (s : State) (e : StartIn) : State :=
  { s with
    pin := { s.pin with pwrok := true, tmpHigh := e.tmpHigh, flPart := e.flPart }
    tm := { ns := 640, aclk := 64 }
    flt := { s.flt with hours := s.flash.hours }
    fuse := { s.fuse with shadow := s.fuse.blown }
    dom := { s.dom with d := (List.range 26).map fun i => (i, atPower ((i == 0 && e.cclkMhz == 0#12) || (i == 1 && !e.hclk))) }
    gen := { s.gen with strap := e.frCompat, cclkMhz := e.cclkMhz, cclkValid := e.cclkMhz != 0#12 } }

theorem stepsC1_eq (s : State) (e : StartIn) : stepsC1 s e = startFlags (stepC3 (tamperAtC3 (poweredOn s e))) 1 := rfl

theorem view_poweredOn (s : State) (e : StartIn) :
    view (poweredOn s e) = { view s with pwrok := true, fuse := { blown := s.fuse.blown, shadow := s.fuse.blown }
                                         core := atPower (e.cclkMhz == 0#12), host := atPower !e.hclk } := by
  simp [view, poweredOn, domAt, dget, tget, List.range_succ]

theorem view_startFlags (s : State) (last : Nat) : view (startFlags s last) = { view s with lastStart := last } := rfl

theorem view_stepC3 (hd : decodeLcs s.fuse.shadow = .state st g) : view (stepC3 s) = { view s with st := st, disagree := g } := by
  unfold stepC3
  rw [hd, view_settleBedrock, view_settleSlate, view_settleDebug, view_takeDecode]

/-- What steps C1 to C3 leave of a block whose fuses decode to a state. -/
theorem view_stepsC1 (hd : decodeLcs s.fuse.blown = .state st g) (e : StartIn) :
    view (stepsC1 s e) = { pwrok := true, fuse := { blown := s.fuse.blown, shadow := s.fuse.blown }, st := st, disagree := g, lastStart := 1
                           released := s.gen.released, intent := s.flash.intent, core := atPower (e.cclkMhz == 0#12), host := atPower !e.hclk } := by
  have ht := (view_tamperAtC3 (poweredOn s e)).trans (view_poweredOn s e)
  have hfuse : (tamperAtC3 (poweredOn s e)).fuse = { blown := s.fuse.blown, shadow := s.fuse.blown } := congrArg View.fuse ht
  rw [stepsC1_eq, view_startFlags, view_stepC3 (st := st) (g := g) (by rw [hfuse, hd]), ht]
  rfl

theorem view_rebuildAcc (s : State) : view (rebuildAcc s) = view s := rfl

/-- Without an intent record step C4 lets a start of a known state go on (13 R404). -/
theorem stepC4_goOn (hi : s.flash.intent = none) (h6 : s.lcs.st ≠ 6) (cold : Bool) (e : StartIn) :
    ∃ t, stepC4 s cold e = (.goOn, t) ∧ view t = view s := by
  unfold stepC4
  simp [hi, h6]
  rfl

/-! ### Step C5 -/

/-- A clock found missing: the start waits for it, and nothing is released (01 R36; 02 R66). -/
theorem stepsC5_waits (hc : clocksLost s = true) : view (stepsC5 s e) = view s ∧ (stepsC5 s e).gen.c5Wait = some e := by
  unfold stepsC5
  rw [if_pos hc]
  refine ⟨?_, rfl⟩
  refine (view_of_broughtUp (.of_dom rfl rfl)).trans
    (view_foldl (f := fun s d => if (domAt s d).clockLost then recordPlain s Flc.clockLost 8 d (domAction d) else s) (fun t d => ?_) [0, 1] s)
  split
  · exact view_recordPlain ..
  · rfl

/-! ### Steps C7 to C11 -/

/-- A domain released as a cold start does it: its epoch stays (01 R39). -/
def released (v : Dom) : Dom := { v with inReset := false, first := false }

theorem domAt_firstExit (s : State) (d j : Nat) (hf : (domAt s d).first = true) :
    domAt (exitReset s d) j = if d = j then released (domAt s d) else domAt s j := by
  rw [domAt_exitReset, hf]
  rfl

theorem view_coreAndHostOut (h0 : (domAt s 0).first = true) (h1 : (domAt s 1).first = true) :
    view (exitReset (exitReset s 0) 1) = { view s with core := released (domAt s 0), host := released (domAt s 1) } := by
  have h1' : (domAt (exitReset s 0) 1).first = true := by rw [domAt_firstExit s 0 1 h0]; exact h1
  unfold view
  rw [domAt_firstExit _ 1 0 h1', domAt_firstExit _ 1 1 h1', domAt_firstExit _ 0 0 h0, domAt_firstExit _ 0 1 h0]
  rfl

theorem view_countBoot (s : State) (flashOk : Bool) : view (countBoot s flashOk) = view s := by
  unfold countBoot
  split
  · rfl
  · dsimp only
    split
    · rfl
    · exact view_recordPlain ..

theorem view_rebuildFence (s : State) : view (rebuildFence s) = view s :=
  view_foldl (f := fun t i => setLane t i { laneAt t i with fenceMark := laneStanding t i }) (fun _ _ => view_of_broughtUp (.of_dom rfl rfl)) _ s

theorem view_selectSlot (s : State) : view (selectSlot s) = view s := by
  unfold selectSlot
  dsimp only
  split <;> rfl

theorem view_stepsC8 (s : State) (bad : List Nat) : view (stepsC8 s bad) = view s := by
  unfold stepsC8
  exact (view_of_broughtUp (broughtUp_releasePorts _)).trans ((view_of_broughtUp (broughtUp_chooseLanes _ bad)).trans (view_selectSlot s))

theorem view_stepsC7 (h0 : (domAt s 0).first = true) (h1 : (domAt s 1).first = true) :
    view (stepsC7 s e) = { view s with released := true, core := released (domAt s 0), host := released (domAt s 1) } := by
  unfold stepsC7
  dsimp only
  rw [view_stepsC8, view_rebuildAcc, view_rebuildFence, view_countBoot]
  exact congrArg (fun v : View => { v with released := true }) (view_coreAndHostOut h0 h1)

/-! ### The start as a whole -/

theorem decodeLcs_lt {f : BitVec 8192} (h : decodeLcs f = .state st g) : st < 6 := by
  unfold decodeLcs at h
  split at h
  · next x hx =>
    cases h
    exact List.mem_range.mp (List.mem_of_find?_eq_some hx)
  · split at h
    · split at h <;> cases h
    · cases h

theorem stopsAtC3_false (h : s.lcs.st < 6) (h5 : s.lcs.st ≠ 5) : stopsAtC3 s = false := by
  simp [stopsAtC3, h5]
  omega

/-- A cold start of a known state other than SCRAP, without an intent record, comes to step C5. -/
theorem powerGood_toC5 (hp : s.pin.pwrok = false) (hi : s.flash.intent = none) (hd : decodeLcs s.fuse.blown = .state st g) (h5 : st ≠ 5)
    (e : StartIn) : ∃ t, powerGood s e = stepsC5 t e ∧ view t = view (stepsC1 s e) := by
  have hview := view_stepsC1 hd e
  have hlt := decodeLcs_lt hd
  unfold powerGood
  generalize stepsC1 s e = u at hview ⊢
  have hst : u.lcs.st = st := congrArg View.st hview
  have hint : u.flash.intent = none := (congrArg View.intent hview).trans hi
  obtain ⟨t, hc4, ht⟩ := stepC4_goOn (s := rebuildAcc u) hint (by show u.lcs.st ≠ 6; omega) true e
  have htst : t.lcs.st = st := (congrArg View.st ht).trans hst
  refine ⟨t, ?_, ht⟩
  simp [hp, hc4, stopsAtC3_false (s := u) (by omega) (by omega), stopsAtC3_false (s := t) (by omega) (by omega)]

theorem clocksLost_eq (hc : domAt s 0 = atPower (e.cclkMhz == 0#12)) (hh : domAt s 1 = atPower !e.hclk) :
    clocksLost s = (e.cclkMhz == 0#12 || !e.hclk) := by
  unfold clocksLost
  rw [hc, hh]
  rfl

/-- With both clocks the block comes up: CORE and HOST released at epoch 1. -/
theorem view_powerGood (hp : s.pin.pwrok = false) (hi : s.flash.intent = none) (hd : decodeLcs s.fuse.blown = .state st g) (h5 : st ≠ 5)
    (hcclk : e.cclkMhz ≠ 0#12) (hhclk : e.hclk = true) :
    view (powerGood s e) = { pwrok := true, fuse := { blown := s.fuse.blown, shadow := s.fuse.blown }, st := st, disagree := g, lastStart := 1
                             released := true, intent := s.flash.intent, core := released (atPower false), host := released (atPower false) } := by
  obtain ⟨t, hpow, ht⟩ := powerGood_toC5 hp hi hd h5 e
  rw [view_stepsC1 hd e] at ht
  have hcore : domAt t 0 = atPower (e.cclkMhz == 0#12) := congrArg View.core ht
  have hhost : domAt t 1 = atPower !e.hclk := congrArg View.host ht
  have hcl : clocksLost t = false := by rw [clocksLost_eq hcore hhost, hhclk, beq_false_of_ne hcclk]; rfl
  rw [hpow, stepsC5, hcl, if_neg Bool.false_ne_true, view_stepsC7 (by rw [hcore]; rfl) (by rw [hhost]; rfl), ht, hcore, hhost, hhclk,
    beq_false_of_ne hcclk]
  rfl

/-- Without one of them it waits at C5, both still in reset. -/
theorem powerGood_waits (hp : s.pin.pwrok = false) (hi : s.flash.intent = none) (hd : decodeLcs s.fuse.blown = .state st g) (h5 : st ≠ 5)
    (hc : e.cclkMhz = 0#12 ∨ e.hclk = false) : view (powerGood s e) = view (stepsC1 s e) ∧ (powerGood s e).gen.c5Wait = some e := by
  obtain ⟨t, hpow, ht⟩ := powerGood_toC5 hp hi hd h5 e
  have hstart := ht.trans (view_stepsC1 hd e)
  have hcl : clocksLost t = true := by
    rw [clocksLost_eq (e := e) (congrArg View.core hstart) (congrArg View.host hstart)]
    simpa using hc
  rw [hpow, ← ht]
  exact stepsC5_waits hcl

end Sys2Proof.Proofs.ColdStart

namespace Sys2Proof.Proofs

open Sys2Proof.Machine ColdStart

/-- Settles O8: the view of a start carried from power good to C11, or to the wait at C5 (the model's choice of log 160); COLD_POWER_LOSS by its
definition. -/
theorem powerOnAndOff : Obligations.PowerOnAndOff := by
  unfold Obligations.PowerOnAndOff
  refine ⟨fun e s st g hp hi hd h5 hcclk hhclk => ?on, fun e s st g hp hi hd h5 hc => ?waits, fun s hp => ?off⟩
  case on =>
    have hv := view_powerGood hp hi hd h5 hcclk hhclk
    have hcore : domAt (powerGood s e) 0 = released (atPower false) := congrArg View.core hv
    have hhost : domAt (powerGood s e) 1 = released (atPower false) := congrArg View.host hv
    exact ⟨_, rfl, congrArg View.pwrok hv, congrArg View.released hv, congrArg View.lastStart hv, congrArg Dom.inReset hcore,
      congrArg Dom.inReset hhost, congrArg Dom.epoch hcore, congrArg Dom.epoch hhost, congrArg View.fuse hv, congrArg View.st hv,
      congrArg View.disagree hv⟩
  case waits =>
    obtain ⟨hv, hwait⟩ := powerGood_waits hp hi hd h5 hc
    rw [view_stepsC1 hd e] at hv
    exact ⟨_, rfl, congrArg View.pwrok hv, congrArg View.released hv, hwait, congrArg (·.core.inReset) hv, congrArg (·.host.inReset) hv⟩
  case off =>
    refine ⟨coldPowerLoss s, rfl, ?_⟩
    unfold coldPowerLoss
    rw [hp, if_neg (by decide)]
    refine ⟨rfl, rfl, rfl, rfl, rfl, rfl, rfl, rfl, rfl, rfl, rfl, rfl, rfl, ?_, ?_⟩
    · intro hl
      rw [hl]
    · intro l hl
      rw [hl]

end Sys2Proof.Proofs

/-! What the work of the units keeps of a charter load, whatever it is: the GEN_ group but for its interrupt sources, and the charter slots of flash.
A slice reset begun by a load reaches most of the units (09 R303 to R306), so each of their operations has its line here. -/
namespace Sys2Proof.Proofs.CharterKept
open Sys2Proof.Machine

/-- A GEN_ group without its interrupt sources, and the charter slots of a flash. -/
def pick (g : Gen) (f : Flash) : Gen × Tbl ChrSlot := ({ g with irqStatus := 0#32 }, f.slots)

/-- What a charter load rests on. -/
def kept (s : State) : Gen × Tbl ChrSlot := pick s.gen s.flash

theorem pick_self (s : State) : pick s.gen s.flash = kept s := rfl

theorem kept_mk (cfg : Cfg) (pin : Pin) (dom : Doms) (tm : Tm) (fuse : Fuse) (flash : Flash) (gen : Gen) (lane : LanePool) (key : Key) (ime : Ime)
    (ile : Ile) (qos : Qos) (hob : Hob) (flt : Flt) (lcs : Lcs) (sre : Sre) (bce : Bce) (att : Att) (dbg : Dbg) (out : List Out) (freeIx : Nat)
    (pending : List Instr) :
    kept ⟨cfg, pin, dom, tm, fuse, flash, gen, lane, key, ime, ile, qos, hob, flt, lcs, sre, bce, att, dbg, out, freeIx, pending⟩ = pick gen flash :=
  rfl

theorem kept_congr {s t : State} (hg : t.gen = s.gen) (hf : t.flash = s.flash) : kept t = kept s := by rw [kept, kept, hg, hf]

theorem kept_foldl {α : Type} {f : State → α → State} (hf : ∀ s a, kept (f s a) = kept s) (l : List α) (s : State) :
    kept (l.foldl f s) = kept s := by
  induction l generalizing s with
  | nil => rfl
  | cons a l ih => exact (ih _).trans (hf s a)

theorem kept_of_broughtUp {s t : State} (h : BringUp.BroughtUp s t) : kept t = kept s := by
  obtain ⟨-, h⟩ := h
  rw [h]
  rfl

theorem kept_record (s : State) (c un loc act : Nat) (rsn : Code) (who : Option Who) (detail : Nat) :
    kept (record s c un loc act rsn who detail) = kept s := by
  obtain ⟨_, _, _, _, _, _, h⟩ := record_eq s c un loc act rsn who detail
  rw [h]
  rfl

theorem kept_raiseIrq (s : State) (i : Nat) : kept (raiseIrq s i) = kept s := rfl

theorem kept_emit (s : State) (o : Out) : kept (emit s o) = kept s := kept_congr rfl rfl

theorem kept_emits (s : State) (o : List Out) : kept (emits s o) = kept s := kept_congr rfl rfl

theorem kept_setCredit (s : State) (q c v : Nat) : kept (setCredit s q c v) = kept s := kept_congr rfl rfl

theorem kept_setLane (s : State) (i : Nat) (v : Lane) : kept (setLane s i v) = kept s := kept_congr rfl rfl

theorem kept_setDom (s : State) (d : Nat) (v : Dom) : kept (setDom s d v) = kept s := kept_congr rfl rfl

/-! ### Faults, keys and the vault -/

theorem kept_countDrop (s : State) (d : Nat) : kept (countDrop s d) = kept s := by
  simp only [countDrop, kept_setDom]

theorem kept_setSlot (s : State) (i : Nat) (v : Option Slot) : kept (setSlot s i v) = kept s := kept_congr rfl rfl

theorem kept_keyReason (s : State) (c : Code) : kept (keyReason s c) = kept s := by
  simp only [keyReason, kept_mk, pick_self, apply_ite kept, ite_self]

theorem kept_countBlocks (s : State) (slot half vol n : Nat) : kept (countBlocks s slot half vol n) = kept s := by
  unfold countBlocks
  dsimp only
  split <;> simp only [apply_ite kept, ite_self, kept_foldl, kept_record, kept_setSlot, implies_true, eq_self]

theorem kept_dkcPut (s : State) (h : KeyHandle) : kept (dkcPut s h) = kept s := by
  unfold dkcPut
  dsimp only
  split <;> simp only [kept_mk, pick_self]

theorem kept_dkcTouch (s : State) (h : KeyHandle) : kept (dkcTouch s h) = kept s := by
  unfold dkcTouch
  dsimp only
  split <;> simp only [kept_mk, pick_self]

theorem kept_missAdd (s : State) (h : KeyHandle) (group : Nat) : kept (missAdd s h group) = kept s := by
  simp only [missAdd, kept_mk, pick_self, apply_ite kept, ite_self]

theorem kept_ctxPut (s : State) (group : Nat) (h : KeyHandle) : kept (ctxPut s group h) = kept s := by
  unfold ctxPut
  dsimp only
  split <;> simp only [kept_mk, pick_self]

theorem kept_keyUse (s : State) (h : KeyHandle) : kept (keyUse s h) = kept s := by
  simp only [keyUse, apply_ite kept, ite_self, kept_dkcPut, kept_dkcTouch]

/-! ### Lanes -/

theorem kept_fenceLane (s : State) (i : Nat) : kept (fenceLane s i) = kept s := by
  unfold fenceLane
  dsimp only
  split <;> simp only [kept_mk, pick_self, kept_setLane]

theorem kept_fenceFault (s : State) (i : Nat) (who : Option Who) (tag : Nat) : kept (fenceFault s i who tag) = kept s := by
  simp only [fenceFault, kept_fenceLane, kept_record, kept_setLane]

theorem kept_lanePass (s : State) (g : Nat) (hs : List KeyHandle) (who : Option Who) (tag : Nat) : kept (lanePass s g hs who tag).2 = kept s := by
  unfold lanePass
  extract_lets t
  have ht : kept t = kept s :=
    kept_foldl (f := fun u h => ctxPut (keyUse u h) g h) (fun u h => (kept_ctxPut (keyUse u h) g h).trans (kept_keyUse u h)) hs s
  clear_value t
  split
  · exact ht
  · simp only [apply_ite Prod.snd, apply_ite kept, ite_self, kept_mk, pick_self, kept_fenceFault, ht]

/-! ### Ports and links -/

theorem kept_setStat (s : State) (port cls : Nat) (v : QStat) : kept (setStat s port cls v) = kept s := kept_congr rfl rfl

theorem kept_countOutcome (s : State) (port cls : Nat) (refused : Bool) (deadline : Option Nat) :
    kept (countOutcome s port cls refused deadline) = kept s := by
  simp only [countOutcome, kept_setStat]

theorem kept_setLport (s : State) (e : Nat) (p : LPort) : kept (setLport s e p) = kept s := kept_congr rfl rfl

theorem kept_txPut (s : State) (e vc : Nat) (op : FabOp) (deadline : Option Nat) (orig : Option Nat) (pad : Nat) :
    kept (txPut s e vc op deadline orig pad) = kept s := by
  simp only [txPut, kept_mk, pick_self, apply_ite kept, ite_self, kept_setLport]

theorem kept_answerOp (s : State) (op : FabOp) (inPort code : Nat) (data : List Byte) (deadline : Option Nat) :
    kept (answerOp s op inPort code data deadline) = kept s := by
  simp only [answerOp, kept_txPut]

theorem kept_answerError (s : State) (op : FabOp) (inPort : Nat) (c : Code) (deadline : Option Nat) :
    kept (answerError s op inPort c deadline) = kept s := by
  simp only [answerError, kept_answerOp]

theorem kept_chargePort (s : State) (q cls beats : Nat) (aged : Bool) : kept (chargePort s q cls beats aged) = kept s := by
  simp only [chargePort, apply_ite kept, ite_self, kept_setCredit, kept_setStat]

/-! ### The IME: counters, the tree and the catalogue -/

theorem kept_setRegion (s : State) (ix : Nat) (r : Region) : kept (setRegion s ix r) = kept s := kept_congr rfl rfl

theorem kept_imeReason (s : State) (c : Code) : kept (imeReason s c) = kept s := by
  simp only [imeReason, kept_mk, pick_self, apply_ite kept, ite_self, kept_keyReason]

theorem kept_setCtr (s : State) (ix page : Nat) (c : CtrLine) : kept (setCtr s ix page c) = kept s := kept_congr rfl rfl

theorem kept_bumpParent (s : State) (ix : Nat) (r : Region) (level i : Nat) : kept (bumpParent s ix r level i) = kept s := by
  simp only [bumpParent, kept_mk, pick_self, apply_ite kept, ite_self]

theorem kept_pushEnt (s : State) (e : MemEnt) : kept (pushEnt s e) = kept s := kept_congr rfl rfl

theorem kept_setEnt (s : State) (e : MemEnt) : kept (setEnt s e) = kept s := by
  simp only [setEnt, kept_mk, pick_self]

theorem kept_dropEnt (s : State) (seq : Nat) : kept (dropEnt s seq) = kept s := kept_congr rfl rfl

theorem kept_insertBefore (s : State) (seq : Nat) (e : MemEnt) : kept (insertBefore s seq e) = kept s := kept_congr rfl rfl

theorem kept_pushPast (s : State) (e : MemEnt) : kept (pushPast s e) = kept s := by
  unfold pushPast
  split
  · exact kept_insertBefore ..
  · exact kept_pushEnt ..

theorem kept_pushOwn (s : State) (line : Nat) (d : Stored) (cls : Nat) : kept (pushOwn s line d cls) = kept s := by
  simp only [pushOwn, kept_pushEnt]

theorem kept_ownReads (s : State) (lines : List Nat) (cls : Nat) : kept (ownReads s lines cls) = kept s := by
  simp only [ownReads, kept_foldl, kept_chargePort, kept_emit, implies_true, eq_self]

theorem kept_writeTree (s : State) (ix : Nat) (r : Region) (level i cls : Nat) : kept (writeTree s ix r level i cls) = kept s := by
  unfold writeTree
  split
  · exact kept_pushOwn ..
  · rfl

theorem kept_bumpPath (s : State) (ix : Nat) (r : Region) (i : Nat) : kept (bumpPath s ix r i) = kept s := by
  simp only [bumpPath, kept_foldl, kept_bumpParent, implies_true, eq_self]

theorem kept_writeCtr (s : State) (ix : Nat) (r : Region) (page cls : Nat) : kept (writeCtr s ix r page cls) = kept s := by
  simp only [writeCtr, kept_mk, pick_self, kept_foldl, kept_bumpPath, kept_ownReads, kept_writeTree, implies_true, eq_self]

theorem kept_evictTree (s : State) (x : Nat × Nat × Nat) : kept (evictTree s x) = kept s := by
  unfold evictTree
  split
  · split
    · exact kept_writeCtr ..
    · rfl
  · rfl

theorem kept_touchTree (s : State) (x : Nat × Nat × Nat) : kept (touchTree s x) = kept s := by
  simp only [touchTree, kept_mk, pick_self, kept_foldl, kept_evictTree, implies_true, eq_self]

theorem kept_touchCtr (s : State) (ix page : Nat) : kept (touchCtr s ix page) = kept s := by
  simp only [touchCtr, kept_touchTree]

theorem kept_dirtyCtr (s : State) (ix : Nat) (r : Region) (page : Nat) (c : CtrLine) : kept (dirtyCtr s ix r page c) = kept s := by
  simp only [dirtyCtr, kept_mk, pick_self, apply_ite kept, ite_self, kept_setCtr, kept_touchCtr]

theorem kept_pathArrived (s : State) (ix : Nat) (r : Region) (page : Nat) (m : MemIn) : kept (pathArrived s ix r page m).2.1 = kept s := by
  simp only [pathArrived, apply_ite Prod.snd, apply_ite Prod.fst, apply_ite kept, ite_self, kept_touchCtr, kept_foldl, kept_touchTree,
    implies_true, eq_self]

theorem kept_fetchPath (s : State) (ix : Nat) (r : Region) (page cls : Nat) (m : MemIn) : kept (fetchPath s ix r page cls m).2.1 = kept s := by
  simp only [fetchPath, kept_ownReads, kept_pathArrived]

theorem kept_sealCatLine (s : State) (ix : Nat) (r : Region) : kept (sealCatLine s ix r) = kept s := by
  unfold sealCatLine
  dsimp only
  split <;> simp only [apply_ite kept, ite_self, kept_countBlocks, kept_lanePass, kept_pushPast]

theorem kept_touchCat (s : State) (ix : Nat) : kept (touchCat s ix) = kept s := kept_congr rfl rfl

theorem kept_catReencrypt (s : State) (page : Nat) : kept (catReencrypt s page) = kept s := by
  simp only [catReencrypt, kept_mk, pick_self, apply_ite kept, ite_self, kept_foldl, kept_ownReads, kept_record, kept_sealCatLine, kept_setCtr,
    implies_true, eq_self]

theorem kept_catWrite (s : State) (ix : Nat) (r : Region) : kept (catWrite s ix r) = kept s := by
  simp only [catWrite, apply_ite kept, ite_self, kept_catReencrypt, kept_fetchPath, kept_imeReason, kept_sealCatLine, kept_setCtr, kept_setRegion,
    kept_touchCat, kept_writeCtr]

theorem kept_catLook (s : State) (ix cls : Nat) (m : MemIn) : kept (catLook s ix cls m).2.1 = kept s := by
  simp only [catLook, apply_ite Prod.snd, apply_ite Prod.fst, apply_ite kept, ite_self, kept_touchCat, kept_fetchPath, kept_ownReads, kept_lanePass]

theorem kept_memGateBy (acc : Acc) (s : State) (w : Who) (k : MemKind) (cls : Nat) (m : MemIn) : kept (memGateBy acc s w k cls m).2.1 = kept s := by
  simp only [memGateBy, apply_ite Prod.snd, apply_ite Prod.fst, apply_ite kept, ite_self, kept_catLook, kept_record]

theorem kept_memGate (s : State) (w : Who) (k : MemKind) (cls : Nat) (m : MemIn) : kept (memGate s w k cls m).2.1 = kept s := by
  simp only [memGate, kept_memGateBy]

/-! ### The IME: operations and their ends -/

theorem kept_dbgDone (s : State) (result : Nat) (poison : Bool) (c : Code) (d : Stored) : kept (dbgDone s result poison c d) = kept s := by
  unfold dbgDone
  extract_lets v
  clear_value v
  split <;> exact kept_congr rfl rfl

theorem kept_remoteDone (s : State) (op : FabOp) (port : Nat) (c : Code) (data : List Byte) (deadline : Option Nat) :
    kept (remoteDone s op port c data deadline) = kept s := by
  simp only [remoteDone, apply_ite kept, ite_self, kept_answerError, kept_answerOp]

theorem kept_finishMem (s : State) (src : Src) (port cls : Nat) (deadline : Option Nat) (c : Code) (refused : Bool) (data : List (Stored × Bool)) :
    kept (finishMem s src port cls deadline c refused data) = kept s := by
  unfold finishMem
  dsimp only
  split <;> simp only [kept_countOutcome, kept_dbgDone, kept_emits, kept_imeReason, kept_remoteDone]

theorem kept_refuseEnt (s : State) (e : MemEnt) (c : Code) (refused poison : Bool) : kept (refuseEnt s e c refused poison) = kept s := by
  simp only [refuseEnt, kept_dropEnt, kept_finishMem]

theorem kept_lineFault (s : State) (e : MemEnt) (c : Code) : kept (lineFault s e c) = kept s := by
  simp only [lineFault, kept_record]

theorem kept_finishCread (s : State) (b : Blk) : kept (finishCread s b) = kept s := by
  unfold finishCread
  dsimp only
  split <;> simp only [kept_mk, pick_self, kept_finishMem]

theorem kept_blkLine (s : State) (id ix : Nat) (p : Line) (c : Code) : kept (blkLine s id ix p c) = kept s := by
  unfold blkLine
  dsimp only
  split <;> simp only [kept_mk, pick_self, apply_ite kept, ite_self, kept_finishCread, kept_finishMem]

theorem kept_cowLine (s : State) (ix page i : Nat) (p : Line) (c : Code) : kept (cowLine s ix page i p c) = kept s := by
  simp only [cowLine, kept_mk, pick_self]

theorem kept_putResident (s : State) (r : Resident) : kept (putResident s r) = kept s := kept_congr rfl rfl

theorem kept_dropResident (s : State) (line : Nat) : kept (dropResident s line) = kept s := kept_congr rfl rfl

theorem kept_applyAtomic (s : State) (e : MemEnt) (r : Resident) : kept (applyAtomic s e r) = kept s := by
  unfold applyAtomic
  dsimp only
  split <;> simp only [kept_dropEnt, kept_finishMem, kept_putResident]

theorem kept_sealed (s : State) (e : MemEnt) (d : Stored) (major minor : Nat) : kept (sealed s e d major minor) = kept s := by
  simp only [sealed, apply_ite kept, ite_self, kept_blkLine, kept_finishMem, kept_setEnt]

theorem kept_blkFail (s : State) (id : Nat) (c : Code) (refused : Bool) : kept (blkFail s id c refused) = kept s := by
  unfold blkFail
  dsimp only
  split <;> simp only [kept_mk, pick_self, kept_finishMem]

theorem kept_endWrite (s : State) (e : MemEnt) (c : Code) (refused poison : Bool) : kept (endWrite s e c refused poison) = kept s := by
  simp only [endWrite, apply_ite kept, ite_self, kept_blkFail, kept_blkLine, kept_dropEnt, kept_imeReason, kept_refuseEnt]

theorem kept_unsealed (s : State) (e : MemEnt) (c : Code) : kept (unsealed s e c) = kept s := by
  simp only [unsealed, kept_endWrite]

theorem kept_holdOnPage (s : State) (e : MemEnt) (page : Nat) : kept (holdOnPage s e page) = kept s := by
  simp only [holdOnPage, kept_mk, pick_self, apply_ite kept, ite_self, kept_setEnt]

theorem kept_sealOut (s : State) (e : MemEnt) (r : Region) (slot half major minor : Nat) : kept (sealOut s e r slot half major minor) = kept s := by
  unfold sealOut
  have ht := kept_lanePass s e.port (lineHandles s e.region r slot half) (some e.who) e.who.tag
  generalize lanePass s e.port (lineHandles s e.region r slot half) (some e.who) e.who.tag = x at ht ⊢
  dsimp only
  split
  · exact (kept_endWrite ..).trans ht
  · split
    · exact (kept_endWrite ..).trans ht
    · split
      · exact (kept_sealed ..).trans ((kept_countBlocks ..).trans ht)
      · exact (kept_unsealed ..).trans ht

theorem kept_sealP3 (s : State) (e : MemEnt) (r : Region) (slot half : Nat) (v : Slot) : kept (sealP3 s e r slot half v) = kept s := by
  simp only [sealP3, apply_ite kept, ite_self, kept_dirtyCtr, kept_fetchPath, kept_holdOnPage, kept_lineFault, kept_sealOut, kept_setEnt,
    kept_unsealed]

theorem kept_sealEnt (s : State) (e : MemEnt) : kept (sealEnt s e) = kept s := by
  unfold sealEnt
  dsimp only
  split
  · exact kept_sealed ..
  · split
    · exact kept_unsealed ..
    · split
      · exact kept_sealP3 ..
      · exact kept_sealOut ..

theorem kept_writeBack (s : State) (r : Resident) (before : Option Nat) : kept (writeBack s r before) = kept s := by
  unfold writeBack
  dsimp only
  split
  · exact kept_dropResident ..
  · split
    · exact kept_dropResident ..
    · refine (kept_sealEnt ..).trans ?_
      split
      · exact (kept_insertBefore ..).trans (kept_dropResident ..)
      · exact (kept_pushPast ..).trans (kept_dropResident ..)

theorem kept_loadResident (s : State) (r : Resident) : kept (loadResident s r) = kept s := by
  unfold loadResident
  dsimp only
  split
  · exact kept_putResident ..
  · split
    · exact (kept_writeBack ..).trans (kept_putResident ..)
    · exact kept_putResident ..

theorem kept_releaseRead (s : State) (e : MemEnt) (o : Opened) : kept (releaseRead s e o) = kept s := by
  unfold releaseRead
  extract_lets _ t fwd u
  have ht : kept t = kept s := kept_dropEnt ..
  have hu : kept u = kept s := (kept_finishMem ..).trans ht
  clear_value t u fwd
  split
  · exact (kept_finishMem ..).trans ht
  · split
    · split
      · exact (kept_emit ..).trans ((kept_imeReason ..).trans hu)
      · exact hu
    · exact (kept_finishMem ..).trans ht

theorem kept_lineKnown (s : State) (e : MemEnt) (o : Opened) : kept (lineKnown s e o) = kept s := by
  unfold lineKnown
  extract_lets t r again u
  have ht : kept t = kept s := by simp only [t, apply_ite kept, kept_lineFault, ite_self]
  have hu : kept u = kept s := (kept_dropEnt ..).trans ht
  have hagain : ∀ v, kept (again v) = kept v := fun v => by simp only [again, apply_ite kept, kept_lineFault, ite_self]
  clear_value u t again
  split
  · exact (kept_releaseRead ..).trans ht
  · simp only [apply_ite kept, kept_blkLine, ite_self, hu]
  · simp only [apply_ite kept, kept_refuseEnt, kept_sealEnt, kept_setEnt, ite_self, hagain, ht]
  · simp only [apply_ite kept, kept_blkFail, kept_sealEnt, kept_setEnt, kept_mk, pick_self, ite_self, hagain, ht]
  · simp only [apply_ite kept, kept_refuseEnt, kept_applyAtomic, kept_loadResident, ite_self, hagain, ht]
  · exact (kept_cowLine ..).trans ((kept_dropEnt ..).trans ht)
  · exact (kept_dropEnt ..).trans ht

theorem kept_rawKnown (s : State) (e : MemEnt) (d : Stored) (poison : Bool) : kept (rawKnown s e d poison) = kept s := by
  simp only [rawKnown, apply_ite kept, ite_self, kept_dropEnt, kept_finishMem]

theorem kept_queueMisses (s : State) (e : MemEnt) (hs : List KeyHandle) : kept (queueMisses s e hs) = kept s := by
  simp only [queueMisses, kept_foldl, kept_missAdd, implies_true, eq_self]

theorem kept_openWhen (s : State) (e : MemEnt) : kept (openWhen s e) = kept s := by
  simp only [openWhen, apply_ite Prod.snd, apply_ite kept, ite_self, kept_setEnt, kept_queueMisses, kept_lineKnown, kept_lanePass]

theorem kept_readPlace (s : State) (e : MemEnt) : kept (readPlace s e) = kept s := by
  unfold readPlace
  dsimp only
  split <;> simp only [apply_ite kept, ite_self, kept_openWhen, kept_rawKnown, kept_setEnt]

theorem kept_copyPage (s : State) (e : MemEnt) (r : Region) : kept (copyPage s e r) = kept s := by
  simp only [copyPage, kept_mk, pick_self, kept_foldl, kept_insertBefore, kept_readPlace, kept_writeBack, implies_true, eq_self]

theorem kept_passHeld (s : State) (e : MemEnt) (r : Region) : kept (passHeld s e r) = kept s := by
  unfold passHeld
  split
  · split
    · exact (kept_insertBefore ..).trans (kept_dropEnt ..)
    · rfl
  · rfl

theorem kept_noKey (s : State) (e : MemEnt) (c : Code) : kept (noKey s e c) = kept s := by
  simp only [noKey, apply_ite kept, ite_self, kept_blkLine, kept_dropEnt, kept_endWrite]

theorem kept_place (s : State) (e : MemEnt) : kept (place s e) = kept s := by
  unfold place
  split
  · exact kept_sealEnt ..
  · exact kept_sealEnt ..
  · exact kept_sealEnt ..
  · exact kept_sealed ..
  · split
    · exact kept_applyAtomic ..
    · exact kept_readPlace ..
  · exact kept_readPlace ..

theorem kept_answerNow (s : State) (e : MemEnt) (r : Region) : kept (answerNow s e r).1 = kept s := by
  simp only [answerNow, apply_ite Prod.fst, apply_ite kept, ite_self, kept_setEnt, kept_finishMem]

theorem kept_waitIn (s : State) (e : MemEnt) (r : Region) (p : MemPhase) : kept (waitIn s e r p) = kept s := by
  simp only [waitIn, kept_answerNow, kept_setEnt]

theorem kept_advance (s : State) (seq : Nat) : kept (advance s seq) = kept s := by
  unfold advance
  split
  · rfl
  · next e he =>
    extract_lets miss r t v u w e' x
    have ht : kept t = kept s := kept_passHeld ..
    have hu : kept u = kept s := by
      unfold u
      split
      · split
        · exact ht
        · exact (kept_writeBack ..).trans ht
      · exact ht
    have hx : kept x = kept s := by
      simp only [x, w, kept_setEnt, apply_ite kept, kept_copyPage, ite_self, hu]
    clear_value x u t v
    simp only [apply_ite kept, kept_openWhen, kept_noKey, kept_setEnt, kept_queueMisses, kept_unsealed, kept_waitIn, kept_place, ite_self, ht, hx]

theorem kept_settle (s : State) : kept (settle s) = kept s := by
  simp only [settle, kept_foldl, kept_advance, implies_true, eq_self]

theorem kept_accept (s : State) (e : MemEnt) : kept (accept s e) = kept s := by
  simp only [accept, kept_advance, kept_pushEnt]

/-! ### Operations sent to other members -/

theorem kept_hobReason (s : State) (c : Code) : kept (hobReason s c) = kept s := by
  simp only [hobReason, kept_mk, pick_self, apply_ite kept, ite_self]

theorem kept_originate (s : State) (src : OrigSrc) (op : FabOp) (vc : Nat) (who : Who) (deadline : Option Nat) (posted : Bool)
    (msg : Option Nat) (pad : Nat) : kept (originate s src op vc who deadline posted msg pad) = kept s := by
  unfold originate
  dsimp only
  split <;> simp only [kept_mk, pick_self, apply_ite kept, ite_self, kept_txPut]

theorem kept_releaseFlagged (s : State) : kept (releaseFlagged s) = kept s := by
  unfold releaseFlagged
  refine kept_foldl (fun t x => ?_) _ s
  split
  · simp only [apply_ite kept, ite_self, kept_txPut, kept_mk, pick_self]
  · rfl

theorem kept_originateFab (s : State) (h : HeldOut) : kept (originateFab s h) = kept s := by
  unfold originateFab
  extract_lets vc _ t
  have ht : kept t = kept s := kept_originate ..
  clear_value t
  split
  · split
    · exact (kept_emits ..).trans ((kept_countOutcome ..).trans ht)
    · exact ht
  · exact ht

theorem kept_releaseOutgoing (s : State) : kept (releaseOutgoing s) = kept s := by
  simp only [releaseOutgoing, kept_mk, pick_self, apply_ite kept, ite_self, kept_foldl, kept_originateFab, implies_true, eq_self]

theorem kept_sendNow (s : State) (p : PendingSend) : kept (sendNow s p) = kept s := by
  simp only [sendNow, kept_mk, pick_self, kept_foldl, kept_originate, implies_true, eq_self]

theorem kept_pumpSends (s : State) : kept (pumpSends s) = kept s := by
  unfold pumpSends
  refine kept_foldl (fun t p => ?_) _ s
  split
  · simp only [apply_ite kept, ite_self, kept_sendNow, kept_mk, pick_self]
  · rfl

theorem kept_queueSend (s : State) (p : PendingSend) : kept (queueSend s p) = kept s := by
  simp only [queueSend, kept_mk, pick_self, kept_pumpSends]

theorem kept_freeOrig (s : State) (ix : Nat) : kept (freeOrig s ix) = kept s := kept_congr rfl rfl

theorem kept_freeMessage (s : State) (msg : Nat) : kept (freeMessage s msg) = kept s := by
  simp only [freeMessage, kept_foldl, kept_freeOrig, implies_true, eq_self]

theorem kept_storeFault (s : State) (o : Orig) (c : Code) : kept (storeFault s o c) = kept s := by
  simp only [storeFault, kept_record]

theorem kept_origFab (s : State) (o : Orig) (ch : Nat) (tag : BitVec 16) (ep mid : Word) (c : Code) (data : List Byte) :
    kept (origFab s o ch tag ep mid c data) = kept s := by
  simp only [origFab, kept_mk, pick_self, apply_ite kept, ite_self, kept_countOutcome, kept_emits, kept_hobReason, kept_storeFault]

theorem kept_endFlight (s : State) (fl result : Nat) (c : Code) (detail : List Byte) : kept (endFlight s fl result c detail) = kept s := by
  unfold endFlight
  dsimp only
  split <;> simp only [kept_mk, pick_self, kept_countDrop, kept_hobReason]

theorem kept_issueRemote (s : State) (g : Ingress) (ahead : List Ingress) {t : State} (h : issueRemote s g ahead = some t) : kept t = kept s := by
  unfold issueRemote at h
  dsimp only at h
  split at h
  · cases h
  · split at h
    · cases h
      exact kept_answerError ..
    · split at h
      · next c u _ heq =>
        cases h
        have hu := congrArg (fun p => kept p.2.1) heq
        exact (kept_answerError ..).trans ((kept_imeReason ..).trans (hu.symm.trans (kept_memGate ..)))
      · next ix r u m heq =>
        have hu := congrArg (fun p => kept p.2.1) heq
        split at h
        · cases h
        · cases h
          exact (kept_settle ..).trans ((kept_accept ..).trans (hu.symm.trans (kept_memGate ..)))

theorem kept_returnCredit (s : State) : kept (returnCredit s) = kept s := by
  unfold returnCredit
  split
  · rfl
  · dsimp only
    split
    · rfl
    · simp only [kept_mk, pick_self, kept_setLport]

theorem kept_returnCredits (s : State) (left : Nat) : kept (returnCredits s left) = kept s := by
  simp only [returnCredits, kept_foldl, kept_returnCredit, implies_true, eq_self]

theorem kept_ingressPass (s : State) : kept (ingressPass s) = kept s := by
  unfold ingressPass
  refine kept_foldl (fun t g => ?_) _ s
  dsimp only
  split
  · next u hu => simp only [kept_mk, pick_self, kept_issueRemote _ _ _ hu]
  · rfl

theorem kept_drainIngress (s : State) : kept (drainIngress s) = kept s := by
  simp only [drainIngress, kept_ingressPass, kept_returnCredits]

/-! ### Regions that close -/

theorem kept_regionEnd (s : State) (c : Code) : kept (regionEnd s c) = kept s := by
  simp only [regionEnd, kept_mk, pick_self, kept_raiseIrq]

theorem kept_clearRegion (s : State) (ix : Nat) (r : Region) : kept (clearRegion s ix r) = kept s := by
  simp only [clearRegion, kept_mk, pick_self]

theorem kept_closeRegion (s : State) (ix : Nat) (drv : Bool) : kept (closeRegion s ix drv) = kept s := by
  unfold closeRegion
  dsimp only
  split <;> simp only [kept_mk, pick_self, apply_ite kept, ite_self, kept_catWrite, kept_clearRegion, kept_regionEnd]

theorem kept_finishDying (s : State) : kept (finishDying s) = kept s := by
  simp only [finishDying, apply_ite kept, ite_self, kept_foldl, kept_closeRegion, implies_true, eq_self]

theorem kept_afterMem (s : State) : kept (afterMem s) = kept s := by
  simp only [afterMem, kept_drainIngress, kept_finishDying, kept_settle]

/-! ### Collectives -/

theorem kept_modColl (s : State) (ix : Nat) (f : Coll → Coll) : kept (modColl s ix f) = kept s := kept_congr rfl rfl

theorem kept_sreReason (s : State) (c : Code) : kept (sreReason s c) = kept s := by
  simp only [sreReason, kept_mk, pick_self, apply_ite kept, ite_self]

theorem kept_chunkPass (s : State) (c : Coll) (half rank : Nat) : kept (chunkPass s c half rank).2 = kept s := by
  simp only [chunkPass, kept_lanePass]

theorem kept_sealChunk (s : State) (c : Coll) (h data : List Byte) : kept (sealChunk s c h data).2 = kept s := by
  unfold sealChunk
  split
  · split
    · rfl
    · split
      · rfl
      · simp only [apply_ite Prod.snd, apply_ite kept, ite_self, kept_countBlocks, kept_chunkPass]
  · rfl

theorem kept_sendAborts (s : State) (c : Coll) (rec : List Byte) : kept (sendAborts s c rec) = kept s := by
  unfold sendAborts
  refine kept_foldl (fun t r => ?_) _ s
  split
  · next b u heq =>
    have hu := congrArg (fun p => kept p.2) heq
    have hu : kept u = kept t := hu.symm.trans (kept_sealChunk ..)
    simp only [apply_ite kept, ite_self, kept_queueSend, hu]
  · next u heq =>
    have hu := congrArg (fun p => kept p.2) heq
    exact hu.symm.trans (kept_sealChunk ..)

theorem kept_closeColl (s : State) (ix : Nat) (c : Coll) (result : Nat) (reason : Code) (detail : List Byte) :
    kept (closeColl s ix c result reason detail) = kept s := by
  simp only [closeColl, kept_mk, pick_self, kept_endFlight, kept_keyReason, kept_sreReason]

theorem kept_abortColl (s : State) (ix : Nat) (reason : Code) (mask offRank : Nat) : kept (abortColl s ix reason mask offRank) = kept s := by
  unfold abortColl
  dsimp only
  split <;> simp only [kept_closeColl, kept_sendAborts]

theorem kept_sreSend (s : State) (ix rank : Nat) (chunk : Bool) (b : List Byte) : kept (sreSend s ix rank chunk b) = kept s := by
  unfold sreSend
  dsimp only
  split <;> simp only [apply_ite kept, ite_self, kept_abortColl, kept_modColl, kept_queueSend]

theorem kept_sendCredit (s : State) (ix rank limit : Nat) : kept (sendCredit s ix rank limit) = kept s := by
  unfold sendCredit
  split
  · rfl
  · split
    · next e u heq =>
      have hu := congrArg (fun p => kept p.2) heq
      exact (kept_abortColl ..).trans (hu.symm.trans (kept_sealChunk ..))
    · next b u heq =>
      have hu := congrArg (fun p => kept p.2) heq
      exact (kept_sreSend ..).trans ((kept_modColl ..).trans (hu.symm.trans (kept_sealChunk ..)))

theorem kept_raiseEdge (s : State) (ix rank : Nat) : kept (raiseEdge s ix rank) = kept s := by
  unfold raiseEdge
  split
  · rfl
  · split
    · rfl
    · dsimp only
      split
      · rfl
      · exact kept_sendCredit ..

theorem kept_raiseAll (s : State) : kept (raiseAll s) = kept s := by
  simp only [raiseAll, kept_foldl, kept_raiseEdge, implies_true, eq_self]

theorem kept_refuseColl (s : State) (l : Launch) (rank : Nat) (c : Code) : kept (refuseColl s l rank c) = kept s := by
  simp only [refuseColl, kept_endFlight, kept_keyReason, kept_sreReason]

theorem kept_sreCancel (s : State) (flight : Nat) : kept (sreCancel s flight) = kept s := by
  unfold sreCancel
  split
  · exact (kept_raiseAll _).trans (kept_abortColl ..)
  · split
    · simp only [kept_refuseColl, kept_mk, pick_self]
    · rfl

/-! ### Strata and bulk jobs -/

theorem kept_bceReason (s : State) (c : Code) : kept (bceReason s c) = kept s := by
  simp only [bceReason, kept_mk, pick_self, apply_ite kept, ite_self]

theorem kept_closeCut (s : State) (ix : Nat) (c : Cut) (result : Nat) (reason : Code) (offender rank refused : Nat) :
    kept (closeCut s ix c result reason offender rank refused) = kept s := by
  simp only [closeCut, kept_mk, pick_self, kept_bceReason, kept_endFlight]

theorem kept_setSnap (s : State) (ix st cut ptr : Nat) : kept (setSnap s ix st cut ptr) = kept s := by
  unfold setSnap
  split
  · exact kept_catWrite ..
  · rfl

theorem kept_idleRegions (s : State) (ixs : List Nat) : kept (idleRegions s ixs) = kept s := by
  simp only [idleRegions, kept_mk, pick_self, kept_foldl, kept_setSnap, implies_true, eq_self]

theorem kept_releaseHolds (s : State) : kept (releaseHolds s) = kept s := by
  simp only [releaseHolds, kept_afterMem, kept_releaseOutgoing]

theorem kept_dropShardJobs (s : State) (ix : Nat) : kept (dropShardJobs s ix) = kept s := kept_congr rfl rfl

theorem kept_commonPass (s : State) (h : KeyHandle) (who : Option Who) (tag : Nat) : kept (commonPass s h who tag).2 = kept s := by
  simp only [commonPass, kept_lanePass]

theorem kept_strSend (s : State) (src : OrigSrc) (c : Cut) (msg reason dst : Nat) (body : List Byte) :
    kept (strSend s src c msg reason dst body).2 = kept s := by
  unfold strSend
  split
  · rfl
  · dsimp only
    split
    · rfl
    · split
      · rfl
      · simp only [apply_ite Prod.snd, apply_ite kept, ite_self, kept_queueSend, kept_countBlocks, kept_commonPass]

theorem kept_abortCut (s : State) (ix : Nat) (reason : Code) (offender rank : Nat) (tell : Bool) :
    kept (abortCut s ix reason offender rank tell) = kept s := by
  unfold abortCut
  dsimp only
  split <;> simp only [apply_ite kept, ite_self, kept_foldl, kept_closeCut, kept_dropShardJobs, kept_idleRegions, kept_releaseHolds, kept_strSend,
    implies_true, eq_self]

theorem kept_failRestore (s : State) (ix : Nat) (reason : Code) : kept (failRestore s ix reason) = kept s := by
  unfold failRestore
  split
  · rfl
  · exact (kept_closeCut ..).trans (kept_dropShardJobs ..)

theorem kept_cutFails (s : State) (ix : Nat) (reason : Code) : kept (cutFails s ix reason) = kept s := by
  unfold cutFails
  split
  · rfl
  · split
    · exact kept_failRestore ..
    · exact kept_abortCut ..

theorem kept_refuseStratum (s : State) (j : Job) (c : Code) (refused : Nat) : kept (refuseStratum s j c refused) = kept s := by
  simp only [refuseStratum, kept_mk, pick_self, kept_bceReason, kept_endFlight, kept_keyReason]

theorem kept_stratumCancel (s : State) (flight : Nat) (code : Code) : kept (stratumCancel s flight code) = kept s := by
  unfold stratumCancel
  split
  · split
    · exact (kept_closeCut ..).trans (kept_dropShardJobs ..)
    · exact kept_cutFails ..
  · split
    · exact kept_refuseStratum ..
    · rfl

theorem kept_endJob (s : State) (j : Job) (result : Nat) (c : Code) (pos : Nat) : kept (endJob s j result c pos) = kept s := by
  unfold endJob
  extract_lets _ t
  have ht : kept t = kept s := kept_congr rfl rfl
  clear_value t
  split
  · exact (kept_bceReason ..).trans ((kept_endFlight ..).trans ht)
  · split
    · split
      · exact ht
      · exact (kept_cutFails ..).trans ((kept_bceReason ..).trans ht)
    · exact ht

theorem kept_failJob (s : State) (j : Job) (c : Code) : kept (failJob s j c) = kept s := by
  simp only [failJob, kept_endJob]

theorem kept_bulkCancel (s : State) (flight : Nat) (code : Code) : kept (bulkCancel s flight code) = kept s := by
  unfold bulkCancel
  split
  · exact kept_failJob ..
  · rfl

/-! ### Slices -/

theorem kept_setSlice (s : State) (i : Nat) (v : Slice) : kept (setSlice s i v) = kept s := kept_congr rfl rfl

theorem kept_cancelFlight (s : State) (id : Nat) (f : Flight) (code : Code) : kept (cancelFlight s id f code).2 = kept s := by
  simp only [cancelFlight, apply_ite Prod.snd, apply_ite kept, ite_self, kept_endFlight, kept_sreCancel, kept_bulkCancel, kept_stratumCancel]

theorem kept_squashOrig (s : State) (ix : Nat) (o : Orig) : kept (squashOrig s ix o) = kept s := by
  unfold squashOrig
  split
  · split
    · rfl
    · exact (kept_origFab ..).trans (kept_freeOrig ..)
  · refine (kept_endFlight ..).trans ?_
    split
    · exact kept_freeMessage ..
    · exact kept_freeOrig ..
  · rfl

theorem kept_sliceSquash (s : State) (i : Nat) : kept (sliceSquash s i) = kept s := by
  unfold sliceSquash
  refine (kept_pumpSends _).trans ((kept_releaseFlagged _).trans ((kept_foldl (fun t x => ?orig) _ _).trans
    ((kept_foldl (fun t p => ?send) _ _).trans (kept_foldl (fun t x => ?flight) _ s))))
  case flight => simp only [apply_ite kept, ite_self, kept_cancelFlight]
  case send =>
    split
    · simp only [apply_ite kept, ite_self, kept_endFlight, kept_mk, pick_self]
    · rfl
  case orig =>
    split
    · simp only [apply_ite kept, ite_self, kept_squashOrig]
    · rfl

theorem kept_sliceStart (s : State) (i : Nat) (squash charter : Bool) : kept (sliceStart s i squash charter) = kept s := by
  simp only [sliceStart, apply_ite kept, ite_self, kept_foldl, kept_endFlight, kept_setSlice, kept_sliceSquash, implies_true, eq_self]

end Sys2Proof.Proofs.CharterKept

/-! A charter load: the checks and the merge of CHARTER_LOAD, the slot write of CHARTER_STORED (02 R52 to R54, R60, R473). -/
namespace Sys2Proof.Proofs.CharterLoads
open Sys2Proof.Machine CharterKept BringUp

variable {s s' t u : State} {b : List Byte} {l : ChrLoad} {m : MemIn} {flashOk : Bool}

/-! ### The window's image taken -/

/-- A load from the window that nothing bars ends with the first failing check, or is accepted (02 R52). -/
theorem charterLoad_window (hb : s.gen.chrBusy = false) (hr : isRunning s 4 0 = false) (ha : s.lcs.act = none) (hi : s.lcs.intentPending = false)
    (ht : s.key.tampered = false) (hs' : s' = { s with gen := { s.gen with chrBusy := true, chrOverrun := false } })
    (hbytes : b = bufBytes s.gen.chrWindow 0 (bits s.gen.chrLen.toNat 0 17)) :
    charterLoad s true m flashOk =
      if (chChecks s' b).1 ≠ 0#8 then chrEnd s' (chChecks s' b).1 else chrAccept s' b (chChecks s' b).2 flashOk := by
  subst hs' hbytes
  simp [charterLoad, chrImage, hb, hr, ha, hi, ht]

theorem kept_flashFail (s : State) : kept (flashFail s) = kept s := kept_record ..

theorem kept_accWrite (s : State) (key : BitVec 256 × Nat) (i : AccInfo) (flashOk : Bool) : kept (accWrite s key i flashOk).2 = kept s := by
  unfold accWrite
  dsimp only
  split
  · rfl
  · exact (kept_flashFail _).trans rfl

theorem kept_accAppend (s : State) (i : AccInfo) (last flashOk : Bool) : kept (accAppend s i last flashOk).2 = kept s := by
  unfold accAppend
  dsimp only
  split
  · rfl
  · split
    · rfl
    · exact kept_accWrite ..

/-- The entry of the accession log that a load makes (13 R413). -/
def loadEntry (s : State) (c : Charter) : AccInfo := accPlain s 16 c.signer c.sequence ((shaBytes (mergedImage c)).take 32)

theorem charter_of_kept (h : kept t = kept s) : t.gen.charter = s.gen.charter := congrArg (·.1.charter) h

/-- Accepting an image leaves the charter in use as it is. -/
theorem charter_chrAccept (s : State) (b : List Byte) (t : Tbl (Nat × List Byte)) (flashOk : Bool) :
    (chrAccept s b t flashOk).gen.charter = s.gen.charter := by
  unfold chrAccept
  extract_lets c
  have hacc := charter_of_kept (kept_accAppend s (loadEntry s c) false flashOk)
  have hreason := charter_of_kept (kept_keyReason s Rsn.bedrockFail)
  split
  · exact hreason
  · unfold loadEntry at hacc
    generalize accAppend s _ false flashOk = r at hacc ⊢
    dsimp only
    split
    · exact hacc
    · split <;> exact hacc

/-- A merge that binds and is logged is on its way to the slot that is not in use (02 R53, R54). -/
theorem chrAccept_logged {tbl : Tbl (Nat × List Byte)} {tag : BitVec 128} (hbind : chBind s (chMerge s b tbl) = some tag)
    (hacc : (accAppend s (loadEntry s (chMerge s b tbl)) false flashOk).1 = 0#8) :
    (chrAccept s b tbl flashOk).gen.chrBusy = s.gen.chrBusy
      ∧ ∃ l, (chrAccept s b tbl flashOk).gen.load = some l ∧ l.merged = chMerge s b tbl ∧ l.bind = tag ∧ l.slot = chrSlotFor s := by
  have hkept := kept_accAppend s (loadEntry s (chMerge s b tbl)) false flashOk
  unfold chrAccept
  dsimp only
  rw [hbind]
  unfold loadEntry at hacc hkept
  generalize accAppend s _ false flashOk = r at hacc hkept ⊢
  obtain ⟨c, u⟩ := r
  dsimp only at hacc hkept ⊢
  have hslot : chrSlotFor u = chrSlotFor s := congrArg (fun k => if k.1.charter.isSome then 1 - k.1.slotInUse else 0) hkept
  rw [hacc, if_neg (by decide), if_neg (by decide)]
  exact ⟨congrArg (·.1.chrBusy) hkept, _, rfl, rfl, rfl, hslot⟩

/-! ### The merged charter applied -/

theorem broughtUp_regroup (s : State) (size : Tbl Nat) (bceMin : Nat) : BroughtUp s (regroup s size bceMin) := by
  have hshrink (t : State) (g n : Nat) : BroughtUp t (shrinkGroup t g n) :=
    .foldl (f := fun t i => setLane t i { laneAt t i with st := .common }) (fun _ _ => .of_dom rfl rfl) _ t
  have hgrow (t : State) (g n : Nat) : BroughtUp t (growGroup t g n) :=
    .foldl (f := fun t i => setLane t i { laneAt t i with st := inGroup g }) (fun _ _ => .of_dom rfl rfl) _ t
  have htrim (t : State) (g : Nat) : BroughtUp t (trimVacant t g) := by
    unfold trimVacant
    split
    · exact .refl t
    · exact .of_dom rfl rfl
  unfold regroup
  extract_lets changed _ t u v
  have ht : BroughtUp s t := .of_dom rfl rfl
  have hu : BroughtUp t u := .foldl (f := fun t g => shrinkGroup t g (dget 0 size g)) (fun t g => hshrink t g _) changed t
  have hv : BroughtUp u v := .foldl (f := fun t g => growGroup t g (dget 0 size g)) (fun t g => hgrow t g _) changed u
  exact ((ht.trans hu).trans hv).trans (.foldl htrim changed v)

theorem broughtUp_applyBudgets (s : State) (q : Nat) : BroughtUp s (applyBudgets s q) := by
  unfold applyBudgets
  have ht : BroughtUp s { s with qos := { s.qos with stats := s.qos.stats.filter fun x => x.1 / 16 != q } } := .of_dom rfl rfl
  exact ht.trans (broughtUp_startCredits _ q)

/-- A load applied to a chartered block up to its slices: they are as before, and GLOBAL may be staged (02 R60). -/
def AppliedTo (s t : State) : Prop := t.hob.slices = s.hob.slices ∧ ∃ g, kept t = kept { s with gen := { s.gen with chrStaged := g } }

theorem AppliedTo.of_broughtUp (h : AppliedTo s t) (hu : BroughtUp t u) : AppliedTo s u := by
  obtain ⟨hsl, g, hk⟩ := h
  refine ⟨?_, g, (kept_of_broughtUp hu).trans hk⟩
  obtain ⟨-, hu⟩ := hu
  rw [hu]
  exact hsl

theorem AppliedTo.refl (s : State) : AppliedTo s s := ⟨rfl, s.gen.chrStaged, rfl⟩

theorem broughtUp_startCreditsWhere (c : State → Nat → Prop) [∀ t q, Decidable (c t q)] (l : List Nat) (s : State) :
    BroughtUp s (l.foldl (fun t q => if c t q then t else startCredits t q) s) := by
  refine .foldl (f := fun t q => if c t q then t else startCredits t q) (fun t q => ?_) l s
  split
  · exact .refl t
  · exact broughtUp_startCredits t q

theorem broughtUp_applyBudgetsWhere (c : State → Nat → Bool) (l : List Nat) (s : State) :
    BroughtUp s (l.foldl (fun t q => if c t q then applyBudgets t q else t) s) := by
  refine .foldl (f := fun t q => if c t q then applyBudgets t q else t) (fun t q => ?_) l s
  split
  · exact broughtUp_applyBudgets t q
  · exact .refl t

/-- The slices come last: without a SLICES section none is reset (09 R306). -/
theorem chrApply_slicesLast (s : State) (old : Option Charter) (types : List Nat) :
    ∃ t, AppliedTo s t ∧ (4 ∉ types → chrApply s old types = t)
      ∧ ∃ is : List Nat, chrApply s old types = is.foldl (fun u i => sliceStart u i true true) t := by
  unfold chrApply
  extract_lets oldBody differs _ t before u _ v w
  have ht : AppliedTo s t := by
    unfold t
    split
    · exact ⟨rfl, true, rfl⟩
    · exact .refl s
  have hu : BroughtUp t u := by
    unfold u
    split
    · exact (broughtUp_regroup ..).trans (broughtUp_startCreditsWhere (fun _ q => dget 0 _ q = dget 0 before q) _ _)
    · exact .refl t
  obtain ⟨hsl, g, hk⟩ := ht.of_broughtUp hu
  have hv : AppliedTo s v := by
    unfold v
    split <;> exact ⟨hsl, g, hk⟩
  have hw : BroughtUp v w := by
    unfold w
    split
    · exact broughtUp_applyBudgetsWhere (fun t q => budgetsChange t (oldBody 5) q) _ v
    · exact .refl v
  refine ⟨w, hv.of_broughtUp hw, fun h4 => ?_, ?_⟩
  · have hsame : differs 4 = false := by simp [differs, h4]
    rw [hsame, if_neg Bool.false_ne_true]
  · split
    · exact ⟨_, rfl⟩
    · exact ⟨[], rfl⟩

theorem kept_chrApply (s : State) (old : Option Charter) (types : List Nat) :
    ∃ g, kept (chrApply s old types) = kept { s with gen := { s.gen with chrStaged := g } } := by
  obtain ⟨t, ⟨-, g, ht⟩, -, is, happ⟩ := chrApply_slicesLast s old types
  refine ⟨g, ?_⟩
  rw [happ]
  exact (kept_foldl (f := fun u i => sliceStart u i true true) (fun u i => kept_sliceStart u i true true) is t).trans ht

theorem slices_chrApply {types : List Nat} (h4 : 4 ∉ types) (s : State) (old : Option Charter) :
    (chrApply s old types).hob.slices = s.hob.slices := by
  obtain ⟨t, ⟨hsl, -⟩, hnone, -⟩ := chrApply_slicesLast s old types
  rw [hnone h4, hsl]

/-! ### The slot write's end -/

/-- The charter of a load is in use, its slot written; the load waits at most for slices. -/
def InUse (l : ChrLoad) (slots : Tbl ChrSlot) (t : State) : Prop :=
  t.gen.charter = some l.merged ∧ t.gen.slotInUse = l.slot ∧ t.gen.unchartered = false ∧ t.gen.load = none ∧ t.gen.chrBusy = true
    ∧ t.flash.slots = slots

theorem InUse.of_kept {slots : Tbl ChrSlot} (h : InUse l slots s) (hk : kept t = kept s) : InUse l slots t := by
  obtain ⟨hc, hi, hu, hl, hb, hsl⟩ := h
  exact ⟨(congrArg (·.1.charter) hk).trans hc, (congrArg (·.1.slotInUse) hk).trans hi, (congrArg (·.1.unchartered) hk).trans hu,
    (congrArg (·.1.load) hk).trans hl, (congrArg (·.1.chrBusy) hk).trans hb, (congrArg (·.2) hk).trans hsl⟩

/-- A first charter brings the block up from C9. -/
theorem broughtUp_chrApplyFirst (s : State) (bad : List Nat) :
    BroughtUp
      { settleShapes s with gen := { s.gen with
          unchartered := false, c12Done := false, ready := false, glob := (secBody s 1).getD [], chrStaged := false, c10Done := true } }
      (chrApplyFirst s bad) :=
  (broughtUp_chooseLanes _ bad).trans (broughtUp_releasePorts _)

/-- The state in which a stored charter is applied. -/
def storedState (s : State) (l : ChrLoad) : State :=
  let s := emits s (slotWrite s l.slot l.merged l.bind)
  { s with
    flash := { s.flash with
      slots := tput s.flash.slots l.slot { chr := l.merged, sequence := l.merged.sequence, bind := l.bind }
      slotVoid := s.flash.slotVoid.filter fun x => x != l.slot }
    gen := { s.gen with charter := some l.merged, slotInUse := l.slot, load := none } }

/-- A good slot write applies the merged charter (02 R60). -/
theorem charterStored_good (hl : s.gen.load = some l) (hb : s.gen.chrBusy = true) (hc : coreDown s = false) (ht : s.key.tampered = false)
    (bad : List Nat) :
    charterStored s true bad =
      chrFinish (if s.gen.unchartered then chrApplyFirst (storedState s l) bad else chrApply (storedState s l) s.gen.charter l.carried) := by
  simp only [charterStored, hl, hb, hc, ht, storedState]
  rfl

/-- The state in which a slot write has failed. -/
def voidedState (s : State) (l : ChrLoad) : State :=
  let s := emits s (slotWrite s l.slot l.merged l.bind)
  { s with flash := { s.flash with slots := tdel s.flash.slots l.slot } }

/-- A failed one ends the load, its slot void (02 R54). -/
theorem charterStored_bad (hl : s.gen.load = some l) (hb : s.gen.chrBusy = true) (hc : coreDown s = false) (ht : s.key.tampered = false)
    (bad : List Nat) :
    charterStored s false bad = chrEnd (flashFail (voidedState s l)) Chr.storeFailed := by
  simp only [charterStored, hl, hb, hc, ht, voidedState]
  rfl

/-- The slots of flash once a load's charter is stored. -/
def slotsWith (s : State) (l : ChrLoad) : Tbl ChrSlot :=
  tput s.flash.slots l.slot { chr := l.merged, sequence := l.merged.sequence, bind := l.bind }

/-- Applied, the merged charter is in use, its slices aside. -/
theorem inUse_applied (hb : s.gen.chrBusy = true) (bad : List Nat) :
    InUse l (slotsWith s l) (if s.gen.unchartered then chrApplyFirst (storedState s l) bad else chrApply (storedState s l) s.gen.charter l.carried) := by
  split
  · have hfirst : InUse l (slotsWith s l) { settleShapes (storedState s l) with gen := { (storedState s l).gen with
        unchartered := false, c12Done := false, ready := false, glob := (secBody (storedState s l) 1).getD [], chrStaged := false
        c10Done := true } } := ⟨rfl, rfl, rfl, rfl, hb, rfl⟩
    exact hfirst.of_kept (kept_of_broughtUp (broughtUp_chrApplyFirst _ bad))
  · next hu =>
    obtain ⟨g, hk⟩ := kept_chrApply (storedState s l) s.gen.charter l.carried
    have hstored : InUse l (slotsWith s l) { storedState s l with gen := { (storedState s l).gen with chrStaged := g } } :=
      ⟨rfl, rfl, Bool.eq_false_iff.mpr hu, rfl, hb, rfl⟩
    exact hstored.of_kept hk

theorem slices_applied (h4 : 4 ∉ l.carried) (bad : List Nat) :
    (if s.gen.unchartered then chrApplyFirst (storedState s l) bad else chrApply (storedState s l) s.gen.charter l.carried).hob.slices = s.hob.slices := by
  split
  · obtain ⟨-, h⟩ := broughtUp_chrApplyFirst (storedState s l) bad
    rw [h]
    rfl
  · exact slices_chrApply h4 (storedState s l) s.gen.charter

/-- Whether or not slices are still being reset, the charter stays in use. -/
theorem chrFinish_keeps (s : State) :
    (chrFinish s).gen.charter = s.gen.charter ∧ (chrFinish s).gen.slotInUse = s.gen.slotInUse ∧ (chrFinish s).gen.unchartered = s.gen.unchartered
      ∧ (chrFinish s).flash.slots = s.flash.slots := by
  unfold chrFinish
  split <;> exact ⟨rfl, rfl, rfl, rfl⟩

/-- With no slice being reset for it, the load ends with code 0. -/
theorem chrFinish_ends (hb : s.gen.chrBusy = true) (hl : s.gen.load = none)
    (hsl : (s.hob.slices.any fun x => x.2.resetting && x.2.charter) = false) : chrFinish s = chrEnd s 0#8 := by
  simp [chrFinish, hb, hl, hsl]

end Sys2Proof.Proofs.CharterLoads

namespace Sys2Proof.Proofs

open Sys2Proof.Machine CharterKept CharterLoads

/-- Settles O19: what the checks decide of the window's image, with the entry of log 18 and the slot of log 135, and the slot write's two ends. -/
theorem charterLoadsAndStores : Obligations.CharterLoadsAndStores := by
  unfold Obligations.CharterLoadsAndStores
  refine ⟨fun m flashOk s s' b hs hb hr ha hi ht hs' hbytes => ?load, fun l bad s hl hb hc ht => ⟨?bad, ?good⟩⟩
  case load =>
    have hload := charterLoad_window (m := m) (flashOk := flashOk) hb hr ha hi ht hs' hbytes
    refine ⟨_, congrArg Host.Outcome.next ((ctlWriteBy_admitted hs _).trans (congrArg Safety.okay hload)), ?_, fun hfail => ?_,
      fun tag hpass hbind hacc => ?_⟩
    · subst hs'
      split
      · rfl
      · exact charter_chrAccept ..
    · subst hs'
      rw [if_pos hfail]
      exact ⟨rfl, rfl, rfl, rfl⟩
    · obtain ⟨hbusy, hgoes⟩ := chrAccept_logged hbind hacc
      subst hs'
      rw [if_neg (fun hne => hne hpass)]
      exact ⟨hbusy, hgoes⟩
  case bad =>
    refine ⟨_, congrArg Host.Outcome.next (charterStored_bad hl hb hc ht bad), rfl, rfl, rfl, ?_, ?_⟩
    · exact congrArg (·.1.charter) (kept_flashFail (voidedState s l))
    · exact congrArg (·.2) (kept_flashFail (voidedState s l))
  case good =>
    obtain ⟨hchr, hslot, hun, hload, hbusy, hslots⟩ := inUse_applied (l := l) hb bad
    have hslices := slices_applied (s := s) (l := l) (bad := bad)
    have hgood := charterStored_good hl hb hc ht bad
    generalize (if s.gen.unchartered then chrApplyFirst (storedState s l) bad else chrApply (storedState s l) s.gen.charter l.carried) = t
      at hchr hslot hun hload hbusy hslots hslices hgood
    obtain ⟨kchr, kslot, kun, kslots⟩ := chrFinish_keeps t
    refine ⟨_, congrArg Host.Outcome.next hgood, kchr.trans hchr, kslot.trans hslot, kun.trans hun, kslots.trans hslots, fun h4 hnone => ?_⟩
    rw [← hslices h4] at hnone
    rw [chrFinish_ends hbusy hload hnone]
    exact ⟨rfl, rfl⟩

end Sys2Proof.Proofs


/-! What a command leaves of the state: the core that the invariants speak of, and the vault. One lemma per function of the model says that it keeps
both (`keep_…`) or the core (`core_…`); the functions that move the core are shown to keep what `Safety.Inv` and `Safety.KillInv` say. -/
namespace Sys2Proof.Proofs.CoreFrame
open Sys2Proof.Machine

/-- What the invariants of the block speak of (Safety.Inv, Safety.KillInv), with the DRBG, ACLK and what a tamper has left to do. -/
structure Core where
  cfg : Cfg
  pwrok : Bool
  aclkLost : Bool
  fuse : Fuse
  window : List Host.Cell
  released : Bool
  c6Done : Bool
  kill : KillBank
  retries : Nat
  killed : Bool
  tampered : Bool
  zeroised : Bool
  coreWipeDue : Bool
  drbgUp : Bool
  stage : List Host.Cell
  reqCtl : List Host.Cell
  reqDbg : List Host.Cell

/-- The core of a state, and its vault. -/
def keep (s : State) : Core × Tbl Slot :=
  (⟨s.cfg, s.pin.pwrok, s.dom.aclkLost, s.fuse, s.gen.chrWindow, s.gen.released, s.gen.c6Done, s.key.kill, s.key.retries, s.key.killed,
    s.key.tampered, s.key.zeroised, s.key.coreWipeDue, s.key.drbgUp,
    s.lcs.stage, s.att.mbxCtl.req, s.att.mbxDbg.req⟩, s.key.slots)

theorem keep_mk (cfg : Cfg) (pin : Pin) (dom : Doms) (tm : Tm) (fuse : Fuse) (flash : Flash) (gen : Gen) (lane : LanePool) (key : Key) (ime : Ime)
    (ile : Ile) (qos : Qos) (hob : Hob) (flt : Flt) (lcs : Lcs) (sre : Sre) (bce : Bce) (att : Att) (dbg : Dbg) (out : List Out) (freeIx : Nat)
    (pending : List Instr) :
    keep ⟨cfg, pin, dom, tm, fuse, flash, gen, lane, key, ime, ile, qos, hob, flt, lcs, sre, bce, att, dbg, out, freeIx, pending⟩ =
      (⟨cfg, pin.pwrok, dom.aclkLost, fuse, gen.chrWindow, gen.released, gen.c6Done, key.kill, key.retries, key.killed, key.tampered, key.zeroised,
        key.coreWipeDue, key.drbgUp, lcs.stage,
        att.mbxCtl.req, att.mbxDbg.req⟩, key.slots) := rfl

/-- The fields of a state put together again are what it keeps. -/
theorem keep_self (s : State) :
    ((⟨s.cfg, s.pin.pwrok, s.dom.aclkLost, s.fuse, s.gen.chrWindow, s.gen.released, s.gen.c6Done, s.key.kill, s.key.retries, s.key.killed,
      s.key.tampered, s.key.zeroised, s.key.coreWipeDue, s.key.drbgUp,
      s.lcs.stage, s.att.mbxCtl.req, s.att.mbxDbg.req⟩, s.key.slots) : Core × Tbl Slot) = keep s := rfl

theorem keep_dbg (s : State) (d : Dbg) : keep { s with dbg := d } = keep s := rfl

theorem keep_foldl {α : Type} {f : State → α → State} (hf : ∀ s a, keep (f s a) = keep s) (l : List α) (s : State) :
    keep (l.foldl f s) = keep s := by
  induction l generalizing s with
  | nil => rfl
  | cons a l ih => exact (ih _).trans (hf s a)

theorem core_foldl {α : Type} {f : State → α → State} (hf : ∀ s a, (keep (f s a)).1 = (keep s).1) (l : List α) (s : State) :
    (keep (l.foldl f s)).1 = (keep s).1 := by
  induction l generalizing s with
  | nil => rfl
  | cons a l ih => exact (ih _).trans (hf s a)

theorem keep_foldl_fst {α β : Type} {f : State × β → α → State × β} (hf : ∀ a x, keep (f a x).1 = keep a.1) (l : List α) (a : State × β) :
    keep (l.foldl f a).1 = keep a.1 := by
  induction l generalizing a with
  | nil => rfl
  | cons x l ih => exact (ih _).trans (hf a x)

theorem core_foldl_fst {α β : Type} {f : State × β → α → State × β} (hf : ∀ a x, (keep (f a x).1).1 = (keep a.1).1) (l : List α)
    (a : State × β) : (keep (l.foldl f a).1).1 = (keep a.1).1 := by
  induction l generalizing a with
  | nil => rfl
  | cons x l ih => exact (ih _).trans (hf a x)

theorem keep_foldl_snd {α β : Type} {f : β × State → α → β × State} (hf : ∀ a x, keep (f a x).2 = keep a.2) (l : List α) (a : β × State) :
    keep (l.foldl f a).2 = keep a.2 := by
  induction l generalizing a with
  | nil => rfl
  | cons x l ih => exact (ih _).trans (hf a x)

/-- What a run that answers a triple keeps, its state has kept. -/
theorem keep_of_eq {α β : Type} {x : α × State × β} {a : α} {t s : State} {b : β} (he : x = (a, t, b)) (h : keep x.2.1 = keep s) :
    keep t = keep s := by
  subst he
  exact h

theorem core_of_eq {α β : Type} {x : α × State × β} {a : α} {t s : State} {b : β} (he : x = (a, t, b))
    (h : (keep x.2.1).1 = (keep s).1) : (keep t).1 = (keep s).1 := by
  subst he
  exact h

/-- The same of a pair. -/
theorem keep_of_eq_snd {α : Type} {x : α × State} {a : α} {t s : State} (he : x = (a, t)) (h : keep x.2 = keep s) : keep t = keep s := by
  subst he
  exact h

theorem core_of_eq_snd {α : Type} {x : α × State} {a : α} {t s : State} (he : x = (a, t)) (h : (keep x.2).1 = (keep s).1) :
    (keep t).1 = (keep s).1 := by
  subst he
  exact h

/-! ### The state's own operations -/

theorem keep_freshBits (w : Nat) (s : State) : keep (freshBits w s).2 = keep s := by rfl

theorem keep_emit (s : State) (o : Out) : keep (emit s o) = keep s := by rfl

theorem keep_emits (s : State) (o : List Out) : keep (emits s o) = keep s := by rfl

theorem keep_setDom (s : State) (d : Nat) (v : Dom) : keep (setDom s d v) = keep s := by rfl

theorem keep_countDrop (s : State) (d : Nat) : keep (countDrop s d) = keep s := by rfl

theorem keep_enterReset (s : State) (d : Nat) : keep (enterReset s d) = keep s := by rfl

theorem keep_exitReset (s : State) (d : Nat) : keep (exitReset s d) = keep s := by
  simp only [exitReset, keep_mk, keep_self, apply_ite keep, ite_self, keep_setDom]

theorem keep_setMemPin (s : State) (p : Nat) (v : MemPin) : keep (setMemPin s p v) = keep s := by rfl

theorem keep_setLnkPin (s : State) (e : Nat) (v : LnkPin) : keep (setLnkPin s e v) = keep s := by rfl

theorem keep_raiseIrq (s : State) (i : Nat) : keep (raiseIrq s i) = keep s := by rfl

/-! ### Fault records and rungs -/

theorem keep_queueRecord (s : State) (r : FaultRec) : keep (queueRecord s r) = keep s := by
  unfold queueRecord
  (repeat' split) <;> simp only [keep_mk, keep_self]

theorem keep_enterStanding (s : State) (c u loc : Nat) : keep (enterStanding s c u loc) = keep s := by rfl

theorem keep_record (s : State) (c u loc act : Nat) (rsn : Code) (who : Option Who) (detail : Nat) :
    keep (record s c u loc act rsn who detail) = keep s := by
  simp only [record, apply_ite keep, ite_self, keep_raiseIrq, keep_queueRecord, keep_enterStanding]

theorem keep_recordPlain (s : State) (c u loc act : Nat) : keep (recordPlain s c u loc act) = keep s := by
  simp only [recordPlain, keep_record]

theorem keep_checkRecord (s : State) (c u loc act : Nat) (rsn : Code) (who : Option Who) (detail : Nat) (twice : Bool) :
    keep (checkRecord s c u loc act rsn who detail twice) = keep s := by
  simp only [checkRecord, apply_ite keep, ite_self, keep_record]

theorem keep_flashFail (s : State) : keep (flashFail s) = keep s := by
  simp only [flashFail, keep_recordPlain]

theorem keep_ignoreWrite (s : State) (off : Nat) : keep (ignoreWrite s off) = keep s := by rfl

theorem keep_countMerged (s : State) : keep (countMerged s) = keep s := by rfl

theorem keep_enterRung (s : State) (rung port cls : Nat) : keep (enterRung s rung port cls) = keep s := by
  simp only [enterRung, keep_mk, keep_self, apply_ite keep, ite_self, keep_raiseIrq]

theorem keep_startRung (s : State) (rung port cls : Nat) : keep (startRung s rung port cls) = keep s := by
  simp only [startRung, keep_mk, keep_self, apply_ite keep, ite_self, keep_countMerged, keep_enterRung]

theorem keep_endRung (s : State) (rung port : Nat) : keep (endRung s rung port) = keep s := by rfl

/-! ### Key halves, caches, random numbers -/

theorem core_setSlot (s : State) (i : Nat) (v : Option Slot) : (keep (setSlot s i v)).1 = (keep s).1 := by rfl

theorem keep_keyReason (s : State) (c : Code) : keep (keyReason s c) = keep s := by
  simp only [keyReason, keep_mk, keep_self, apply_ite keep, ite_self]

theorem core_countBlocks (s : State) (slot half vol n : Nat) : (keep (countBlocks s slot half vol n)).1 = (keep s).1 := by
  unfold countBlocks
  split <;> simp only [apply_ite keep, ite_self, keep_foldl, implies_true, keep_record, core_setSlot]

theorem keep_dkcPut (s : State) (h : KeyHandle) : keep (dkcPut s h) = keep s := by
  unfold dkcPut
  split <;> simp only [keep_mk, keep_self]

theorem keep_dkcTouch (s : State) (h : KeyHandle) : keep (dkcTouch s h) = keep s := by
  unfold dkcTouch
  split <;> simp only [keep_mk, keep_self]

theorem keep_missAdd (s : State) (h : KeyHandle) (group : Nat) : keep (missAdd s h group) = keep s := by
  simp only [missAdd, keep_mk, keep_self, apply_ite keep, ite_self]

theorem keep_ctxPut (s : State) (group : Nat) (h : KeyHandle) : keep (ctxPut s group h) = keep s := by
  unfold ctxPut
  split <;> simp only [keep_mk, keep_self]

theorem keep_keyUse (s : State) (h : KeyHandle) : keep (keyUse s h) = keep s := by
  simp only [keyUse, apply_ite keep, ite_self, keep_dkcPut, keep_dkcTouch]

theorem keep_dropKeysOf (s : State) (slot half : Nat) : keep (dropKeysOf s slot half) = keep s := by rfl

theorem core_zeroHalf (s : State) (slot half : Nat) : (keep (zeroHalf s slot half)).1 = (keep s).1 := by
  unfold zeroHalf
  dsimp only
  split <;> simp only [core_setSlot, keep_dropKeysOf]

theorem core_emptySlot (s : State) (slot : Nat) : (keep (emptySlot s slot)).1 = (keep s).1 := by rfl

theorem core_fillSlot (s : State) (slot kind rc tenant gen : Nat) (m : Masks) (key : BitVec 256) :
    (keep (fillSlot s slot kind rc tenant gen m key)).1 = (keep s).1 := by rfl

theorem core_stageHalf (s : State) (slot : Nat) (m : Masks) (key : BitVec 256) : (keep (stageHalf s slot m key)).1 = (keep s).1 := by
  unfold stageHalf
  split <;> simp only [core_setSlot]

theorem core_activateHalf (s : State) (slot : Nat) : (keep (activateHalf s slot)).1 = (keep s).1 := by
  unfold activateHalf
  split <;> simp only [core_setSlot]

theorem core_retireHalf (s : State) (slot : Nat) : (keep (retireHalf s slot)).1 = (keep s).1 := by
  unfold retireHalf
  dsimp only
  (repeat' split) <;> simp only [core_setSlot, core_zeroHalf]

theorem keep_drbgTake (w : Nat) (s : State) : keep (drbgTake w s).2 = keep s := by
  simp only [drbgTake, keep_mk, keep_self, apply_ite keep, ite_self, keep_freshBits]

theorem keep_userKeyed (s : State) : keep (userKeyed s) = keep s := by
  simp only [userKeyed, keep_mk, keep_self, apply_ite keep, ite_self, keep_freshBits, keep_emit]

/-! ### CTLPORT writes -/

theorem keep_ctlWriteBy (s : State) (off : Nat) (f : State → State) (hf : keep (f s) = keep s) :
    keep (ctlWriteBy s off f) = keep s :=
  ctlWriteBy_keeps (fun t => keep t = keep s) s off f (fun t o h => (keep_emit t o).trans h) (fun _ => hf) rfl

theorem core_ctlWriteBy (s : State) (off : Nat) (f : State → State) (hf : (keep (f s)).1 = (keep s).1) :
    (keep (ctlWriteBy s off f)).1 = (keep s).1 :=
  ctlWriteBy_keeps (fun t => (keep t).1 = (keep s).1) s off f (fun t o h => (congrArg Prod.fst (keep_emit t o)).trans h) (fun _ => hf) rfl

/-! ### The cipher lane pool -/

theorem keep_setLane (s : State) (i : Nat) (v : Lane) : keep (setLane s i v) = keep s := by rfl

theorem keep_keepVacant (s : State) (g n : Nat) : keep (keepVacant s g n) = keep s := by rfl

theorem keep_trimVacant (s : State) (g : Nat) : keep (trimVacant s g) = keep s := by
  simp only [trimVacant, apply_ite keep, ite_self, keep_keepVacant]

theorem keep_becomeSpare (s : State) (i : Nat) : keep (becomeSpare s i) = keep s := by
  unfold becomeSpare
  dsimp only
  split <;> simp only [keep_setLane, keep_trimVacant]

theorem keep_c10Test (bad : List Nat) (s : State) (i : Nat) : keep (c10Test bad s i) = keep s := by
  simp only [c10Test, apply_ite keep, ite_self, keep_recordPlain, keep_setLane]

theorem keep_fillGroups (s : State) (gs ls : List Nat) : keep (fillGroups s gs ls) = keep s := by
  induction gs generalizing s ls with
  | nil => simp only [fillGroups, keep_foldl, keep_setLane, implies_true]
  | cons g gs ih => simp only [fillGroups, ih, keep_foldl, keep_setLane, implies_true]

theorem keep_laneStart (s : State) (bad : List Nat) : keep (laneStart s bad) = keep s := by
  simp only [laneStart, keep_mk, keep_self, keep_foldl, implies_true, keep_c10Test, keep_fillGroups]

theorem keep_rebuildFence (s : State) : keep (rebuildFence s) = keep s := by
  simp only [rebuildFence, keep_foldl, implies_true, keep_setLane]

theorem keep_shrinkGroup (s : State) (g n : Nat) : keep (shrinkGroup s g n) = keep s := by
  simp only [shrinkGroup, keep_foldl, implies_true, keep_setLane]

theorem keep_growGroup (s : State) (g n : Nat) : keep (growGroup s g n) = keep s := by
  simp only [growGroup, keep_foldl, implies_true, keep_setLane]

theorem keep_regroup (s : State) (size : Tbl Nat) (bceMin : Nat) : keep (regroup s size bceMin) = keep s := by
  simp only [regroup, keep_mk, keep_self, keep_foldl, implies_true, keep_trimVacant, keep_shrinkGroup, keep_growGroup]

theorem keep_fenceLane (s : State) (i : Nat) : keep (fenceLane s i) = keep s := by
  unfold fenceLane
  dsimp only
  split <;> simp only [keep_mk, keep_self, keep_setLane]

theorem keep_fenceFault (s : State) (i : Nat) (who : Option Who) (tag : Nat) : keep (fenceFault s i who tag) = keep s := by
  simp only [fenceFault, keep_record, keep_setLane, keep_fenceLane]

theorem keep_failSpares (s : State) (failing : List Nat) : keep (failSpares s failing) = keep s := by
  simp only [failSpares, keep_foldl, implies_true, keep_recordPlain, keep_setLane]

theorem keep_replaceLane (s : State) (i : Nat) (failing : List Nat) : keep (replaceLane s i failing) = keep s := by
  unfold replaceLane
  dsimp only
  (repeat' split) <;> simp only [keep_mk, keep_self, keep_record, keep_setLane, keep_failSpares]

theorem keep_poisonReq (s : State) (g tag : Nat) (c : Code) : keep (poisonReq s g tag c) = keep s := by
  simp only [poisonReq, keep_mk, keep_self, apply_ite keep, ite_self]

theorem keep_releaseBeats (g req n : Nat) (s : State) : keep (releaseBeats g req n s) = keep s := by
  induction n generalizing s with
  | zero => rfl
  | succ n ih =>
    unfold releaseBeats
    dsimp only
    split
    · rfl
    · exact (ih _).trans rfl

theorem keep_beatDone (s : State) (g lane : Nat) (b : Beat) (o : Line) : keep (beatDone s g lane b o) = keep s := by
  simp only [beatDone, keep_mk, keep_self, keep_releaseBeats]

theorem keep_lanePass (s : State) (g : Nat) (hs : List KeyHandle) (who : Option Who) (tag : Nat) : keep (lanePass s g hs who tag).2 = keep s := by
  unfold lanePass
  dsimp only
  split <;> simp only [keep_mk, keep_self, apply_ite keep, apply_ite Prod.snd, ite_self, keep_foldl, implies_true, keep_ctxPut, keep_keyUse,
    keep_fenceFault]

theorem keep_laneBeat (s : State) (i : Nat) (b : Beat) (mis mis2 : Bool) : keep (laneBeat s i b mis mis2) = keep s := by
  unfold laneBeat
  (repeat' split) <;> simp only [keep_mk, keep_self, apply_ite keep, ite_self, keep_dkcTouch, keep_missAdd, keep_ctxPut, keep_fenceFault,
    keep_poisonReq, keep_beatDone]

theorem keep_fenceTest (s : State) (i : Nat) (pass : Bool) : keep (fenceTest s i pass) = keep s := by
  simp only [fenceTest, apply_ite keep, ite_self, keep_recordPlain, keep_setLane, keep_becomeSpare]

theorem keep_spareTest (s : State) (i : Nat) (pass : Bool) : keep (spareTest s i pass) = keep s := by
  simp only [spareTest, apply_ite keep, ite_self, keep_recordPlain, keep_setLane]

theorem keep_driverFence (s : State) (w : Word) : keep (driverFence s w) = keep s := by
  simp only [driverFence, apply_ite keep, ite_self, keep_ignoreWrite, keep_setLane, keep_fenceLane]

theorem keep_driverUnfence (s : State) (w : Word) : keep (driverUnfence s w) = keep s := by
  simp only [driverUnfence, apply_ite keep, ite_self, keep_ignoreWrite, keep_setLane]

theorem keep_lendLanes (s : State) (g : Nat) : keep (lendLanes s g) = keep s := by rfl

theorem keep_returnLanes (s : State) (g : Nat) : keep (returnLanes s g) = keep s := by rfl

/-! ### FABPORT answers -/

theorem keep_setStat (s : State) (port cls : Nat) (v : QStat) : keep (setStat s port cls v) = keep s := by rfl

theorem keep_countOutcome (s : State) (port cls : Nat) (refused : Bool) (deadline : Option Nat) :
    keep (countOutcome s port cls refused deadline) = keep s := by rfl

theorem keep_setLport (s : State) (e : Nat) (p : LPort) : keep (setLport s e p) = keep s := by rfl

theorem keep_txPut (s : State) (e vc : Nat) (op : FabOp) (deadline : Option Nat) (orig : Option Nat) (pad : Nat) :
    keep (txPut s e vc op deadline orig pad) = keep s := by
  simp only [txPut, keep_mk, keep_self, apply_ite keep, ite_self, keep_setLport]

theorem keep_answerOp (s : State) (op : FabOp) (inPort code : Nat) (data : List Byte) (deadline : Option Nat) :
    keep (answerOp s op inPort code data deadline) = keep s := by rfl

theorem keep_answerError (s : State) (op : FabOp) (inPort : Nat) (c : Code) (deadline : Option Nat) :
    keep (answerError s op inPort c deadline) = keep s := by rfl

/-! ### Budgets and port credits -/

theorem keep_setCredit (s : State) (q cls v : Nat) : keep (setCredit s q cls v) = keep s := by rfl

theorem keep_refillPort (s : State) (q : Nat) : keep (refillPort s q) = keep s := by
  simp only [refillPort, keep_foldl, implies_true, keep_setCredit]

theorem keep_startCredits (s : State) (q : Nat) : keep (startCredits s q) = keep s := by
  simp only [startCredits, keep_mk, keep_self, keep_foldl, implies_true, keep_setCredit]

theorem keep_chargePort (s : State) (q cls beats : Nat) (aged : Bool) : keep (chargePort s q cls beats aged) = keep s := by
  simp only [chargePort, apply_ite keep, ite_self, keep_setStat, keep_setCredit]

/-! ### The IME's tables -/

theorem keep_setRegion (s : State) (ix : Nat) (r : Region) : keep (setRegion s ix r) = keep s := by rfl

theorem keep_imeReason (s : State) (c : Code) : keep (imeReason s c) = keep s := by
  simp only [imeReason, keep_mk, keep_self, apply_ite keep, ite_self, keep_keyReason]

theorem keep_setCtr (s : State) (ix page : Nat) (c : CtrLine) : keep (setCtr s ix page c) = keep s := by rfl

theorem keep_bumpParent (s : State) (ix : Nat) (r : Region) (level i : Nat) : keep (bumpParent s ix r level i) = keep s := by
  simp only [bumpParent, keep_mk, keep_self, apply_ite keep, ite_self]

theorem keep_pushEnt (s : State) (e : MemEnt) : keep (pushEnt s e) = keep s := by rfl

theorem keep_setEnt (s : State) (e : MemEnt) : keep (setEnt s e) = keep s := by rfl

theorem keep_dropEnt (s : State) (seq : Nat) : keep (dropEnt s seq) = keep s := by rfl

theorem keep_insertBefore (s : State) (seq : Nat) (e : MemEnt) : keep (insertBefore s seq e) = keep s := by rfl

theorem keep_pushPast (s : State) (e : MemEnt) : keep (pushPast s e) = keep s := by
  unfold pushPast
  split <;> simp only [keep_pushEnt, keep_insertBefore]

theorem keep_pushOwn (s : State) (line : Nat) (d : Stored) (cls : Nat) : keep (pushOwn s line d cls) = keep s := by rfl

theorem keep_ownReads (s : State) (lines : List Nat) (cls : Nat) : keep (ownReads s lines cls) = keep s := by
  simp only [ownReads, keep_foldl, implies_true, keep_emit, keep_chargePort]

theorem keep_writeTree (s : State) (ix : Nat) (r : Region) (level i cls : Nat) : keep (writeTree s ix r level i cls) = keep s := by
  unfold writeTree
  split <;> simp only [keep_pushOwn]

theorem keep_bumpPath (s : State) (ix : Nat) (r : Region) (i : Nat) : keep (bumpPath s ix r i) = keep s := by
  simp only [bumpPath, keep_foldl, implies_true, keep_bumpParent]

theorem keep_writeCtr (s : State) (ix : Nat) (r : Region) (page cls : Nat) : keep (writeCtr s ix r page cls) = keep s := by
  simp only [writeCtr, keep_mk, keep_self, keep_foldl, implies_true, keep_ownReads, keep_writeTree, keep_bumpPath]

theorem keep_evictTree (s : State) (x : Nat × Nat × Nat) : keep (evictTree s x) = keep s := by
  unfold evictTree
  (repeat' split) <;> simp only [keep_writeCtr]

theorem keep_touchTree (s : State) (x : Nat × Nat × Nat) : keep (touchTree s x) = keep s := by
  simp only [touchTree, keep_mk, keep_self, keep_foldl, implies_true, keep_evictTree]

theorem keep_touchCtr (s : State) (ix page : Nat) : keep (touchCtr s ix page) = keep s := by
  simp only [touchCtr, keep_touchTree]

theorem keep_dirtyCtr (s : State) (ix : Nat) (r : Region) (page : Nat) (c : CtrLine) : keep (dirtyCtr s ix r page c) = keep s := by
  simp only [dirtyCtr, keep_mk, keep_self, apply_ite keep, ite_self, keep_setCtr, keep_touchCtr]

theorem keep_pathArrived (s : State) (ix : Nat) (r : Region) (page : Nat) (m : MemIn) : keep (pathArrived s ix r page m).2.1 = keep s := by
  simp only [pathArrived, apply_ite keep, apply_ite Prod.fst, apply_ite Prod.snd, ite_self, keep_foldl, implies_true, keep_touchTree, keep_touchCtr]

theorem keep_fetchPath (s : State) (ix : Nat) (r : Region) (page cls : Nat) (m : MemIn) : keep (fetchPath s ix r page cls m).2.1 = keep s := by
  simp only [fetchPath, keep_ownReads, keep_pathArrived]

theorem core_sealCatLine (s : State) (ix : Nat) (r : Region) : (keep (sealCatLine s ix r)).1 = (keep s).1 := by
  unfold sealCatLine
  dsimp only
  split <;> simp only [apply_ite keep, apply_ite Prod.fst, ite_self, core_countBlocks, keep_lanePass, keep_pushPast]

theorem keep_touchCat (s : State) (ix : Nat) : keep (touchCat s ix) = keep s := by rfl

theorem core_catReencrypt (s : State) (page : Nat) : (keep (catReencrypt s page)).1 = (keep s).1 := by
  simp only [catReencrypt, keep_mk, keep_self, apply_ite keep, ite_self, core_foldl, implies_true, keep_record, keep_setCtr, keep_ownReads,
    core_sealCatLine]

theorem core_catWrite (s : State) (ix : Nat) (r : Region) : (keep (catWrite s ix r)).1 = (keep s).1 := by
  simp only [catWrite, apply_ite keep, apply_ite Prod.fst, ite_self, keep_setRegion, keep_imeReason, keep_setCtr, keep_writeCtr, keep_fetchPath,
    core_sealCatLine, keep_touchCat, core_catReencrypt]

theorem keep_catLook (s : State) (ix cls : Nat) (m : MemIn) : keep (catLook s ix cls m).2.1 = keep s := by
  simp only [catLook, apply_ite keep, apply_ite Prod.fst, apply_ite Prod.snd, ite_self, keep_lanePass, keep_ownReads, keep_fetchPath, keep_touchCat]

theorem keep_memGateBy (acc : Acc) (s : State) (w : Who) (k : MemKind) (cls : Nat) (m : MemIn) : keep (memGateBy acc s w k cls m).2.1 = keep s := by
  simp only [memGateBy, apply_ite keep, apply_ite Prod.fst, apply_ite Prod.snd, ite_self, keep_record, keep_catLook]

theorem keep_memGate (s : State) (w : Who) (k : MemKind) (cls : Nat) (m : MemIn) : keep (memGate s w k cls m).2.1 = keep s := by
  simp only [memGate, keep_memGateBy]

theorem keep_writeWholeTree (s : State) (ix : Nat) (r : Region) : keep (writeWholeTree s ix r) = keep s := by
  simp only [writeWholeTree, keep_foldl, implies_true, keep_writeTree]

theorem core_formatCat (s : State) (flashOk : Bool) : (keep (formatCat s flashOk)).1 = (keep s).1 := by
  simp only [formatCat, keep_mk, keep_self, apply_ite keep, ite_self, core_foldl, implies_true, keep_flashFail, core_sealCatLine, keep_writeWholeTree]

/-! ### The IME's reads and writes -/

theorem keep_dbgDone (s : State) (result : Nat) (poison : Bool) (c : Code) (d : Stored) : keep (dbgDone s result poison c d) = keep s := by
  unfold dbgDone
  extract_lets v
  clear_value v
  split <;> exact keep_dbg s _

theorem keep_remoteDone (s : State) (op : FabOp) (port : Nat) (c : Code) (data : List Byte) (deadline : Option Nat) :
    keep (remoteDone s op port c data deadline) = keep s := by
  simp only [remoteDone, apply_ite keep, ite_self, keep_answerOp, keep_answerError]

theorem keep_finishMem (s : State) (src : Src) (port cls : Nat) (deadline : Option Nat) (c : Code) (refused : Bool) (data : List (Stored × Bool)) :
    keep (finishMem s src port cls deadline c refused data) = keep s := by
  unfold finishMem
  dsimp only
  split <;> simp only [keep_emits, keep_countOutcome, keep_imeReason, keep_dbgDone, keep_remoteDone]

theorem keep_refuseEnt (s : State) (e : MemEnt) (c : Code) (refused poison : Bool) : keep (refuseEnt s e c refused poison) = keep s := by
  simp only [refuseEnt, keep_dropEnt, keep_finishMem]

theorem keep_lineFault (s : State) (e : MemEnt) (c : Code) : keep (lineFault s e c) = keep s := by
  simp only [lineFault, keep_record]

theorem keep_finishCread (s : State) (b : Blk) : keep (finishCread s b) = keep s := by
  simp only [finishCread, keep_mk, keep_self, apply_ite keep, ite_self, keep_finishMem]

theorem keep_blkLine (s : State) (id ix : Nat) (p : Line) (c : Code) : keep (blkLine s id ix p c) = keep s := by
  unfold blkLine
  split <;> simp only [keep_mk, keep_self, apply_ite keep, ite_self, keep_finishMem, keep_finishCread]

theorem keep_cowLine (s : State) (ix page i : Nat) (p : Line) (c : Code) : keep (cowLine s ix page i p c) = keep s := by rfl

theorem keep_putResident (s : State) (r : Resident) : keep (putResident s r) = keep s := by rfl

theorem keep_dropResident (s : State) (line : Nat) : keep (dropResident s line) = keep s := by rfl

theorem keep_applyAtomic (s : State) (e : MemEnt) (r : Resident) : keep (applyAtomic s e r) = keep s := by
  unfold applyAtomic
  split <;> simp only [keep_dropEnt, keep_finishMem, keep_putResident]

theorem keep_sealed (s : State) (e : MemEnt) (d : Stored) (major minor : Nat) : keep (sealed s e d major minor) = keep s := by
  simp only [sealed, apply_ite keep, ite_self, keep_setEnt, keep_finishMem, keep_blkLine]

theorem keep_blkFail (s : State) (id : Nat) (c : Code) (refused : Bool) : keep (blkFail s id c refused) = keep s := by
  unfold blkFail
  split <;> simp only [keep_mk, keep_self, keep_finishMem]

theorem keep_endWrite (s : State) (e : MemEnt) (c : Code) (refused poison : Bool) : keep (endWrite s e c refused poison) = keep s := by
  simp only [endWrite, apply_ite keep, ite_self, keep_imeReason, keep_dropEnt, keep_refuseEnt, keep_blkLine, keep_blkFail]

theorem keep_unsealed (s : State) (e : MemEnt) (c : Code) : keep (unsealed s e c) = keep s := by
  simp only [unsealed, keep_endWrite]

theorem keep_holdOnPage (s : State) (e : MemEnt) (page : Nat) : keep (holdOnPage s e page) = keep s := by
  simp only [holdOnPage, keep_mk, keep_self, apply_ite keep, ite_self, keep_setEnt]

theorem core_sealOut (s : State) (e : MemEnt) (r : Region) (slot half major minor : Nat) :
    (keep (sealOut s e r slot half major minor)).1 = (keep s).1 := by
  unfold sealOut
  dsimp only
  (repeat' split) <;> simp only [core_countBlocks, keep_lanePass, keep_sealed, keep_endWrite, keep_unsealed]

theorem core_sealP3 (s : State) (e : MemEnt) (r : Region) (slot half : Nat) (v : Slot) : (keep (sealP3 s e r slot half v)).1 = (keep s).1 := by
  simp only [sealP3, apply_ite keep, apply_ite Prod.fst, ite_self, keep_setEnt, keep_dirtyCtr, keep_fetchPath, keep_lineFault, keep_unsealed,
    keep_holdOnPage, core_sealOut]

theorem core_sealEnt (s : State) (e : MemEnt) : (keep (sealEnt s e)).1 = (keep s).1 := by
  unfold sealEnt
  dsimp only
  (repeat' split) <;> simp only [keep_sealed, keep_unsealed, core_sealOut, core_sealP3]

theorem core_writeBack (s : State) (r : Resident) (before : Option Nat) : (keep (writeBack s r before)).1 = (keep s).1 := by
  unfold writeBack
  dsimp only
  (repeat' split) <;> simp only [keep_insertBefore, keep_pushPast, keep_dropResident, core_sealEnt]

theorem core_loadResident (s : State) (r : Resident) : (keep (loadResident s r)).1 = (keep s).1 := by
  unfold loadResident
  dsimp only
  (repeat' split) <;> simp only [keep_putResident, core_writeBack]

theorem keep_releaseRead (s : State) (e : MemEnt) (o : Opened) : keep (releaseRead s e o) = keep s := by
  unfold releaseRead
  (repeat' split) <;> simp only [apply_ite keep, ite_self, keep_emit, keep_imeReason, keep_dropEnt, keep_finishMem]

theorem core_lineKnown (s : State) (e : MemEnt) (o : Opened) : (keep (lineKnown s e o)).1 = (keep s).1 := by
  unfold lineKnown
  dsimp only
  split <;> simp only [keep_mk, keep_self, apply_ite keep, apply_ite Prod.fst, ite_self, keep_setEnt, keep_dropEnt, keep_refuseEnt, keep_lineFault,
    keep_blkLine, keep_cowLine, keep_applyAtomic, keep_blkFail, core_sealEnt, core_loadResident, keep_releaseRead]

theorem keep_rawKnown (s : State) (e : MemEnt) (d : Stored) (poison : Bool) : keep (rawKnown s e d poison) = keep s := by
  simp only [rawKnown, apply_ite keep, ite_self, keep_dropEnt, keep_finishMem]

theorem keep_tagUnit (s : State) (e : MemEnt) (mism : Nat) : keep (tagUnit s e mism) = keep s := by
  simp only [tagUnit, apply_ite keep, ite_self, keep_record]

theorem keep_queueMisses (s : State) (e : MemEnt) (hs : List KeyHandle) : keep (queueMisses s e hs) = keep s := by
  simp only [queueMisses, keep_foldl, implies_true, keep_missAdd]

theorem core_openWhen (s : State) (e : MemEnt) : (keep (openWhen s e)).1 = (keep s).1 := by
  simp only [openWhen, apply_ite keep, apply_ite Prod.fst, apply_ite Prod.snd, ite_self, keep_lanePass, keep_setEnt, core_lineKnown, keep_queueMisses]

theorem core_readArrived (s : State) (e : MemEnt) (d : Stored) (poison : Bool) (m : MemIn) (mism : Nat) :
    (keep (readArrived s e d poison m mism)).1 = (keep s).1 := by
  simp only [readArrived, apply_ite keep, apply_ite Prod.fst, apply_ite Prod.snd, ite_self, keep_pathArrived, keep_fetchPath, core_lineKnown,
    keep_rawKnown, keep_tagUnit, core_openWhen]

theorem core_readPlace (s : State) (e : MemEnt) : (keep (readPlace s e)).1 = (keep s).1 := by
  unfold readPlace
  split <;> simp only [apply_ite keep, apply_ite Prod.fst, ite_self, keep_setEnt, keep_rawKnown, core_openWhen]

theorem core_copyPage (s : State) (e : MemEnt) (r : Region) : (keep (copyPage s e r)).1 = (keep s).1 := by
  simp only [copyPage, keep_mk, keep_self, core_foldl, implies_true, keep_insertBefore, core_writeBack, core_readPlace]

theorem keep_passHeld (s : State) (e : MemEnt) (r : Region) : keep (passHeld s e r) = keep s := by
  unfold passHeld
  (repeat' split) <;> simp only [keep_dropEnt, keep_insertBefore]

theorem keep_noKey (s : State) (e : MemEnt) (c : Code) : keep (noKey s e c) = keep s := by
  simp only [noKey, apply_ite keep, ite_self, keep_dropEnt, keep_blkLine, keep_endWrite]

theorem core_place (s : State) (e : MemEnt) : (keep (place s e)).1 = (keep s).1 := by
  unfold place
  (repeat' split) <;> simp only [keep_applyAtomic, keep_sealed, core_sealEnt, core_readPlace]

theorem keep_answerNow (s : State) (e : MemEnt) (r : Region) : keep (answerNow s e r).1 = keep s := by
  simp only [answerNow, apply_ite keep, apply_ite Prod.fst, ite_self, keep_setEnt, keep_finishMem]

theorem keep_waitIn (s : State) (e : MemEnt) (r : Region) (p : MemPhase) : keep (waitIn s e r p) = keep s := by
  simp only [waitIn, keep_setEnt, keep_answerNow]

theorem core_advance (s : State) (seq : Nat) : (keep (advance s seq)).1 = (keep s).1 := by
  unfold advance
  split
  · rfl
  · next e he =>
    extract_lets miss r t v u w e' x
    have ht : keep t = keep s := keep_passHeld ..
    have hu : (keep u).1 = (keep s).1 := by
      unfold u
      split
      · simp only [apply_ite keep, apply_ite Prod.fst, core_writeBack, ht, ite_self]
      · rw [ht]
    have hx : (keep x).1 = (keep s).1 := by
      simp only [x, w, keep_setEnt, apply_ite keep, apply_ite Prod.fst, core_copyPage, ite_self, hu]
    clear_value x u t v
    simp only [apply_ite keep, apply_ite Prod.fst, core_openWhen, keep_noKey, keep_setEnt, keep_queueMisses, keep_unsealed, keep_waitIn,
      core_place, ite_self, ht, hx]

theorem core_settle (s : State) : (keep (settle s)).1 = (keep s).1 := by
  simp only [settle, core_foldl, implies_true, core_advance]

theorem core_accept (s : State) (e : MemEnt) : (keep (accept s e)).1 = (keep s).1 := by
  simp only [accept, keep_pushEnt, core_advance]

theorem keep_hobReason (s : State) (c : Code) : keep (hobReason s c) = keep s := by
  simp only [hobReason, keep_mk, keep_self, apply_ite keep, ite_self]

theorem keep_fabRefuse (s : State) (q : FabReq) (port : Option Nat) (c : Code) (beats : Nat) : keep (fabRefuse s q port c beats) = keep s := by
  unfold fabRefuse
  split <;> simp only [keep_emits, keep_countOutcome, keep_imeReason, keep_hobReason]

theorem keep_padLine (s : State) : keep (padLine s).2 = keep s := by rfl

theorem core_fabEntries (s : State) (src : Src) (k : MemKind) (w : Who) (ix : Nat) (r : Region) (cls : Nat) (deadline : Option Nat) (n : Nat)
    (mask : BitVec 64) (data : List Stored) (m : MemIn) :
    (keep (fabEntries s src k w ix r cls deadline n mask data m)).1 = (keep s).1 := by
  simp only [fabEntries, keep_mk, keep_self, apply_ite keep, apply_ite Prod.fst, apply_ite Prod.snd, ite_self, core_foldl, implies_true,
    core_accept, keep_padLine]

theorem core_fabMem (s : State) (q : FabReq) (k : MemKind) (m : MemIn) : (keep (fabMem s q k m)).1 = (keep s).1 := by
  grind [fabMem, keep_memGate, core_settle, keep_fabRefuse, core_fabEntries]

/-! ### Operands read and results written -/

theorem keep_readStored (s : State) (e : MemEnt) (r : Region) (m : MemIn) : keep (readStored s e r m).2.1 = keep s := by
  unfold readStored
  split <;> simp only [apply_ite keep, apply_ite Prod.fst, apply_ite Prod.snd, ite_self, keep_lanePass, keep_ownReads, keep_fetchPath]

theorem keep_readLine (s : State) (w : Who) (cls : Nat) (acc : Acc) (m : MemIn) : keep (readLine s w cls acc m).2.1 = keep s := by
  grind [readLine, keep_imeReason, keep_memGateBy, keep_lineFault, keep_readStored]

theorem keep_readLines (s : State) (w : Who) (cls : Nat) (acc : Acc) (m : MemIn) (n line : Nat) :
    keep (readLines s w cls acc m n line).2.1 = keep s := by
  induction n generalizing s m line with
  | zero => rfl
  | succ n ih =>
    unfold readLines
    have h := keep_readLine s { w with addr := line * 64 } cls acc m
    generalize readLine s { w with addr := line * 64 } cls acc m = x at h ⊢
    obtain ⟨_ | l, t, m⟩ := x
    · exact h
    · have hr := ih t m (line + 1)
      dsimp only
      generalize readLines t w cls acc m n (line + 1) = y at hr ⊢
      obtain ⟨_ | b, u, m⟩ := y <;> exact hr.trans h

theorem keep_readBytesBy (acc : Acc) (s : State) (w : Who) (cls len : Nat) (m : MemIn) : keep (readBytesBy acc s w cls len m).2.1 = keep s := by
  grind [readBytesBy, keep_readLines]

theorem keep_readBytes (s : State) (w : Who) (cls len : Nat) (m : MemIn) : keep (readBytes s w cls len m).2.1 = keep s := by
  simp only [readBytes, keep_readBytesBy]

theorem core_writeLine (acc : Acc) (s : State) (w : Who) (l : Line) (cls : Nat) (m : MemIn) :
    (keep (writeLine acc s w l cls m).2.1).1 = (keep s).1 := by
  grind [writeLine, keep_imeReason, keep_fetchPath, keep_memGateBy, keep_lineFault, core_accept]

theorem core_writeLinesFrom (acc : Acc) (s : State) (w : Who) (cls n addr : Nat) (b : List Byte) (m : MemIn) :
    (keep (writeLinesFrom acc s w cls n addr b m).2.1).1 = (keep s).1 := by
  induction n generalizing s addr b m with
  | zero => rfl
  | succ n ih => grind [writeLinesFrom, keep_readLine, core_writeLine]

theorem core_writeBytesBy (acc : Acc) (s : State) (w : Who) (b : List Byte) (cls : Nat) (m : MemIn) :
    (keep (writeBytesBy acc s w b cls m).2.1).1 = (keep s).1 := by
  simp only [writeBytesBy, core_writeLinesFrom]

theorem core_writeBytes (s : State) (w : Who) (b : List Byte) (cls : Nat) (m : MemIn) : (keep (writeBytes s w b cls m).2.1).1 = (keep s).1 := by
  simp only [writeBytes, core_writeBytesBy]

theorem keep_admitted (s : State) (w : Who) (len : Nat) (k : MemKind) (cls : Nat) (m : MemIn) : keep (admitted s w len k cls m).2.1 = keep s := by
  grind [admitted, keep_memGate]

theorem keep_ctlRead (s : State) (shelf addr len : Nat) (m : MemIn) : keep (ctlRead s shelf addr len m).2.1 = keep s := by
  simp only [ctlRead, keep_readBytes]

theorem core_ctlWrite (s : State) (shelf addr : Nat) (b : List Byte) (m : MemIn) : (keep (ctlWrite s shelf addr b m).2.1).1 = (keep s).1 := by
  simp only [ctlWrite, core_writeBytes]

/-! ### The origination table -/

theorem keep_originate (s : State) (src : OrigSrc) (op : FabOp) (vc : Nat) (who : Who) (deadline : Option Nat) (posted : Bool) (msg : Option Nat)
    (pad : Nat) :
    keep (originate s src op vc who deadline posted msg pad) = keep s := by
  unfold originate
  split <;> simp only [keep_mk, keep_self, apply_ite keep, ite_self, keep_txPut]

theorem keep_releaseFlagged (s : State) : keep (releaseFlagged s) = keep s := by
  refine keep_foldl (fun s x => ?_) _ s
  split
  · simp only [apply_ite keep, keep_txPut, keep_mk, keep_self, ite_self]
  · rfl

theorem keep_originateFab (s : State) (h : HeldOut) : keep (originateFab s h) = keep s := by
  unfold originateFab
  (repeat' split) <;> simp only [keep_emits, keep_countOutcome, keep_originate]

theorem keep_releaseOutgoing (s : State) : keep (releaseOutgoing s) = keep s := by
  simp only [releaseOutgoing, keep_mk, keep_self, apply_ite keep, ite_self, keep_foldl, implies_true, keep_originateFab]

theorem keep_fabOut (s : State) (q : FabReq) (op : Nat) (flagged fetch : Bool) (data : List Byte) :
    keep (fabOut s q op flagged fetch data) = keep s := by
  unfold fabOut
  dsimp only
  (repeat' split) <;> simp only [keep_mk, keep_self, keep_fabRefuse, keep_originateFab]

theorem keep_sendNow (s : State) (p : PendingSend) : keep (sendNow s p) = keep s := by
  simp only [sendNow, keep_mk, keep_self, keep_foldl, implies_true, keep_originate]

theorem keep_pumpSends (s : State) : keep (pumpSends s) = keep s := by
  refine keep_foldl (fun s x => ?_) _ s
  split
  · simp only [apply_ite keep, keep_sendNow, keep_mk, keep_self, ite_self]
  · rfl

theorem keep_queueSend (s : State) (p : PendingSend) : keep (queueSend s p) = keep s := by
  simp only [queueSend, keep_mk, keep_self, keep_pumpSends]

theorem keep_freeOrig (s : State) (ix : Nat) : keep (freeOrig s ix) = keep s := by rfl

theorem keep_freeMessage (s : State) (msg : Nat) : keep (freeMessage s msg) = keep s := by
  simp only [freeMessage, keep_foldl, implies_true, keep_freeOrig]

theorem keep_storeFault (s : State) (o : Orig) (c : Code) : keep (storeFault s o c) = keep s := by
  simp only [storeFault, keep_record]

theorem keep_origFab (s : State) (o : Orig) (ch : Nat) (tag : BitVec 16) (ep mid : Word) (c : Code) (data : List Byte) :
    keep (origFab s o ch tag ep mid c data) = keep s := by
  simp only [origFab, keep_mk, keep_self, apply_ite keep, ite_self, keep_emits, keep_countOutcome, keep_hobReason, keep_storeFault]

theorem keep_endFlight (s : State) (fl result : Nat) (c : Code) (detail : List Byte) : keep (endFlight s fl result c detail) = keep s := by
  unfold endFlight
  split <;> simp only [keep_mk, keep_self, keep_countDrop, keep_hobReason]

theorem core_issueRemote (s : State) (g : Ingress) (ahead : List Ingress) (t : State) (h : issueRemote s g ahead = some t) :
    (keep t).1 = (keep s).1 := by
  grind [issueRemote, keep_memGate, keep_answerError, keep_imeReason, core_settle, core_accept]

theorem keep_returnCredit (s : State) : keep (returnCredit s) = keep s := by
  unfold returnCredit
  dsimp only
  (repeat' split) <;> simp only [keep_mk, keep_self, keep_setLport]

theorem keep_returnCredits (s : State) (left : Nat) : keep (returnCredits s left) = keep s := by
  simp only [returnCredits, keep_foldl, implies_true, keep_returnCredit]

theorem core_ingressPass (s : State) : (keep (ingressPass s)).1 = (keep s).1 := by
  refine core_foldl (fun s g => ?_) _ s
  dsimp only
  split
  · next t ht => exact core_issueRemote _ _ _ t ht
  · rfl

theorem core_drainIngress (s : State) : (keep (drainIngress s)).1 = (keep s).1 := by
  simp only [drainIngress, keep_returnCredits, core_ingressPass]

theorem keep_regionEnd (s : State) (c : Code) : keep (regionEnd s c) = keep s := by rfl

theorem keep_clearRegion (s : State) (ix : Nat) (r : Region) : keep (clearRegion s ix r) = keep s := by rfl

theorem core_closeRegion (s : State) (ix : Nat) (drv : Bool) : (keep (closeRegion s ix drv)).1 = (keep s).1 := by
  unfold closeRegion
  dsimp only
  split <;> simp only [keep_mk, keep_self, apply_ite keep, apply_ite Prod.fst, ite_self, core_catWrite, keep_regionEnd, keep_clearRegion]

theorem core_finishDying (s : State) : (keep (finishDying s)).1 = (keep s).1 := by
  simp only [finishDying, apply_ite keep, apply_ite Prod.fst, ite_self, core_foldl, implies_true, core_closeRegion]

theorem core_afterMem (s : State) : (keep (afterMem s)).1 = (keep s).1 := by
  simp only [afterMem, core_settle, core_drainIngress, core_finishDying]

/-! ### Ports and their sessions -/

theorem keep_issueEnt (s : State) (e : MemEnt) (tag : Nat) : keep (issueEnt s e tag) = keep s := by
  simp only [issueEnt, apply_ite keep, ite_self, keep_emit, keep_setEnt, keep_ownReads]

theorem keep_takeCarry (s : State) (q n : Nat) : keep (takeCarry s q n).2 = keep s := by rfl

theorem keep_spill (s : State) (q n : Nat) : keep (spill s q n) = keep s := by rfl

theorem keep_selectMem (p n left : Nat) (s : State) : keep (selectMem p n left s) = keep s := by
  induction n generalizing left s with
  | zero => rfl
  | succ n ih =>
    unfold selectMem
    split
    · rfl
    · split
      · simp only [apply_ite keep, keep_spill, ih, keep_issueEnt, keep_chargePort, ite_self]
      · rfl

theorem keep_refillShelve (s : State) (p : Nat) : keep (refillShelve s p) = keep s := by rfl

theorem keep_memSelect (s : State) (p : Nat) : keep (memSelect s p) = keep s := by
  simp only [memSelect, apply_ite keep, ite_self, keep_refillPort, keep_takeCarry, keep_selectMem, keep_refillShelve]

theorem core_memRead (s : State) (p tag : Nat) (ep : Word) (a : MemAnswer) (m : MemIn) (mism : Nat) :
    (keep (memRead s p tag ep a m mism)).1 = (keep s).1 := by
  unfold memRead
  (repeat' split) <;> simp only [keep_countDrop, core_readArrived, core_afterMem]

theorem core_memAck (s : State) (p tag : Nat) (ep : Word) : (keep (memAck s p tag ep)).1 = (keep s).1 := by
  unfold memAck
  (repeat' split) <;> simp only [keep_countDrop, keep_dropEnt, core_afterMem]

theorem keep_memTrain (s : State) (p : Nat) : keep (memTrain s p) = keep s := by
  simp only [memTrain, apply_ite keep, ite_self, keep_setMemPin, keep_endRung, keep_startCredits]

theorem keep_calRequest (s : State) (p : Nat) : keep (calRequest s p) = keep s := by
  simp only [calRequest, keep_mk, keep_self, apply_ite keep, ite_self, keep_setMemPin]

theorem keep_calGrant (s : State) (p : Nat) : keep (calGrant s p) = keep s := by
  simp only [calGrant, keep_mk, keep_self, apply_ite keep, ite_self, keep_setMemPin, keep_lendLanes]

theorem keep_calEnd (s : State) (p : Nat) : keep (calEnd s p) = keep s := by
  simp only [calEnd, keep_mk, keep_self, apply_ite keep, ite_self, keep_setMemPin, keep_returnLanes]

theorem keep_calOverrun (s : State) (p : Nat) : keep (calOverrun s p) = keep s := by
  simp only [calOverrun, apply_ite keep, ite_self, keep_recordPlain, keep_startRung]

/-! ### Regions, pages and sweeps -/

theorem keep_buildTree (s : State) (ix : Nat) (r : Region) : keep (buildTree s ix r) = keep s := by
  simp only [buildTree, keep_mk, keep_self, keep_writeWholeTree]

theorem core_initLines (s : State) (ix : Nat) (r : Region) : (keep (initLines s ix r)).1 = (keep s).1 := by
  simp only [initLines, core_foldl, implies_true, core_accept]

theorem core_regionCreate (s : State) (ix : Nat) (b : List Byte) (m : MemIn) : (keep (regionCreate s ix b m).2).1 = (keep s).1 := by
  simp only [regionCreate, apply_ite keep, apply_ite Prod.fst, apply_ite Prod.snd, ite_self, core_catWrite, keep_catLook, keep_buildTree,
    core_initLines]

theorem keep_liveEntry (s : State) (ix : Nat) (m : MemIn) : keep (liveEntry s ix m).2.1 = keep s := by
  unfold liveEntry
  dsimp only
  (repeat' split) <;> simp only [keep_catLook]

theorem core_regionDestroy (s : State) (ix : Nat) (drv : Bool) (m : MemIn) : (keep (regionDestroy s ix drv m).2.1).1 = (keep s).1 := by
  unfold regionDestroy
  have h := keep_liveEntry s ix m
  generalize liveEntry s ix m = x at h ⊢
  obtain ⟨_ | r, t, m⟩ := x
  · exact congrArg Prod.fst h
  · simp only [apply_ite Prod.snd, apply_ite Prod.fst, apply_ite keep, keep_mk, keep_self, core_foldl, core_writeBack, implies_true, ite_self]
    exact congrArg Prod.fst h

theorem core_regionRights (s : State) (ix : Nat) (b : List Byte) (m : MemIn) : (keep (regionRights s ix b m).2).1 = (keep s).1 := by
  grind [regionRights, core_catWrite, keep_liveEntry]

theorem core_regionRun (s : State) (op ix : Nat) (m : MemIn) : (keep (regionRun s op ix m).2).1 = (keep s).1 := by
  grind [regionRun, keep_ctlRead, core_regionCreate, core_regionDestroy, core_regionRights]

theorem core_regionDo (s : State) (op ix : Nat) (m : MemIn) : (keep (regionDo s op ix m)).1 = (keep s).1 := by
  simp only [regionDo, apply_ite keep, ite_self, keep_regionEnd, core_afterMem, core_regionRun]

theorem core_regionCmd (s : State) (op ix : Nat) (m : MemIn) : (keep (regionCmd s op ix m)).1 = (keep s).1 := by
  simp only [regionCmd, keep_mk, keep_self, apply_ite keep, apply_ite Prod.fst, ite_self, keep_ignoreWrite, core_regionDo]

theorem core_regionWaited (s : State) : (keep (regionWaited s)).1 = (keep s).1 := by
  unfold regionWaited
  split <;> simp only [keep_mk, keep_self, core_regionDo]

theorem core_catalogueFormat (s : State) (flashOk : Bool) : (keep (catalogueFormat s flashOk)).1 = (keep s).1 := by
  simp only [catalogueFormat, apply_ite keep, apply_ite Prod.fst, ite_self, core_formatCat, core_regionWaited]

theorem keep_ownFault (s : State) (ix line : Nat) (c : Code) : keep (ownFault s ix line c) = keep s := by
  simp only [ownFault, keep_record]

theorem core_releasePage (s : State) (ix page : Nat) : (keep (releasePage s ix page)).1 = (keep s).1 := by
  simp only [releasePage, keep_mk, keep_self, core_afterMem]

theorem keep_markRenewed (s : State) (ix : Nat) (r : Region) (page : Nat) : keep (markRenewed s ix r page) = keep s := by
  simp only [markRenewed, keep_mk, keep_self, apply_ite keep, ite_self]

theorem keep_payShelve (s : State) (on : Bool) (lines : List Nat) : keep (payShelve s on lines) = keep s := by
  simp only [payShelve, keep_mk, keep_self, apply_ite keep, ite_self]

theorem keep_shelveReads (s : State) (lines : List Nat) (cls : Nat) (paced : Bool) : keep (shelveReads s lines cls paced) = keep s := by
  simp only [shelveReads, keep_ownReads, keep_payShelve]

theorem keep_passLines (s : State) (lines : List Nat) (hs : List KeyHandle) : keep (passLines s lines hs).2 = keep s := by
  exact keep_foldl_snd (f := fun a p => (a.1 && (lanePass a.2 p hs none 0).1, (lanePass a.2 p hs none 0).2)) (fun a p => keep_lanePass ..) _ (true, s)

theorem keep_rewriteLine (ix : Nat) (r : Region) (slot half major first cls : Nat) (acc : State × List Nat) (x : Nat × Except Code Line) :
    keep (rewriteLine ix r slot half major first cls acc x).1 = keep acc.1 := by
  obtain ⟨s, failed⟩ := acc
  unfold rewriteLine
  dsimp only
  split
  · exact keep_ownFault ..
  · split
    · exact keep_pushPast ..
    · rfl

theorem core_reencrypt (s : State) (ix : Nat) (r : Region) (page slot : Nat) (v : Slot) (cls : Nat) (paced : Bool) (m : MemIn) :
    (keep (reencrypt s ix r page slot v cls paced m).2.1).1 = (keep s).1 := by
  simp only [reencrypt, apply_ite Prod.snd, apply_ite Prod.fst, apply_ite keep, keep_dirtyCtr, keep_passLines, keep_shelveReads, keep_record,
    keep_writeCtr, keep_touchCtr, keep_setCtr, core_countBlocks, keep_payShelve, keep_foldl_fst, keep_rewriteLine, implies_true, ite_self]

theorem keep_failPage (s : State) (ix : Nat) (r : Region) (page : Nat) : keep (failPage s ix r page) = keep s := by rfl

theorem core_pageReencrypt (s : State) (ix page : Nat) (m : MemIn) : (keep (pageReencrypt s ix page m)).1 = (keep s).1 := by
  grind [pageReencrypt, keep_fetchPath, core_releasePage, keep_markRenewed, core_reencrypt, keep_failPage]

theorem core_startShelving (s : State) (tenant : Nat) : (keep (startShelving s tenant)).1 = (keep s).1 := by
  refine core_foldl (fun s x => ?_) _ s
  split
  · exact core_catWrite ..
  · rfl

theorem keep_putSweep (s : State) (w : Sweep) : keep (putSweep s w) = keep s := by rfl

theorem keep_failLine (s : State) (w : Sweep) (ix line : Nat) (c : Code) : keep (failLine s w ix line c).1 = keep s := by
  simp only [failLine, keep_ownFault]

theorem core_sweepLine (s : State) (w : Sweep) (ix : Nat) (r : Region) (slot : Nat) (v : Slot) (m : MemIn) :
    (keep (sweepLine s w ix r slot v m).1).1 = (keep s).1 := by
  unfold sweepLine
  dsimp only
  (repeat' split) <;> simp only [core_countBlocks, keep_lanePass, keep_pushPast, keep_payShelve, keep_shelveReads, keep_failLine]

theorem keep_verifyTree (ix : Nat) (r : Region) (half : Nat) (acc : State × Sweep × MemIn) (x : Nat × Nat) :
    keep (verifyTree ix r half acc x).1 = keep acc.1 := by
  obtain ⟨s, w, m⟩ := acc
  unfold verifyTree
  dsimp only
  split
  · simp only [apply_ite keep, keep_payShelve, keep_writeTree, ite_self]
  · split <;> simp only [apply_ite Prod.fst, apply_ite keep, keep_failLine, keep_payShelve, keep_writeTree, keep_touchTree, keep_shelveReads,
    ite_self]

theorem keep_verifyPage (s : State) (w : Sweep) (ix : Nat) (r : Region) (slot page : Nat) (m : MemIn) :
    keep (verifyPage s w ix r slot page m).1 = keep s := by
  simp only [verifyPage, apply_ite Prod.fst, apply_ite keep, keep_passLines, keep_shelveReads]
  rw [keep_foldl_fst]
  · simp only [keep_passLines, keep_shelveReads, ite_self]
  · intro a x
    split
    · exact keep_failLine ..
    · rfl

theorem core_sweepPage (s : State) (w : Sweep) (ix : Nat) (r : Region) (slot : Nat) (v : Slot) (m : MemIn) :
    (keep (sweepPage s w ix r slot v m).1).1 = (keep s).1 := by
  unfold sweepPage
  extract_lets page first next
  have hv : keep (if w.verifying then (treeAt r page).foldl (verifyTree ix r (curHalf v)) (s, w, m) else (s, w, m)).1 = keep s := by
    simp only [apply_ite Prod.fst, apply_ite keep, keep_foldl_fst, keep_verifyTree, implies_true, ite_self]
  generalize (if w.verifying then (treeAt r page).foldl (verifyTree ix r (curHalf v)) (s, w, m) else (s, w, m)) = x at hv ⊢
  obtain ⟨t, w, m⟩ := x
  dsimp only at hv ⊢
  rw [← hv]
  have hf : keep (if (missingOf t ix r page).any fun x => w.failed.contains (treeLine t r x.1 x.2) then (false, t, m)
      else fetchPath t ix r page (shelveClass t) m).2.1 = keep t := by
    simp only [apply_ite Prod.snd, apply_ite Prod.fst, apply_ite keep, keep_fetchPath, ite_self]
  generalize (if (missingOf t ix r page).any fun x => w.failed.contains (treeLine t r x.1 x.2) then (false, t, m)
      else fetchPath t ix r page (shelveClass t) m) = y at hf ⊢
  obtain ⟨ok, u, m⟩ := y
  dsimp only at hf ⊢
  rw [← hf]
  split
  · simp only [keep_foldl_fst, keep_failLine, implies_true]
  · split
    · split
      · exact congrArg Prod.fst (keep_verifyPage ..)
      · rfl
    · split
      · next he => exact core_of_eq he (core_reencrypt ..)
      · next he => simp only [core_releasePage, keep_markRenewed, core_of_eq he (core_reencrypt ..)]

theorem core_sweepOne (s : State) (w : Sweep) (ix : Nat) (r : Region) (m : MemIn) : (keep (sweepOne s w ix r m).1).1 = (keep s).1 := by
  unfold sweepOne
  split <;> simp only [apply_ite keep, apply_ite Prod.fst, ite_self, keep_failLine, core_sweepLine, core_sweepPage]

theorem core_sweepEntry (s : State) (ix : Nat) (r : Region) : (keep (sweepEntry s ix r)).1 = (keep s).1 := by
  simp only [sweepEntry, keep_mk, keep_self, apply_ite keep, apply_ite Prod.fst, ite_self, core_catWrite]

theorem core_sweepKept (s : State) (w : Sweep) (ix : Nat) : (keep (sweepKept s w ix)).1 = (keep s).1 := by
  unfold sweepKept
  split <;> simp only [apply_ite keep, apply_ite Prod.fst, ite_self, keep_putSweep, core_sweepEntry]

theorem core_sweepStep (s : State) (ix : Nat) (m : MemIn) : (keep (sweepStep s ix m)).1 = (keep s).1 := by
  unfold sweepStep
  dsimp only
  (repeat' split) <;> simp only [core_afterMem, core_sweepOne, core_sweepKept]

theorem core_verifyRest (ix : Nat) (r : Region) (n : Nat) (s : State) (w : Sweep) (m : MemIn) :
    (keep (verifyRest ix r n s w m).1).1 = (keep s).1 := by
  induction n generalizing s w m with
  | zero => rfl
  | succ n ih => simp only [verifyRest, apply_ite Prod.fst, apply_ite keep, ih, core_sweepOne, ite_self]

theorem keep_keepBase (s : State) (ix : Nat) (r : Region) : keep (keepBase s ix r) = keep s := by
  simp only [keepBase, apply_ite keep, ite_self, keep_foldl, implies_true, keep_setCtr]

theorem core_sweepVerifyDone (s : State) (ix : Nat) (m : MemIn) : (keep (sweepVerifyDone s ix m)).1 = (keep s).1 := by
  unfold sweepVerifyDone
  dsimp only
  (repeat' split) <;> simp only [keep_mk, keep_self, core_afterMem, keep_putSweep, core_sweepEntry, core_verifyRest, keep_keepBase]

/-! ### Key services' own work -/

theorem keep_enrol (s : State) (puf : BitVec 20460) (flashOk : Bool) : keep (enrol s puf flashOk).2 = keep s := by
  simp only [enrol, keep_mk, keep_self, apply_ite keep, apply_ite Prod.snd, ite_self, keep_freshBits, keep_emit, keep_flashFail, keep_userKeyed]

theorem core_fillScalar (s : State) (slot kind : Nat) (d : BitVec 384) : (keep (fillScalar s slot kind d)).1 = (keep s).1 := by rfl

theorem core_writeIdentity (s : State) : (keep (writeIdentity s)).1 = (keep s).1 := by
  unfold writeIdentity
  dsimp only
  (repeat' split) <;> simp only [keep_mk, keep_self, core_setSlot, core_fillScalar]

theorem core_fillCatalogueKey (s : State) : (keep (fillCatalogueKey s)).1 = (keep s).1 := by
  simp only [fillCatalogueKey, keep_mk, keep_self, apply_ite keep, apply_ite Prod.fst, ite_self, core_fillSlot, keep_drbgTake]

theorem keep_seedPads (s : State) : keep (seedPads s) = keep s := by
  simp only [seedPads, keep_mk, keep_self, apply_ite keep, ite_self, keep_drbgTake]

theorem keep_reseed (s : State) : keep (reseed s) = keep s := by rfl

theorem keep_drbgReseed (s : State) : keep (drbgReseed s) = keep s := by
  simp only [drbgReseed, keep_mk, keep_self, apply_ite keep, ite_self, keep_reseed]

theorem core_keyDerivationDone (s : State) : (keep (keyDerivationDone s)).1 = (keep s).1 := by
  unfold keyDerivationDone
  dsimp only
  (repeat' split) <;> simp only [keep_mk, keep_self, keep_foldl, implies_true, keep_dkcPut, keep_ctxPut, core_afterMem]

/-! ### Sealed frames sent -/

theorem keep_setPortSt (s : State) (e : Nat) (st : PortSt) : keep (setPortSt s e st) = keep s := by
  simp only [setPortSt, apply_ite keep, ite_self, keep_raiseIrq, keep_endRung, keep_setLport]

theorem core_clearSession (s : State) (e : Nat) : (keep (clearSession s e)).1 = (keep s).1 := by rfl

theorem keep_endLinkCal (s : State) (e : Nat) : keep (endLinkCal s e) = keep s := by
  simp only [endLinkCal, keep_mk, keep_self, apply_ite keep, ite_self, keep_setLnkPin, keep_returnLanes]

theorem core_portDown (s : State) (e : Nat) : (keep (portDown s e)).1 = (keep s).1 := by
  simp only [portDown, keep_setPortSt, core_clearSession, keep_endLinkCal]

theorem core_bringupFail (s : State) (e code : Nat) : (keep (bringupFail s e code)).1 = (keep s).1 := by
  simp only [bringupFail, apply_ite keep, ite_self, keep_setLnkPin, keep_recordPlain, keep_setLport, keep_setPortSt, core_clearSession,
    keep_endLinkCal]

theorem keep_linkFail (s : State) (e code cls : Nat) : keep (linkFail s e code cls) = keep s := by
  simp only [linkFail, keep_setLnkPin, keep_record, keep_startRung, keep_setLport, keep_setPortSt, keep_endLinkCal]

theorem keep_formPass (s : State) (e : Nat) (tx : Bool) (who : Option Who) (tag : Nat) : keep (formPass s e tx who tag).2 = keep s := by
  simp only [formPass, keep_lanePass]

theorem keep_sendSealed (s : State) (e ftype vc : Nat) (content : List Byte) (size : Nat) : keep (sendSealed s e ftype vc content size) = keep s := by
  unfold sendSealed
  dsimp only
  (repeat' split) <;> simp only [keep_emit, keep_setLport, keep_formPass]

theorem keep_sendPlain (s : State) (e ftype : Nat) (content : List Byte) : keep (sendPlain s e ftype content) = keep s := by
  simp only [sendPlain, keep_sendSealed]

theorem core_finishRekey (s : State) (e : Nat) : (keep (finishRekey s e)).1 = (keep s).1 := by
  unfold finishRekey
  dsimp only
  split <;> simp only [apply_ite keep, apply_ite Prod.fst, ite_self, core_activateHalf, core_retireHalf, keep_setLport, keep_setPortSt]

theorem core_switchTx (s : State) (e : Nat) : (keep (switchTx s e)).1 = (keep s).1 := by
  simp only [switchTx, keep_setLport, core_finishRekey]

theorem core_sendCtl (s : State) (e t : Nat) : (keep (sendCtl s e t)).1 = (keep s).1 := by
  simp only [sendCtl, apply_ite keep, apply_ite Prod.fst, ite_self, keep_setLport, keep_sendPlain, core_switchTx]

theorem core_drainCtl (s : State) (e : Nat) : (keep (drainCtl s e)).1 = (keep s).1 := by
  simp only [drainCtl, apply_ite keep, apply_ite Prod.fst, ite_self, core_foldl, implies_true, keep_setLport, core_sendCtl]

theorem core_sendNak (s : State) (e : Nat) : (keep (sendNak s e)).1 = (keep s).1 := by
  simp only [sendNak, core_sendCtl]

theorem keep_failTx (s : State) (e : Nat) (t : TxOp) : keep (failTx s e t) = keep s := by
  unfold failTx
  split <;> simp only [keep_mk, keep_self, apply_ite keep, ite_self, keep_setLport, keep_answerError]

theorem keep_sendOp (s : State) (e : Nat) (t : TxOp) : keep (sendOp s e t) = keep s := by
  simp only [sendOp, apply_ite keep, ite_self, keep_setLport, keep_formPass, keep_sendSealed, keep_failTx]

theorem keep_drrTo (s : State) (e vc : Nat) (had : Bool) : keep (drrTo s e vc had) = keep s := by rfl

theorem keep_setDeficit (s : State) (e vc v : Nat) : keep (setDeficit s e vc v) = keep s := by rfl

theorem keep_selectLink (e n left : Nat) (s : State) : keep (selectLink e n left s) = keep s := by
  induction n generalizing left s with
  | zero => rfl
  | succ n ih =>
    unfold selectLink
    dsimp only
    split
    · rfl
    · split
      · simp only [ih, keep_drrTo, apply_ite keep, keep_setDeficit, ite_self]
      · split
        · rfl
        · simp only [apply_ite keep, ih, keep_drrTo, keep_setDeficit, keep_spill, keep_sendOp, keep_chargePort, ite_self]

theorem keep_linkSelect (s : State) (e : Nat) : keep (linkSelect s e) = keep s := by
  simp only [linkSelect, apply_ite keep, ite_self, keep_refillPort, keep_takeCarry, keep_selectLink]

theorem keep_portSelect (s : State) (q : Nat) : keep (portSelect s q) = keep s := by
  simp only [portSelect, apply_ite keep, ite_self, keep_memSelect, keep_linkSelect]

theorem keep_requestAged (s : State) (q i : Nat) : keep (requestAged s q i) = keep s := by
  unfold requestAged
  dsimp only
  (repeat' split) <;> simp only [keep_mk, keep_self, keep_setLport]

theorem keep_cadenceTick (s : State) (e vc : Nat) : keep (cadenceTick s e vc) = keep s := by
  unfold cadenceTick
  (repeat' split) <;> simp only [keep_chargePort, keep_sendSealed, keep_sendOp]

theorem keep_creditIdle (s : State) (e : Nat) : keep (creditIdle s e) = keep s := by
  simp only [creditIdle, apply_ite keep, ite_self, keep_sendPlain]

theorem keep_sendBringup (s : State) (e : Nat) (m : List Byte) : keep (sendBringup s e m) = keep s := by rfl

theorem keep_keepMsg (s : State) (e i : Nat) (m : List Byte) : keep (keepMsg s e i m) = keep s := by rfl

theorem core_startHello (s : State) (e : Nat) : (keep (startHello s e)).1 = (keep s).1 := by
  simp only [startHello, apply_ite keep, apply_ite Prod.fst, ite_self, keep_drbgTake, keep_setLport, keep_setPortSt, core_clearSession,
    keep_sendBringup, keep_keepMsg]

theorem keep_releaseLink (s : State) (e : Nat) : keep (releaseLink s e) = keep s := by rfl

theorem core_linkUp (s : State) (e : Nat) : (keep (linkUp s e)).1 = (keep s).1 := by
  simp only [linkUp, apply_ite keep, apply_ite Prod.fst, ite_self, keep_setLnkPin, core_startHello]

theorem core_linkDown (s : State) (e : Nat) : (keep (linkDown s e)).1 = (keep s).1 := by
  simp only [linkDown, apply_ite keep, apply_ite Prod.fst, ite_self, keep_setLnkPin, keep_endLinkCal, core_portDown]

theorem core_bringupTimeout (s : State) (e : Nat) : (keep (bringupTimeout s e)).1 = (keep s).1 := by
  simp only [bringupTimeout, apply_ite keep, apply_ite Prod.fst, ite_self, core_bringupFail]

theorem core_bringupRetry (s : State) (e : Nat) : (keep (bringupRetry s e)).1 = (keep s).1 := by
  simp only [bringupRetry, apply_ite keep, apply_ite Prod.fst, ite_self, core_startHello]

theorem core_startRekey (s : State) (e : Nat) : (keep (startRekey s e)).1 = (keep s).1 := by
  simp only [startRekey, apply_ite keep, apply_ite Prod.fst, ite_self, keep_startRung, keep_drbgTake, keep_setLport, keep_setPortSt, core_sendCtl]

theorem core_rekeyThreshold (s : State) (e : Nat) : (keep (rekeyThreshold s e)).1 = (keep s).1 := by
  simp only [rekeyThreshold, apply_ite keep, apply_ite Prod.fst, ite_self, core_startRekey]

theorem keep_rekeyOverdue (s : State) (e : Nat) : keep (rekeyOverdue s e) = keep s := by
  simp only [rekeyOverdue, apply_ite keep, ite_self, keep_record, keep_setLport]

theorem keep_seqExhausted (s : State) (e : Nat) : keep (seqExhausted s e) = keep s := by
  simp only [seqExhausted, apply_ite keep, ite_self, keep_linkFail]

theorem keep_rekeyTimeout (s : State) (e : Nat) : keep (rekeyTimeout s e) = keep s := by
  simp only [rekeyTimeout, apply_ite keep, ite_self, keep_linkFail]

theorem keep_lnkCalRequest (s : State) (e : Nat) : keep (lnkCalRequest s e) = keep s := by
  simp only [lnkCalRequest, keep_mk, keep_self, apply_ite keep, ite_self, keep_setLnkPin]

theorem keep_lnkCalGrant (s : State) (e : Nat) : keep (lnkCalGrant s e) = keep s := by
  simp only [lnkCalGrant, keep_mk, keep_self, apply_ite keep, ite_self, keep_setLnkPin, keep_lendLanes, keep_setLport, keep_setPortSt]

theorem core_lnkCalEnd (s : State) (e : Nat) : (keep (lnkCalEnd s e)).1 = (keep s).1 := by
  simp only [lnkCalEnd, keep_mk, keep_self, apply_ite keep, apply_ite Prod.fst, ite_self, keep_setLnkPin, keep_returnLanes, keep_setPortSt,
    core_drainCtl]

theorem keep_lnkCalOverrun (s : State) (e : Nat) : keep (lnkCalOverrun s e) = keep s := by
  simp only [lnkCalOverrun, apply_ite keep, ite_self, keep_linkFail]

theorem keep_routeWrite (s : State) (v : Word) : keep (routeWrite s v) = keep s := by
  simp only [routeWrite, keep_mk, keep_self, apply_ite keep, ite_self, keep_ignoreWrite]

theorem keep_retryResend (s : State) (dest vc : Nat) : keep (retryResend s dest vc) = keep s := by
  simp only [retryResend, keep_mk, keep_self, keep_foldl, implies_true, keep_txPut]

theorem core_atomicLineIdle (s : State) (line : Nat) : (keep (atomicLineIdle s line)).1 = (keep s).1 := by
  unfold atomicLineIdle
  split <;> simp only [core_writeBack, core_afterMem]

/-! ### Collectives -/

theorem keep_modColl (s : State) (ix : Nat) (f : Coll → Coll) : keep (modColl s ix f) = keep s := by rfl

theorem keep_sreReason (s : State) (c : Code) : keep (sreReason s c) = keep s := by
  simp only [sreReason, keep_mk, keep_self, apply_ite keep, ite_self]

theorem keep_chunkPass (s : State) (c : Coll) (half rank : Nat) : keep (chunkPass s c half rank).2 = keep s := by
  simp only [chunkPass, keep_lanePass]

theorem core_sealChunk (s : State) (c : Coll) (h data : List Byte) : (keep (sealChunk s c h data).2).1 = (keep s).1 := by
  unfold sealChunk
  dsimp only
  (repeat' split) <;> simp only [core_countBlocks, keep_chunkPass]

theorem core_sendAborts (s : State) (c : Coll) (rec : List Byte) : (keep (sendAborts s c rec)).1 = (keep s).1 := by
  refine core_foldl (fun s r => ?_) _ s
  have h := core_sealChunk s c (chunkHeader c 3 0 r 0 0xFFFFFFFF 0 0 16) rec
  generalize sealChunk s c (chunkHeader c 3 0 r 0 0xFFFFFFFF 0 0 16) rec = x at h ⊢
  obtain ⟨_ | b, t⟩ := x
  · exact h
  · simp only [apply_ite keep, keep_queueSend, ite_self]
    exact h

theorem keep_closeColl (s : State) (ix : Nat) (c : Coll) (result : Nat) (reason : Code) (detail : List Byte) :
    keep (closeColl s ix c result reason detail) = keep s := by
  simp only [closeColl, keep_mk, keep_self, keep_keyReason, keep_endFlight, keep_sreReason]

theorem core_abortColl (s : State) (ix : Nat) (reason : Code) (mask offRank : Nat) : (keep (abortColl s ix reason mask offRank)).1 = (keep s).1 := by
  unfold abortColl
  split <;> simp only [core_sendAborts, keep_closeColl]

theorem core_peerAbort (s : State) (ix : Nat) (rec : List Byte) : (keep (peerAbort s ix rec)).1 = (keep s).1 := by
  unfold peerAbort
  split <;> simp only [core_sendAborts, keep_closeColl]

theorem core_collCheck (s : State) (ix cls loc : Nat) (twice : Bool) : (keep (collCheck s ix cls loc twice)).1 = (keep s).1 := by
  unfold collCheck
  split <;> simp only [apply_ite keep, apply_ite Prod.fst, ite_self, keep_checkRecord, core_abortColl]

theorem core_sreWork (s : State) (ix n : Nat) : (keep (sreWork s ix n)).1 = (keep s).1 := by
  unfold sreWork
  split <;> simp only [keep_mk, keep_self, apply_ite keep, apply_ite Prod.fst, ite_self, core_collCheck]

theorem keep_finishColl (s : State) (ix : Nat) : keep (finishColl s ix) = keep s := by
  unfold finishColl
  split <;> simp only [apply_ite keep, ite_self, keep_closeColl]

theorem core_sreSend (s : State) (ix rank : Nat) (chunk : Bool) (b : List Byte) : (keep (sreSend s ix rank chunk b)).1 = (keep s).1 := by
  unfold sreSend
  split <;> simp only [apply_ite keep, apply_ite Prod.fst, ite_self, keep_queueSend, keep_modColl, core_abortColl]

theorem core_pumpEdge (s : State) (ix rank : Nat) : (keep (pumpEdge s ix rank)).1 = (keep s).1 := by
  unfold pumpEdge
  (repeat' split) <;> simp only [core_foldl, implies_true, keep_modColl, core_sreSend]

theorem core_putChunk (s : State) (ix rank : Nat) (k : ChunkId) (data : List Byte) : (keep (putChunk s ix rank k data)).1 = (keep s).1 := by
  grind [putChunk, keep_modColl, core_sealChunk, core_abortColl, core_pumpEdge]

theorem core_sendCredit (s : State) (ix rank limit : Nat) : (keep (sendCredit s ix rank limit)).1 = (keep s).1 := by
  grind [sendCredit, keep_modColl, core_sealChunk, core_abortColl, core_sreSend]

theorem core_raiseEdge (s : State) (ix rank : Nat) : (keep (raiseEdge s ix rank)).1 = (keep s).1 := by
  unfold raiseEdge
  (repeat' split) <;> simp only [apply_ite keep, apply_ite Prod.fst, ite_self, core_sendCredit]

theorem core_raiseAll (s : State) : (keep (raiseAll s)).1 = (keep s).1 := by
  simp only [raiseAll, core_foldl, implies_true, core_raiseEdge]

theorem core_sendPartial (s : State) (ix rank hop start : Nat) (p : List Word × List Bool) :
    (keep (sendPartial s ix rank hop start p)).1 = (keep s).1 := by
  unfold sendPartial
  (repeat' split) <;> simp only [core_putChunk]

theorem core_writeResult (s : State) (ix start : Nat) (vals : List Nat) (m : MemIn) : (keep (writeResult s ix start vals m).1).1 = (keep s).1 := by
  grind [writeResult, core_writeBytes, core_abortColl]

theorem core_flushResult (s : State) (ix : Nat) (hop : Nat) (k : Nat × Nat) : (keep (flushResult s ix hop k)).1 = (keep s).1 := by
  unfold flushResult
  split <;> simp only [apply_ite keep, apply_ite Prod.fst, ite_self, core_foldl, implies_true, keep_modColl, core_putChunk]

theorem core_finishPart (s : State) (ix start n : Nat) (p : List Word × List Bool) (m : MemIn) :
    (keep (finishPart s ix start n p m).1).1 = (keep s).1 := by
  unfold finishPart
  dsimp only
  split <;> simp only [apply_ite keep, apply_ite Prod.fst, apply_ite Prod.snd, ite_self, core_foldl, implies_true, keep_modColl, core_sreWork,
    core_writeResult, core_flushResult]

theorem core_treeUp (s : State) (ix start n : Nat) (p : List Word × List Bool) (m : MemIn) : (keep (treeUp s ix start n p m).1).1 = (keep s).1 := by
  unfold treeUp
  (repeat' split) <;> simp only [core_sendPartial, core_finishPart]

theorem core_takePartial (s : State) (ix : Nat) (k : ChunkId) (p : List Word × List Bool) (m : MemIn) :
    (keep (takePartial s ix k p m).1).1 = (keep s).1 := by
  unfold takePartial
  dsimp only
  split <;> simp only [apply_ite keep, apply_ite Prod.fst, ite_self, keep_modColl, core_sreWork, core_sendPartial, core_finishPart, core_treeUp]

theorem core_takeResult (s : State) (ix : Nat) (k : ChunkId) (vals : List Nat) (data : List Byte) (m : MemIn) :
    (keep (takeResult s ix k vals data m).1).1 = (keep s).1 := by
  unfold takeResult
  split <;> simp only [apply_ite keep, apply_ite Prod.fst, ite_self, core_foldl, implies_true, core_putChunk, core_writeResult]

theorem core_consume (s : State) (ix rank : Nat) (k : ChunkId) (data : List Byte) (m : MemIn) :
    (keep (consume s ix rank k data m).1).1 = (keep s).1 := by
  unfold consume
  (repeat' split) <;> simp only [keep_modColl, core_abortColl, core_takePartial, core_takeResult]

theorem core_consumeHeld (ix rank n : Nat) (s : State) (m : MemIn) : (keep (consumeHeld ix rank n s m).1).1 = (keep s).1 := by
  induction n generalizing s m with
  | zero => rfl
  | succ n ih =>
    unfold consumeHeld
    split
    · rfl
    · split
      · rfl
      · split
        · dsimp only
          split
          · exact (core_abortColl ..).trans (congrArg Prod.fst (keep_modColl ..))
          · simp only [ih, core_raiseEdge, core_consume, keep_modColl]
        · rfl

theorem keep_keepMessage (s : State) (ix : Nat) (b : List Byte) : keep (keepMessage s ix b) = keep s := by
  simp only [keepMessage, apply_ite keep, ite_self, keep_modColl]

theorem core_collMessage (s : State) (ix : Nat) (c : Coll) (b : List Byte) (m : MemIn) : (keep (collMessage s ix c b m).1).1 = (keep s).1 := by
  unfold collMessage
  dsimp only
  (repeat' split) <;> simp only [keep_chunkPass, core_abortColl, core_peerAbort, core_pumpEdge, core_consumeHeld, keep_keepMessage]

theorem core_sreMessage (s : State) (src : Nat) (b : List Byte) (m : MemIn) (x : State × MemIn) (h : sreMessage s src b m = some x) :
    (keep x.1).1 = (keep s).1 := by
  revert h
  unfold sreMessage
  dsimp only
  split
  · rintro ⟨⟩
    simp only [core_raiseAll, keep_finishColl, core_collMessage]
  · repeat' split
    all_goals rintro ⟨⟩ <;> rfl

theorem core_sreSent (s : State) (gkey coll id : Nat) (code : Code) : (keep (sreSent s gkey coll id code)).1 = (keep s).1 := by
  unfold sreSent
  (repeat' split) <;> simp only [keep_modColl, core_abortColl, keep_finishColl, core_raiseAll]

theorem keep_groupCheck (s : State) (d : List Byte) (t : State) (h : groupCheck s d = .ok t) : keep t = keep s := by
  revert h
  unfold groupCheck
  dsimp only
  repeat' split
  all_goals rintro ⟨⟩ <;> rfl

theorem keep_readOwn (s : State) (c : Coll) (ks : List (Nat × BitVec 256)) (m : MemIn) : keep (readOwn s c ks m).2.1 = keep s := by
  grind [readOwn, keep_readBytes]

theorem core_startColl (s : State) (ix : Nat) (m : MemIn) : (keep (startColl s ix m).1).1 = (keep s).1 := by
  unfold startColl
  split <;> simp only [apply_ite keep, apply_ite Prod.fst, ite_self, core_foldl, implies_true, core_sendPartial, core_finishPart]

theorem core_claimEarly (s : State) (ix : Nat) (c : Coll) : (keep (claimEarly s ix c)).1 = (keep s).1 := by
  unfold claimEarly
  dsimp only
  split <;> simp only [keep_mk, keep_self, apply_ite keep, apply_ite Prod.fst, ite_self, keep_foldl, implies_true, core_abortColl, core_peerAbort,
    keep_keepMessage]

theorem core_firstCredits (s : State) (ix : Nat) : (keep (firstCredits s ix)).1 = (keep s).1 := by
  unfold firstCredits
  split <;> simp only [core_foldl, implies_true, core_sendCredit]

theorem core_runColl (s : State) (ix : Nat) (m : MemIn) : (keep (runColl s ix m).1).1 = (keep s).1 := by
  unfold runColl
  split
  · rfl
  · exact (core_foldl (fun _ _ => core_pumpEdge ..) _ _).trans
      ((core_foldl_fst (fun _ _ => core_consumeHeld ..) _ _).trans (core_startColl ..))

theorem keep_refuseColl (s : State) (l : Launch) (rank : Nat) (c : Code) : keep (refuseColl s l rank c) = keep s := by
  simp only [refuseColl, keep_keyReason, keep_endFlight, keep_sreReason]

theorem core_openColl (s : State) (l : Launch) (ix : Nat) (d : List Byte) (ks : Nat × Nat × Nat × List (Nat × Nat × Nat)) (m : MemIn) :
    (keep (openColl s l ix d ks m)).1 = (keep s).1 := by
  unfold openColl
  split
  · next he => simp only [keep_refuseColl, keep_of_eq he (keep_readBytes ..)]
  · next t m he =>
    have ht := keep_of_eq he (keep_readBytes ..)
    split
    · simp only [keep_refuseColl, ht]
    · split
      · simp only [keep_refuseColl, ht]
      · have hd : keep (if cdMasked d then drbgTake 256 t else (0#256, t)).2 = keep s := by
          simp only [apply_ite Prod.snd, apply_ite keep, keep_drbgTake, ht, ite_self]
        generalize (if cdMasked d then drbgTake 256 t else (0#256, t)) = x at hd ⊢
        obtain ⟨seed, u⟩ := x
        dsimp -zeta only at hd ⊢
        extract_lets n me tmo c g v keys y
        have hy : (keep y).1 = (keep s).1 := by
          simp only [y, v, core_firstCredits, core_claimEarly, keep_mk, keep_self, hd]
        clear_value y
        split
        · exact (core_raiseAll ..).trans hy
        · split
          · next he => simp only [core_raiseAll, core_abortColl, keep_of_eq he (keep_readOwn ..), hy]
          · next he =>
            have hz := (congrArg Prod.fst (keep_of_eq he (keep_readOwn ..))).trans hy
            simp only [core_raiseAll, keep_finishColl, core_runColl, apply_ite keep, apply_ite Prod.fst, core_sreWork, keep_modColl, hz, ite_self]

theorem core_contextOpen (s : State) (m : MemIn) : (keep (contextOpen s m)).1 = (keep s).1 := by
  unfold contextOpen
  split
  · next l r ix hl hi =>
    split
    · rfl
    · extract_lets q s'
      have hs : keep s' = keep s := rfl
      clear_value s'
      split
      · next he => simp only [keep_refuseColl, keep_of_eq he (keep_readBytes ..), hs]
      · next he =>
        have ht := (keep_of_eq he (keep_readBytes ..)).trans hs
        extract_lets bad
        split
        · simp only [keep_refuseColl, ht]
        · split
          · rfl
          · split
            · simp only [keep_refuseColl, ht]
            · next he =>
              have hu := (keep_groupCheck _ _ _ he).trans ht
              split
              · simp only [keep_refuseColl, hu]
              · simp only [core_openColl, hu]
  · rfl

theorem core_collTimeout (s : State) (gkey coll : Nat) : (keep (collTimeout s gkey coll)).1 = (keep s).1 := by
  unfold collTimeout
  split <;> simp only [apply_ite keep, apply_ite Prod.fst, ite_self, core_abortColl, core_raiseAll]

theorem keep_chunkResend (s : State) (gkey coll : Nat) : keep (chunkResend s gkey coll) = keep s := by
  unfold chunkResend
  split <;> simp only [keep_foldl, implies_true, keep_queueSend, keep_modColl]

theorem keep_eabExpire (s : State) (i : Nat) : keep (eabExpire s i) = keep s := by
  unfold eabExpire
  split <;> simp only [keep_mk, keep_self, apply_ite keep, ite_self]

theorem keep_groupRetire (s : State) (g : Nat) : keep (groupRetire s g) = keep s := by
  unfold groupRetire
  (repeat' split) <;> simp only [keep_mk, keep_self]

theorem core_sreCancel (s : State) (flight : Nat) : (keep (sreCancel s flight)).1 = (keep s).1 := by
  unfold sreCancel
  (repeat' split) <;> simp only [keep_mk, keep_self, core_abortColl, core_raiseAll, keep_refuseColl]

theorem keep_sreTamper (s : State) : keep (sreTamper s) = keep s := by
  simp only [sreTamper, keep_foldl, implies_true, keep_closeColl]

theorem keep_sreLaunch (s : State) (l : Launch) : keep (sreLaunch s l) = keep s := by
  simp only [sreLaunch, keep_mk, keep_self, apply_ite keep, ite_self, keep_endFlight]

/-! ### Strata and cuts -/

theorem keep_bceReason (s : State) (c : Code) : keep (bceReason s c) = keep s := by
  simp only [bceReason, keep_mk, keep_self, apply_ite keep, ite_self]

theorem keep_bceLate (s : State) : keep (bceLate s) = keep s := by rfl

theorem keep_modCut (s : State) (ix : Nat) (f : Cut → Cut) : keep (modCut s ix f) = keep s := by rfl

theorem keep_closeCut (s : State) (ix : Nat) (c : Cut) (result : Nat) (reason : Code) (offender rank refused : Nat) :
    keep (closeCut s ix c result reason offender rank refused) = keep s := by
  simp only [closeCut, keep_mk, keep_self, keep_endFlight, keep_bceReason]

theorem core_setSnap (s : State) (ix st cut ptr : Nat) : (keep (setSnap s ix st cut ptr)).1 = (keep s).1 := by
  unfold setSnap
  split <;> simp only [core_catWrite]

theorem core_idleRegions (s : State) (ixs : List Nat) : (keep (idleRegions s ixs)).1 = (keep s).1 := by
  simp only [idleRegions, keep_mk, keep_self, core_foldl, implies_true, core_setSnap]

theorem core_releaseHolds (s : State) : (keep (releaseHolds s)).1 = (keep s).1 := by
  simp only [releaseHolds, keep_releaseOutgoing, core_afterMem]

theorem keep_dropShardJobs (s : State) (ix : Nat) : keep (dropShardJobs s ix) = keep s := by rfl

theorem keep_commonPass (s : State) (h : KeyHandle) (who : Option Who) (tag : Nat) : keep (commonPass s h who tag).2 = keep s := by
  simp only [commonPass, keep_lanePass]

theorem core_strSend (s : State) (src : OrigSrc) (c : Cut) (msg reason dst : Nat) (body : List Byte) :
    (keep (strSend s src c msg reason dst body).2).1 = (keep s).1 := by
  unfold strSend
  dsimp only
  (repeat' split) <;> simp only [core_countBlocks, keep_queueSend, keep_commonPass]

theorem core_abortCut (s : State) (ix : Nat) (reason : Code) (offender rank : Nat) (tell : Bool) :
    (keep (abortCut s ix reason offender rank tell)).1 = (keep s).1 := by
  unfold abortCut
  split <;> simp only [apply_ite keep, apply_ite Prod.fst, ite_self, core_foldl, implies_true, keep_closeCut, core_idleRegions, core_releaseHolds,
    keep_dropShardJobs, core_strSend]

theorem keep_failRestore (s : State) (ix : Nat) (reason : Code) : keep (failRestore s ix reason) = keep s := by
  unfold failRestore
  split <;> simp only [keep_closeCut, keep_dropShardJobs]

theorem core_cutFails (s : State) (ix : Nat) (reason : Code) : (keep (cutFails s ix reason)).1 = (keep s).1 := by
  unfold cutFails
  split <;> simp only [apply_ite keep, apply_ite Prod.fst, ite_self, core_abortCut, keep_failRestore]

theorem core_cutSend (s : State) (ix msg dst : Nat) (body : List Byte) : (keep (cutSend s ix msg dst body)).1 = (keep s).1 := by
  unfold cutSend
  split <;> simp only [apply_ite keep, apply_ite Prod.fst, ite_self, core_strSend, core_abortCut]

theorem core_stratumSent (s : State) (ix : Nat) (code : Code) : (keep (stratumSent s ix code)).1 = (keep s).1 := by
  simp only [stratumSent, apply_ite keep, apply_ite Prod.fst, ite_self, core_cutFails]

theorem keep_queueJob (s : State) (j : Job) : keep (queueJob s j) = keep s := by rfl

theorem keep_shardJob (s : State) (ix : Nat) (c : Cut) (k : Nat) : keep (shardJob s ix c k) = keep s := by
  unfold shardJob
  split <;> simp only [keep_queueJob]

theorem core_cutDone (s : State) (ix : Nat) : (keep (cutDone s ix)).1 = (keep s).1 := by
  unfold cutDone
  split <;> simp only [apply_ite keep, apply_ite Prod.fst, ite_self, keep_closeCut, core_idleRegions, core_releaseHolds]

theorem core_archFinish (s : State) (ix : Nat) (m : MemIn) : (keep (archFinish s ix m).1).1 = (keep s).1 := by
  unfold archFinish
  dsimp only
  split
  · rfl
  · split
    · rfl
    · split
      · exact core_abortCut ..
      · split
        · exact core_abortCut ..
        · split
          · exact core_abortCut ..
          · split
            · exact core_abortCut ..
            · split
              · next he => simp only [core_abortCut, core_of_eq he (core_writeBytes ..), core_countBlocks]
              · next he => simp only [core_cutDone, core_foldl, core_cutSend, implies_true, core_of_eq he (core_writeBytes ..), core_countBlocks]

theorem core_cutReport (s : State) (ix : Nat) (m : MemIn) : (keep (cutReport s ix m).1).1 = (keep s).1 := by
  unfold cutReport
  split <;> simp only [apply_ite keep, apply_ite Prod.fst, ite_self, keep_modCut, core_cutSend, core_archFinish]

theorem core_cutGo (s : State) (ix : Nat) (m : MemIn) : (keep (cutGo s ix m).1).1 = (keep s).1 := by
  unfold cutGo
  split <;> simp only [keep_foldl, core_foldl, implies_true, keep_modCut, core_setSnap, core_releaseHolds, keep_shardJob, core_cutReport]

theorem core_archGo (s : State) (ix : Nat) (m : MemIn) : (keep (archGo s ix m).1).1 = (keep s).1 := by
  unfold archGo
  split <;> simp only [apply_ite keep, apply_ite Prod.fst, ite_self, core_foldl, implies_true, core_cutSend, core_cutGo]

theorem core_flushDone (s : State) (ix : Nat) (m : MemIn) : (keep (flushDone s ix m)).1 = (keep s).1 := by
  unfold flushDone
  split <;> simp only [apply_ite keep, apply_ite Prod.fst, ite_self, keep_modCut, core_cutSend, core_archGo]

theorem core_shardDone (s : State) (ix pos : Nat) (h : List Byte) (m : MemIn) : (keep (shardDone s ix pos h m).1).1 = (keep s).1 := by
  unfold shardDone
  (repeat' split) <;> simp only [keep_modCut, keep_closeCut, core_idleRegions, core_releaseHolds, keep_shardJob, core_cutReport]

theorem core_strAct (s : State) (ix : Nat) (c : Cut) (b body : List Byte) (m : MemIn) : (keep (strAct s ix c b body m).1).1 = (keep s).1 := by
  simp only [strAct, apply_ite keep, apply_ite Prod.fst, ite_self, keep_modCut, core_abortCut, core_cutDone, core_archFinish, core_cutGo, core_archGo]

theorem core_strCheck (s : State) (ix : Nat) (c : Cut) (b : List Byte) (m : MemIn) : (keep (strCheck s ix c b m).1).1 = (keep s).1 := by
  unfold strCheck
  dsimp only
  (repeat' split) <;> simp only [keep_commonPass, core_abortCut, core_strAct]

theorem core_strMessage (s : State) (src : Nat) (b : List Byte) (m : MemIn) (x : State × MemIn) (h : strMessage s src b m = some x) :
    (keep x.1).1 = (keep s).1 := by
  revert h
  unfold strMessage
  dsimp only
  split
  · rintro ⟨⟩
    exact core_strCheck ..
  · split
    · split
      · rintro ⟨⟩
      · rintro ⟨⟩
        rfl
    · rintro ⟨⟩
      exact congrArg Prod.fst (keep_bceLate s)

theorem keep_refuseStratum (s : State) (j : Job) (c : Code) (refused : Nat) : keep (refuseStratum s j c refused) = keep s := by
  simp only [refuseStratum, keep_mk, keep_self, keep_keyReason, keep_endFlight, keep_bceReason]

theorem keep_cutRegionOk (s : State) (j : Job) (tenant : Nat) (all : List CutRegion) (r : CutRegion) (m : MemIn) :
    keep (cutRegionOk s j tenant all r m).2.1 = keep s := by
  grind [cutRegionOk, keep_admitted]

theorem keep_cutRegionsOk (s : State) (j : Job) (tenant : Nat) (all : List CutRegion) (m : MemIn) (l : List CutRegion) :
    keep (cutRegionsOk s j tenant all m l).2.1 = keep s := by
  induction l generalizing s m with
  | nil => rfl
  | cons r l ih => grind [cutRegionsOk, keep_cutRegionOk]

theorem core_holdRegions (s : State) (ix : Nat) (c : Cut) : (keep (holdRegions s ix c)).1 = (keep s).1 := by
  simp only [holdRegions, keep_mk, keep_self, core_foldl, implies_true, core_setSnap]

theorem core_claimStrata (s : State) (ix : Nat) (c : Cut) (m : MemIn) : (keep (claimStrata s ix c m)).1 = (keep s).1 := by
  unfold claimStrata
  dsimp only
  split
  · rfl
  · refine (core_foldl_fst (fun x e => ?_) _ _).trans rfl
    split
    · exact core_strCheck ..
    · exact congrArg Prod.fst (keep_bceLate _)

theorem keep_readStratum (s : State) (j : Job) (m : MemIn) : keep (readStratum s j m).2.1 = keep s := by
  grind [readStratum, keep_readBytes]

theorem core_cutOpen (s : State) (j : Job) (d : List Byte) (list : List CutRegion) (ranks : List Nat) (flashOk : Bool) (m : MemIn) :
    (keep (cutOpen s j d list ranks flashOk m)).1 = (keep s).1 := by
  unfold cutOpen
  dsimp only
  split
  · exact congrArg Prod.fst (keep_refuseStratum ..)
  · split
    · exact congrArg Prod.fst (keep_refuseStratum ..)
    · split
      · simp only [keep_refuseStratum, keep_keyReason]
      · split
        · exact congrArg Prod.fst (keep_refuseStratum ..)
        · split
          · simp only [keep_refuseStratum, keep_keyReason]
          · split
            · next he => simp only [keep_refuseStratum, keep_of_eq he (keep_cutRegionsOk ..)]
            · next he =>
              have ht := keep_of_eq he (keep_cutRegionsOk ..)
              split
              · simp only [core_abortCut, keep_flashFail, keep_mk, keep_self, ht]
              · simp only [core_claimStrata, core_holdRegions, keep_userKeyed, keep_mk, keep_self, ht]

theorem keep_restoreRegionOk (s : State) (j : Job) (tenant : Nat) (r : CutRegion) (e : List Byte) (m : MemIn) :
    keep (restoreRegionOk s j tenant r e m).2.1 = keep s := by
  grind [restoreRegionOk, keep_admitted]

theorem keep_restoreRegionsOk (s : State) (j : Job) (tenant : Nat) (m : MemIn) (l : List (CutRegion × List Byte)) :
    keep (restoreRegionsOk s j tenant m l).2.1 = keep s := by
  induction l generalizing s m with
  | nil => rfl
  | cons x l ih => grind [restoreRegionsOk, keep_restoreRegionOk]

theorem keep_shardChecks (s : State) (j : Job) (slot stratum k : Nat) (l : List (CutRegion × List Byte)) (m : MemIn) :
    keep (shardChecks s j slot stratum k l m).2.1 = keep s := by
  induction l generalizing s k m with
  | nil => rfl
  | cons x l ih =>
    simp only [shardChecks, ih]
    split
    · rfl
    · split
      · next he => exact keep_of_eq he (keep_readBytes ..)
      · next he => exact keep_of_eq he (keep_readBytes ..)

theorem core_restoreOpen (s : State) (j : Job) (d : List Byte) (list : List CutRegion) (m : MemIn) :
    (keep (restoreOpen s j d list m)).1 = (keep s).1 := by
  unfold restoreOpen
  extract_lets t w
  split
  · exact congrArg Prod.fst (keep_refuseStratum ..)
  · have ha : ∀ shelf addr, keep (if sdRegions d = 0 then ((.ok (0, freeRegion) : Except Code (Nat × Region)), s, m)
        else admitted s (w shelf addr) (16 * sdRegions d) .write (sdClass d) m).2.1 = keep s := fun _ _ => by
      simp only [apply_ite Prod.snd, apply_ite Prod.fst, apply_ite keep, keep_admitted, ite_self]
    split
    · next he => simp only [keep_refuseStratum, keep_of_eq he (ha ..)]
    · next he =>
      have ht := keep_of_eq he (ha ..)
      split
      · next he => simp only [keep_refuseStratum, keep_of_eq he (keep_readBytes ..), ht]
      · next he =>
        have hu := (keep_of_eq he (keep_readBytes ..)).trans ht
        split
        · simp only [keep_refuseStratum, hu]
        · split
          · simp only [keep_refuseStratum, keep_keyReason, hu]
          · split
            · simp only [keep_refuseStratum, hu]
            · split
              · simp only [keep_refuseStratum, hu]
              · extract_lets es
                split
                · simp only [keep_refuseStratum, hu]
                · split
                  · next he => simp only [keep_refuseStratum, keep_of_eq he (keep_restoreRegionsOk ..), hu]
                  · next he =>
                    have hv := (keep_of_eq he (keep_restoreRegionsOk ..)).trans hu
                    split
                    · next he =>
                      have hx := (keep_of_eq he (keep_shardChecks ..)).trans hv
                      simp only [keep_refuseStratum, core_writeBytes, hx]
                    · next he =>
                      have hx := (keep_of_eq he (keep_shardChecks ..)).trans hv
                      simp only [apply_ite keep, keep_closeCut, keep_shardJob, keep_mk, keep_self, hx, ite_self]

theorem core_stratumCmd (s : State) (op : Nat) (m : MemIn) (flashOk : Bool) : (keep (stratumCmd s op m flashOk)).1 = (keep s).1 := by
  grind [stratumCmd, keep_refuseStratum, keep_readStratum, core_cutOpen, core_restoreOpen]

theorem core_cutTimeout (s : State) (ix : Nat) : (keep (cutTimeout s ix)).1 = (keep s).1 := by
  unfold cutTimeout
  split <;> simp only [apply_ite keep, apply_ite Prod.fst, ite_self, core_abortCut]

theorem core_stratumCancel (s : State) (flight : Nat) (code : Code) : (keep (stratumCancel s flight code)).1 = (keep s).1 := by
  unfold stratumCancel
  (repeat' split) <;> simp only [keep_closeCut, keep_dropShardJobs, core_cutFails, keep_refuseStratum]

/-! ### Bulk jobs -/

theorem keep_setJob (s : State) (j : Job) : keep (setJob s j) = keep s := by rfl

theorem core_endJob (s : State) (j : Job) (result : Nat) (c : Code) (pos : Nat) : (keep (endJob s j result c pos)).1 = (keep s).1 := by
  unfold endJob
  (repeat' split) <;> simp only [keep_mk, keep_self, keep_endFlight, keep_bceReason, core_cutFails]

theorem core_failJob (s : State) (j : Job) (c : Code) : (keep (failJob s j c)).1 = (keep s).1 := by
  simp only [failJob, core_endJob]

theorem keep_takeSerial (s : State) (tenant serial : Nat) (flashOk : Bool) :
    (∀ c t, takeSerial s tenant serial flashOk = .error (c, t) → keep t = keep s)
    ∧ ∀ t, takeSerial s tenant serial flashOk = .ok t → keep t = keep s := by
  unfold takeSerial
  dsimp only
  constructor
  · intro c t
    repeat' split
    all_goals rintro ⟨⟩
    · rfl
    · rfl
    · exact keep_flashFail s
  · intro t
    repeat' split
    all_goals rintro ⟨⟩
    · exact (keep_userKeyed _).trans rfl
    · rfl

theorem keep_admitsOf (s : State) (j : Job) (tenant shelf addr len : Nat) (k : MemKind) (m : MemIn) :
    keep (admitsOf s j tenant shelf addr len k m).2.1 = keep s := by
  simp only [admitsOf, apply_ite keep, apply_ite Prod.fst, apply_ite Prod.snd, ite_self, keep_admitted]

theorem core_exportStart (s : State) (j : Job) (ix : Nat) (r : Region) (slot : Nat) (v : Slot) (approvals : List Byte) (flashOk : Bool) (m : MemIn) :
    (keep (exportStart s j ix r slot v approvals flashOk m).2.1).1 = (keep s).1 := by
  unfold exportStart
  obtain ⟨hno, hok⟩ := keep_takeSerial s (shTenant (jdKeyShelf j.desc)) (jdSerial j.desc) flashOk
  dsimp only
  split
  · next he => exact congrArg Prod.fst (hno _ _ he)
  · next t he =>
    have ht := hok t he
    split
    · simp only [keep_keyReason, ht]
    · split
      · next he =>
        have hu := core_of_eq he (core_writeBytesBy ..)
        simp only [hu, core_countBlocks, ht]
      · next he =>
        have hu := core_of_eq he (core_writeBytesBy ..)
        simp only [hu, core_countBlocks, ht]

theorem core_exportOpen (s : State) (j : Job) (flashOk : Bool) (m : MemIn) : (keep (exportOpen s j flashOk m).2.1).1 = (keep s).1 := by
  unfold exportOpen
  dsimp only
  split
  · exact congrArg Prod.fst (keep_imeReason ..)
  · split
    · exact congrArg Prod.fst (keep_imeReason ..)
    · split
      · exact congrArg Prod.fst (keep_imeReason ..)
      · split
        · next he => simp only [keep_imeReason, keep_of_eq he (keep_admitsOf ..)]
        · next he =>
          have ht := keep_of_eq he (keep_admitsOf ..)
          split
          · next he => simp only [keep_imeReason, keep_of_eq he (keep_admitted ..), ht]
          · next he =>
            have hu := (keep_of_eq he (keep_admitted ..)).trans ht
            split
            · simp only [keep_imeReason, hu]
            · split
              · simp only [keep_imeReason, hu]
              · split
                · next he => simp only [keep_imeReason, keep_of_eq he (keep_readBytes ..), hu]
                · next he =>
                  have hv := (keep_of_eq he (keep_readBytes ..)).trans hu
                  split
                  · exact congrArg Prod.fst hv
                  · simp only [apply_ite Prod.snd, apply_ite Prod.fst, apply_ite keep, keep_imeReason, core_exportStart, hv, ite_self]

theorem keep_parcelOpen (s : State) (j : Job) (m : MemIn) : keep (parcelOpen s j m).2.1 = keep s := by
  unfold parcelOpen
  dsimp only
  (repeat' split) <;> grind [keep_readBytes, keep_keyReason]

theorem keep_importOpen (s : State) (j : Job) (h : List Byte) (flashOk : Bool) (m : MemIn) : keep (importOpen s j h flashOk m).2.1 = keep s := by
  unfold importOpen
  dsimp only
  split
  · next he => simp only [keep_imeReason, keep_of_eq he (keep_admitsOf ..)]
  · next he =>
    have ht := keep_of_eq he (keep_admitsOf ..)
    simp only [apply_ite Prod.snd, apply_ite Prod.fst, apply_ite keep, keep_flashFail, keep_userKeyed, keep_mk, keep_self, ht, ite_self]

theorem core_resealOpen (s : State) (j : Job) (h : List Byte) (slot : Nat) (flashOk : Bool) (m : MemIn) :
    (keep (resealOpen s j h slot flashOk m).2.1).1 = (keep s).1 := by
  unfold resealOpen
  dsimp only
  split
  · rfl
  · split
    · next he => simp only [keep_imeReason, keep_of_eq he (keep_admitted ..)]
    · next t _ he =>
      have ht := keep_of_eq he (keep_admitted ..)
      obtain ⟨hno, hok⟩ := keep_takeSerial t (shTenant (jdKeyShelf j.desc)) (jdSerial j.desc) flashOk
      split
      · exact congrArg Prod.fst ht
      · split
        · exact congrArg Prod.fst ht
        · split
          · simp only [keep_keyReason, ht]
          · split
            · next he => exact congrArg Prod.fst ((hno _ _ he).trans ht)
            · next he =>
              have hu := (hok _ he).trans ht
              split
              · simp only [keep_keyReason, hu]
              · split
                · next he => simp only [core_of_eq he (core_writeBytesBy ..), core_countBlocks, hu]
                · next he => simp only [core_of_eq he (core_writeBytesBy ..), core_countBlocks, hu]

theorem core_inputOpen (s : State) (j : Job) (flashOk : Bool) (m : MemIn) : (keep (inputOpen s j flashOk m).2.1).1 = (keep s).1 := by
  unfold inputOpen
  split
  · next he => exact congrArg Prod.fst (keep_of_eq he (keep_parcelOpen ..))
  · next he =>
    have ht := keep_of_eq he (keep_parcelOpen ..)
    simp only [apply_ite Prod.snd, apply_ite Prod.fst, apply_ite keep, keep_importOpen, core_resealOpen, ht, ite_self]

theorem keep_shardOpen (s : State) (j : Job) (x : Nat) (c : Cut) (m : MemIn) : keep (shardOpen s j x c m).2.1 = keep s := by
  unfold shardOpen
  dsimp only
  split
  · rfl
  · split
    · split
      · next he => exact keep_of_eq he (keep_readBytes ..)
      · next he =>
        have ht := keep_of_eq he (keep_readBytes ..)
        split
        · exact (keep_keyReason ..).trans ht
        · exact ht
    · exact keep_modCut ..

theorem core_openJob (s : State) (j : Job) (flashOk : Bool) (m : MemIn) : (keep (openJob s j flashOk m).2.1).1 = (keep s).1 := by
  unfold openJob
  split
  · split
    · exact congrArg Prod.fst (keep_shardOpen ..)
    · rfl
  · split
    · next he => exact congrArg Prod.fst (keep_of_eq he (keep_readBytes ..))
    · next he =>
      have ht := keep_of_eq he (keep_readBytes ..)
      simp only [apply_ite Prod.snd, apply_ite Prod.fst, apply_ite keep, core_exportOpen, core_inputOpen, ht, ite_self]

theorem core_writeSeg (s : State) (j : Job) (shelf addr : Nat) (b : List Byte) (m : MemIn) :
    (keep (writeSeg s j shelf addr b m).2.1).1 = (keep s).1 := by
  unfold writeSeg
  dsimp only
  split
  · next he => exact core_of_eq he (core_writeBytesBy ..)
  · next he =>
    have ht := core_of_eq he (core_writeBytesBy ..)
    split
    · exact ht
    · split
      · next he => exact (congrArg Prod.fst (keep_of_eq he (keep_readBytesBy ..))).trans ht
      · next he =>
        have hu := (congrArg Prod.fst (keep_of_eq he (keep_readBytesBy ..))).trans ht
        split
        · exact hu
        · split
          · next he => exact (core_of_eq he (core_writeBytesBy ..)).trans hu
          · next he =>
            have hv := (core_of_eq he (core_writeBytesBy ..)).trans hu
            split
            · next he => exact (congrArg Prod.fst (keep_of_eq he (keep_readBytesBy ..))).trans hv
            · next he =>
              have hw := (congrArg Prod.fst (keep_of_eq he (keep_readBytesBy ..))).trans hv
              simp only [apply_ite Prod.snd, apply_ite Prod.fst, apply_ite keep, keep_record, hw, ite_self]

theorem keep_jobPass (s : State) (j : Job) (h : KeyHandle) : keep (jobPass s j h).2 = keep s := by
  simp only [jobPass, keep_commonPass]

theorem core_jobCount (s : State) (j : Job) (half n : Nat) : (keep (jobCount s j half n).2).1 = (keep s).1 := by
  simp only [jobCount, core_countBlocks]

theorem core_cipherOn (s : State) (j : Job) : (keep (cipherOn s j).2).1 = (keep s).1 := by
  unfold cipherOn
  dsimp only
  (repeat' split) <;> simp only [keep_jobPass, core_jobCount]

theorem core_readPiece (s : State) (j : Job) (m : MemIn) : (keep (readPiece s j m).2.1).1 = (keep s).1 := by
  unfold readPiece
  dsimp only
  split
  · next he => exact congrArg Prod.fst (keep_of_eq he (keep_readBytesBy ..))
  · next he =>
    have ht := keep_of_eq he (keep_readBytesBy ..)
    simp only [apply_ite Prod.snd, apply_ite Prod.fst, apply_ite keep, core_cipherOn, ht, ite_self]

theorem core_sealSeg (s : State) (j : Job) (i : Nat) (p : List Byte) : (keep (sealSeg s j i p).2).1 = (keep s).1 := by
  unfold sealSeg
  dsimp only
  (repeat' split) <;> simp only [keep_jobPass, core_jobCount]

theorem core_putSeg (s : State) (j : Job) (addr : Nat) (b : List Byte) (m : MemIn) : (keep (putSeg s j addr b m).2.1).1 = (keep s).1 := by
  unfold putSeg
  split
  · next he => exact core_of_eq he (core_writeSeg ..)
  · next he => exact core_of_eq he (core_writeSeg ..)

theorem core_segEnd (s : State) (j : Job) (m : MemIn) : (keep (segEnd s j m).2.1).1 = (keep s).1 := by
  unfold segEnd
  dsimp only
  split
  · rfl
  · split
    · simp only [core_putSeg, core_jobCount]
    · split
      · rfl
      · split
        · rfl
        · split
          · split
            · next he => exact core_of_eq_snd he (core_sealSeg ..)
            · next he => exact (core_putSeg ..).trans (core_of_eq_snd he (core_sealSeg ..))
          · exact core_putSeg ..

theorem core_sealPage (s : State) (j : Job) (page : Nat) (p : List Byte) (m : MemIn) : (keep (sealPage s j page p m).2.1).1 = (keep s).1 := by
  unfold sealPage
  split
  · next he => exact core_of_eq_snd he (core_sealSeg ..)
  · next he =>
    have ht := core_of_eq_snd he (core_sealSeg ..)
    split
    · next he => exact (core_of_eq he (core_writeSeg ..)).trans ht
    · next he => exact (core_of_eq he (core_writeSeg ..)).trans ht

theorem core_walkOn (s : State) (ix page : Nat) : (keep (walkOn s ix page)).1 = (keep s).1 := by
  unfold walkOn
  split <;> simp only [apply_ite keep, apply_ite Prod.fst, ite_self, keep_setRegion, core_catWrite]

theorem core_cowStep (s : State) (j : Job) (x : CowPage) (m : MemIn) : (keep (cowStep s j x m).2.1).1 = (keep s).1 := by
  simp only [cowStep, keep_mk, keep_self, apply_ite keep, apply_ite Prod.fst, apply_ite Prod.snd, ite_self, core_releaseHolds, core_sealPage]

theorem core_passPage (s : State) (j : Job) : (keep (passPage s j).2).1 = (keep s).1 := by
  simp only [passPage, keep_mk, keep_self, core_releaseHolds, core_walkOn]

theorem core_walkEnd (s : State) (j : Job) (m : MemIn) : (keep (walkEnd s j m).2.1).1 = (keep s).1 := by
  unfold walkEnd
  split
  · next he => exact core_of_eq he (core_sealPage ..)
  · next he => simp only [core_releaseHolds, core_walkOn, core_of_eq he (core_sealPage ..)]

theorem core_jobFinish (s : State) (j : Job) (m : MemIn) : (keep (jobFinish s j m).1).1 = (keep s).1 := by
  unfold jobFinish
  split
  · split
    · exact core_endJob ..
    · simp only [core_endJob, keep_mk, keep_self]
  · split
    · split
      · exact core_endJob ..
      · split
        · exact core_endJob ..
        · extract_lets h t
          have ht : (keep t).1 = (keep s).1 := core_countBlocks ..
          clear_value t
          split
          · next he => exact (core_endJob ..).trans ((core_of_eq he (core_writeBytesBy ..)).trans ht)
          · next he =>
            have hu := (core_of_eq he (core_writeBytesBy ..)).trans ht
            extract_lets v
            have hv : (keep v).1 = (keep s).1 := (core_endJob ..).trans hu
            clear_value v
            split
            · exact (core_shardDone ..).trans hv
            · exact hv
    · split
      · extract_lets v
        have hv : (keep v).1 = (keep s).1 := core_endJob ..
        clear_value v
        split
        · exact (core_shardDone ..).trans hv
        · exact hv
      · exact core_endJob ..

theorem core_segFails (s : State) (j : Job) (c : Code) : (keep (segFails s j c)).1 = (keep s).1 := by
  simp only [segFails, apply_ite keep, apply_ite Prod.fst, ite_self, keep_keyReason, core_endJob, core_failJob]

theorem core_runJob (n : Nat) (s : State) (j : Job) (m : MemIn) : (keep (runJob n s j m)).1 = (keep s).1 := by
  induction n generalizing s j m with
  | zero => exact congrArg Prod.fst (keep_setJob s j)
  | succ n ih =>
    unfold runJob
    split
    · exact core_segFails ..
    · split
      · split
        · next he => exact (core_segFails ..).trans (core_of_eq he (core_cowStep ..))
        · next he => exact (ih ..).trans (core_of_eq he (core_cowStep ..))
      · split
        · exact congrArg Prod.fst (keep_setJob s j)
        · split
          · exact core_jobFinish ..
          · split
            · simp only [ih, core_passPage]
            · split
              · split
                · exact congrArg Prod.fst (keep_setJob s j)
                · split
                  · next he => exact (core_segFails ..).trans (core_of_eq he (core_readPiece ..))
                  · next he => exact (ih ..).trans (core_of_eq he (core_readPiece ..))
              · have he : (keep (if j.op = 5 then walkEnd s j m else segEnd s j m).2.1).1 = (keep s).1 := by
                  simp only [apply_ite Prod.snd, apply_ite Prod.fst, apply_ite keep, core_walkEnd, core_segEnd, ite_self]
                split
                · next hx => exact (core_segFails ..).trans (core_of_eq hx he)
                · next hx => exact (ih ..).trans (core_of_eq hx he)

theorem keep_engineFor (s : State) (j : Job) (x : Nat × State) (h : engineFor s j = some x) : keep x.2 = keep s := by
  revert h
  unfold engineFor
  split
  · rintro ⟨⟩
    rfl
  · split
    · rintro ⟨⟩
    · split
      · simp only [Option.map_eq_some_iff]
        rintro ⟨e, -, rfl⟩
        exact keep_setJob ..
      · rintro ⟨⟩

theorem core_jobStart (s : State) (m : MemIn) (flashOk : Bool) : (keep (jobStart s m flashOk)).1 = (keep s).1 := by
  unfold jobStart
  split
  · rfl
  · split
    · rfl
    · split
      · rfl
      · split
        · rfl
        · next he =>
          have ht := keep_engineFor _ _ _ he
          split
          · next he => exact (core_endJob ..).trans ((core_of_eq he (core_openJob ..)).trans (congrArg Prod.fst ht))
          · next he => simp only [core_runJob, keep_setJob, core_of_eq he (core_openJob ..), ht]

theorem core_jobResume (s : State) (m : MemIn) : (keep (jobResume s m)).1 = (keep s).1 := by
  unfold jobResume
  (repeat' split) <;> simp only [keep_mk, keep_self, keep_setJob, core_runJob]

theorem core_jobsRevoked (s : State) (slot half : Nat) : (keep (jobsRevoked s slot half)).1 = (keep s).1 := by
  simp only [jobsRevoked, apply_ite keep, apply_ite Prod.fst, ite_self, core_foldl, implies_true, core_failJob]

theorem core_bulkCancel (s : State) (flight : Nat) (code : Code) : (keep (bulkCancel s flight code)).1 = (keep s).1 := by
  unfold bulkCancel
  split <;> simp only [core_failJob]

theorem core_allJobsEnd (s : State) (code : Code) : (keep (allJobsEnd s code)).1 = (keep s).1 := by
  simp only [allJobsEnd, keep_mk, keep_self, apply_ite keep, apply_ite Prod.fst, ite_self, core_foldl, implies_true, keep_refuseStratum, core_failJob]

theorem core_allCutsEnd (s : State) (code : Code) : (keep (allCutsEnd s code)).1 = (keep s).1 := by
  simp only [allCutsEnd, apply_ite keep, apply_ite Prod.fst, ite_self, core_foldl, implies_true, keep_closeCut, core_idleRegions, core_releaseHolds,
    keep_dropShardJobs]

theorem keep_bceLaunch (s : State) (stratum : Bool) (l : Launch) : keep (bceLaunch s stratum l) = keep s := by
  simp only [bceLaunch, apply_ite keep, ite_self, keep_endFlight, keep_queueJob]

/-! ### Host objects -/

theorem keep_setSlice (s : State) (i : Nat) (v : Slice) : keep (setSlice s i v) = keep s := by rfl

theorem keep_setQueue (s : State) (q : Nat) (v : HQueue) : keep (setQueue s q v) = keep s := by rfl

theorem keep_doorbell (s : State) (v : Word) : keep (doorbell s v) = keep s := by
  unfold doorbell
  split <;> simp only [keep_mk, keep_self, apply_ite keep, ite_self, keep_setQueue]

theorem core_cqWrite (s : State) (cq : Nat) (rcd : List Byte) (held : Bool) (m : MemIn) : (keep (cqWrite s cq rcd held m).1).1 = (keep s).1 := by
  unfold cqWrite
  split <;> simp only [apply_ite keep, ite_self, keep_raiseIrq, core_writeLine, keep_setQueue]

theorem core_recvMessage (s : State) (src queue : Nat) (b : List Byte) (m : MemIn) : (keep (recvMessage s src queue b m).2.1).1 = (keep s).1 := by
  unfold recvMessage
  split
  · rfl
  · split
    · rfl
    · split
      · rfl
      · split
        · rfl
        · extract_lets ix
          split
          · next he => exact core_of_eq he (core_writeBytes ..)
          · next he => simp only [keep_setQueue, core_cqWrite, core_of_eq he (core_writeBytes ..)]

theorem keep_setObj (s : State) (h : Nat) (o : Option HObj) : keep (setObj s h o) = keep s := by rfl

theorem core_objDestroy (s : State) (h : Nat) (m : MemIn) : (keep (objDestroy s h m).1).1 = (keep s).1 := by
  unfold objDestroy
  split <;> simp only [apply_ite keep, apply_ite Prod.fst, ite_self, core_afterMem, core_regionDestroy, keep_setObj]

theorem core_objRelease (s : State) (h : Nat) (m : MemIn) : (keep (objRelease s h m).1).1 = (keep s).1 := by
  unfold objRelease
  split <;> simp only [apply_ite keep, apply_ite Prod.fst, ite_self, keep_setObj, core_objDestroy]

theorem core_objRetry (s : State) (h : Nat) (m : MemIn) : (keep (objRetry s h m)).1 = (keep s).1 := by
  unfold objRetry
  split <;> simp only [apply_ite keep, apply_ite Prod.fst, ite_self, core_objDestroy]

theorem core_mirrorWrite (s : State) (f : Flight) (e : HEvent) (m : MemIn) : (keep (mirrorWrite s f e m).1).1 = (keep s).1 := by
  simp only [mirrorWrite, apply_ite keep, apply_ite Prod.fst, ite_self, core_writeBytes]

theorem core_applySignal (s : State) (f : Flight) (ix v : Nat) (m : MemIn) : (keep (applySignal s f ix v m).2.1).1 = (keep s).1 := by
  unfold applySignal
  split <;> simp only [keep_mk, keep_self, apply_ite keep, apply_ite Prod.fst, apply_ite Prod.snd, ite_self, keep_hobReason, core_mirrorWrite]

theorem keep_objTake (s : State) (slice h : Nat) : keep (objTake s slice h).2 = keep s := by
  unfold objTake
  (repeat' split) <;> simp only [keep_setObj]

theorem keep_fetchChecks (s : State) (slice : Nat) (r : List Byte) : keep (fetchChecks s slice r).2.2 = keep s := by
  simp only [fetchChecks, apply_ite keep, apply_ite Prod.snd, ite_self, keep_objTake]

theorem keep_commandFetch (s : State) (sq : Nat) (m : MemIn) : keep (commandFetch s sq m) = keep s := by
  unfold commandFetch
  dsimp only
  (repeat' split) <;> simp only [keep_mk, keep_self, keep_hobReason, keep_readLine, keep_setQueue, keep_fetchChecks]

theorem keep_setFlight (s : State) (id : Nat) (f : Flight) : keep (setFlight s id f) = keep s := by rfl

theorem core_cancelFlight (s : State) (id : Nat) (f : Flight) (code : Code) : (keep (cancelFlight s id f code).2).1 = (keep s).1 := by
  simp only [cancelFlight, apply_ite keep, apply_ite Prod.fst, apply_ite Prod.snd, ite_self, keep_endFlight, core_sreCancel, core_stratumCancel,
    core_bulkCancel]

theorem core_cancelCmd (s : State) (id : Nat) (f : Flight) : (keep (cancelCmd s id f)).1 = (keep s).1 := by
  unfold cancelCmd
  dsimp only
  (repeat' split) <;> simp only [keep_hobReason, keep_endFlight, keep_setFlight, core_cancelFlight]

theorem keep_sendCmd (s : State) (id : Nat) (f : Flight) (m : MemIn) : keep (sendCmd s id f m) = keep s := by
  unfold sendCmd
  extract_lets r len shape dest e det c bar
  clear_value bar det
  split
  · simp only [keep_endFlight, keep_mk, keep_self]
  · split
    · next he => simp only [keep_endFlight, keep_of_eq he (keep_readBytes ..)]
    · next he =>
      simp only [apply_ite keep, keep_endFlight, keep_queueSend, keep_setFlight, keep_of_eq he (keep_readBytes ..), ite_self]

theorem core_commandDispatch (s : State) (sq : Nat) (m : MemIn) : (keep (commandDispatch s sq m)).1 = (keep s).1 := by
  unfold commandDispatch
  split <;> simp only [apply_ite keep, apply_ite Prod.fst, ite_self, keep_endFlight, keep_sreLaunch, keep_bceLaunch, keep_setFlight, core_cancelCmd,
    keep_sendCmd]

theorem keep_wakeCancels (s : State) (id : Nat) : keep (wakeCancels s id) = keep s := by rfl

theorem core_commandComplete (s : State) (id : Nat) (m : MemIn) : (keep (commandComplete s id m)).1 = (keep s).1 := by
  unfold commandComplete
  split
  · rfl
  · next f hf =>
    split
    · rfl
    · extract_lets r ask
      have hs : (keep (if ask then applySignal s f (crSigEvent r) (crSigValue r) m else (0, s, m)).2.1).1 = (keep s).1 := by
        simp only [apply_ite Prod.snd, apply_ite Prod.fst, apply_ite keep, core_applySignal, ite_self]
      generalize (if ask then applySignal s f (crSigEvent r) (crSigValue r) m else (0, s, m)) = x at hs ⊢
      obtain ⟨sig, t, m⟩ := x
      dsimp -zeta only at hs ⊢
      extract_lets refusedNop result reason late u value sqe cq rcd
      have hu : (keep u).1 = (keep s).1 := by
        refine Eq.trans ?_ hs
        unfold u
        split
        · simp only [apply_ite keep, keep_countOutcome, ite_self]
        · rfl
      clear_value u sqe rcd
      rw [keep_wakeCancels]
      refine (core_foldl_fst (fun _ _ => core_objRelease ..) _ _).trans ?_
      split
      · exact (core_cqWrite ..).trans hu
      · exact hu

theorem keep_hobEnd (s : State) (c : Code) (detail : Nat) : keep (hobEnd s c detail) = keep s := by
  simp only [hobEnd, keep_mk, keep_self, keep_raiseIrq, keep_hobReason]

theorem keep_hobRun (s : State) (slice : Nat) (usesAddr : Bool) (argBits : Nat) (f : State → Code × State) (hf : keep (f s).2 = keep s) :
    keep (hobRun s slice usesAddr argBits f) = keep s := by
  simp only [hobRun, apply_ite keep, keep_hobEnd, keep_mk, keep_self, hf, ite_self]

theorem core_hobRun (s : State) (slice : Nat) (usesAddr : Bool) (argBits : Nat) (f : State → Code × State)
    (hf : (keep (f s).2).1 = (keep s).1) : (keep (hobRun s slice usesAddr argBits f)).1 = (keep s).1 := by
  simp only [hobRun, apply_ite keep, apply_ite Prod.fst, keep_hobEnd, keep_mk, keep_self, hf, ite_self]

theorem keep_ctxCreate (slice i : Nat) (s : State) : keep (ctxCreate slice i s).2 = keep s := by
  simp only [ctxCreate, keep_mk, keep_self, apply_ite keep, apply_ite Prod.snd, ite_self]

theorem keep_ctxDestroy (slice i : Nat) (s : State) : keep (ctxDestroy slice i s).2 = keep s := by
  simp only [ctxDestroy, keep_mk, keep_self, apply_ite keep, apply_ite Prod.snd, ite_self]

theorem keep_switchCtx (slice i : Nat) (s : State) : keep (switchCtx slice i s).2 = keep s := by
  simp only [switchCtx, apply_ite keep, apply_ite Prod.snd, ite_self, keep_setSlice]

theorem keep_queueCreate (slc i : Nat) (m : MemIn) (s : State) : keep (queueCreate slc i m s).2 = keep s := by
  unfold queueCreate
  extract_lets c
  split
  · rfl
  · split
    · next he => exact keep_of_eq he (keep_ctlRead ..)
    · next he =>
      have ht := keep_of_eq he (keep_ctlRead ..)
      extract_lets k ctx cq q len w
      clear_value w q
      split
      · exact ht
      · split
        · exact ht
        · split
          · exact ht
          · split
            · exact ht
            · split
              · exact ht
              · split
                · next he => exact (keep_imeReason ..).trans ((keep_of_eq he (keep_admitted ..)).trans ht)
                · next he =>
                  have hu := (keep_of_eq he (keep_admitted ..)).trans ht
                  split
                  · next he => exact (keep_imeReason ..).trans ((keep_of_eq he (keep_admitted ..)).trans hu)
                  · next he => exact (keep_setQueue ..).trans ((keep_of_eq he (keep_admitted ..)).trans hu)

theorem keep_queueDestroy (slice i : Nat) (s : State) : keep (queueDestroy slice i s).2 = keep s := by
  unfold queueDestroy
  split <;> simp only [keep_mk, keep_self, apply_ite keep, apply_ite Prod.snd, ite_self]

theorem keep_eventCreate (slc i : Nat) (m : MemIn) (s : State) : keep (eventCreate slc i m s).2 = keep s := by
  unfold eventCreate
  extract_lets c
  split
  · rfl
  · split
    · next he => exact keep_of_eq he (keep_ctlRead ..)
    · next he =>
      simp only [apply_ite Prod.snd, apply_ite keep, keep_mk, keep_self, keep_of_eq he (keep_ctlRead ..), ite_self]

theorem keep_eventDestroy (slice i : Nat) (s : State) : keep (eventDestroy slice i s).2 = keep s := by
  unfold eventDestroy
  split <;> simp only [keep_mk, keep_self, apply_ite keep, apply_ite Prod.snd, ite_self]

theorem keep_objBind (s : State) (slice h cat : Nat) : keep (objBind s slice h cat) = keep s := by rfl

theorem core_objCreateRun (s : State) (slice h : Nat) (m : MemIn) : (keep (objCreateRun s slice h m).2.2).1 = (keep s).1 := by
  unfold objCreateRun
  split
  · next he => exact congrArg Prod.fst (keep_of_eq he (keep_ctlRead ..))
  · next he =>
    simp only [apply_ite Prod.snd, apply_ite Prod.fst, apply_ite keep, keep_objBind, core_afterMem, core_regionCreate,
      keep_of_eq he (keep_ctlRead ..), ite_self]

theorem core_objCreate (s : State) (slice h : Nat) (m : MemIn) : (keep (objCreate s slice h m)).1 = (keep s).1 := by
  simp only [objCreate, keep_mk, keep_self, apply_ite keep, apply_ite Prod.fst, ite_self, keep_hobEnd, core_objCreateRun]

theorem core_objWaited (s : State) : (keep (objWaited s)).1 = (keep s).1 := by
  unfold objWaited
  split <;> simp only [apply_ite keep, apply_ite Prod.fst, ite_self, keep_hobEnd, core_objCreateRun]

theorem keep_objAdopt (slice h : Nat) (s : State) : keep (objAdopt slice h s).2 = keep s := by
  unfold objAdopt
  (repeat' split) <;> simp only [apply_ite keep, apply_ite Prod.snd, ite_self, keep_objBind]

theorem core_objFree (slice h : Nat) (m : MemIn) (s : State) : (keep (objFree slice h m s).2).1 = (keep s).1 := by
  unfold objFree
  split <;> simp only [apply_ite keep, apply_ite Prod.fst, apply_ite Prod.snd, ite_self, keep_setObj, core_objDestroy]

theorem keep_squashOrig (s : State) (ix : Nat) (o : Orig) : keep (squashOrig s ix o) = keep s := by
  unfold squashOrig
  (repeat' split) <;> simp only [keep_freeOrig, keep_freeMessage, keep_origFab, keep_endFlight]

theorem core_sliceSquash (s : State) (i : Nat) : (keep (sliceSquash s i)).1 = (keep s).1 := by
  unfold sliceSquash
  dsimp only
  rw [keep_pumpSends, keep_releaseFlagged, core_foldl, core_foldl, core_foldl]
  · intro s x
    simp only [apply_ite keep, apply_ite Prod.fst, core_cancelFlight, ite_self]
  · intro s p
    split
    · simp only [apply_ite keep, keep_endFlight, keep_mk, keep_self, ite_self]
    · rfl
  · intro s x
    split
    · simp only [apply_ite keep, keep_squashOrig, ite_self]
    · rfl

theorem core_sliceStart (s : State) (i : Nat) (squash charter : Bool) : (keep (sliceStart s i squash charter)).1 = (keep s).1 := by
  simp only [sliceStart, apply_ite keep, apply_ite Prod.fst, ite_self, keep_foldl, implies_true, keep_endFlight, keep_setSlice, core_sliceSquash]

theorem core_sliceReset (s : State) (i : Nat) (squash : Bool) : (keep (sliceReset s i squash)).1 = (keep s).1 := by
  simp only [sliceReset, keep_mk, keep_self, apply_ite keep, apply_ite Prod.fst, ite_self, keep_raiseIrq, keep_hobReason, keep_hobEnd,
    core_sliceStart]

theorem keep_sliceSettle (s : State) (i : Nat) : keep (sliceSettle s i) = keep s := by
  simp only [sliceSettle, keep_mk, keep_self, apply_ite keep, ite_self, keep_setSlice, keep_hobEnd]

theorem core_drainTimeout (s : State) (i : Nat) : (keep (drainTimeout s i)).1 = (keep s).1 := by
  simp only [drainTimeout, apply_ite keep, apply_ite Prod.fst, ite_self, keep_setSlice, core_sliceSquash]

theorem keep_squashTimeout (s : State) (i : Nat) : keep (squashTimeout s i) = keep s := by
  unfold squashTimeout
  split <;> simp only [apply_ite keep, ite_self, keep_record, keep_startRung]

/-! ### Frames received -/

theorem keep_afterOrig (s : State) : keep (afterOrig s) = keep s := by
  simp only [afterOrig, keep_releaseFlagged, keep_releaseOutgoing, keep_pumpSends]

theorem keep_freeWhole (s : State) (ix : Nat) (o : Orig) : keep (freeWhole s ix o) = keep s := by
  unfold freeWhole
  split <;> simp only [keep_freeOrig, keep_freeMessage]

theorem core_endOrig (s : State) (ix : Nat) (o : Orig) (c : Code) (data : List Byte) : (keep (endOrig s ix o c data)).1 = (keep s).1 := by
  unfold endOrig
  split <;> simp only [keep_mk, keep_self, apply_ite keep, ite_self, keep_origFab, keep_endFlight, core_sreSent, core_stratumSent, keep_afterOrig,
    keep_freeWhole]

theorem core_endFailed (s : State) : (keep (endFailed s)).1 = (keep s).1 := by
  refine core_foldl (fun s x => ?_) _ s
  split
  · simp only [apply_ite keep, apply_ite Prod.fst, core_endOrig, ite_self]
  · rfl

theorem core_deadTarget (s : State) (tag : Nat) : (keep (deadTarget s tag)).1 = (keep s).1 := by
  unfold deadTarget
  (repeat' split) <;> simp only [core_endOrig]

theorem keep_staleDrop (s : State) : keep (staleDrop s) = keep s := by rfl

theorem core_takeResponse (s : State) (r : FabOp) : (keep (takeResponse s r)).1 = (keep s).1 := by
  unfold takeResponse
  split <;> simp only [keep_mk, keep_self, apply_ite keep, apply_ite Prod.fst, ite_self, keep_countDrop, core_endOrig, keep_staleDrop]

theorem keep_forwardOp (s : State) (e vc : Nat) (op : FabOp) : keep (forwardOp s e vc op) = keep s := by
  simp only [forwardOp, apply_ite keep, ite_self, keep_txPut, keep_answerError]

theorem keep_nackOp (s : State) (e vc : Nat) (op : FabOp) : keep (nackOp s e vc op) = keep s := by
  simp only [nackOp, keep_mk, keep_self, apply_ite keep, ite_self, keep_answerOp]

theorem keep_acceptOp (s : State) (vc : Nat) (op : FabOp) : keep (acceptOp s vc op) = keep s := by rfl

theorem keep_setGathered (s : State) (op : FabOp) (b : Option (List Byte)) : keep (setGathered s op b) = keep s := by rfl

theorem core_deliver (s : State) (op : FabOp) (b : List Byte) (m : MemIn) : (keep (deliver s op b m).2.1).1 = (keep s).1 := by
  unfold deliver
  split
  · split
    · next he => exact core_sreMessage _ _ _ _ _ he
    · rfl
  · split
    · split
      · next he => exact core_strMessage _ _ _ _ _ he
      · rfl
    · exact core_recvMessage ..

theorem core_takeSend (s : State) (e vc : Nat) (op : FabOp) (m : MemIn) : (keep (takeSend s e vc op m).1).1 = (keep s).1 := by
  unfold takeSend
  dsimp only
  split
  · exact congrArg Prod.fst (keep_answerError ..)
  · split
    · simp only [keep_setGathered, keep_acceptOp]
    · split
      · next he => simp only [keep_nackOp, core_of_eq he (core_deliver ..)]
      · next he => simp only [keep_answerError, keep_setGathered, keep_acceptOp, core_of_eq he (core_deliver ..)]
      · next he => simp only [keep_answerOp, keep_setGathered, keep_acceptOp, core_of_eq he (core_deliver ..)]

theorem core_takeRequest (s : State) (e vc : Nat) (op : FabOp) (m : MemIn) : (keep (takeRequest s e vc op m).1).1 = (keep s).1 := by
  simp only [takeRequest, keep_mk, keep_self, apply_ite keep, apply_ite Prod.fst, ite_self, core_afterMem, keep_nackOp, keep_acceptOp, core_takeSend]

theorem core_takeOp (s : State) (e vc : Nat) (x : FabOp × Bool) (m : MemIn) : (keep (takeOp s e vc x m).1).1 = (keep s).1 := by
  simp only [takeOp, apply_ite keep, apply_ite Prod.fst, ite_self, keep_answerError, core_takeResponse, keep_forwardOp, core_takeRequest]

theorem keep_freeSlot (s : State) (e vc : Nat) : keep (freeSlot s e vc) = keep s := by
  simp only [freeSlot, apply_ite keep, ite_self, keep_setLport]

theorem core_rxData (s : State) (e vc : Nat) (content : List Byte) (m : MemIn) : (keep (rxData s e vc content m)).1 = (keep s).1 := by
  simp only [rxData, apply_ite keep, ite_self, core_foldl, implies_true, keep_creditIdle, core_takeOp, keep_freeSlot]

theorem keep_rxNak (s : State) (e n : Nat) : keep (rxNak s e n) = keep s := by
  simp only [rxNak, apply_ite keep, ite_self, keep_emits, keep_setLport, keep_linkFail]

theorem core_rxRekey (s : State) (e : Nat) (content : List Byte) : (keep (rxRekey s e content)).1 = (keep s).1 := by
  unfold rxRekey
  dsimp only
  split <;> simp only [apply_ite keep, apply_ite Prod.fst, ite_self, core_stageHalf, keep_setLport, core_bringupFail, core_sendCtl, core_startRekey]

theorem core_rxRekeyDone (s : State) (e : Nat) : (keep (rxRekeyDone s e)).1 = (keep s).1 := by
  unfold rxRekeyDone
  dsimp only
  split <;> simp only [apply_ite keep, apply_ite Prod.fst, ite_self, keep_setLport, core_finishRekey]

theorem keep_takeCredits (s : State) (e credits : Nat) : keep (takeCredits s e credits) = keep s := by rfl

theorem core_takeFrame (s : State) (e : Nat) (b : List Byte) (m : MemIn) : (keep (takeFrame s e b m)).1 = (keep s).1 := by
  simp only [takeFrame, apply_ite keep, apply_ite Prod.fst, ite_self, core_rxData, keep_rxNak, core_rxRekey, core_rxRekeyDone, keep_takeCredits]

theorem core_refuseFadd (s : State) (e : Nat) : (keep (refuseFadd s e)).1 = (keep s).1 := by
  unfold refuseFadd
  dsimp only
  split
  · rfl
  · rw [core_foldl, keep_setLport]
    intro s t
    split
    · exact core_endOrig ..
    · exact congrArg Prod.fst (keep_answerError ..)

theorem core_takeConfirm (s : State) (e : Nat) (b : List Byte) : (keep (takeConfirm s e b)).1 = (keep s).1 := by
  simp only [takeConfirm, apply_ite keep, apply_ite Prod.fst, ite_self, keep_setLport, keep_startCredits, keep_setPortSt, core_bringupFail,
    keep_takeCredits, core_refuseFadd]

theorem core_rxSealed (s : State) (e : Nat) (f : Frame) (m : MemIn) : (keep (rxSealed s e f m)).1 = (keep s).1 := by
  unfold rxSealed
  dsimp only
  (repeat' split) <;> simp only [keep_setLport, core_bringupFail, keep_formPass, core_sendNak, core_takeFrame, core_takeConfirm]

theorem core_rxHello (s : State) (e : Nat) (form : Bool) (b : List Byte) : (keep (rxHello s e form b)).1 = (keep s).1 := by
  unfold rxHello
  dsimp only
  (repeat' split) <;> simp only [keep_setLport, core_bringupFail, keep_sendBringup, keep_keepMsg]

theorem keep_sendShare (s : State) (e : Nat) : keep (sendShare s e) = keep s := by
  unfold sendShare
  split <;> simp only [apply_ite keep, ite_self, keep_drbgTake, keep_setLport, keep_sendBringup, keep_keepMsg]

theorem core_rxIdentity (s : State) (e : Nat) (form : Bool) (b : List Byte) : (keep (rxIdentity s e form b)).1 = (keep s).1 := by
  simp only [rxIdentity, apply_ite keep, apply_ite Prod.fst, ite_self, keep_setPortSt, core_bringupFail, keep_keepMsg, keep_sendShare]

theorem core_rxKeyShare (s : State) (e : Nat) (form : Bool) (b : List Byte) : (keep (rxKeyShare s e form b)).1 = (keep s).1 := by
  simp only [rxKeyShare, apply_ite keep, apply_ite Prod.fst, ite_self, core_fillSlot, keep_setLport, core_bringupFail, keep_sendPlain, keep_keepMsg]

theorem core_rxBringup (s : State) (e : Nat) (f : Frame) : (keep (rxBringup s e f)).1 = (keep s).1 := by
  simp only [rxBringup, apply_ite keep, apply_ite Prod.fst, ite_self, core_bringupFail, core_rxHello, core_rxIdentity, core_rxKeyShare]

theorem core_wakeLink (s : State) (e : Nat) : (keep (wakeLink s e)).1 = (keep s).1 := by
  simp only [wakeLink, apply_ite keep, apply_ite Prod.fst, ite_self, keep_setLport, core_startHello, core_startRekey, core_rxRekey, keep_sendShare,
    core_rxKeyShare]

theorem core_wakeLinks (s : State) : (keep (wakeLinks s)).1 = (keep s).1 := by
  simp only [wakeLinks, core_foldl, implies_true, core_wakeLink]

theorem core_rxFrame (s : State) (e : Nat) (f : Frame) (m : MemIn) : (keep (rxFrame s e f m)).1 = (keep s).1 := by
  simp only [rxFrame, apply_ite keep, apply_ite Prod.fst, ite_self, core_bringupFail, core_rxSealed, core_rxBringup]

theorem core_rxPlain (s : State) (e : Nat) (f : Frame) : (keep (rxPlain s e f)).1 = (keep s).1 := by
  simp only [rxPlain, core_rxFrame]

/-! ### Key commands -/

theorem keep_keyEnd (s : State) (c : Code) : keep (keyEnd s c) = keep s := by rfl

theorem keep_keyRun (s : State) (f : State → Code × State) (hf : keep (f s).2 = keep s) : keep (keyRun s f) = keep s := by
  simp only [keyRun, apply_ite keep, apply_ite Prod.snd, keep_keyEnd, keep_ignoreWrite, hf, ite_self]

theorem core_keyRun (s : State) (f : State → Code × State) (hf : (keep (f s).2).1 = (keep s).1) :
    (keep (keyRun s f)).1 = (keep s).1 := by
  simp only [keyRun, apply_ite keep, apply_ite Prod.fst, apply_ite Prod.snd, keep_keyEnd, keep_ignoreWrite, hf, ite_self]

theorem keep_genReached (s : State) (slot old new : Nat) : keep (genReached s slot old new) = keep s := by
  simp only [genReached, apply_ite keep, ite_self, keep_record]

theorem core_loadWrapped (slot : Nat) (m : MemIn) (s : State) : (keep (loadWrapped slot m s).2).1 = (keep s).1 := by
  unfold loadWrapped
  split
  · next he => exact congrArg Prod.fst (keep_of_eq he (keep_ctlRead ..))
  · next he =>
    have ht := keep_of_eq he (keep_ctlRead ..)
    dsimp only
    split
    · exact congrArg Prod.fst ht
    · split
      · exact congrArg Prod.fst ht
      · split
        · exact congrArg Prod.fst ht
        · simp only [apply_ite Prod.snd, apply_ite Prod.fst, apply_ite keep, core_stageHalf, keep_genReached, core_fillSlot, ht, ite_self]

theorem core_activate (slot : Nat) (s : State) : (keep (activate slot s).2).1 = (keep s).1 := by
  unfold activate
  (repeat' split) <;> simp only [core_activateHalf, core_startShelving, keep_genReached]

theorem core_retirePrev (slot : Nat) (s : State) : (keep (retirePrev slot s).2).1 = (keep s).1 := by
  unfold retirePrev
  (repeat' split) <;> simp only [core_retireHalf, core_afterMem, core_jobsRevoked]

theorem core_discardStaged (slot : Nat) (s : State) : (keep (discardStaged slot s).2).1 = (keep s).1 := by
  unfold discardStaged
  split
  · rfl
  · split
    · rfl
    · split
      · rfl
      · exact (core_zeroHalf ..).trans (core_jobsRevoked ..)

theorem core_zeroise (slot : Nat) (s : State) : (keep (zeroise slot s).2).1 = (keep s).1 := by
  unfold zeroise
  dsimp only
  (repeat' split) <;> simp only [keep_mk, keep_self, core_emptySlot, core_afterMem, core_jobsRevoked]

theorem core_genNow (slot : Nat) (s : State) : (keep (genNow slot s).2).1 = (keep s).1 := by
  simp only [genNow, apply_ite keep, apply_ite Prod.fst, apply_ite Prod.snd, ite_self, core_fillSlot, keep_drbgTake]

theorem core_genEphemeral (s : State) (slot : Nat) : (keep (genEphemeral s slot)).1 = (keep s).1 := by
  simp only [genEphemeral, keep_mk, keep_self, apply_ite keep, apply_ite Prod.fst, ite_self, core_keyRun, core_genNow]

theorem keep_keyReserved (s : State) : keep (keyReserved s) = keep s := by
  simp only [keyReserved, keep_keyRun]

/-! ### Life cycle: debug, slate root, wipes -/

theorem keep_takeDecode (s : State) (d : LcsDecode) : keep (takeDecode s d) = keep s := by rfl

theorem keep_settleDebug (s : State) : keep (settleDebug s) = keep s := by rfl

theorem core_settleSlate (s : State) : (keep (settleSlate s)).1 = (keep s).1 := by
  simp only [settleSlate, keep_mk, keep_self, apply_ite keep, apply_ite Prod.fst, ite_self, core_foldl, implies_true, core_emptySlot]

theorem keep_rebuildAcc (s : State) : keep (rebuildAcc s) = keep s := by rfl

theorem keep_accWrite (s : State) (key : BitVec 256 × Nat) (i : AccInfo) (flashOk : Bool) : keep (accWrite s key i flashOk).2 = keep s := by
  simp only [accWrite, keep_mk, keep_self, apply_ite keep, apply_ite Prod.snd, ite_self, keep_emit, keep_flashFail]

theorem keep_accAppend (s : State) (i : AccInfo) (last flashOk : Bool) : keep (accAppend s i last flashOk).2 = keep s := by
  unfold accAppend
  split <;> simp only [apply_ite keep, apply_ite Prod.snd, ite_self, keep_accWrite]

theorem core_wipeSlots (s : State) (first : Nat) : (keep (wipeSlots s first)).1 = (keep s).1 := by
  simp only [wipeSlots, core_foldl, implies_true, core_emptySlot]

theorem core_wipeVault (s : State) (xx : Wipe) : (keep (wipeVault s xx)).1 = (keep s).1 := by
  unfold wipeVault
  split <;> simp only [core_wipeSlots]

theorem keep_wipeFlash (s : State) (w : Wipe) (ok : Bool) : keep (wipeFlash s w ok) = keep s := by
  unfold wipeFlash
  dsimp only
  split <;> simp only [keep_mk, keep_self, apply_ite keep, ite_self, keep_emit, keep_flashFail]

theorem keep_clearIntent (s : State) (ok : Bool) : keep (clearIntent s ok) = keep s := by
  simp only [clearIntent, keep_mk, keep_self, apply_ite keep, ite_self, keep_emit, keep_flashFail]

theorem keep_appendMissing (s : State) (rec_ : List Byte) (role : Nat) (key : BitVec 256 × Nat) (e : StartIn) :
    keep (appendMissing s rec_ role key e) = keep s := by
  simp only [appendMissing, apply_ite keep, ite_self, keep_flashFail, keep_accWrite]

/-! ### Charter loads -/

theorem keep_selectSlot (s : State) : keep (selectSlot s) = keep s := by
  unfold selectSlot
  dsimp only
  split <;> simp only [keep_mk, keep_self]

theorem keep_applyGlobal (s : State) : keep (applyGlobal s) = keep s := by rfl

theorem keep_chooseLanes (s : State) (bad : List Nat) : keep (chooseLanes s bad) = keep s := by
  simp only [chooseLanes, keep_mk, keep_self, keep_laneStart]

theorem keep_memPortOut (s : State) (p : Nat) : keep (memPortOut s p) = keep s := by
  simp only [memPortOut, apply_ite keep, ite_self, keep_exitReset, keep_setMemPin, keep_startCredits]

theorem core_lnkPortOut (s : State) (e : Nat) : (keep (lnkPortOut s e)).1 = (keep s).1 := by
  simp only [lnkPortOut, apply_ite keep, apply_ite Prod.fst, ite_self, keep_exitReset, keep_endRung, keep_startCredits, core_startHello,
    keep_releaseLink]

theorem core_portOut (s : State) (q : Nat) : (keep (portOut s q)).1 = (keep s).1 := by
  simp only [portOut, apply_ite keep, apply_ite Prod.fst, ite_self, keep_memPortOut, core_lnkPortOut]

theorem core_releaseWaiting (s : State) : (keep (releaseWaiting s)).1 = (keep s).1 := by
  simp only [releaseWaiting, apply_ite keep, apply_ite Prod.fst, ite_self, core_foldl, implies_true, core_portOut]

theorem keep_settleRekeyCtrl (s : State) : keep (settleRekeyCtrl s) = keep s := by
  simp only [settleRekeyCtrl, keep_foldl, implies_true, keep_setLport]

theorem core_releasePorts (s : State) : (keep (releasePorts s)).1 = (keep s).1 := by
  simp only [releasePorts, apply_ite keep, apply_ite Prod.fst, ite_self, core_releaseWaiting, keep_settleRekeyCtrl]

theorem keep_chrEnd (s : State) (c : Code) : keep (chrEnd s c) = keep s := by rfl

theorem keep_chrFinish (s : State) : keep (chrFinish s) = keep s := by
  simp only [chrFinish, apply_ite keep, ite_self, keep_chrEnd]

theorem keep_applyBudgets (s : State) (q : Nat) : keep (applyBudgets s q) = keep s := by
  simp only [applyBudgets, keep_mk, keep_self, keep_startCredits]

theorem core_chrApply (s : State) (old : Option Charter) (types : List Nat) : (keep (chrApply s old types)).1 = (keep s).1 := by
  simp only [chrApply, keep_mk, keep_self, apply_ite keep, apply_ite Prod.fst, ite_self, keep_foldl, core_foldl, implies_true, keep_regroup,
    keep_startCredits, core_sliceStart, keep_applyBudgets]

theorem core_chrApplyFirst (s : State) (bad : List Nat) : (keep (chrApplyFirst s bad)).1 = (keep s).1 := by
  simp only [chrApplyFirst, keep_mk, keep_self, keep_applyGlobal, keep_chooseLanes, core_releasePorts]

theorem core_charterStored (s : State) (flashOk : Bool) (bad : List Nat) : (keep (charterStored s flashOk bad)).1 = (keep s).1 := by
  unfold charterStored
  split <;> simp only [keep_mk, keep_self, apply_ite keep, apply_ite Prod.fst, ite_self, keep_emits, keep_flashFail, keep_chrEnd, keep_chrFinish,
    core_chrApply, core_chrApplyFirst]

theorem keep_chrImage (s : State) (source : Bool) (m : MemIn) : keep (chrImage s source m).2 = keep s := by
  unfold chrImage
  dsimp only
  split
  · rfl
  · split
    · next he => exact keep_of_eq he (keep_ctlRead ..)
    · next he => exact keep_of_eq he (keep_ctlRead ..)

theorem keep_chrAccept (s : State) (b : List Byte) (t : Tbl (Nat × List Byte)) (flashOk : Bool) : keep (chrAccept s b t flashOk) = keep s := by
  unfold chrAccept
  dsimp only
  split <;> simp only [keep_mk, keep_self, apply_ite keep, ite_self, keep_keyReason, keep_accAppend, keep_chrEnd]

theorem keep_charterLoad (s : State) (source : Bool) (m : MemIn) (flashOk : Bool) : keep (charterLoad s source m flashOk) = keep s := by
  unfold charterLoad
  split
  · rfl
  · have hload : ∀ u : State, keep u = keep s → keep (if u.key.tampered then chrEnd u Rsn.tampered
        else match chrImage u source m with
          | (.error c, u) => chrEnd u c
          | (.ok b, u) =>
            let (c, t) := chChecks u b
            if c ≠ 0#8 then chrEnd u c else chrAccept u b t flashOk) = keep s := fun u hu => by
      split
      · simp only [keep_chrEnd, hu]
      · split
        · next he => simp only [keep_chrEnd, keep_of_eq_snd he (keep_chrImage ..), hu]
        · next he => simp only [apply_ite keep, keep_chrEnd, keep_chrAccept, keep_of_eq_snd he (keep_chrImage ..), hu, ite_self]
    refine (apply_ite keep ..).trans ?_
    split <;> split
    · rfl
    · exact hload _ rfl
    · rfl
    · exact hload _ rfl

theorem keep_chrAbandon (s : State) (c : Code) : keep (chrAbandon s c) = keep s := by
  simp only [chrAbandon, apply_ite keep, ite_self, keep_chrEnd]

theorem keep_suspendAll (s : State) : keep (suspendAll s) = keep s := by rfl

theorem keep_funcStopWrite (s : State) (v : Word) : keep (funcStopWrite s v) = keep s := by
  simp only [funcStopWrite, keep_mk, keep_self, apply_ite keep, ite_self, keep_ignoreWrite, keep_suspendAll]

theorem keep_functionDrained (s : State) (f : Nat) : keep (functionDrained s f) = keep s := by
  simp only [functionDrained, keep_mk, keep_self, apply_ite keep, ite_self]

/-! ### Functions stopped and dumps -/

theorem keep_pendRows (s : State) (u : Nat) : keep (pendRows s u).2 = keep s := by
  unfold pendRows
  rw [keep_foldl_snd]
  exact fun _ _ => rfl

theorem keep_dumpSec (s : State) (u : Nat) : keep (dumpSec s u).2 = keep s := by
  simp only [dumpSec, apply_ite keep, apply_ite Prod.snd, ite_self, keep_pendRows]

theorem keep_dumpSecs (s : State) : keep (dumpSecs s).2 = keep s := by
  unfold dumpSecs
  simp only [keep_foldl_snd, keep_dumpSec, implies_true]

theorem keep_takeDump (s : State) (cause cls : Nat) : keep (takeDump s cause cls) = keep s := by
  simp only [takeDump, keep_mk, keep_self, apply_ite keep, ite_self, keep_recordPlain, keep_dumpSecs]

theorem keep_copyDump (s : State) (flashOk : Bool) : keep (copyDump s flashOk) = keep s := by
  unfold copyDump
  split <;> simp only [keep_mk, keep_self, apply_ite keep, ite_self, keep_emit, keep_raiseIrq, keep_flashFail]

/-! ### Quiesce and CORE's clearing -/

theorem keep_abortReads (s : State) (c : Code) : keep (abortReads s c) = keep s := by
  simp only [abortReads, keep_mk, keep_self, apply_ite keep, ite_self, keep_foldl, implies_true, keep_dropEnt, keep_finishMem, keep_refuseEnt]

theorem keep_abortOrig (s : State) (ix : Nat) (c : Code) : keep (abortOrig s ix c) = keep s := by
  unfold abortOrig
  (repeat' split) <;> simp only [keep_freeOrig, keep_origFab, keep_endFlight, keep_freeWhole]

theorem keep_abortOrigs (s : State) (c : Code) : keep (abortOrigs s c) = keep s := by
  unfold abortOrigs
  dsimp only
  rw [keep_foldl]
  · simp only [keep_mk, keep_self, keep_foldl, keep_abortOrig, implies_true]
  · intro s p
    split
    · exact keep_endFlight ..
    · rfl

theorem core_abandonWork (s : State) : (keep (abandonWork s)).1 = (keep s).1 := by
  simp only [abandonWork, keep_mk, keep_self, core_allJobsEnd, core_allCutsEnd]

theorem core_beginDrain (s : State) : (keep (beginDrain s)).1 = (keep s).1 := by
  simp only [beginDrain, core_foldl, implies_true, core_writeBack, core_settle, keep_abortReads, keep_abortOrigs, core_abandonWork]

theorem keep_loseWrites (s : State) : keep (loseWrites s) = keep s := by
  simp only [loseWrites, keep_mk, keep_self, keep_foldl, implies_true, keep_finishMem, keep_refuseEnt, keep_abortReads]

theorem keep_renewCatalogue (s : State) : keep (renewCatalogue s) = keep s := by rfl

theorem keep_setRenew (s : State) : keep (setRenew s) = keep s := by rfl

theorem keep_dropDirty (s : State) (x : Nat × Nat × CtrLine) : keep (dropDirty s x) = keep s := by
  unfold dropDirty
  split <;> simp only [keep_mk, keep_self, keep_setCtr]

theorem keep_flushCounters (s : State) : keep (flushCounters s) = keep s := by
  unfold flushCounters
  dsimp only
  have hd : keep (s.ime.dirty.foldl (fun s x =>
      match anyRegion s x.1 with
      | none => s
      | some r =>
        let p := memPort s (treeLine s r 0 x.2.1)
        if portWrites s p then writeCtr s x.1 r x.2.1 (shelveClass s) else dropDirty s x) s) = keep s := by
    rw [keep_foldl]
    intro s x
    split
    · rfl
    · simp only [apply_ite keep, keep_writeCtr, keep_dropDirty, ite_self]
  simp only [apply_ite keep, keep_setRenew, keep_mk, keep_self, keep_foldl, keep_emit, implies_true, ite_self]
  exact hd

theorem keep_recordLoss (s : State) : keep (recordLoss s) = keep s := by
  simp only [recordLoss, apply_ite keep, ite_self, keep_foldl, implies_true, keep_record]

theorem keep_clearIle (s : State) : keep (clearIle s) = keep s := by
  simp only [clearIle, keep_mk, keep_self, keep_foldl, implies_true, keep_freeOrig]

theorem keep_clearIme (s : State) : keep (clearIme s) = keep s := by rfl

theorem keep_clearSre (s : State) : keep (clearSre s) = keep s := by
  simp only [clearSre, keep_mk, keep_self, keep_foldl, implies_true, keep_endFlight]

theorem keep_chrDrop (s : State) (c : Code) : keep (chrDrop s c) = keep s := by
  unfold chrDrop
  split <;> simp only [keep_mk, keep_self, keep_chrAbandon]

theorem keep_continuity (s : State) (ev : Nat) (held : List Bool) : keep (continuity s ev held) = keep s := by rfl

/-! ### Measurements -/

theorem keep_freeze (s : State) : keep (freeze s) = keep s := by
  simp only [freeze, keep_mk, keep_self, apply_ite keep, ite_self]

/-! ### Starts, tamper, clocks -/

theorem keep_startFlags (s : State) (last : Nat) : keep (startFlags s last) = keep s := by rfl

theorem core_stepsC8 (s : State) (bad : List Nat) : (keep (stepsC8 s bad)).1 = (keep s).1 := by
  simp only [stepsC8, keep_mk, keep_self, keep_selectSlot, keep_applyGlobal, keep_chooseLanes, core_releasePorts]

theorem keep_countBoot (s : State) (flashOk : Bool) : keep (countBoot s flashOk) = keep s := by
  simp only [countBoot, keep_mk, keep_self, apply_ite keep, ite_self, keep_emit, keep_flashFail]

theorem keep_startReady (s : State) : keep (startReady s) = keep s := by
  simp only [startReady, keep_mk, keep_self, apply_ite keep, ite_self, keep_endRung]

theorem keep_tamperOrigs (s : State) : keep (tamperOrigs s) = keep s := by
  unfold tamperOrigs
  dsimp only
  rw [keep_foldl, keep_abortOrigs]
  intro s x
  split
  · exact (keep_origFab ..).trans (keep_freeOrig ..)
  · exact keep_freeOrig ..

theorem keep_tamperEnts (s : State) : keep (tamperEnts s) = keep s := by
  simp only [tamperEnts, keep_mk, keep_self, keep_foldl, implies_true, keep_finishMem, keep_refuseEnt, keep_abortReads]

theorem keep_tamperWaits (s : State) : keep (tamperWaits s) = keep s := by
  simp only [tamperWaits, keep_mk, keep_self, apply_ite keep, ite_self, keep_raiseIrq]

theorem keep_memPortIn (s : State) (p : Nat) : keep (memPortIn s p) = keep s := by rfl

theorem core_lnkPortIn (s : State) (e : Nat) : (keep (lnkPortIn s e)).1 = (keep s).1 := by
  simp only [lnkPortIn, keep_enterReset, keep_setLnkPin, keep_setLport, core_portDown]

theorem core_lnkPortInOnly (s : State) (e : Nat) : (keep (lnkPortInOnly s e)).1 = (keep s).1 := by
  simp only [lnkPortInOnly, apply_ite keep, ite_self, keep_setLport, core_lnkPortIn]

theorem core_portIn (s : State) (q : Nat) : (keep (portIn s q)).1 = (keep s).1 := by
  simp only [portIn, apply_ite keep, apply_ite Prod.fst, ite_self, keep_memPortIn, core_lnkPortInOnly]

theorem keep_hostClear (s : State) : keep (hostClear s) = keep s := by
  simp only [hostClear, keep_mk, keep_self, keep_chrFinish]

theorem keep_resetDom (s : State) (d : Nat) : keep (resetDom s d) = keep s := by rfl

theorem core_portsFollow (s : State) : (keep (portsFollow s)).1 = (keep s).1 := by
  simp only [portsFollow, keep_mk, keep_self, keep_foldl, implies_true, keep_startRung, core_releaseWaiting]

theorem keep_coreRestart (s : State) (bad : List Nat) : keep (coreRestart s bad) = keep s := by
  simp only [coreRestart, keep_mk, keep_self, keep_foldl, implies_true, keep_exitReset, keep_startCredits, keep_selectSlot, keep_chooseLanes,
    keep_resetDom]

/-! ### Resets and watchdogs -/

theorem keep_setPhase (s : State) (rung port : Nat) (ph : RstPhase) (e : StartIn) : keep (setPhase s rung port ph e) = keep s := by rfl

theorem keep_requestRung (s : State) (rung port : Nat) : keep (requestRung s rung port) = keep s := by
  simp only [requestRung, apply_ite keep, ite_self, keep_startRung]

theorem keep_reissue (s : State) (p : Nat) : keep (reissue s p) = keep s := by rfl

theorem core_portReset (s : State) (q : Nat) : (keep (portReset s q)).1 = (keep s).1 := by
  unfold portReset
  dsimp only
  (repeat' split) <;> simp only [core_portOut, core_portIn, keep_setPhase, keep_requestRung, keep_reissue]

theorem keep_hostReset (s : State) : keep (hostReset s) = keep s := by
  unfold hostReset
  dsimp only
  (repeat' split) <;> simp only [keep_exitReset, keep_endRung, keep_hostClear, keep_resetDom, keep_requestRung]

theorem core_coreResume (s : State) (bad : List Nat) : (keep (coreResume s bad)).1 = (keep s).1 := by
  simp only [coreResume, keep_mk, keep_self, keep_recordPlain, keep_endRung, keep_continuity, core_portsFollow, keep_coreRestart]

theorem core_resetAll (s : State) : (keep (resetAll s)).1 = (keep s).1 := by
  simp only [resetAll, keep_foldl, core_foldl, implies_true, keep_exitReset, keep_memPortIn, core_lnkPortIn, keep_resetDom]

theorem core_warmResume (s : State) (bad : List Nat) : (keep (warmResume s bad)).1 = (keep s).1 := by
  unfold warmResume
  split <;> simp only [keep_exitReset, keep_recordPlain, keep_rebuildAcc, keep_continuity, core_stepsC8, keep_setPhase]

theorem core_coreReturns (s : State) (bad : List Nat) : (keep (coreReturns s bad)).1 = (keep s).1 := by
  unfold coreReturns
  split <;> simp only [apply_ite keep, apply_ite Prod.fst, ite_self, core_portsFollow, keep_coreRestart, core_coreResume, core_warmResume]

theorem core_coreWarmReset (s : State) (e : StartIn) : (keep (coreWarmReset s e)).1 = (keep s).1 := by
  unfold coreWarmReset
  dsimp only
  (repeat' split) <;> simp only [core_beginDrain, keep_setPhase, keep_requestRung]

theorem core_blockWarmRecovery (s : State) (e : StartIn) : (keep (blockWarmRecovery s e)).1 = (keep s).1 := by
  unfold blockWarmRecovery
  dsimp only
  (repeat' split) <;> simp only [core_beginDrain, keep_setPhase, keep_requestRung]

theorem keep_rungExpiry (s : State) (rung port : Nat) : keep (rungExpiry s rung port) = keep s := by
  simp only [rungExpiry, apply_ite keep, ite_self, keep_recordPlain, keep_startRung, keep_endRung]

theorem keep_watchdogHang (s : State) (w : Nat) : keep (watchdogHang s w) = keep s := by
  simp only [watchdogHang, apply_ite keep, ite_self, keep_record, keep_startRung]

theorem keep_dumpTimeout (s : State) (unit got : Nat) : keep (dumpTimeout s unit got) = keep s := by
  unfold dumpTimeout
  split <;> simp only [keep_mk, keep_self, apply_ite keep, ite_self]

theorem keep_dumpCopy (s : State) (flashOk : Bool) : keep (dumpCopy s flashOk) = keep s := by
  simp only [dumpCopy, apply_ite keep, ite_self, keep_copyDump]

theorem keep_unstall (s : State) : keep (unstall s) = keep s := by
  unfold unstall
  split <;> simp only [keep_mk, keep_self, apply_ite keep, ite_self]

theorem keep_annalsWrite (s : State) (flashOk : Bool) : keep (annalsWrite s flashOk) = keep s := by
  unfold annalsWrite
  split <;> simp only [keep_mk, keep_self, apply_ite keep, ite_self, keep_emit, keep_flashFail, keep_unstall]

theorem keep_hourTick (s : State) (flashOk : Bool) : keep (hourTick s flashOk) = keep s := by
  simp only [hourTick, keep_mk, keep_self, apply_ite keep, ite_self, keep_emit, keep_flashFail]

theorem core_flashOpFails (s : State) : (keep (flashOpFails s)).1 = (keep s).1 := by
  simp only [flashOpFails, apply_ite keep, apply_ite Prod.fst, ite_self, core_charterStored, keep_dumpCopy, keep_annalsWrite]

theorem core_flashGrantLost (s : State) : (keep (flashGrantLost s)).1 = (keep s).1 := by
  simp only [flashGrantLost, core_flashOpFails]

/-! ### Attestation commands -/

theorem keep_attEnd (r : AttRes) : keep (attEnd r) = keep r.2.2 := by
  simp only [attEnd, apply_ite keep, keep_raiseIrq, keep_mk, keep_self, ite_self]

theorem keep_attNo (s : State) (c : Code) : keep (attNo s c).2.2 = keep s := by rfl

theorem keep_attDone (s : State) : keep (attDone s).2.2 = keep s := by rfl

theorem keep_attResult (s : State) (archivist : Bool) (m : MemIn) (f : List Byte → State → MemIn → AttRes)
    (hf : ∀ b s m, keep (f b s m).2.2 = keep s) : keep (attResult s archivist m f).2.2 = keep s := by
  unfold attResult
  split
  · rfl
  · split
    · rfl
    · split
      · rfl
      · split
        · next he => exact keep_of_eq he (keep_ctlRead ..)
        · next he =>
          simp only [apply_ite Prod.snd, apply_ite keep, hf, keep_attNo, keep_of_eq he (keep_ctlRead ..), ite_self]

theorem core_attResult (s : State) (archivist : Bool) (m : MemIn) (f : List Byte → State → MemIn → AttRes)
    (hf : ∀ b s m, (keep (f b s m).2.2).1 = (keep s).1) : (keep (attResult s archivist m f).2.2).1 = (keep s).1 := by
  unfold attResult
  split
  · rfl
  · split
    · rfl
    · split
      · rfl
      · split
        · next he => exact congrArg Prod.fst (keep_of_eq he (keep_ctlRead ..))
        · next he =>
          simp only [apply_ite Prod.snd, apply_ite Prod.fst, apply_ite keep, hf, keep_attNo, keep_of_eq he (keep_ctlRead ..), ite_self]

theorem keep_attCmd (s : State) (archivist : Bool) (m : MemIn) (f : List Byte → State → MemIn → AttRes)
    (hf : ∀ b s m, keep (f b s m).2.2 = keep s) : keep (attCmd s archivist m f) = keep s := by
  simp only [attCmd, apply_ite keep, keep_raiseIrq, keep_mk, keep_self, keep_attEnd, keep_attResult s archivist m f hf, ite_self]

theorem core_attCmd (s : State) (archivist : Bool) (m : MemIn) (f : List Byte → State → MemIn → AttRes)
    (hf : ∀ b s m, (keep (f b s m).2.2).1 = (keep s).1) : (keep (attCmd s archivist m f)).1 = (keep s).1 := by
  simp only [attCmd, apply_ite keep, apply_ite Prod.fst, keep_raiseIrq, keep_mk, keep_self, keep_attEnd, core_attResult s archivist m f hf,
    ite_self]

theorem core_attSeed (b : List Byte) (job : AttJob) (f : List Byte → State → MemIn → AttRes) (s : State) (m : MemIn)
    (hf : (keep (f b s m).2.2).1 = (keep s).1) : (keep (attSeed b job f s m).2.2).1 = (keep s).1 := by
  simp only [attSeed, apply_ite Prod.snd, apply_ite Prod.fst, apply_ite keep, hf, keep_attNo, keep_mk, keep_self, ite_self]

theorem keep_attIn (b : List Byte) (ok : Nat → Bool) (f : List Byte → State → MemIn → AttRes) (s : State) (m : MemIn)
    (hf : ∀ x s m, keep (f x s m).2.2 = keep s) : keep (attIn b ok f s m).2.2 = keep s := by
  unfold attIn
  split
  · rfl
  · split
    · next he => exact keep_of_eq he (keep_ctlRead ..)
    · next he => exact (hf ..).trans (keep_of_eq he (keep_ctlRead ..))

theorem core_attIn (b : List Byte) (ok : Nat → Bool) (f : List Byte → State → MemIn → AttRes) (s : State) (m : MemIn)
    (hf : ∀ x s m, (keep (f x s m).2.2).1 = (keep s).1) : (keep (attIn b ok f s m).2.2).1 = (keep s).1 := by
  unfold attIn
  split
  · rfl
  · split
    · next he => exact congrArg Prod.fst (keep_of_eq he (keep_ctlRead ..))
    · next he => exact (hf ..).trans (congrArg Prod.fst (keep_of_eq he (keep_ctlRead ..)))

theorem core_attOut (b out : List Byte) (k : State → State) (s : State) (m : MemIn) (hk : ∀ s, (keep (k s)).1 = (keep s).1) :
    (keep (attOut b out k s m).2.2).1 = (keep s).1 := by
  unfold attOut
  split
  · rfl
  · split
    · next he => exact core_of_eq he (core_ctlWrite ..)
    · next he => exact (hk _).trans (core_of_eq he (core_ctlWrite ..))

theorem keep_attLogged (s : State) (name : String) (store : Flash → Flash) (i : AccInfo) (flashOk : Bool) (k : State → State)
    (hk : ∀ s, keep (k s) = keep s) : keep (attLogged s name store i flashOk k).2.2 = keep s := by
  simp only [attLogged, apply_ite Prod.snd, apply_ite keep, keep_attNo, keep_flashFail, keep_attDone, hk, keep_accAppend, keep_userKeyed, keep_emit,
    keep_mk, keep_self, ite_self]

theorem core_retryUnlisted (s : State) (e : Nat) : (keep (retryUnlisted s e)).1 = (keep s).1 := by
  simp only [retryUnlisted, apply_ite keep, apply_ite Prod.fst, ite_self, core_startHello]

theorem core_rosterChange (s t : State) : (keep (rosterChange s t)).1 = (keep t).1 := by
  simp only [rosterChange, apply_ite keep, apply_ite Prod.fst, core_foldl, core_retryUnlisted, implies_true, keep_mk, keep_self, ite_self]

theorem core_enlistEntry (s : State) (t : Tbl (List Byte)) (ix : Nat) : (keep (enlistEntry s t ix)).1 = (keep s).1 := by
  unfold enlistEntry
  dsimp only
  exact (core_rosterChange ..).trans rfl

theorem keep_takeNonce (s : State) (n : List Byte) : keep (takeNonce s n).2 = keep s := by rfl

theorem core_enlist (b : List Byte) (xx : State) (yx : MemIn) : (keep (enlist b xx yx).2.2).1 = (keep xx).1 := by
  refine core_attIn _ _ _ _ _ fun c s m => ?_
  split
  · rfl
  · dsimp only
    split
    · exact congrArg Prod.fst (keep_takeNonce ..)
    · split
      · exact congrArg Prod.fst (keep_takeNonce ..)
      · split
        · exact (core_enlistEntry ..).trans (congrArg Prod.fst (keep_takeNonce ..))
        · exact congrArg Prod.fst (keep_takeNonce ..)

theorem core_drawNonce (b : List Byte) (s : State) (m : MemIn) : (keep (drawNonce b s m).2.2).1 = (keep s).1 := by
  unfold drawNonce
  dsimp only
  refine (core_attOut _ _ _ _ _ ?_).trans (congrArg Prod.fst (keep_drbgTake ..))
  exact fun _ => rfl

theorem core_enlistNonce (b : List Byte) (s : State) (m : MemIn) : (keep (enlistNonce b s m).2.2).1 = (keep s).1 := by
  simp only [enlistNonce, core_attSeed, core_drawNonce]

theorem keep_nonceExpire (s : State) (pos : Nat) : keep (nonceExpire s pos) = keep s := by
  simp only [nonceExpire, keep_mk, keep_self, apply_ite keep, ite_self]

theorem core_delist (b : List Byte) (s : State) (x21 : MemIn) : (keep (delist b s x21).2.2).1 = (keep s).1 := by
  simp only [delist, apply_ite Prod.snd, apply_ite Prod.fst, apply_ite keep, keep_attNo, keep_attDone, core_rosterChange, keep_mk, keep_self,
    ite_self]

theorem core_lockAdmission (x1 : List Byte) (s : State) (x21 : MemIn) : (keep (lockAdmission x1 s x21).2.2).1 = (keep s).1 := by
  exact (core_rosterChange ..).trans rfl

theorem core_rosterSign (b : List Byte) (s : State) (m : MemIn) : (keep (rosterSign b s m).2.2).1 = (keep s).1 := by
  unfold rosterSign
  split
  · rfl
  · simp only [apply_ite Prod.snd, apply_ite Prod.fst, apply_ite keep, keep_attNo, core_attOut, id_eq, implies_true, ite_self]

theorem core_rosterPort (own : Bool) (s : State) (e : Nat) : (keep (rosterPort own s e)).1 = (keep s).1 := by
  simp only [rosterPort, apply_ite keep, apply_ite Prod.fst, ite_self, keep_startRung, core_retryUnlisted]

theorem core_rosterTake (s : State) (r : List Byte) : (keep (rosterTake s r)).1 = (keep s).1 := by
  simp only [rosterTake, keep_mk, keep_self, core_foldl, implies_true, core_rosterPort]

theorem core_rosterLoad (b : List Byte) (xx : State) (yx : MemIn) : (keep (rosterLoad b xx yx).2.2).1 = (keep xx).1 := by
  simp only [rosterLoad, apply_ite keep, apply_ite Prod.fst, apply_ite Prod.snd, ite_self, implies_true, keep_attNo, keep_attDone, core_attIn,
    core_rosterTake]

theorem keep_appointTake (s : State) : keep (appointTake s) = keep s := by rfl

theorem keep_appoint (flashOk : Bool) (b : List Byte) (xx : State) (yx : MemIn) : keep (appoint flashOk b xx yx).2.2 = keep xx := by
  simp only [appoint, apply_ite keep, apply_ite Prod.snd, ite_self, implies_true, keep_attNo, keep_attIn, keep_attLogged, keep_appointTake]

theorem keep_wrapRecord (s : State) (kind tenant gen : Nat) (mk : Masks) (kex : List Byte) (key : BitVec 256) :
    keep (wrapRecord s kind tenant gen mk kex key).2 = keep s := by
  simp only [wrapRecord, keep_drbgTake]

theorem core_drawWrap (slot half tenant gen : Nat) (mk : Masks) (kex b : List Byte) (s : State) (m : MemIn) :
    (keep (drawWrap slot half tenant gen mk kex b s m).2.2).1 = (keep s).1 := by
  unfold drawWrap
  split <;> simp only [implies_true, id_eq, keep_attNo, core_attOut, keep_wrapRecord]

theorem core_wrapDomain (b : List Byte) (xx : State) (yx : MemIn) : (keep (wrapDomain b xx yx).2.2).1 = (keep xx).1 := by
  refine core_attIn _ _ _ _ _ fun kex s m => ?_
  dsimp only
  split
  · rfl
  · split
    · rfl
    · split
      · rfl
      · split
        · rfl
        · exact core_attSeed _ _ _ _ _ (core_drawWrap ..)

theorem core_drawPair (tenant gen : Nat) (kex b : List Byte) (s : State) (m : MemIn) : (keep (drawPair tenant gen kex b s m).2.2).1 = (keep s).1 := by
  simp only [drawPair, implies_true, id_eq, keep_drbgTake, core_attOut, keep_wrapRecord]

theorem core_genPair (b : List Byte) (xx : State) (yx : MemIn) : (keep (genPair b xx yx).2.2).1 = (keep xx).1 := by
  simp only [genPair, apply_ite keep, apply_ite Prod.fst, apply_ite Prod.snd, ite_self, implies_true, keep_attNo, core_attSeed, core_attIn,
    core_drawPair]

theorem core_rekeyTake (s : State) (epoch : Nat) : (keep (rekeyTake s epoch)).1 = (keep s).1 := by
  simp only [rekeyTake, keep_mk, keep_self, core_foldl, implies_true, core_startRekey]

theorem core_rekeyIssue (b : List Byte) (s : State) (m : MemIn) : (keep (rekeyIssue b s m).2.2).1 = (keep s).1 := by
  unfold rekeyIssue
  split <;> simp only [implies_true, keep_attNo, core_attOut, core_rekeyTake]

theorem core_rekeyApply (b : List Byte) (xx : State) (yx : MemIn) : (keep (rekeyApply b xx yx).2.2).1 = (keep xx).1 := by
  simp only [rekeyApply, apply_ite keep, apply_ite Prod.fst, apply_ite Prod.snd, ite_self, implies_true, keep_attNo, keep_attDone, core_attIn,
    core_rekeyTake]

theorem keep_fwLoad (stage flashOk : Bool) (b : List Byte) (xx : State) (yx : MemIn) : keep (fwLoad stage flashOk b xx yx).2.2 = keep xx := by
  refine keep_attIn _ _ _ _ _ fun st s m => ?_
  dsimp only
  split
  · rfl
  · split
    · rfl
    · split
      · next he => exact keep_of_eq he (keep_ctlRead ..)
      · next he =>
        have ht := keep_of_eq he (keep_ctlRead ..)
        split
        · exact ht
        · split
          · exact ht
          · refine (keep_attLogged _ _ _ _ _ _ fun s => ?_).trans ht
            split <;> rfl

theorem keep_fwActivate (b : List Byte) (s : State) (x21 : MemIn) : keep (fwActivate b s x21).2.2 = keep s := by
  unfold fwActivate
  (repeat' split) <;> simp only [keep_mk, keep_self, keep_attNo, keep_attDone]

theorem keep_fwAbandon (b : List Byte) (s : State) (x21 : MemIn) : keep (fwAbandon b s x21).2.2 = keep s := by
  simp only [fwAbandon, keep_mk, keep_self, apply_ite keep, apply_ite Prod.snd, ite_self, keep_attNo, keep_attDone]

theorem keep_endorse (flashOk : Bool) (b : List Byte) (xx : State) (yx : MemIn) : keep (endorse flashOk b xx yx).2.2 = keep xx := by
  refine keep_attIn _ _ _ _ _ fun r s m => ?_
  dsimp only
  split
  · rfl
  · split
    · simp only [apply_ite Prod.snd, apply_ite keep, keep_attNo, keep_attLogged, id_eq, implies_true, ite_self]
    · rfl
    · rfl

theorem keep_certStore (flashOk : Bool) (b : List Byte) (xx : State) (yx : MemIn) : keep (certStore flashOk b xx yx).2.2 = keep xx := by
  refine keep_attIn _ _ _ _ _ fun c s m => ?_
  split
  · simp only [apply_ite Prod.snd, apply_ite keep, keep_attNo, keep_attDone, keep_flashFail, keep_emit, keep_userKeyed, keep_mk, keep_self, ite_self]
  · rfl

/-! ### Check failures -/

theorem core_jobCheck (s : State) (id : Nat) (ghash twice : Bool) : (keep (jobCheck s id ghash twice)).1 = (keep s).1 := by
  unfold jobCheck
  split <;> simp only [apply_ite keep, apply_ite Prod.fst, ite_self, keep_checkRecord, core_endJob]

theorem keep_derivationFails (s : State) (h : KeyHandle) (c : Code) : keep (derivationFails s h c) = keep s := by
  simp only [derivationFails, keep_foldl, implies_true, keep_noKey]

theorem core_keyCheckFails (s : State) (twice : Bool) : (keep (keyCheckFails s twice)).1 = (keep s).1 := by
  unfold keyCheckFails
  dsimp only
  (repeat' split) <;> simp only [keep_mk, keep_self, keep_checkRecord, core_afterMem, keep_keyEnd, keep_derivationFails]

theorem core_frameCheck (s : State) (e : Nat) (out twice : Bool) : (keep (frameCheck s e out twice)).1 = (keep s).1 := by
  simp only [frameCheck, apply_ite keep, apply_ite Prod.fst, ite_self, keep_checkRecord, keep_startRung, core_sendNak]

theorem keep_arrayRecord (s : State) (u holder act : Nat) (rsn : Code) (who : Option Who) (detail : Nat) :
    keep (arrayRecord s u holder act rsn who detail) = keep s := by
  simp only [arrayRecord, keep_record]

theorem keep_cleanLost (s : State) (unit entry : Nat) : keep (cleanLost s unit entry) = keep s := by
  unfold cleanLost
  dsimp only
  (repeat' split) <;> simp only [keep_mk, keep_self, keep_arrayRecord]

theorem keep_counterLost (s : State) (ix page : Nat) : keep (counterLost s ix page) = keep s := by
  unfold counterLost
  split <;> simp only [keep_mk, keep_self, apply_ite keep, ite_self, keep_setCtr, keep_renewCatalogue, keep_arrayRecord]

theorem core_halfLost (s : State) (slot half : Nat) : (keep (halfLost s slot half)).1 = (keep s).1 := by
  unfold halfLost
  split <;> simp only [apply_ite keep, apply_ite Prod.fst, ite_self, core_zeroHalf, core_afterMem, core_jobsRevoked, keep_arrayRecord]

theorem core_requestLost (s : State) (seq : Nat) : (keep (requestLost s seq)).1 = (keep s).1 := by
  unfold requestLost
  split <;> simp only [apply_ite keep, ite_self, keep_dropEnt, keep_refuseEnt, keep_blkLine, core_afterMem, keep_arrayRecord]

theorem keep_coreLost (s : State) (unit : Nat) : keep (coreLost s unit) = keep s := by
  simp only [coreLost, keep_startRung, keep_arrayRecord]

theorem keep_fifoParity (s : State) (d : Nat) : keep (fifoParity s d) = keep s := by
  simp only [fifoParity, apply_ite keep, ite_self, keep_recordPlain, keep_startRung]

theorem core_upsetTakes (s : State) (q : Nat) (xx : Upset) : (keep (upsetTakes s q xx)).1 = (keep s).1 := by
  unfold upsetTakes
  (repeat' split) <;> simp only [keep_mk, keep_self, keep_recordPlain, keep_startRung, core_abortColl, core_collCheck, core_cutFails, core_endJob,
    core_endOrig, core_jobCheck, core_keyCheckFails, core_frameCheck, keep_arrayRecord, keep_cleanLost, keep_counterLost, core_halfLost,
      core_requestLost, keep_coreLost, keep_fifoParity]

theorem core_portCycle (s : State) (q : Nat) (u : Upset) : (keep (portCycle s q u)).1 = (keep s).1 := by
  simp only [portCycle, apply_ite keep, apply_ite Prod.fst, ite_self, keep_portSelect, core_endFailed, core_upsetTakes]

/-! ### IDE streams -/

theorem keep_ideBind (b : List Byte) (xx : State) (yx : MemIn) : keep (ideBind b xx yx).2.2 = keep xx := by
  simp only [ideBind, keep_mk, keep_self, apply_ite keep, apply_ite Prod.snd, ite_self, implies_true, keep_attNo, keep_attDone, keep_attIn]

theorem core_idePlace (k stream : Nat) (key : BitVec 256) (s : State) : (keep (idePlace k stream key s)).1 = (keep s).1 := by
  simp only [idePlace, keep_mk, keep_self, apply_ite keep, apply_ite Prod.fst, ite_self, core_fillSlot, core_stageHalf]

theorem core_drawKeyex (k arg : Nat) (r b : List Byte) (s : State) (m : MemIn) : (keep (drawKeyex k arg r b s m).2.2).1 = (keep s).1 := by
  unfold drawKeyex
  split <;> simp only [implies_true, keep_drbgTake, keep_attNo, core_attOut, core_idePlace]

theorem core_ideKeyex (b : List Byte) (xx : State) (yx : MemIn) : (keep (ideKeyex b xx yx).2.2).1 = (keep xx).1 := by
  simp only [ideKeyex, apply_ite keep, apply_ite Prod.fst, apply_ite Prod.snd, ite_self, implies_true, keep_attNo, core_attSeed, core_attIn,
    core_drawKeyex]

theorem keep_ideRecord (s : State) (k stream set : Nat) (recv : BitVec 768) (keys : List Byte) :
    keep (ideRecord s k stream set recv keys).2 = keep s := by
  simp only [ideRecord, keep_drbgTake]

theorem core_drawDeliver (k h set : Nat) (b : List Byte) (s : State) (m : MemIn) : (keep (drawDeliver k h set b s m).2.2).1 = (keep s).1 := by
  unfold drawDeliver
  split
  · dsimp only
    refine (core_attOut _ _ _ _ _ ?_).trans (congrArg Prod.fst (keep_ideRecord ..))
    exact fun _ => rfl
  · rfl

theorem core_ideDeliver (b : List Byte) (s : State) (m : MemIn) : (keep (ideDeliver b s m).2.2).1 = (keep s).1 := by
  unfold ideDeliver
  dsimp only
  (repeat' split) <;> simp only [keep_attNo, core_attSeed, core_drawDeliver]

theorem core_ideSwitch (b : List Byte) (s : State) (x21 : MemIn) : (keep (ideSwitch b s x21).2.2).1 = (keep s).1 := by
  simp only [ideSwitch, apply_ite keep, apply_ite Prod.fst, apply_ite Prod.snd, ite_self, core_activateHalf, core_retireHalf, keep_genReached,
    keep_attNo, keep_attDone]

theorem core_ideClose (b : List Byte) (s : State) (x21 : MemIn) : (keep (ideClose b s x21).2.2).1 = (keep s).1 := by
  unfold ideClose
  split
  · rfl
  · exact core_emptySlot s (ideSlot (aoArg b))

/-! ### Life-cycle commands -/

theorem keep_lcsEnd (s : State) (c : Code) : keep (lcsEnd s c) = keep s := by rfl

theorem keep_askBlow (s : State) (a : LcsAct) : keep (askBlow s a) = keep s := by
  unfold askBlow
  split <;> simp only [keep_mk, keep_self, keep_emit]

theorem keep_t3 (s : State) (b : List Byte) (flashOk : Bool) : keep (t3 s b flashOk) = keep s := by
  unfold t3
  dsimp only
  (repeat' split) <;> simp only [keep_mk, keep_self, keep_emit, keep_flashFail, keep_startRung, keep_accWrite, keep_lcsEnd]

theorem keep_t2 (s : State) (b : List Byte) (flashOk : Bool) : keep (t2 s b flashOk) = keep s := by
  simp only [t2, keep_mk, keep_self, apply_ite keep, ite_self, keep_drbgTake, keep_lcsEnd, keep_askBlow]

theorem keep_transition (s : State) (b : List Byte) (flashOk : Bool) : keep (transition s b flashOk) = keep s := by
  simp only [transition, apply_ite keep, ite_self, keep_lcsEnd, keep_t3, keep_t2]

theorem keep_lcsLogged (s : State) (i : AccInfo) (flashOk : Bool) (k : State → State) (hk : ∀ s, keep (k s) = keep s) :
    keep (lcsLogged s i flashOk k) = keep s := by
  simp only [lcsLogged, apply_ite keep, keep_lcsEnd, hk, keep_accAppend, ite_self]

theorem keep_debugEnable (s : State) (b : List Byte) (flashOk : Bool) : keep (debugEnable s b flashOk) = keep s := by
  simp only [debugEnable, keep_mk, keep_self, apply_ite keep, ite_self, implies_true, keep_startRung, keep_lcsEnd, keep_lcsLogged]

theorem keep_raiseFloor (s : State) (b : List Byte) (flashOk : Bool) : keep (raiseFloor s b flashOk) = keep s := by
  simp only [raiseFloor, apply_ite keep, ite_self, implies_true, keep_lcsEnd, keep_askBlow, keep_lcsLogged]

theorem keep_clearStanding (s : State) (arg : Nat) : keep (clearStanding s arg) = keep s := by rfl

theorem keep_clearStandingAct (s : State) (b : List Byte) (flashOk : Bool) : keep (clearStandingAct s b flashOk) = keep s := by
  simp only [clearStandingAct, implies_true, keep_lcsEnd, keep_lcsLogged, keep_clearStanding]

theorem keep_debugDisable (s : State) (flashOk : Bool) : keep (debugDisable s flashOk) = keep s := by
  simp only [debugDisable, keep_mk, keep_self, implies_true, keep_startRung, keep_lcsEnd, keep_lcsLogged]

theorem keep_lcsAct (s : State) (b : List Byte) (flashOk : Bool) : keep (lcsAct s b flashOk) = keep s := by
  simp only [lcsAct, apply_ite keep, ite_self, keep_lcsEnd, keep_transition, keep_debugEnable, keep_raiseFloor, keep_clearStandingAct]

theorem keep_lcsTake (s : State) (f : State → State) (hf : ∀ s, keep (f s) = keep s) : keep (lcsTake s f) = keep s := by
  simp only [lcsTake, apply_ite keep, keep_lcsEnd, hf, keep_mk, keep_self, ite_self]

theorem keep_lcsSubmit (s : State) (source : Bool) (m : MemIn) (flashOk : Bool) : keep (lcsSubmit s source m flashOk) = keep s := by
  refine keep_lcsTake _ _ fun s => ?_
  split
  · exact keep_lcsAct ..
  · split
    · exact keep_lcsEnd ..
    · split
      · next he => exact (keep_lcsEnd ..).trans (keep_of_eq he (keep_ctlRead ..))
      · next he => exact (keep_lcsAct ..).trans (keep_of_eq he (keep_ctlRead ..))

theorem keep_lcsCmd (s : State) (v : Word) (m : MemIn) (flashOk : Bool) : keep (lcsCmd s v m flashOk) = keep s := by
  simp only [lcsCmd, apply_ite keep, ite_self, implies_true, keep_lcsEnd, keep_debugDisable, keep_lcsTake, keep_lcsSubmit]

theorem keep_blowsDone (s : State) (a : LcsAct) : keep (blowsDone s a) = keep s := by
  simp only [blowsDone, apply_ite keep, ite_self, keep_lcsEnd, keep_t3]

/-! ### Register writes -/

theorem keep_commitEnd (s : State) (pair port code : Nat) : keep (commitEnd s pair port code) = keep s := by rfl

theorem keep_commitSre (s : State) : keep (commitSre s) = keep s := by
  simp only [commitSre, keep_mk, keep_self, apply_ite keep, ite_self, keep_commitEnd]

theorem keep_commitShape (s : State) (q : Nat) : keep (commitShape s q) = keep s := by
  simp only [commitShape, apply_ite keep, ite_self, keep_setLport, keep_commitEnd]

theorem keep_commitWrite (s : State) (v : Word) : keep (commitWrite s v) = keep s := by
  simp only [commitWrite, apply_ite keep, ite_self, keep_commitEnd, keep_commitSre, keep_commitShape]

theorem keep_snapReg (s : State) (base words v : Nat) : keep (snapReg s base words v) = keep s := by rfl

theorem keep_regRead (s : State) (off : Nat) : keep (regRead s off).2 = keep s := by
  unfold regRead
  (repeat' split) <;> simp only [keep_snapReg]

theorem keep_setFields (s : State) (off old new : Nat) (fs : List RegField) (k : State → Nat → State) (hk : ∀ n, keep (k s n) = keep s) :
    keep (setFields s off old new fs k) = keep s := by
  simp only [setFields, apply_ite keep, keep_ignoreWrite, hk, ite_self]

theorem core_keyCmd (s : State) (v : Word) (m : MemIn) : (keep (keyCmd s v m)).1 = (keep s).1 := by
  simp only [keyCmd, apply_ite keep, apply_ite Prod.fst, ite_self, core_keyRun, core_loadWrapped, core_activate, core_retirePrev,
    core_discardStaged, core_zeroise, core_genEphemeral, keep_keyReserved]

theorem core_hobCmd (s : State) (v : Word) (m : MemIn) : (keep (hobCmd s v m)).1 = (keep s).1 := by
  simp only [hobCmd, apply_ite keep, apply_ite Prod.fst, ite_self, keep_hobRun, core_hobRun, keep_ctxCreate, keep_ctxDestroy, keep_switchCtx,
    keep_queueCreate, keep_queueDestroy, keep_eventCreate, keep_eventDestroy, core_objCreate, keep_objAdopt, core_objFree, core_sliceReset]

theorem keep_attReserved (x1 : List Byte) (s : State) (x21 : MemIn) : keep (attReserved x1 s x21).2.2 = keep s := by rfl

theorem keep_resetReq (s : State) (v : Word) : keep (resetReq s v) = keep s := by
  simp only [resetReq, apply_ite keep, ite_self, keep_ignoreWrite, keep_startRung]

theorem keep_dumpCtrl (s : State) (v : Word) : keep (dumpCtrl s v) = keep s := by
  simp only [dumpCtrl, keep_mk, keep_self, apply_ite keep, ite_self, keep_ignoreWrite, keep_takeDump]

theorem keep_fltClear (s : State) (v : Nat) : keep (fltClear s v) = keep s := by rfl

/-! ### The debug path -/

theorem keep_posted (s : State) (ir : Nat) (f : State → State) (hf : ∀ s, keep (f s) = keep s) : keep (posted s ir f) = keep s := by
  simp only [posted, apply_ite keep, hf, keep_mk, keep_self, ite_self]

theorem core_posted (s : State) (ir : Nat) (f : State → State) (hf : ∀ s, (keep (f s)).1 = (keep s).1) :
    (keep (posted s ir f)).1 = (keep s).1 := by
  simp only [posted, apply_ite keep, apply_ite Prod.fst, hf, keep_mk, keep_self, ite_self]

theorem keep_debugReset (s : State) : keep (debugReset s) = keep s := by rfl

theorem keep_mboxCapture (s : State) (status byte : Nat) : keep (mboxCapture s status byte) = keep s := by exact keep_dbg s _

theorem keep_regsCapture (s : State) (off : Nat) (data : Word) (status : Nat) : keep (regsCapture s off data status) = keep s := by exact keep_dbg s _

theorem keep_regsRead (s : State) (off : Nat) : keep (regsRead s off) = keep s := by
  simp only [regsRead, apply_ite keep, ite_self, keep_regRead, keep_regsCapture]

theorem keep_fabdbgOdd (s : State) (reason : Code) : keep (fabdbgOdd s reason) = keep s := by rfl

theorem keep_fabdbgRefuse (s : State) (c : Code) : keep (fabdbgRefuse s c) = keep s := by
  simp only [fabdbgRefuse, keep_finishMem]

theorem core_fabdbg (s : State) (k : MemKind) (shelf : BitVec 24) (addr : BitVec 52) (d : Stored) (m : MemIn) :
    (keep (fabdbg s k shelf addr d m)).1 = (keep s).1 := by
  unfold fabdbg
  extract_lets w port q t
  have ht : keep t = keep s := keep_dbg s _
  clear_value t port
  split
  · exact congrArg Prod.fst (keep_fabdbgOdd ..)
  · split
    · exact congrArg Prod.fst (keep_fabdbgOdd ..)
    · split
      · simp only [keep_fabdbgRefuse, ht]
      · split
        · simp only [keep_fabdbgRefuse, ht]
        · split
          · simp only [keep_fabdbgRefuse, ht]
          · split
            · simp only [keep_fabdbgRefuse, ht]
            · split
              · simp only [keep_fabdbgRefuse, ht]
              · split
                · simp only [keep_fabdbgRefuse, ht]
                · split
                  · next he => simp only [keep_fabdbgRefuse, keep_of_eq he (keep_memGate ..), ht]
                  · next he =>
                    simp only [apply_ite keep, apply_ite Prod.fst, keep_fabdbgRefuse, core_settle, core_fabEntries,
                      keep_of_eq he (keep_memGate ..), ht, ite_self]

theorem keep_scanCore (s : State) : keep (scanCore s) = keep s := by rfl

theorem keep_scanHost (s : State) : keep (scanHost s) = keep s := by rfl

theorem keep_scanRun (s : State) (b : List Bool) : keep (scanRun s b) = keep s := by
  simp only [scanRun, keep_mk, keep_self, apply_ite keep, ite_self, keep_scanCore, keep_scanHost]

/-! ### What waits for a seed -/

theorem core_attDraw (xx : AttJob) (yx : List Byte) (zx : State) (wx : MemIn) : (keep (attDraw xx yx zx wx).2.2).1 = (keep zx).1 := by
  unfold attDraw
  split <;> simp only [core_drawNonce, core_drawWrap, core_drawPair, core_drawKeyex, core_drawDeliver]

theorem core_serveAtt (s : State) : (keep (serveAtt s)).1 = (keep s).1 := by
  unfold serveAtt
  split
  · rfl
  · simp only [keep_attEnd, apply_ite Prod.snd, apply_ite Prod.fst, apply_ite keep, core_attDraw, keep_attNo, keep_mk, keep_self, ite_self]

theorem keep_serveLcs (s : State) : keep (serveLcs s) = keep s := by
  unfold serveLcs
  split <;> simp only [apply_ite keep, ite_self, keep_t2]

theorem core_serveGen (s : State) : (keep (serveGen s)).1 = (keep s).1 := by
  unfold serveGen
  split <;> simp only [keep_keyEnd, core_genNow]

/-- A register write that leaves the core: where it answers a state, that state has the core of the state it was made in. -/
def Leaves (s : State) (o : Option State) : Prop := ∀ t, o = some t → (keep t).1 = (keep s).1

theorem leaves_none (s : State) : Leaves s none := fun _ h => nomatch h

theorem leaves_some {s t : State} (h : (keep t).1 = (keep s).1) : Leaves s (some t) := by
  rintro _ ⟨⟩
  exact h

theorem leaves_ite {s : State} {p : Prop} [Decidable p] {a b : Option State} (ha : Leaves s a) (hb : Leaves s b) :
    Leaves s (if p then a else b) := by
  split
  · exact ha
  · exact hb

theorem leaves_setFields (s : State) (off old new : Nat) (fs : List RegField) (k : State → Nat → State) (hk : ∀ n, keep (k s n) = keep s) :
    Leaves s (some (setFields s off old new fs k)) :=
  leaves_some (congrArg Prod.fst (keep_setFields s off old new fs k hk))

/-! ### Mailboxes: a request handed over, answered or read keeps its bytes -/

theorem keep_setMbx (s : State) (dbg : Bool) {m : Mbx} (h : m.req = (mbxOf s dbg).req) : keep (setMbx s dbg m) = keep s := by
  cases dbg
  · exact congrArg (fun r => ({ (keep s).1 with reqCtl := r }, (keep s).2)) h
  · exact congrArg (fun r => ({ (keep s).1 with reqDbg := r }, (keep s).2)) h

theorem keep_mbxHand (s : State) (dbg : Bool) (len : Nat) : keep (mbxHand s dbg len) = keep s :=
  keep_setMbx s dbg rfl

theorem keep_mbxCtrl (s : State) (v : Word) : keep (mbxCtrl s v) = keep s := by
  have hrel : ∀ t : State, keep t = keep s →
      keep (if bit v.toNat 30 ∧ (mbxOf s false).rspReady then setMbx t false { mbxOf t false with rspReady := false } else t) = keep s :=
    fun t ht => by
      split
      · exact (keep_setMbx t false rfl).trans ht
      · exact ht
  refine hrel _ ?_
  simp only [apply_ite keep, keep_mbxHand, keep_ignoreWrite, ite_self]

theorem keep_mbxRelease (s : State) : keep (mbxRelease s) = keep s := keep_setMbx s false rfl

theorem keep_mboxSend (s : State) : keep (mboxSend s) = keep s := by
  simp only [mboxSend, apply_ite keep, keep_mboxCapture, keep_mbxHand, ite_self]

theorem keep_mboxGet (s : State) : keep (mboxGet s) = keep s := by
  unfold mboxGet
  extract_lets m b
  split
  · exact keep_mboxCapture ..
  · split
    · exact keep_mboxCapture ..
    · exact (keep_mboxCapture ..).trans (keep_setMbx s true rfl)

/-! ### The signer's answers keep the request they answer -/

/-- A reply to a request: its connection holds the same request bytes, and the state keeps what it keeps. -/
def Answers (s : State) (m : Mbx) (r : Reply) : Prop := r.2.1.req = m.req ∧ keep r.2.2 = keep s

theorem answers_spdmError (s : State) (m : Mbx) (c d : Nat) : Answers s m (spdmError s m c d) := ⟨rfl, rfl⟩

theorem answers_ite {s : State} {m : Mbx} {p : Prop} [Decidable p] {a b : Reply} (ha : Answers s m a) (hb : Answers s m b) :
    Answers s m (if p then a else b) := by
  split
  · exact ha
  · exact hb

theorem answers_needsIdentity {s : State} {m : Mbx} {f : BitVec 384 → Reply} (q : List Byte) (h : ∀ d, Answers s m (f d)) :
    Answers s m (needsIdentity s m q f) := by
  unfold needsIdentity
  split
  · exact answers_spdmError ..
  · exact answers_ite (answers_spdmError ..) (h _)

theorem answers_ansVersion (s : State) (m : Mbx) (q : List Byte) : Answers s m (ansVersion s m q) :=
  answers_ite (answers_spdmError ..) (answers_ite ⟨rfl, rfl⟩ ⟨rfl, rfl⟩)

theorem answers_ansCapabilities (s : State) (m : Mbx) (q : List Byte) : Answers s m (ansCapabilities s m q) :=
  answers_ite (answers_spdmError ..) (answers_ite (answers_spdmError ..) (answers_ite (answers_spdmError ..) ⟨rfl, rfl⟩))

theorem answers_ansAlgorithms (s : State) (m : Mbx) (q : List Byte) : Answers s m (ansAlgorithms s m q) :=
  answers_ite (answers_spdmError ..) (answers_ite (answers_spdmError ..) ⟨rfl, rfl⟩)

theorem answers_ansDigests (s : State) (m : Mbx) (q : List Byte) : Answers s m (ansDigests s m q) := by
  refine answers_needsIdentity q fun _ => ?_
  split
  · exact answers_spdmError ..
  · exact ⟨rfl, rfl⟩

theorem answers_ansCertificate (s : State) (m : Mbx) (q : List Byte) : Answers s m (ansCertificate s m q) := by
  refine answers_needsIdentity q fun _ => ?_
  split
  · exact answers_spdmError ..
  · exact answers_ite (answers_spdmError ..) ⟨rfl, rfl⟩

theorem answers_ansChallenge (s : State) (m : Mbx) (q : List Byte) : Answers s m (ansChallenge s m q) :=
  answers_needsIdentity q fun _ => answers_ite (answers_spdmError ..) ⟨rfl, rfl⟩

theorem answers_ansMeasurements (s : State) (m : Mbx) (q : List Byte) : Answers s m (ansMeasurements s m q) :=
  answers_ite (answers_needsIdentity q fun _ => answers_ite (answers_spdmError ..) ⟨rfl, rfl⟩)
    (answers_ite (answers_spdmError ..) (answers_ite (answers_spdmError ..) ⟨rfl, rfl⟩))

theorem answers_ansUnsupported (s : State) (m : Mbx) (q : List Byte) : Answers s m (ansUnsupported s m q) :=
  answers_ite (answers_spdmError ..) (answers_spdmError ..)

theorem mbxOf_of_keep {s t : State} (h : keep t = keep s) (dbg : Bool) : (mbxOf t dbg).req = (mbxOf s dbg).req := by
  have hctl := congrArg (fun c : Core × Tbl Slot => c.1.reqCtl) h
  have hdbg := congrArg (fun c : Core × Tbl Slot => c.1.reqDbg) h
  cases dbg
  · exact hctl
  · exact hdbg

theorem keep_mbxOrder (s : State) (o : List (Bool × Nat)) : keep { s with att := { s.att with mbxOrder := o } } = keep s := rfl

/-- A served mailbox holds the request it held. -/
theorem keep_serve (s : State) (dbg : Bool) (fits : Nat → Bool) {f : State → Mbx → List Byte → Reply}
    (hf : ∀ m q, Answers s m (f s m q)) : keep (serve s dbg fits f) = keep s := by
  obtain ⟨hreq, hkeep⟩ := hf (mbxOf s dbg) (mbxReq (mbxOf s dbg))
  unfold serve
  dsimp only
  generalize f s (mbxOf s dbg) (mbxReq (mbxOf s dbg)) = r at hreq hkeep ⊢
  obtain ⟨b, m, t⟩ := r
  have hset : ∀ n : Mbx, n.req = m.req → keep (setMbx t dbg n) = keep s := fun n hn =>
    (keep_setMbx t dbg (hn.trans (hreq.trans (mbxOf_of_keep hkeep dbg).symm))).trans hkeep
  split
  · rfl
  · split
    · exact (keep_mbxOrder ..).trans (hset _ rfl)
    · exact (keep_raiseIrq ..).trans ((keep_mbxOrder ..).trans (hset _ rfl))

theorem keep_capsule (s : State) (nonce : List Byte) : keep (capsule s nonce).2 = keep s := by
  unfold capsule
  dsimp only
  generalize 0x10 + topVersion (spdmOffer s) = v
  have h1 := (answers_ansVersion s {} [0x10#8, 0x84#8, 0#8, 0#8]).2
  generalize ansVersion s {} [0x10#8, 0x84#8, 0#8, 0#8] = r1 at h1 ⊢
  have h2 := ((answers_ansCapabilities r1.2.2 r1.2.1 (colCaps v)).2).trans h1
  generalize ansCapabilities r1.2.2 r1.2.1 (colCaps v) = r2 at h2 ⊢
  have h3 := ((answers_ansAlgorithms r2.2.2 r2.2.1 (colAlgs v)).2).trans h2
  generalize ansAlgorithms r2.2.2 r2.2.1 (colAlgs v) = r3 at h3 ⊢
  exact ((answers_ansMeasurements ..).2).trans h3

theorem core_colophon (b : List Byte) (s : State) (m : MemIn) : (keep (colophon b s m).2.2).1 = (keep s).1 := by
  refine core_attIn _ _ _ _ _ fun x s m => ?_
  split
  · exact congrArg Prod.fst (keep_attNo ..)
  · exact (core_attOut _ _ _ _ _ fun _ => rfl).trans (congrArg Prod.fst (keep_capsule ..))

/-! ### Register writes -/

theorem leaves_genWrite (s : State) (off v : Nat) (m : MemIn) (base : Nat) : Leaves s (genWrite s off v m base) := by
  unfold genWrite
  refine leaves_ite ?_ <| leaves_ite ?_ <| leaves_ite ?_ <| leaves_ite ?_ <| leaves_ite ?_ <| leaves_ite ?_ <| leaves_ite ?_ <| leaves_ite ?_ <|
    leaves_ite ?_ <| leaves_ite ?_ <| leaves_none s
  · exact leaves_setFields _ _ _ _ _ _ fun _ => rfl
  · exact leaves_setFields _ _ _ _ _ _ fun _ => rfl
  · exact leaves_setFields _ _ _ _ _ _ fun _ => rfl
  · exact leaves_setFields _ _ _ _ _ _ fun _ => rfl
  · refine leaves_some ?_
    simp only [apply_ite keep, keep_charterLoad, ite_self]
  · exact leaves_some (congrArg Prod.fst (keep_funcStopWrite ..))
  · exact leaves_some rfl
  · exact leaves_setFields _ _ _ _ _ _ fun _ => rfl
  · exact leaves_some (congrArg Prod.fst (keep_commitWrite ..))
  · exact leaves_setFields _ _ _ _ _ _ fun _ => rfl

theorem leaves_keyImeWrite (s : State) (off v : Nat) (m : MemIn) (base : Nat) : Leaves s (keyImeWrite s off v m base) := by
  unfold keyImeWrite
  refine leaves_ite ?_ <| leaves_ite ?_ <| leaves_ite ?_ <| leaves_ite ?_ <| leaves_ite ?_ <| leaves_ite ?_ <| leaves_ite ?_ <| leaves_ite ?_ <|
    leaves_ite ?_ <| leaves_ite ?_ <| leaves_none s
  · exact leaves_some (core_keyCmd ..)
  · exact leaves_setFields _ _ _ _ _ _ fun _ => rfl
  · exact leaves_setFields _ _ _ _ _ _ fun _ => rfl
  · exact leaves_setFields _ _ _ _ _ _ fun _ => rfl
  · exact leaves_setFields _ _ _ _ _ _ fun _ => rfl
  · exact leaves_some (core_regionCmd ..)
  · exact leaves_setFields _ _ _ _ _ _ fun _ => rfl
  · exact leaves_setFields _ _ _ _ _ _ fun _ => rfl
  · exact leaves_setFields _ _ _ _ _ _ fun _ => rfl
  · exact leaves_setFields _ _ _ _ _ _ fun _ => rfl

theorem leaves_portWrite (s : State) (off v e k : Nat) : Leaves s (portWrite s off v e k) := by
  unfold portWrite
  refine leaves_ite (leaves_none s) (leaves_ite ?_ (leaves_ite ?_ (leaves_ite ?_ (leaves_ite ?_ (leaves_none s)))))
  · refine leaves_some ?_
    simp only [apply_ite keep, keep_startRung, keep_setLport, ite_self]
  · rintro _ ⟨⟩
    simp only [apply_ite keep, apply_ite Prod.fst, core_startRekey, keep_setFields, keep_setLport, implies_true, ite_self]
  · exact leaves_setFields _ _ _ _ _ _ fun _ => rfl
  · exact leaves_some (congrArg Prod.fst (keep_setLport ..))

theorem leaves_ileWrite (s : State) (off v base : Nat) : Leaves s (ileWrite s off v base) := by
  unfold ileWrite
  refine leaves_ite ?_ (leaves_ite ?_ (leaves_ite ?_ (leaves_ite ?_ (leaves_ite ?_ ?_))))
  · exact leaves_some rfl
  · exact leaves_setFields _ _ _ _ _ _ fun _ => rfl
  · exact leaves_setFields _ _ _ _ _ _ fun _ => rfl
  · exact leaves_some (congrArg Prod.fst (keep_routeWrite ..))
  · exact leaves_setFields _ _ _ _ _ _ fun _ => rfl
  · split
    · exact leaves_portWrite s off v _ _
    · exact leaves_none s

theorem leaves_engWrite (s : State) (off v base : Nat) : Leaves s (engWrite s off v base) := by
  unfold engWrite
  refine leaves_ite ?_ <| leaves_ite ?_ <| leaves_ite ?_ <| leaves_ite ?_ <| leaves_ite ?_ <| leaves_ite ?_ <| leaves_none s
  · exact leaves_setFields _ _ _ _ _ _ fun _ => rfl
  · exact leaves_setFields _ _ _ _ _ _ fun _ => rfl
  · exact leaves_some (congrArg Prod.fst (keep_groupRetire ..))
  · exact leaves_setFields _ _ _ _ _ _ fun _ => rfl
  · exact leaves_setFields _ _ _ _ _ _ fun _ => rfl
  · exact leaves_setFields _ _ _ _ _ _ fun _ => rfl

theorem leaves_hobWrite (s : State) (off v : Nat) (m : MemIn) (base : Nat) : Leaves s (hobWrite s off v m base) := by
  unfold hobWrite
  refine leaves_ite ?_ <| leaves_ite ?_ <| leaves_ite ?_ <| leaves_ite ?_ <| leaves_ite ?_ <| leaves_ite ?_ <| leaves_ite ?_ <| leaves_ite ?_ <|
    leaves_none s
  · exact leaves_setFields _ _ _ _ _ _ fun _ => rfl
  · exact leaves_some (congrArg Prod.fst (keep_doorbell ..))
  · exact leaves_some (core_hobCmd ..)
  · exact leaves_setFields _ _ _ _ _ _ fun _ => rfl
  · exact leaves_setFields _ _ _ _ _ _ fun _ => rfl
  · exact leaves_some rfl
  · exact leaves_setFields _ _ _ _ _ _ fun _ => rfl
  · exact leaves_setFields _ _ _ _ _ _ fun _ => rfl
theorem core_attWrite (s : State) (v : Word) (m : MemIn) : (keep (attWrite s v m)).1 = (keep s).1 := by
  have core_of_keep : ∀ {f : List Byte → State → MemIn → AttRes}, (∀ b s m, keep (f b s m).2.2 = keep s) →
      ∀ b s m, (keep (f b s m).2.2).1 = (keep s).1 := fun h b s m => congrArg Prod.fst (h b s m)
  simp only [attWrite, apply_ite keep, apply_ite Prod.fst, core_attCmd _ _ _ _ core_colophon, core_attCmd _ _ _ _ core_enlistNonce,
    core_attCmd _ _ _ _ core_enlist, core_attCmd _ _ _ _ core_delist, core_attCmd _ _ _ _ core_lockAdmission,
    core_attCmd _ _ _ _ core_rosterSign, core_attCmd _ _ _ _ core_rosterLoad, core_attCmd _ _ _ _ (core_of_keep (keep_appoint true)),
    core_attCmd _ _ _ _ core_wrapDomain, core_attCmd _ _ _ _ core_genPair, core_attCmd _ _ _ _ core_rekeyIssue,
    core_attCmd _ _ _ _ core_rekeyApply, core_attCmd _ _ _ _ (core_of_keep (keep_fwLoad false true)),
    core_attCmd _ _ _ _ (core_of_keep (keep_fwLoad true true)), core_attCmd _ _ _ _ (core_of_keep keep_fwActivate),
    core_attCmd _ _ _ _ (core_of_keep keep_fwAbandon), core_attCmd _ _ _ _ (core_of_keep (keep_endorse true)),
    core_attCmd _ _ _ _ (core_of_keep (keep_certStore true)), core_attCmd _ _ _ _ (core_of_keep keep_ideBind),
    core_attCmd _ _ _ _ core_ideKeyex, core_attCmd _ _ _ _ core_ideDeliver, core_attCmd _ _ _ _ core_ideSwitch,
    core_attCmd _ _ _ _ core_ideClose, core_attCmd _ _ _ _ (core_of_keep keep_attReserved), ite_self]

theorem leaves_aonWrite (s : State) (off v : Nat) (m : MemIn) (base : Nat) : Leaves s (aonWrite s off v m base) := by
  unfold aonWrite
  refine leaves_ite ?_ <| leaves_ite ?_ <| leaves_ite ?_ <| leaves_ite ?_ <| leaves_ite ?_ <| leaves_ite ?_ <| leaves_ite ?_ <| leaves_ite ?_ <|
    leaves_ite ?_ <| leaves_ite ?_ <| leaves_ite ?_ <| leaves_ite ?_ <| leaves_ite ?_ <| leaves_ite ?_ <| leaves_ite ?_ <| leaves_ite ?_ <|
      leaves_ite ?_ <| leaves_ite ?_ <| leaves_ite ?_ <| leaves_none s
  · exact leaves_some (congrArg Prod.fst (keep_fltClear ..))
  · exact leaves_setFields _ _ _ _ _ _ fun _ => rfl
  · exact leaves_setFields _ _ _ _ _ _ fun _ => rfl
  · exact leaves_some (congrArg Prod.fst (keep_resetReq ..))
  · exact leaves_some (congrArg Prod.fst (keep_dumpCtrl ..))
  · exact leaves_some (congrArg Prod.fst (keep_driverFence ..))
  · exact leaves_some (congrArg Prod.fst (keep_driverUnfence ..))
  · exact leaves_setFields _ _ _ _ _ _ fun _ => rfl
  · exact leaves_setFields _ _ _ _ _ _ fun _ => rfl
  · exact leaves_setFields _ _ _ _ _ _ fun _ => rfl
  · exact leaves_some (core_attWrite ..)
  · exact leaves_setFields _ _ _ _ _ _ fun _ => rfl
  · exact leaves_setFields _ _ _ _ _ _ fun _ => rfl
  · exact leaves_some (congrArg Prod.fst (keep_mbxCtrl ..))
  · exact leaves_some (congrArg Prod.fst (keep_lcsCmd ..))
  · exact leaves_setFields _ _ _ _ _ _ fun _ => rfl
  · exact leaves_setFields _ _ _ _ _ _ fun _ => rfl
  · exact leaves_some rfl
  · exact leaves_setFields _ _ _ _ _ _ fun _ => rfl

theorem core_regPut (s : State) (off base v : Nat) (m : MemIn) : (keep (regPut s off base v m)).1 = (keep s).1 := by
  unfold regPut
  extract_lets r
  have hr : Leaves s r := leaves_ite (leaves_genWrite s off v m base) <| leaves_ite (leaves_keyImeWrite s off v m base) <|
    leaves_ite (leaves_ileWrite s off v base) <|
    leaves_ite (leaves_engWrite s off v base) <| leaves_ite (leaves_hobWrite s off v m base) <|
      leaves_ite (leaves_aonWrite s off v m base) (leaves_none s)
  clear_value r
  cases r with
  | some t => exact hr t rfl
  | none => simp only [apply_ite keep, keep_ignoreWrite, ite_self]

/-! ### Steps that move the core -/

/-- The part of a core that `Safety.Inv` speaks of. -/
def Core.Sound (c : Core) : Prop :=
  c.cfg = Cfg.relrik ∧ (bufWf c.window = true ∧ bufWf c.stage = true ∧ bufWf c.reqCtl = true ∧ bufWf c.reqDbg = true)
    ∧ ∀ i : Nat, c.fuse.shadow.getLsbD i = true → c.fuse.blown.getLsbD i = true

/-- What `Safety.KillInv` says of a block with power. -/
def Core.Live (c : Core) : Prop :=
  c.pwrok = true ∧ (c.killed = true ↔ c.tampered = true) ∧ (c.tampered = true → c.kill = KillBank.empty ∧ c.retries = 0)

/-- From one state to another both hold on. -/
def Moves (s t : State) : Prop := ((keep s).1.Sound → (keep t).1.Sound) ∧ ((keep s).1.Live → (keep t).1.Live)

theorem moves_of_core {s t : State} (h : (keep t).1 = (keep s).1) : Moves s t := by
  unfold Moves
  rw [h]
  exact ⟨id, id⟩

theorem moves_of_keep {s t : State} (h : keep t = keep s) : Moves s t := moves_of_core (congrArg Prod.fst h)

theorem Moves.refl (s : State) : Moves s s := ⟨id, id⟩

theorem Moves.trans {s t u : State} (h : Moves s t) (h' : Moves t u) : Moves s u := ⟨h'.1 ∘ h.1, h'.2 ∘ h.2⟩

theorem Moves.core {s t u : State} (h : Moves s t) (h' : (keep u).1 = (keep t).1) : Moves s u := h.trans (moves_of_core h')

theorem Moves.keep {s t u : State} (h : Moves s t) (h' : keep u = keep t) : Moves s u := h.trans (moves_of_keep h')

theorem Moves.ite {s t u : State} {p : Prop} [Decidable p] (ht : Moves s t) (hu : Moves s u) : Moves s (if p then t else u) := by
  split
  · exact ht
  · exact hu

/-! ### Fuses and the platform root -/

theorem moves_blow (s : State) (x : BitVec 8192) : Moves s { s with fuse := { s.fuse with blown := s.fuse.blown ||| x } } := by
  refine ⟨fun ⟨hcfg, hbuf, hsh⟩ => ⟨hcfg, hbuf, fun i hi => ?_⟩, id⟩
  change (s.fuse.blown ||| x).getLsbD i = true
  rw [BitVec.getLsbD_or, show s.fuse.blown.getLsbD i = true from hsh i hi, Bool.true_or]

/-- The shadow read again shows only blown fuses. -/
theorem moves_readShadow (s : State) (x : BitVec 8192) (hx : ∀ i : Nat,
    x.getLsbD i = true → s.fuse.shadow.getLsbD i = true ∨ s.fuse.blown.getLsbD i = true) :
    Moves s { s with fuse := { s.fuse with shadow := x } } :=
  ⟨fun ⟨hcfg, hbuf, hsh⟩ => ⟨hcfg, hbuf, fun i hi => (hx i hi).elim (hsh i) id⟩, id⟩

theorem moves_blowAll (s : State) (bs stuck : List Nat) : Moves s (blowAll s bs stuck) := by
  unfold blowAll
  induction bs generalizing s with
  | nil => exact Moves.refl s
  | cons b bs ih =>
    refine Moves.trans ?_ (ih _)
    exact (moves_of_keep (keep_emit s _)).trans (Moves.ite (Moves.refl _) (moves_blow _ _))

theorem moves_blowCode (s : State) (to_ : Nat) (stuck : List Nat) : Moves s (blowCode s to_ stuck) := moves_blowAll ..

/-- A kill bank held low takes no platform root (03 R76, R105). -/
theorem moves_settleBedrock (s : State) : Moves s (settleBedrock s) := by
  unfold settleBedrock
  extract_lets st f real root fail _ _ t
  have ht : Moves s t := by
    refine ⟨id, fun ⟨hp, hk, he⟩ => ⟨hp, hk, fun htam => ⟨?_, (he htam).2⟩⟩⟩
    have hkilled : s.key.killed = true := hk.mpr htam
    have hkill : s.key.kill = KillBank.empty := (he htam).1
    change ({ s.key.kill with bedrock := root } : KillBank) = KillBank.empty
    simp [hkill, root, hkilled, KillBank.empty]
  exact Moves.ite (ht.keep (keep_recordPlain ..)) ht

theorem moves_stepC3 (s : State) : Moves s (stepC3 s) :=
  Moves.trans (moves_of_core ((core_settleSlate _).trans (congrArg Prod.fst ((keep_settleDebug _).trans (keep_takeDecode ..)))))
    (moves_settleBedrock _)

/-! ### The end of a transition at step C4 -/

theorem moves_emptyBank (s : State) : Moves s { s with
    key := { s.key with kill := KillBank.empty, dkc := [], missq := [] }, lane := { s.lane with ctx := [] } } :=
  ⟨id, fun ⟨hp, hiff, he⟩ => ⟨hp, hiff, fun h => ⟨rfl, (he h).2⟩⟩⟩

theorem moves_wipe (s : State) (w : Wipe) (fore : Bool) (e : StartIn) : Moves s (wipe s w fore e).2 := by
  unfold wipe
  extract_lets _ _ t u _ _ v x y
  have ht : Moves s t := Moves.ite (moves_emptyBank s) (Moves.refl s)
  have hu : Moves s u := Moves.ite ht (ht.core (core_wipeVault ..))
  have hv : Moves s v := Moves.ite (hu.keep rfl) hu
  have hx : Moves s x := hv.keep (keep_wipeFlash ..)
  have hy : Moves s y := Moves.ite (hx.trans (moves_blowAll ..)) hx
  split
  · exact hu.keep (keep_recordPlain ..)
  · split
    · exact hu.keep (keep_record ..)
    · exact hy

theorem moves_stepW3 (s : State) (rec_ : List Byte) (key : BitVec 256 × Nat) (cold : Bool) (e : StartIn) :
    Moves s (stepW3 s rec_ key cold e) := by
  unfold stepW3
  extract_lets _ t d u _ v x y
  have ht : Moves s t := moves_readShadow s _ fun _ => Or.inr
  have hu : Moves s u := ht.keep (keep_takeDecode ..)
  have hv : Moves s v := Moves.ite (hu.keep rfl) hu
  have hx : Moves s x := (hv.core ((core_settleSlate _).trans (congrArg Prod.fst (keep_settleDebug _)))).trans (moves_settleBedrock _)
  have hy : Moves s y := Moves.ite hx (Moves.ite (hx.keep (keep_flashFail _)) (hx.keep (keep_accWrite ..)))
  exact (hy.keep rfl).keep (keep_clearIntent ..)

/-- The wipe of a resumed transition, and where it ends keys as it should the code blown and the shadow read again. -/
theorem moves_resume {s t : State} (ht : Moves s t) (b : List Byte) (w : Wipe) (fore : Bool) (key : BitVec 256 × Nat) (cold : Bool) (e : StartIn) :
    Moves s (if (wipe t w fore e).1 then (C4End.goOn, stepW3 (blowCode (wipe t w fore e).2 (inTo b) e.stuckFuses) b key cold e)
      else (C4End.cold, (wipe t w fore e).2)).2 := by
  have hw := ht.trans (moves_wipe t w fore e)
  split
  · exact (hw.trans (moves_blowCode ..)).trans (moves_stepW3 ..)
  · exact hw

theorem moves_stepC4 (s : State) (cold : Bool) (e : StartIn) : Moves s (stepC4 s cold e).2 := by
  unfold stepC4
  extract_lets _ s1 d halt
  have hs1 : Moves s s1 := moves_of_keep rfl
  have hhalt : ∀ t, Moves s t → Moves s (halt t) := fun t ht => Moves.ite (ht.keep rfl) ht
  have hdrop : Moves s (halt (clearIntent { s1 with lcs := { s1.lcs with discarded := true } } (!e.flashFails))) :=
    hhalt _ ((hs1.keep rfl).keep (keep_clearIntent ..))
  clear_value s1 halt
  split
  · exact hhalt _ (hs1.keep rfl)
  · next r hr =>
    dsimp only
    split
    · next role w key hw hk =>
      split
      · refine moves_resume (hs1.keep ?_) ..
        exact (keep_appendMissing ..).trans rfl
      · exact hdrop
    · exact hdrop

/-! ### CORE cleared, the block stopped -/

/-- CORE's clearing takes the scrambling key, which an empty kill bank has not. -/
theorem moves_clearKey (s : State) : Moves s (clearKey s) := by
  refine ⟨id, fun ⟨hp, hiff, he⟩ => ⟨hp, hiff, fun h => ⟨?_, rfl⟩⟩⟩
  have hkill : s.key.kill = KillBank.empty := (he h).1
  change ({ s.key.kill with scramble := none } : KillBank) = KillBank.empty
  rw [hkill]
  rfl

theorem moves_clearGen (s : State) : Moves s (clearGen s) :=
  ⟨fun ⟨hcfg, ⟨_, hst, hctl, hdbg⟩, hsh⟩ => ⟨hcfg, ⟨rfl, hst, hctl, hdbg⟩, hsh⟩, id⟩

theorem moves_coreClear (s : State) : Moves s (coreClear s) := by
  unfold coreClear
  extract_lets _ t u v w
  have ht : Moves s t := Moves.ite (moves_of_keep (keep_hobEnd ..)) (Moves.refl s)
  have hv : Moves s v := ((ht.keep (keep_clearSre _)).keep (keep_chrDrop ..)).trans (moves_clearGen _)
  have hw : Moves s w := ((hv.keep (keep_clearIle _)).keep (keep_clearIme _)).trans (moves_clearKey _)
  exact hw.keep rfl

theorem moves_coreVanish (s : State) : Moves s (coreVanish s) := by
  unfold coreVanish
  extract_lets t lost _ u v n hosts w _ x
  have ht : Moves s t := moves_of_core (core_abandonWork s)
  have hv : Moves s v := (ht.keep (u := u) rfl).keep (keep_foldl (fun _ _ => keep_dropDirty ..) _ _)
  have hw : Moves s w := hv.keep (keep_foldl (fun _ _ => keep_endFlight ..) _ _)
  clear_value w
  have hx : Moves s x := hw.keep rfl
  clear_value x
  exact ((Moves.ite hx (hx.keep (keep_setRenew _))).keep (keep_recordLoss _)).trans (moves_coreClear _)

theorem moves_stopped (s : State) (gen : Gen) (hw : gen.chrWindow = s.gen.chrWindow) : Moves s { s with gen := gen } :=
  ⟨fun ⟨hcfg, ⟨hb, hrest⟩, hsh⟩ => ⟨hcfg, ⟨(congrArg bufWf hw).trans hb, hrest⟩, hsh⟩, id⟩

/-- The outputs and the start of a block at rung 4. -/
def atRung4 (s : State) : State :=
  { s with
    pin := { s.pin with coldreq := true }
    flt := { s.flt with coldReq := true }
    gen := { s.gen with ready := false, released := false } }

theorem keep_atRung4 (s : State) : keep (atRung4 s) = ({ (keep s).1 with released := false }, (keep s).2) := rfl

theorem coldStop_eq (s : State) (cls : Nat) (flashOk : Bool) :
    coldStop s cls flashOk = atRung4 ((List.range 26).foldl enterReset (copyDump (takeDump s 4 cls) flashOk)) := rfl

/-- At rung 4 nothing of a start is left; the rest of the core, and the vault, stay. -/
theorem keep_coldStop (s : State) (cls : Nat) (flashOk : Bool) :
    keep (coldStop s cls flashOk) = ({ (keep s).1 with released := false }, (keep s).2) := by
  rw [coldStop_eq, keep_atRung4, keep_foldl (fun _ _ => keep_enterReset ..), keep_copyDump, keep_takeDump]

theorem moves_coldStop (s : State) (cls : Nat) (flashOk : Bool) : Moves s (coldStop s cls flashOk) := by
  unfold Moves
  rw [keep_coldStop]
  exact ⟨id, id⟩

theorem moves_haltStart (s : State) : Moves s (haltStart s) := by
  have hu : keep ((List.range 26).foldl enterReset (freeze s)) = keep s :=
    (keep_foldl (fun _ _ => keep_enterReset ..) _ _).trans (keep_freeze s)
  exact (moves_of_keep hu).trans (moves_stopped _ _ (congrArg (fun c : Core × Tbl Slot => c.1.window) hu.symm))

/-! ### Starts -/

theorem moves_stepsC7 (s : State) (e : StartIn) : Moves s (stepsC7 s e) := by
  unfold stepsC7
  extract_lets t _ u
  have ht : Moves s t := moves_of_keep ((keep_exitReset ..).trans (keep_exitReset ..))
  have hu : Moves s u := ht.trans (moves_stopped t { t.gen with released := true, c5Wait := none } rfl)
  exact ((hu.keep (keep_countBoot ..)).keep (keep_rebuildFence _)).keep (keep_rebuildAcc _) |>.core (core_stepsC8 ..)

theorem moves_stepsC5 (s : State) (e : StartIn) : Moves s (stepsC5 s e) := by
  unfold stepsC5
  split
  · have ht : ∀ t d, keep (if (domAt t d).clockLost then recordPlain t Flc.clockLost 8 d (domAction d) else t) = keep t := fun t d => by
      simp only [apply_ite keep, keep_recordPlain, ite_self]
    exact (moves_of_keep (keep_foldl ht _ s)).keep rfl
  · exact moves_stepsC7 s e

theorem core_withKey (s : State) (k : Key) : (keep { s with key := k }).1 = { (keep s).1 with
    kill := k.kill, retries := k.retries, killed := k.killed, tampered := k.tampered, zeroised := k.zeroised
    coreWipeDue := k.coreWipeDue, drbgUp := k.drbgUp } := rfl

/-- A tamper found at step C3. -/
theorem core_tamperAtC3 (s : State) : (keep (tamperAtC3 s)).1 = (keep s).1 ∨
    (keep (tamperAtC3 s)).1 = { (keep s).1 with tampered := true, killed := true, zeroised := true } := by
  unfold tamperAtC3
  split
  · exact Or.inl rfl
  · refine Or.inr ((congrArg Prod.fst (keep_recordPlain ..)).trans ?_)
    refine (core_withKey (freeze s) _).trans ?_
    rw [keep_freeze]
    rfl

/-! ### Tamper -/

theorem core_tamperWork (s : State) (c c' : Code) : (keep (tamperEnts (tamperOrigs (allJobsEnd (allCutsEnd s c) c')))).1 = (keep s).1 := by
  simp only [keep_tamperEnts, keep_tamperOrigs, core_allJobsEnd, core_allCutsEnd]

/-- CORE's share of a tamper ends the entropy tests and the DRBG, and leaves the rest of the core. -/
theorem core_tamperCore (s : State) : (keep (tamperCore s)).1 = { (keep s).1 with retries := 0, drbgUp := false } := by
  unfold tamperCore
  extract_lets t u _ v w x y
  have hu : keep u = keep s := (keep_foldl (fun _ _ => keep_endFlight ..) _ _).trans (keep_sreTamper s)
  have hv : keep v = keep s := hu
  clear_value v
  have hx : (keep x).1 = (keep s).1 := (core_tamperWork v ..).trans (congrArg Prod.fst hv)
  clear_value x
  have hy : (keep y).1 = (keep s).1 := by
    refine (congrArg Prod.fst (keep_tamperWaits _)).trans ?_
    simp only [apply_ite keep, keep_keyEnd, ite_self, hx]
  clear_value y
  exact congrArg (fun c : Core => { c with retries := 0, drbgUp := false }) hy

/-- The sequence of a first tamper up to the overwrite of the vault array, from the state in which the kill bank has fallen. -/
def tamperHead (s : State) : State := tamperCore (chrDrop { freeze s with key := { s.key with tampered := true } } Rsn.tampered)

theorem core_tamperHead (s : State) : (keep (tamperHead s)).1 = { (keep s).1 with tampered := true, retries := 0, drbgUp := false } := by
  unfold tamperHead
  rw [core_tamperCore, keep_chrDrop, core_withKey (freeze s), keep_freeze]
  rfl

/-- What follows the overwrite: the link ports fall, and the records. -/
def tamperTail (s : State) (vaultClean : Bool) : State :=
  let s := (lnkPortsOf s).foldl (fun s e => portDown (setLnkPin s e { lnkPin s e with en := false }) e) s
  let s := recordPlain s Flc.tamper 6 0 0
  if vaultClean then s else recordPlain s Flc.zeroiseVerify 5 0 0

theorem core_tamperTail (s : State) (vaultClean : Bool) : (keep (tamperTail s vaultClean)).1 = (keep s).1 := by
  have hports : ∀ l : List Nat, (keep (l.foldl (fun s e => portDown (setLnkPin s e { lnkPin s e with en := false }) e) s)).1 = (keep s).1 :=
    fun l => core_foldl (fun t e => (core_portDown ..).trans (congrArg Prod.fst (keep_setLnkPin t e _))) l s
  simp only [tamperTail, apply_ite keep, keep_recordPlain, hports, ite_self]

/-- The kill bank falls at once (03 R103). -/
def bankFallen (s : State) : State :=
  { s with pin := { s.pin with tmpHigh := false }, key := { s.key with kill := KillBank.empty, killed := true } }

/-- The vault array overwritten, or left for when ACLK is back (03 R104). -/
def vaultOverwritten (s : State) (wait : Bool) : State :=
  { s with key := { s.key with slots := if s.dom.aclkLost then s.key.slots else [], zeroised := !wait, coreWipeDue := wait } }

theorem core_vaultOverwritten (s : State) (wait : Bool) :
    (keep (vaultOverwritten s wait)).1 = { (keep s).1 with zeroised := !wait, coreWipeDue := wait } := rfl

theorem tamperZeroise_again {s : State} (hp : s.pin.pwrok = true) (ht : s.key.tampered = true) (vaultClean : Bool) :
    tamperZeroise s vaultClean = bankFallen s := by
  simp [tamperZeroise, bankFallen, hp, ht]

theorem tamperZeroise_first {s : State} (hp : s.pin.pwrok = true) (ht : s.key.tampered = false) (vaultClean : Bool) :
    tamperZeroise s vaultClean =
      tamperTail (vaultOverwritten (tamperHead (bankFallen s)) ((domAt s 0).clockLost || s.dom.aclkLost)) vaultClean := by
  simp only [tamperZeroise, tamperTail, vaultOverwritten, tamperHead, bankFallen, hp, ht, Bool.not_true, Bool.false_eq_true, if_false]
  rfl

/-- The first TAMPER_ZEROISE: the kill bank empty, KILLED and TAMPERED set, the DRBG down and no entropy test under way. -/
theorem core_tamperZeroise {s : State} (hp : s.pin.pwrok = true) (ht : s.key.tampered = false) (vaultClean : Bool) :
    (keep (tamperZeroise s vaultClean)).1 = { (keep s).1 with
      kill := KillBank.empty, retries := 0, killed := true, tampered := true, drbgUp := false
      zeroised := !((domAt s 0).clockLost || s.dom.aclkLost), coreWipeDue := (domAt s 0).clockLost || s.dom.aclkLost } := by
  rw [tamperZeroise_first hp ht, core_tamperTail, core_vaultOverwritten, core_tamperHead]
  rfl

theorem moves_tamperZeroise (s : State) (vaultClean : Bool) : Moves s (tamperZeroise s vaultClean) := by
  cases hp : s.pin.pwrok with
  | false => 
    have h : tamperZeroise s vaultClean = s := by simp [tamperZeroise, hp]
    rw [h]
    exact Moves.refl s
  | true =>
    cases ht : s.key.tampered with
    | false =>
      unfold Moves
      rw [core_tamperZeroise hp ht]
      exact ⟨id, fun ⟨hl, _, _⟩ => ⟨hl, Iff.rfl, fun _ => ⟨rfl, rfl⟩⟩⟩
    | true =>
      rw [tamperZeroise_again hp ht]
      exact ⟨id, fun ⟨hl, _, he⟩ => ⟨hl, ⟨fun _ => ht, fun _ => rfl⟩, fun h => ⟨rfl, (he h).2⟩⟩⟩

/-! ### Power -/

/-- The block powered: the shadow read, the domains in reset (02 R66 steps C1, C2). -/
def poweredUp (s : State) (e : StartIn) : State :=
  { s with
    pin := { s.pin with pwrok := true, tmpHigh := e.tmpHigh, flPart := e.flPart }
    tm := { ns := 640, aclk := 64 }
    flt := { s.flt with hours := s.flash.hours }
    fuse := { s.fuse with shadow := s.fuse.blown }
    dom := { s.dom with d := (List.range 26).map fun i =>
      (i, ({ inReset := true, epoch := 1#32, clockLost := (i == 0 && e.cclkMhz == 0#12) || (i == 1 && !e.hclk) } : Dom)) }
    gen := { s.gen with strap := e.frCompat, cclkMhz := e.cclkMhz, cclkValid := e.cclkMhz != 0#12 } }

/-- A block without power that keeps nothing of a start, and is tampered where it is killed. -/
def Core.Dark (c : Core) : Prop :=
  c.pwrok = false ∧ c.released = false ∧ c.c6Done = false ∧ c.kill = KillBank.empty ∧ c.retries = 0 ∧ (c.killed = true ↔ c.tampered = true)

/-- What `Safety.KillInv` says. -/
theorem killInv_iff (s : State) : Safety.KillInv s ↔ (keep s).1.Live ∨ (keep s).1.Dark := by
  unfold Safety.KillInv Core.Live Core.Dark
  change _ ↔ s.pin.pwrok = true ∧ (s.key.killed = true ↔ s.key.tampered = true)
      ∧ (s.key.tampered = true → s.key.kill = KillBank.empty ∧ s.key.retries = 0) ∨
    s.pin.pwrok = false ∧ s.gen.released = false ∧ s.gen.c6Done = false ∧ s.key.kill = KillBank.empty ∧ s.key.retries = 0
      ∧ (s.key.killed = true ↔ s.key.tampered = true)
  cases s.pin.pwrok with
  | true => simp only [Bool.true_eq_false, false_implies, true_and, false_and, or_false]
  | false =>
    simp only [true_implies, Bool.false_eq_true, false_and, false_or, true_and]
    tauto

theorem inv_iff (s : State) : Safety.Inv s ↔ (keep s).1.Sound := Iff.rfl

/-- From a block without power to one with it: what is sound stays sound, and the dark one lives. -/
def Wakes (s t : State) : Prop := ((keep s).1.Sound → (keep t).1.Sound) ∧ ((keep s).1.Dark → (keep t).1.Live)

theorem Wakes.moves {s t u : State} (h : Wakes s t) (h' : Moves t u) : Wakes s u := ⟨h'.1 ∘ h.1, h'.2 ∘ h.2⟩

theorem wakes_poweredUp (s : State) (e : StartIn) : Wakes s (poweredUp s e) :=
  ⟨fun ⟨hcfg, hbuf, _⟩ => ⟨hcfg, hbuf, fun _ h => h⟩, fun ⟨_, _, _, hkill, hret, hiff⟩ => ⟨rfl, hiff, fun _ => ⟨hkill, hret⟩⟩⟩

theorem wakes_tamperAtC3 (s : State) (e : StartIn) : Wakes s (tamperAtC3 (poweredUp s e)) := by
  rcases core_tamperAtC3 (poweredUp s e) with h | h
  · exact (wakes_poweredUp s e).moves (moves_of_core h)
  · unfold Wakes
    rw [h]
    exact ⟨(wakes_poweredUp s e).1, fun ⟨_, _, _, hkill, hret, _⟩ => ⟨rfl, Iff.rfl, fun _ => ⟨hkill, hret⟩⟩⟩

theorem wakes_stepsC1 (s : State) (e : StartIn) : Wakes s (stepsC1 s e) :=
  ((wakes_tamperAtC3 s e).moves (moves_stepC3 _)).moves (moves_of_keep (keep_startFlags _ 1))

theorem powerGood_dark {s : State} (hp : s.pin.pwrok = false) (e : StartIn) : Wakes s (powerGood s e) := by
  unfold powerGood
  rw [if_neg (by simp [hp])]
  extract_lets t
  have ht : Wakes s t := wakes_stepsC1 s e
  clear_value t
  have hc := (moves_of_keep (keep_rebuildAcc t)).trans (moves_stepC4 (rebuildAcc t) true e)
  generalize stepC4 (rebuildAcc t) true e = x at hc ⊢
  obtain ⟨r, u⟩ := x
  refine ht.moves (Moves.ite (moves_haltStart t) ?_)
  cases r with
  | cold => exact hc.trans (moves_coldStop ..)
  | goOn => exact hc.trans (Moves.ite (moves_haltStart u) (moves_stepsC5 u e))

theorem powerGood_live {s : State} (hp : s.pin.pwrok = true) (e : StartIn) : powerGood s e = s := if_pos hp

theorem dark_coldPowerLoss {s : State} (hp : s.pin.pwrok = true) : (keep (coldPowerLoss s)).1.Dark := by
  unfold coldPowerLoss
  rw [if_neg (by simp [hp])]
  exact ⟨rfl, rfl, rfl, rfl, rfl, Iff.rfl⟩

theorem sound_coldPowerLoss {s : State} (h : (keep s).1.Sound) : (keep (coldPowerLoss s)).1.Sound := by
  unfold coldPowerLoss
  split
  · exact h
  · obtain ⟨hcfg, -, -⟩ := h
    exact ⟨hcfg, ⟨rfl, rfl, rfl, rfl⟩, fun i hi => absurd (show (0#8192).getLsbD i = true from hi) (by simp)⟩

/-! ### Clocks -/

theorem moves_lateWipe (s : State) : Moves s (lateWipe s) := by
  unfold lateWipe
  exact Moves.ite ⟨id, id⟩ (Moves.refl s)

theorem moves_aclkLost (s : State) : Moves s (aclkLost s) := by
  unfold aclkLost
  refine Moves.ite (Moves.refl s) ?_
  exact (moves_of_keep (keep_recordPlain ..)).trans ⟨id, id⟩

theorem moves_aclkReturn (s : State) : Moves s (aclkReturn s) := by
  unfold aclkReturn
  refine Moves.ite (Moves.refl s) (Moves.keep (Moves.trans ?_ (moves_lateWipe _)) (keep_startRung ..))
  exact ⟨id, id⟩

theorem moves_clockReset (s : State) (d : Nat) : Moves s (clockReset s d) := by
  unfold clockReset
  refine Moves.ite ?_ (Moves.ite ?_ ?_)
  · exact (moves_coreVanish s).keep (keep_enterReset ..)
  · exact moves_of_keep ((keep_enterReset ..).trans (keep_hostClear s))
  · exact moves_of_core (core_portIn ..)

theorem moves_clockLost (s : State) (d : Nat) : Moves s (clockLost s d) := by
  unfold clockLost
  refine Moves.ite (Moves.refl s) ?_
  extract_lets t _ u _ v w
  have hu : Moves s u := moves_of_keep ((keep_setDom ..).trans (keep_recordPlain ..))
  have hv : Moves s v := Moves.ite (hu.keep rfl) hu
  have hw : Moves s w := hv.trans (moves_clockReset ..)
  exact Moves.ite hv (Moves.ite (hw.keep (keep_startRung ..)) hw)

theorem moves_clockReturn (s : State) (d : Nat) (bad : List Nat) : Moves s (clockReturn s d bad) := by
  unfold clockReturn
  refine Moves.ite (Moves.refl s) ?_
  extract_lets _ t _ u
  have ht : Moves s t := moves_of_keep (keep_setDom ..)
  clear_value t
  have hu : Moves s u := by
    refine Moves.trans ?_ (moves_lateWipe _)
    exact Moves.ite (ht.keep rfl) ht
  clear_value u
  split
  · exact Moves.ite hu (hu.trans (moves_stepsC7 ..))
  · refine Moves.ite hu (Moves.ite (hu.core (core_coreReturns ..)) (Moves.ite ?_ (hu.core (core_releaseWaiting _))))
    exact hu.keep ((keep_exitReset ..).trans (keep_resetDom ..))

/-! ### Resets -/

theorem moves_coreReset (s : State) (r : Running) : Moves s (coreReset s r) := by
  unfold coreReset
  extract_lets t
  have ht : Moves s t := (moves_of_keep (keep_takeDump ..)).trans (moves_coreClear _)
  clear_value t
  exact Moves.ite (ht.keep ((keep_setPhase ..).trans (keep_resetDom ..))) (ht.core (core_coreResume ..))

theorem moves_releaseHost (s : State) : Moves s ((memPortsOf (if (domAt s 1).clockLost then s else exitReset s 1)).foldl
    (fun s p => setMemPin s p { memPin s p with srReq := false, srAck := false }) (if (domAt s 1).clockLost then s else exitReset s 1)) :=
  (Moves.ite (Moves.refl s) (moves_of_keep (keep_exitReset ..))).keep (keep_foldl (fun _ _ => keep_setMemPin ..) _ _)

theorem moves_warmReset (s : State) (r : Running) : Moves s (warmReset s r) := by
  unfold warmReset
  extract_lets e t u _ _ _ v w _ x y
  have ht : Moves s t := ((moves_of_keep (keep_takeDump ..)).trans (moves_coreClear _)).core (core_resetAll _)
  clear_value t
  have hu : Moves s u := ht.keep (keep_hostClear _)
  clear_value u
  have hv : Moves s v := hu.keep rfl
  clear_value v
  have hw : Moves s w := hv.trans (moves_stepC3 v)
  clear_value w
  have hx : Moves s x := hw.keep rfl
  have hy : Moves s y := hx.keep (keep_startFlags ..)
  clear_value y
  have hc := hy.trans ((moves_of_keep (keep_rebuildAcc y)).trans (moves_stepC4 (rebuildAcc y) false e))
  generalize stepC4 (rebuildAcc y) false e = z at hc ⊢
  obtain ⟨end4, u⟩ := z
  refine Moves.ite ((hy.trans (moves_haltStart y)).keep (keep_endRung ..)) ?_
  cases end4 with
  | cold => exact hc.trans (moves_coldStop ..)
  | goOn =>
    have hr := hc.trans (moves_releaseHost u)
    exact Moves.ite ((hc.trans (moves_haltStart u)).keep (keep_endRung ..))
      (Moves.ite (hr.keep (keep_setPhase ..)) (hr.core (core_warmResume ..)))

theorem moves_selfRefresh (s : State) (r : Running) : Moves s (selfRefresh s r) := by
  unfold selfRefresh
  refine Moves.ite (moves_warmReset s r) ?_
  exact moves_of_keep ((keep_setPhase ..).trans (keep_foldl (fun _ _ => keep_setMemPin ..) _ _))

theorem moves_drainDone (s : State) : Moves s (drainDone s) := by
  unfold drainDone
  split
  · exact Moves.refl s
  · next r _ =>
    refine Moves.ite (Moves.refl s) (Moves.ite ?_ (Moves.ite (Moves.refl s) ?_))
    · exact moves_of_core ((core_settle _).trans (core_foldl (fun _ _ => core_writeBack ..) _ _))
    · have ht : Moves s (recordLoss (flushCounters (loseWrites s))) :=
        moves_of_keep ((keep_recordLoss _).trans ((keep_flushCounters _).trans (keep_loseWrites s)))
      exact Moves.ite (ht.trans (moves_coreReset ..)) (ht.trans (moves_selfRefresh ..))

theorem moves_memSrAck (s : State) (p : Nat) : Moves s (memSrAck s p) := by
  unfold memSrAck
  split
  · exact Moves.refl s
  · refine Moves.ite (Moves.refl s) ?_
    extract_lets _ t
    have ht : Moves s t := moves_of_keep (keep_setMemPin ..)
    clear_value t
    exact Moves.ite (ht.trans (moves_warmReset ..)) ht

theorem moves_coldStartRequest (s : State) (flashOk : Bool) : Moves s (coldStartRequest s flashOk) := by
  unfold coldStartRequest
  refine Moves.ite (Moves.refl s) ?_
  extract_lets t
  have ht : Moves s t := moves_of_keep (keep_requestRung ..)
  clear_value t
  split
  · exact ht
  · exact ht.trans (moves_coldStop ..)

/-! ### The geode root, the random keys of the kill bank, the DRBG -/

/-- A step that holds for a block not tampered: it keeps what is sound, and keeps an untampered block alive. -/
def MovesClean (s t : State) : Prop :=
  ((keep s).1.Sound → (keep t).1.Sound) ∧ (s.key.tampered = false → (keep s).1.Live → (keep t).1.Live)

theorem MovesClean.moves {s t u : State} (h : MovesClean s t) (h' : Moves t u) : MovesClean s u :=
  ⟨h'.1 ∘ h.1, fun hn hl => h'.2 (h.2 hn hl)⟩

theorem Moves.clean {s t : State} (h : Moves s t) : MovesClean s t := ⟨h.1, fun _ => h.2⟩

theorem MovesClean.of_untampered {s t : State} (h : MovesClean s t) (hn : s.key.tampered = false) : Moves s t := ⟨h.1, h.2 hn⟩

theorem MovesClean.ite {s t u : State} {p : Prop} [Decidable p] (ht : MovesClean s t) (hu : MovesClean s u) : MovesClean s (if p then t else u) := by
  split
  · exact ht
  · exact hu

/-- A key placed in the kill bank. -/
theorem movesClean_bank {s t : State} {k : KillBank} {c up : Bool}
    (h : (keep t).1 = { (keep s).1 with kill := k, c6Done := c, drbgUp := up }) : MovesClean s t := by
  unfold MovesClean
  rw [h]
  refine ⟨id, fun hn ⟨hp, hiff, _⟩ => ⟨hp, hiff, fun ht => ?_⟩⟩
  exact absurd (hn.symm.trans ht) Bool.false_ne_true

theorem movesClean_geodeEnd (s : State) (r : Except Nat (BitVec 256)) : MovesClean s (geodeEnd s r) := by
  unfold geodeEnd
  cases r with
  | ok root => exact movesClean_bank rfl
  | error c =>
    refine movesClean_bank (k := s.key.kill) (c := true) (up := s.key.drbgUp) ?_
    exact congrArg Prod.fst ((keep_recordPlain ..).trans rfl)

theorem moves_geodeRegenerate (s : State) (puf : BitVec 20460) (flashOk : Bool) : Moves s (geodeRegenerate s puf flashOk) := by
  unfold geodeRegenerate
  refine Moves.ite (Moves.refl s) ?_
  split
  · exact moves_stopped s _ rfl
  · next hstop =>
    have hn : s.key.tampered = false := by
      simp only [Bool.or_eq_true, not_or, Bool.not_eq_true] at hstop
      exact hstop.2
    split
    · exact (movesClean_geodeEnd ..).of_untampered hn
    · refine Moves.ite ((movesClean_geodeEnd ..).of_untampered hn) (Moves.ite (Moves.refl s) ?_)
      have he := keep_enrol s puf flashOk
      have hn' : (enrol s puf flashOk).2.key.tampered = false := (congrArg (fun c : Core × Tbl Slot => c.1.tampered) he).trans hn
      exact (moves_of_keep he).trans ((movesClean_geodeEnd ..).of_untampered hn')

theorem core_fillBank (s : State) : ∃ k, (keep (fillBank s)).1 = { (keep s).1 with kill := k } := by
  obtain ⟨i, k, h, -⟩ := StartSteps.fillBank_eq s
  exact ⟨k, by rw [h]; rfl⟩

theorem movesClean_instantiate (s : State) : MovesClean s (instantiate s) := by
  unfold instantiate
  extract_lets _ _ t
  obtain ⟨k, hk⟩ := core_fillBank t
  refine movesClean_bank (k := k) (c := s.gen.c6Done) (up := !s.key.drbgFail) ?_
  rw [keep_seedPads, core_fillCatalogueKey, core_writeIdentity, hk]
  rfl

theorem moves_entropyTestFail (s : State) : Moves s (entropyTestFail s) := by
  unfold entropyTestFail
  split
  · exact Moves.refl s
  · next hstop =>
    have hn : s.key.tampered = false := by
      simp only [Bool.or_eq_true, not_or, Bool.not_eq_true] at hstop
      exact hstop.2
    exact ⟨id, fun ⟨hp, hiff, _⟩ => ⟨hp, hiff, fun ht => absurd (hn.symm.trans ht) Bool.false_ne_true⟩⟩

theorem moves_endRetries (s : State) : Moves s { s with key := { s.key with retries := 0 } } :=
  ⟨id, fun ⟨hp, hiff, he⟩ => ⟨hp, hiff, fun h => ⟨(he h).1, rfl⟩⟩⟩

theorem moves_drbgFailNow (s : State) : Moves s (drbgFailNow s) :=
  (((moves_endRetries s).keep rfl).keep (keep_recordPlain ..))

theorem moves_maskRefresh (s : State) : Moves s (maskRefresh s) := by
  unfold maskRefresh
  split
  · exact Moves.refl s
  · next hstop =>
    have hn : s.key.tampered = false := by
      simp only [Bool.or_eq_true, not_or, Bool.not_eq_true] at hstop
      exact hstop.2
    refine Moves.ite (moves_of_keep rfl) (MovesClean.of_untampered ?_ hn)
    have hd := congrArg Prod.fst (keep_drbgTake 256 { s with key := { s.key with seedWait := putBits s.key.seedWait 2 1 0 } })
    generalize drbgTake 256 { s with key := { s.key with seedWait := putBits s.key.seedWait 2 1 0 } } = x at hd ⊢
    obtain ⟨k, t⟩ := x
    have ht : (keep t).1 = (keep s).1 := hd
    refine movesClean_bank (c := s.gen.c6Done) (up := s.key.drbgUp)
      (k := if !t.key.maskCur then { t.key.kill with mask1 := some k } else { t.key.kill with mask0 := some k }) ?_
    exact congrArg (fun c : Core => { c with
      kill := if !t.key.maskCur then { t.key.kill with mask1 := some k } else { t.key.kill with mask0 := some k } }) ht

/-! ### What waited for a seed -/

theorem moves_serveSeed (s : State) : Moves s (serveSeed s) := by
  have hm : Moves s (if bit s.key.seedWait 2 then maskRefresh s else s) := Moves.ite (moves_maskRefresh s) (Moves.refl s)
  exact (((hm.core (core_serveGen _)).core (core_wakeLinks _)).core (core_serveAtt _)).keep (keep_serveLcs _)

theorem movesClean_seedServed (s : State) : MovesClean s (seedServed s) := by
  unfold seedServed
  extract_lets t
  have ht : MovesClean s t := MovesClean.ite (movesClean_instantiate s) (Moves.refl s).clean
  exact (ht.moves (Moves.ite (moves_of_keep (keep_reseed t)) (Moves.refl t))).moves (moves_serveSeed _)

theorem moves_drbgInstantiate (s : State) : Moves s (drbgInstantiate s) := by
  unfold drbgInstantiate
  refine Moves.ite (Moves.refl s) ?_
  split
  · exact moves_of_keep rfl
  · next hn =>
    refine Moves.ite (moves_of_keep rfl) ?_
    exact ((movesClean_instantiate s).of_untampered (Bool.not_eq_true _ ▸ hn)).trans (moves_serveSeed _)

/-- A repeat of the entropy tests: only a block that is not tampered has one under way. -/
theorem moves_entropyRetest (s : State) (pass : Bool) : Moves s (entropyRetest s pass) := by
  unfold entropyRetest
  split
  · exact Moves.refl s
  · next hstop =>
    have hr : s.key.retries ≠ 0 := by
      simp only [Bool.or_eq_true, not_or, decide_eq_true_eq] at hstop
      exact hstop.1.1
    have hend : MovesClean s (seedServed { s with key := { s.key with retries := 0 } }) :=
      ⟨(movesClean_seedServed _).1 ∘ (moves_endRetries s).1, fun hn => (movesClean_seedServed _).2 hn ∘ (moves_endRetries s).2⟩
    have hfail : MovesClean s (seedServed (drbgFailNow s)) := by
      have hn' : (drbgFailNow s).key.tampered = s.key.tampered :=
        congrArg (fun c : Core × Tbl Slot => c.1.tampered) (keep_recordPlain ..)
      exact ⟨(movesClean_seedServed _).1 ∘ (moves_drbgFailNow s).1,
        fun hn => (movesClean_seedServed _).2 (hn'.trans hn) ∘ (moves_drbgFailNow s).2⟩
    have hless : MovesClean s { s with key := { s.key with retries := s.key.retries - 1 } } :=
      ⟨id, fun hn ⟨hp, hiff, _⟩ => ⟨hp, hiff, fun ht => absurd (hn.symm.trans ht) Bool.false_ne_true⟩⟩
    have hall : MovesClean s (if pass then seedServed { s with key := { s.key with retries := 0 } }
        else if 1 < s.key.retries then { s with key := { s.key with retries := s.key.retries - 1 } } else seedServed (drbgFailNow s)) :=
      MovesClean.ite hend (MovesClean.ite hless hfail)
    refine ⟨hall.1, fun hl => hall.2 ?_ hl⟩
    obtain ⟨-, -, he⟩ := hl
    exact Bool.eq_false_iff.mpr fun ht => hr (he ht).2

/-! ### Blows, windows and the staged record -/

/-- The word of the array that holds a fuse, read back into the shadow. -/
theorem getLsbD_word {x : BitVec 8192} {w i : Nat} (h : ((x.extractLsb' w 32).zeroExtend 8192 <<< w).getLsbD i = true) : x.getLsbD i = true := by
  simp only [BitVec.getLsbD_shiftLeft, BitVec.getLsbD_setWidth, BitVec.getLsbD_extractLsb', Bool.and_eq_true, decide_eq_true_eq,
    Bool.not_eq_true', decide_eq_false_iff_not] at h
  obtain ⟨⟨-, hle⟩, -, -, hx⟩ := h
  rwa [show w + (i - w) = i by omega] at hx

theorem moves_fuseAck (s : State) (blown : Bool) : Moves s (fuseAck s blown) := by
  unfold fuseAck
  refine Moves.ite (Moves.refl s) ?_
  split
  · exact Moves.refl s
  · split
    · exact Moves.refl s
    · extract_lets _ t w word _ u next
      have ht : Moves s t := Moves.ite (moves_blow s _) (Moves.refl s)
      have hu : Moves s u := ht.trans (moves_readShadow t _ fun i hi => by
        rw [BitVec.getLsbD_or, Bool.or_eq_true] at hi
        exact hi.imp id getLsbD_word)
      exact Moves.ite (hu.keep (keep_blowsDone ..)) (hu.keep (keep_askBlow ..))

theorem moves_windowWrite (s t : State) (off : Nat) (w : Word) (h : windowWrite s off w = some t) : Moves s t := by
  unfold windowWrite at h
  split at h
  · cases h
    exact ⟨fun ⟨hcfg, ⟨hb, hrest⟩, hsh⟩ => ⟨hcfg, ⟨bufWf_bufPutWord _ _ _ hb, hrest⟩, hsh⟩, id⟩
  · split at h
    · cases h
      exact ⟨fun ⟨hcfg, ⟨hb, hst, hctl, hdbg⟩, hsh⟩ => ⟨hcfg, ⟨hb, hst, bufWf_bufPutWord _ _ _ hctl, hdbg⟩, hsh⟩, id⟩
    · split at h
      · cases h
        exact ⟨fun ⟨hcfg, ⟨hb, hst, hrest⟩, hsh⟩ => ⟨hcfg, ⟨hb, bufWf_bufPutWord _ _ _ hst, hrest⟩, hsh⟩, id⟩
      · cases h

theorem moves_regWrite (s : State) (off : Nat) (w : Word) (m : MemIn) : Moves s (regWrite s off w m) := by
  unfold regWrite
  split
  · next t h => exact moves_windowWrite s t off w h
  · dsimp only
    refine Moves.ite (moves_of_core (core_regPut ..)) (Moves.ite (moves_of_keep rfl) ?_)
    exact (moves_of_keep rfl).core (core_regPut ..)

theorem moves_regsWrite (s : State) (off : Nat) (w : Word) (m : MemIn) : Moves s (regsWrite s off w m) := by
  unfold regsWrite
  exact Moves.ite (moves_of_keep (keep_regsCapture ..)) ((moves_regWrite ..).keep (keep_regsCapture ..))

theorem moves_mboxPut (s : State) (b : Byte) : Moves s (mboxPut s b) := by
  unfold mboxPut
  refine Moves.ite (moves_of_keep (keep_mboxCapture ..)) (Moves.ite (moves_of_keep (keep_mboxCapture ..)) ?_)
  refine Moves.keep ?_ (keep_mboxCapture ..)
  exact ⟨fun ⟨hcfg, ⟨hb, hst, hctl, hdbg⟩, hsh⟩ => ⟨hcfg, ⟨hb, hst, hctl, bufWf_bufWrite _ _ _ hdbg⟩, hsh⟩, id⟩

theorem moves_lcsStage (s : State) (b : List Byte) : Moves s (lcsStage s b) :=
  ⟨fun ⟨hcfg, ⟨hb, _, hrest⟩, hsh⟩ => ⟨hcfg, ⟨hb, bufWf_bufFill _ _ _ rfl, hrest⟩, hsh⟩, id⟩

theorem moves_posted (s : State) (ir : Nat) {f : State → State} (hf : ∀ t, Moves t (f t)) : Moves s (posted s ir f) :=
  Moves.ite (Moves.refl s) ((moves_of_keep (keep_dbg s _)).trans (hf _))

theorem moves_ctlWriteBy (s : State) (off : Nat) {f : State → State} (hf : Moves s (f s)) : Moves s (ctlWriteBy s off f) :=
  ctlWriteBy_keeps (Moves s) s off f (fun t o h => h.keep (keep_emit t o)) (fun _ => hf) (Moves.refl s)

/-! ### Without power nothing of the kind goes on -/

section
variable {s : State} (h : (keep s).1.Dark)
include h

theorem geodeRegenerate_dark (puf : BitVec 20460) (flashOk : Bool) : geodeRegenerate s puf flashOk = s := by
  obtain ⟨-, hr, -⟩ := h
  simp [geodeRegenerate, show s.gen.released = false from hr]

theorem drbgInstantiate_dark : drbgInstantiate s = s := by
  obtain ⟨-, -, hc, -⟩ := h
  simp [drbgInstantiate, show s.gen.c6Done = false from hc]

theorem tamperZeroise_dark (vaultClean : Bool) : tamperZeroise s vaultClean = s := by
  simp [tamperZeroise, show s.pin.pwrok = false from h.1]

theorem clockLost_dark (d : Nat) : clockLost s d = s := by
  simp [clockLost, show s.pin.pwrok = false from h.1]

theorem clockReturn_dark (d : Nat) (bad : List Nat) : clockReturn s d bad = s := by
  simp [clockReturn, show s.pin.pwrok = false from h.1]

theorem aclkLost_dark : aclkLost s = s := by
  obtain ⟨-, hr, -⟩ := h
  simp [aclkLost, show s.gen.released = false from hr]

theorem aclkReturn_dark : aclkReturn s = s := by
  simp [aclkReturn, show s.pin.pwrok = false from h.1]

theorem maskRefresh_dark : maskRefresh s = s := by
  obtain ⟨-, hr, -⟩ := h
  simp [maskRefresh, show s.gen.released = false from hr]

theorem entropyTestFail_dark : entropyTestFail s = s := by
  obtain ⟨-, hr, -⟩ := h
  simp [entropyTestFail, show s.gen.released = false from hr]

theorem entropyRetest_dark (pass : Bool) : entropyRetest s pass = s := by
  obtain ⟨-, hr, -⟩ := h
  simp [entropyRetest, show s.gen.released = false from hr]

theorem memSrAck_dark (p : Nat) : memSrAck s p = s := by
  obtain ⟨-, hr, -⟩ := h
  unfold memSrAck
  split
  · rfl
  · simp [show s.gen.released = false from hr]

theorem drainDone_dark : drainDone s = s := by
  obtain ⟨-, hr, -⟩ := h
  unfold drainDone
  split
  · rfl
  · simp [show s.gen.released = false from hr]

theorem coldStartRequest_dark (flashOk : Bool) : coldStartRequest s flashOk = s := by
  obtain ⟨-, hr, -⟩ := h
  simp [coldStartRequest, show s.gen.released = false from hr]

theorem fuseAck_dark (blown : Bool) : fuseAck s blown = s := by
  simp [fuseAck, show s.pin.pwrok = false from h.1]

theorem ctlWriteBy_dark (off : Nat) (f : State → State) : ctlWriteBy s off f = s := by
  simp [ctlWriteBy, show s.pin.pwrok = false from h.1]

theorem posted_dark (ir : Nat) (f : State → State) : posted s ir f = s := by
  simp [posted, dbgUp, show s.pin.pwrok = false from h.1]

end

/-! ### Both invariants -/

/-- Both invariants of the block go from one state to the other. -/
def Guards (s t : State) : Prop := (Safety.Inv s → Safety.Inv t) ∧ (Safety.KillInv s → Safety.KillInv t)

theorem guards_of_core {s t : State} (h : (keep t).1 = (keep s).1) : Guards s t := by
  unfold Guards
  rw [inv_iff, inv_iff, killInv_iff, killInv_iff, h]
  exact ⟨id, id⟩

theorem guards_of_moves {s t : State} (h : Moves s t) (hd : (keep s).1.Dark → t = s) : Guards s t := by
  refine ⟨h.1, fun hk => (killInv_iff t).mpr ?_⟩
  rcases (killInv_iff s).mp hk with hl | hdark
  · exact .inl (h.2 hl)
  · rw [hd hdark]
    exact .inr hdark

theorem guards_powerGood (s : State) (e : StartIn) : Guards s (powerGood s e) := by
  cases hp : s.pin.pwrok with
  | true => exact guards_of_core (congrArg (fun t => (keep t).1) (powerGood_live hp e))
  | false =>
    have hw := powerGood_dark hp e
    refine ⟨hw.1, fun hk => (killInv_iff _).mpr (.inl (hw.2 ?_))⟩
    exact ((killInv_iff s).mp hk).resolve_left fun hl => Bool.false_ne_true (hp.symm.trans hl.1)

theorem guards_coldPowerLoss (s : State) : Guards s (coldPowerLoss s) := by
  refine ⟨sound_coldPowerLoss, fun hk => ?_⟩
  cases hp : s.pin.pwrok with
  | true => exact (killInv_iff _).mpr (.inr (dark_coldPowerLoss hp))
  | false => rwa [show coldPowerLoss s = s by simp [coldPowerLoss, hp]]

/-! ### Commands that move the core and leave the vault -/

theorem slots_of_keep {s t : State} (h : keep t = keep s) : t.key.slots = s.key.slots := congrArg Prod.snd h

theorem slots_geodeEnd (s : State) (r : Except Nat (BitVec 256)) : (geodeEnd s r).key.slots = s.key.slots := by
  cases r with
  | ok root => rfl
  | error c => exact (slots_of_keep (keep_recordPlain ..) :).trans rfl

theorem slots_geodeRegenerate (s : State) (puf : BitVec 20460) (flashOk : Bool) : (geodeRegenerate s puf flashOk).key.slots = s.key.slots := by
  unfold geodeRegenerate
  split
  · rfl
  · split
    · rfl
    · split
      · exact slots_geodeEnd ..
      · split
        · exact slots_geodeEnd ..
        · split
          · rfl
          · exact (slots_geodeEnd ..).trans (slots_of_keep (keep_enrol ..))

theorem slots_aclkLost (s : State) : (aclkLost s).key.slots = s.key.slots := by
  unfold aclkLost
  split
  · rfl
  · exact (slots_of_keep (keep_recordPlain s Flc.clockLost 8 26 8) :)

theorem slots_entropyTestFail (s : State) : (entropyTestFail s).key.slots = s.key.slots := by
  unfold entropyTestFail
  split <;> rfl

theorem slots_coldStartRequest (s : State) (flashOk : Bool) : (coldStartRequest s flashOk).key.slots = s.key.slots := by
  unfold coldStartRequest
  split
  · rfl
  · dsimp only
    split
    · exact slots_of_keep (keep_requestRung ..)
    · exact (congrArg Prod.snd (keep_coldStop ..)).trans (slots_of_keep (keep_requestRung ..))

theorem slots_fuseAck (s : State) (blown : Bool) : (fuseAck s blown).key.slots = s.key.slots := by
  unfold fuseAck
  split
  · rfl
  · split
    · rfl
    · split
      · rfl
      · extract_lets _ t w word _ u next
        have hu : u.key.slots = s.key.slots := by
          simp only [u, t]
          split <;> rfl
        split
        · exact (slots_of_keep (keep_blowsDone ..)).trans hu
        · exact (slots_of_keep (keep_askBlow ..)).trans hu

theorem slots_mboxPut (s : State) (b : Byte) : (mboxPut s b).key.slots = s.key.slots := by
  unfold mboxPut
  dsimp only
  split
  · exact slots_of_keep (keep_mboxCapture ..)
  · split
    · exact slots_of_keep (keep_mboxCapture ..)
    · exact (slots_of_keep (keep_mboxCapture ..) :).trans rfl

theorem slots_posted (s : State) (ir : Nat) {f : State → State} (hf : ∀ t, (f t).key.slots = t.key.slots) :
    (posted s ir f).key.slots = s.key.slots := by
  unfold posted
  split
  · rfl
  · exact hf _

/-! ### The commands -/

/-- What a command does to the core and the vault: it keeps both; or it keeps the core and is one of those that may change the vault; or it moves the
core, keeps both invariants, and leaves the vault or is one of those that may change it. -/
inductive Effect (c : Instr) (s : State) : Host.Outcome State Fault Refusal → Prop
  | kept {t : State} (h : keep t = keep s) : Effect c s (.next t)
  | held {t : State} (h : (keep t).1 = (keep s).1) (hc : Safety.changesVault c = true) : Effect c s (.next t)
  | moved {t : State} (h : Guards s t) (hv : Safety.changesVault c = true ∨ t.key.slots = s.key.slots) : Effect c s (.next t)

theorem effect_exec (c : Instr) (s : State) : Effect c s (exec c s) := by
  cases c with
  | powerGood => exact .moved (guards_powerGood ..) (.inl rfl)
  | coldPowerLoss => exact .moved (guards_coldPowerLoss s) (.inl rfl)
  | geodeRegenerate => exact .moved (guards_of_moves (moves_geodeRegenerate ..) fun h => geodeRegenerate_dark h ..) (.inr (slots_geodeRegenerate ..))
  | drbgInstantiate => exact .moved (guards_of_moves (moves_drbgInstantiate s) drbgInstantiate_dark) (.inl rfl)
  | startReady => exact .kept (keep_startReady ..)
  | tamperZeroise => exact .moved (guards_of_moves (moves_tamperZeroise ..) fun h => tamperZeroise_dark h ..) (.inl rfl)
  | clockLost => exact .moved (guards_of_moves (moves_clockLost ..) fun h => clockLost_dark h ..) (.inl rfl)
  | clockReturn => exact .moved (guards_of_moves (moves_clockReturn ..) fun h => clockReturn_dark h ..) (.inl rfl)
  | aclkLost => exact .moved (guards_of_moves (moves_aclkLost s) aclkLost_dark) (.inr (slots_aclkLost s))
  | laneBeat => exact .kept (keep_laneBeat ..)
  | laneReplace => exact .kept (keep_replaceLane ..)
  | fenceTestDone => exact .kept (keep_fenceTest ..)
  | spareSelfTest => exact .kept (keep_spareTest ..)
  | keyDerivationDone => exact .held (core_keyDerivationDone ..) rfl
  | charterLoad => exact .kept (keep_ctlWriteBy _ _ _ (keep_charterLoad ..))
  | charterStored => exact .held (core_charterStored ..) rfl
  | funcStopWrite => exact .kept (keep_ctlWriteBy _ _ _ (keep_funcStopWrite ..))
  | functionDrained => exact .kept (keep_functionDrained ..)
  | loadWrapped => exact .held (core_ctlWriteBy _ _ _ (core_keyRun _ _ <| core_loadWrapped ..)) rfl
  | activate => exact .held (core_ctlWriteBy _ _ _ (core_keyRun _ _ <| core_activate ..)) rfl
  | retirePrev => exact .held (core_ctlWriteBy _ _ _ (core_keyRun _ _ <| core_retirePrev ..)) rfl
  | discardStaged => exact .held (core_ctlWriteBy _ _ _ (core_keyRun _ _ <| core_discardStaged ..)) rfl
  | zeroise => exact .held (core_ctlWriteBy _ _ _ (core_keyRun _ _ <| core_zeroise ..)) rfl
  | genEphemeral => exact .held (core_ctlWriteBy _ _ _ (core_genEphemeral ..)) rfl
  | vaultMaskRefresh => exact .moved (guards_of_moves (moves_maskRefresh s) maskRefresh_dark) (.inl rfl)
  | entropyTestFail => exact .moved (guards_of_moves (moves_entropyTestFail s) entropyTestFail_dark) (.inr (slots_entropyTestFail s))
  | entropyRetest => exact .moved (guards_of_moves (moves_entropyRetest ..) fun h => entropyRetest_dark h ..) (.inl rfl)
  | drbgReseed => exact .kept (keep_drbgReseed ..)
  | fabRead => exact .held (core_fabMem ..) rfl
  | fabWrite => exact .held (core_fabMem ..) rfl
  | fabWritePartial => exact .held (core_fabMem ..) rfl
  | fabCread => exact .held (core_fabMem ..) rfl
  | fabCwrite => exact .held (core_fabMem ..) rfl
  | fabRawRead => exact .held (core_fabMem ..) rfl
  | fabRawWrite => exact .held (core_fabMem ..) rfl
  | fabLoad => exact .kept (keep_fabOut ..)
  | fabStore => exact .kept (keep_fabOut ..)
  | fabStorePartial => exact .kept (keep_fabOut ..)
  | fabStoreFlagged => exact .kept (keep_fabOut ..)
  | fabStorePartialFlagged => exact .kept (keep_fabOut ..)
  | fabAtomic => exact .kept (keep_fabOut ..)
  | fabAtomicFetch => exact .kept (keep_fabOut ..)
  | fabReservedOp => exact .kept (by simp only [apply_ite keep, keep_fabRefuse, ite_self])
  | memReadData => exact .held (core_memRead ..) rfl
  | memWriteAck => exact .held (core_memAck ..) rfl
  | memTrained => exact .kept (keep_memTrain ..)
  | catalogueFormat => exact .held ((core_objWaited _).trans (core_catalogueFormat ..)) rfl
  | create => exact .held (core_ctlWriteBy _ _ _ (core_regionCmd ..)) rfl
  | destroy => exact .held (core_ctlWriteBy _ _ _ (core_regionCmd ..)) rfl
  | setRights => exact .held (core_ctlWriteBy _ _ _ (core_regionCmd ..)) rfl
  | pageReencrypt => exact .held (core_pageReencrypt ..) rfl
  | sweepStep => exact .held (core_sweepStep ..) rfl
  | sweepVerifyDone => exact .held (core_sweepVerifyDone ..) rfl
  | memCalRequest => exact .kept (keep_calRequest ..)
  | memCalGrant => exact .kept (keep_calGrant ..)
  | memCalEnd => exact .kept (keep_calEnd ..)
  | memCalOverrun => exact .kept (keep_calOverrun ..)
  | memSrAck => exact .moved (guards_of_moves (moves_memSrAck ..) fun h => memSrAck_dark h ..) (.inl rfl)
  | linkUp => exact .held (core_linkUp ..) rfl
  | hello => exact .held (core_rxPlain ..) rfl
  | identity => exact .held (core_rxPlain ..) rfl
  | keyShare => exact .held (core_rxPlain ..) rfl
  | keyConfirm => exact .held (core_rxPlain ..) rfl
  | bringupTimeout => exact .held (core_bringupTimeout ..) rfl
  | bringupRetry => exact .held (core_bringupRetry ..) rfl
  | data => exact .held (core_rxFrame ..) rfl
  | idle => exact .held (core_rxPlain ..) rfl
  | nak => exact .held (core_rxPlain ..) rfl
  | rekey => exact .held (core_rxPlain ..) rfl
  | rekeyDone => exact .held (core_rxPlain ..) rfl
  | rekeyThreshold => exact .held (core_rekeyThreshold ..) rfl
  | rekeyOverdue => exact .kept (keep_rekeyOverdue ..)
  | seqExhausted => exact .kept (keep_seqExhausted ..)
  | rekeyTimeout => exact .kept (keep_rekeyTimeout ..)
  | rekeyNow => exact .held (core_ctlWriteBy _ _ _ (by simp only [apply_ite keep, apply_ite Prod.fst, core_startRekey, ite_self])) rfl
  | creditIdleTimer => exact .kept (keep_creditIdle ..)
  | cadenceTick => exact .kept (keep_cadenceTick ..)
  | retryResend => exact .kept (keep_retryResend ..)
  | atomicLineIdle => exact .held (core_atomicLineIdle ..) rfl
  | deadTargetTimeout => exact .held (core_deadTarget ..) rfl
  | routeWrite => exact .kept (keep_ctlWriteBy _ _ _ (keep_routeWrite ..))
  | lnkCalRequest => exact .kept (keep_lnkCalRequest ..)
  | lnkCalGrant => exact .kept (keep_lnkCalGrant ..)
  | lnkCalEnd => exact .held (core_lnkCalEnd ..) rfl
  | lnkCalOverrun => exact .kept (keep_lnkCalOverrun ..)
  | contextOpen => exact .held (core_contextOpen ..) rfl
  | eabExpire => exact .kept (keep_eabExpire ..)
  | collTimeout => exact .held (core_collTimeout ..) rfl
  | chunkResend => exact .kept (keep_chunkResend ..)
  | groupRetire => exact .kept (keep_ctlWriteBy _ _ _ (keep_groupRetire ..))
  | jobStart => exact .held (core_jobStart ..) rfl
  | jobResume => exact .held (core_jobResume ..) rfl
  | cut => exact .held (core_stratumCmd ..) rfl
  | cutFlushDone => exact .held (core_flushDone ..) rfl
  | restore => exact .held (core_stratumCmd ..) rfl
  | cutTimeout => exact .held (core_cutTimeout ..) rfl
  | doorbell => exact .kept (keep_ctlWriteBy _ _ _ (keep_doorbell ..))
  | commandFetch => exact .kept (keep_commandFetch ..)
  | commandDispatch => exact .held (core_commandDispatch ..) rfl
  | commandComplete => exact .held (core_commandComplete ..) rfl
  | ctxCreate => exact .kept (keep_ctlWriteBy _ _ _ (keep_hobRun _ _ _ _ _ <| keep_ctxCreate ..))
  | ctxDestroy => exact .kept (keep_ctlWriteBy _ _ _ (keep_hobRun _ _ _ _ _ <| keep_ctxDestroy ..))
  | switch => exact .kept (keep_ctlWriteBy _ _ _ (keep_hobRun _ _ _ _ _ <| keep_switchCtx ..))
  | qCreate => exact .kept (keep_ctlWriteBy _ _ _ (keep_hobRun _ _ _ _ _ <| keep_queueCreate ..))
  | qDestroy => exact .kept (keep_ctlWriteBy _ _ _ (keep_hobRun _ _ _ _ _ <| keep_queueDestroy ..))
  | eventCreate => exact .kept (keep_ctlWriteBy _ _ _ (keep_hobRun _ _ _ _ _ <| keep_eventCreate ..))
  | eventDestroy => exact .kept (keep_ctlWriteBy _ _ _ (keep_hobRun _ _ _ _ _ <| keep_eventDestroy ..))
  | objCreate => exact .held (core_ctlWriteBy _ _ _ (core_objCreate ..)) rfl
  | objAdopt => exact .kept (keep_ctlWriteBy _ _ _ (keep_hobRun _ _ _ _ _ <| keep_objAdopt ..))
  | objFree => exact .held (core_ctlWriteBy _ _ _ (core_hobRun _ _ _ _ _ <| core_objFree ..)) rfl
  | objDestroyRetry => exact .held (core_objRetry ..) rfl
  | sliceResetDrain => exact .held (core_ctlWriteBy _ _ _ (core_sliceReset ..)) rfl
  | sliceResetSquash => exact .held (core_ctlWriteBy _ _ _ (core_sliceReset ..)) rfl
  | sliceResetSettle => exact .kept ((keep_chrFinish _).trans (keep_sliceSettle ..))
  | drainTimeout => exact .held (core_drainTimeout ..) rfl
  | squashTimeout => exact .kept (keep_squashTimeout ..)
  | portSelect => exact .held (core_portCycle ..) rfl
  | requestAged => exact .kept (keep_requestAged ..)
  | watchdogHang => exact .kept (keep_watchdogHang ..)
  | portReset => exact .held (core_portReset ..) rfl
  | hostReset => exact .kept (keep_hostReset ..)
  | coreWarmReset => exact .held (core_coreWarmReset ..) rfl
  | blockWarmRecovery => exact .held (core_blockWarmRecovery ..) rfl
  | coldStartRequest => exact .moved (guards_of_moves (moves_coldStartRequest ..) fun h =>
    coldStartRequest_dark h ..) (.inr (slots_coldStartRequest ..))
  | rungTimerExpiry => exact .kept (keep_rungExpiry ..)
  | quiesceDrainDone => exact .moved (guards_of_moves (moves_drainDone s) drainDone_dark) (.inl rfl)
  | dumpTake => exact .kept (keep_ctlWriteBy _ _ _ (keep_takeDump ..))
  | dumpUnitTimeout => exact .kept (keep_dumpTimeout ..)
  | dumpCopy => exact .kept (keep_dumpCopy ..)
  | annalsWrite => exact .kept (keep_annalsWrite ..)
  | hourTick => exact .kept (keep_hourTick ..)
  | driverLaneFence => exact .kept (keep_ctlWriteBy _ _ _ (keep_driverFence ..))
  | driverLaneUnfence => exact .kept (keep_ctlWriteBy _ _ _ (keep_driverUnfence ..))
  | getVersion => exact .kept (keep_serve _ _ _ fun _ _ => answers_ansVersion ..)
  | getCapabilities => exact .kept (keep_serve _ _ _ fun _ _ => answers_ansCapabilities ..)
  | negotiateAlgorithms => exact .kept (keep_serve _ _ _ fun _ _ => answers_ansAlgorithms ..)
  | getDigests => exact .kept (keep_serve _ _ _ fun _ _ => answers_ansDigests ..)
  | getCertificate => exact .kept (keep_serve _ _ _ fun _ _ => answers_ansCertificate ..)
  | challenge => exact .kept (keep_serve _ _ _ fun _ _ => answers_ansChallenge ..)
  | getMeasurements => exact .kept (keep_serve _ _ _ fun _ _ => answers_ansMeasurements ..)
  | spdmUnsupported => exact .kept (keep_serve _ _ _ fun _ _ => answers_ansUnsupported ..)
  | mbxSend => exact .kept (keep_ctlWriteBy _ _ _ (keep_mbxCtrl ..))
  | mbxRelease => exact .kept (keep_ctlWriteBy _ _ _ (keep_mbxRelease ..))
  | colophon => exact .held (core_ctlWriteBy _ _ _ (core_attCmd _ _ _ _ fun _ _ _ => core_colophon ..)) rfl
  | enlistNonce => exact .held (core_ctlWriteBy _ _ _ (core_attCmd _ _ _ _ fun _ _ _ => core_enlistNonce ..)) rfl
  | enlistNonceExpire => exact .kept (keep_nonceExpire ..)
  | enlist => exact .held (core_ctlWriteBy _ _ _ (core_attCmd _ _ _ _ fun _ _ _ => core_enlist ..)) rfl
  | delist => exact .held (core_ctlWriteBy _ _ _ (core_attCmd _ _ _ _ fun _ _ _ => core_delist ..)) rfl
  | lockAdmission => exact .held (core_ctlWriteBy _ _ _ (core_attCmd _ _ _ _ fun _ _ _ => core_lockAdmission ..)) rfl
  | rosterSign => exact .held (core_ctlWriteBy _ _ _ (core_attCmd _ _ _ _ fun _ _ _ => core_rosterSign ..)) rfl
  | rosterLoad => exact .held (core_ctlWriteBy _ _ _ (core_attCmd _ _ _ _ fun _ _ _ => core_rosterLoad ..)) rfl
  | appoint => exact .kept (keep_ctlWriteBy _ _ _ (keep_attCmd _ _ _ _ fun _ _ _ => keep_appoint ..))
  | wrapDomain => exact .held (core_ctlWriteBy _ _ _ (core_attCmd _ _ _ _ fun _ _ _ => core_wrapDomain ..)) rfl
  | genPair => exact .held (core_ctlWriteBy _ _ _ (core_attCmd _ _ _ _ fun _ _ _ => core_genPair ..)) rfl
  | rekeyIssue => exact .held (core_ctlWriteBy _ _ _ (core_attCmd _ _ _ _ fun _ _ _ => core_rekeyIssue ..)) rfl
  | rekeyApply => exact .held (core_ctlWriteBy _ _ _ (core_attCmd _ _ _ _ fun _ _ _ => core_rekeyApply ..)) rfl
  | fwMeasure => exact .kept (keep_ctlWriteBy _ _ _ (keep_attCmd _ _ _ _ fun _ _ _ => keep_fwLoad ..))
  | fwStage => exact .kept (keep_ctlWriteBy _ _ _ (keep_attCmd _ _ _ _ fun _ _ _ => keep_fwLoad ..))
  | fwActivate => exact .kept (keep_ctlWriteBy _ _ _ (keep_attCmd _ _ _ _ fun _ _ _ => keep_fwActivate ..))
  | fwAbandon => exact .kept (keep_ctlWriteBy _ _ _ (keep_attCmd _ _ _ _ fun _ _ _ => keep_fwAbandon ..))
  | endorse => exact .kept (keep_ctlWriteBy _ _ _ (keep_attCmd _ _ _ _ fun _ _ _ => keep_endorse ..))
  | certStore => exact .kept (keep_ctlWriteBy _ _ _ (keep_attCmd _ _ _ _ fun _ _ _ => keep_certStore ..))
  | ideBind => exact .kept (keep_ctlWriteBy _ _ _ (keep_attCmd _ _ _ _ fun _ _ _ => keep_ideBind ..))
  | ideKeyex => exact .held (core_ctlWriteBy _ _ _ (core_attCmd _ _ _ _ fun _ _ _ => core_ideKeyex ..)) rfl
  | ideDeliver => exact .held (core_ctlWriteBy _ _ _ (core_attCmd _ _ _ _ fun _ _ _ => core_ideDeliver ..)) rfl
  | ideSwitch => exact .held (core_ctlWriteBy _ _ _ (core_attCmd _ _ _ _ fun _ _ _ => core_ideSwitch ..)) rfl
  | ideClose => exact .held (core_ctlWriteBy _ _ _ (core_attCmd _ _ _ _ fun _ _ _ => core_ideClose ..)) rfl
  | transition => exact .kept (keep_ctlWriteBy _ _ _ (keep_lcsSubmit ..))
  | debugEnable => exact .kept (keep_ctlWriteBy _ _ _ (keep_lcsSubmit ..))
  | debugDisable => exact .kept (keep_ctlWriteBy _ _ _ (keep_lcsTake _ _ fun _ => keep_debugDisable ..))
  | raiseFloor => exact .kept (keep_ctlWriteBy _ _ _ (keep_lcsSubmit ..))
  | clearStanding => exact .kept (keep_ctlWriteBy _ _ _ (keep_lcsSubmit ..))
  | fusePgmAck => exact .moved (guards_of_moves (moves_fuseAck ..) fun h => fuseAck_dark h ..) (.inr (slots_fuseAck ..))
  | flashGrantTimeout => exact .held (core_flashOpFails ..) rfl
  | genCommitSreTiming => exact .kept (keep_ctlWriteBy _ _ _ (keep_commitSre ..))
  | genCommitShape => exact .kept (keep_ctlWriteBy _ _ _ (keep_commitShape ..))
  | registerWrite => exact .moved (guards_of_moves (moves_ctlWriteBy _ _ (moves_regWrite ..)) fun h => ctlWriteBy_dark h ..) (.inl rfl)
  | debugPathReset => exact .kept (keep_debugReset ..)
  | mboxPut => exact .moved (guards_of_moves (moves_posted _ _ fun t => moves_mboxPut t _) fun h =>
    posted_dark h ..) (.inr (slots_posted _ _ fun t => slots_mboxPut t _))
  | mboxSend => exact .kept (keep_posted _ _ _ fun _ => keep_mboxSend ..)
  | mboxGet => exact .kept (keep_posted _ _ _ fun _ => keep_mboxGet ..)
  | regsRead => exact .kept (keep_posted _ _ _ fun _ => keep_regsRead ..)
  | regsWrite => exact .moved (guards_of_moves (moves_posted _ _ fun t => moves_regsWrite t ..) fun h => posted_dark h ..) (.inl rfl)
  | lcsStage => exact .moved (guards_of_moves (moves_posted _ _ fun t => moves_lcsStage t _) fun h =>
    posted_dark h ..) (.inr (slots_posted _ _ fun _ => rfl))
  | fabdbgRead => exact .held (core_posted _ _ _ fun _ => core_fabdbg ..) rfl
  | fabdbgWrite => exact .held (core_posted _ _ _ fun _ => core_fabdbg ..) rfl
  | fabdbgRawRead => exact .held (core_posted _ _ _ fun _ => core_fabdbg ..) rfl
  | fabdbgRawWrite => exact .held (core_posted _ _ _ fun _ => core_fabdbg ..) rfl
  | scan => exact .kept (keep_posted _ _ _ fun _ => keep_scanRun ..)
  | linkDown => exact .held (core_linkDown ..) rfl
  | flashGrantLost => exact .held (core_flashGrantLost ..) rfl
  | aclkReturn => exact .moved (guards_of_moves (moves_aclkReturn s) aclkReturn_dark) (.inl rfl)

theorem guards_exec {c : Instr} {s t : State} (h : exec c s = .next t) : Guards s t := by
  have he := effect_exec c s
  rw [h] at he
  cases he with
  | kept hk => exact guards_of_core (congrArg Prod.fst hk)
  | held hk _ => exact guards_of_core hk
  | moved hg _ => exact hg

theorem slots_exec {c : Instr} {s t : State} (hc : Safety.changesVault c = false) (h : exec c s = .next t) : t.key.slots = s.key.slots := by
  have he := effect_exec c s
  rw [h] at he
  cases he with
  | kept hk => exact slots_of_keep hk
  | held _ hv => exact absurd (hc.symm.trans hv) Bool.false_ne_true
  | moved _ hv => exact hv.resolve_left fun hv => Bool.false_ne_true (hc.symm.trans hv)

theorem keep_tick (s : State) : keep (tick s) = keep s := by
  unfold tick
  split <;> rfl

/-- A step runs the front command, or counts a period of ACLK. -/
theorem guards_step {s t : State} (h : step s = .next t) : Guards s t := by
  unfold step at h
  split at h
  · next c r _ => exact guards_exec (s := { s with pending := r }) h
  · cases h
    exact guards_of_core (congrArg Prod.fst (keep_tick s))

end Sys2Proof.Proofs.CoreFrame

namespace Sys2Proof.Proofs
open Sys2Proof.Machine

/-- Settles O5: `CoreFrame.effect_exec` gives for each command what it does to the core of the state,
    and each that moves it keeps the buffers canonical
and the shadow within the fuses. -/
theorem stepKeepsInv : Obligations.StepKeepsInv := by
  unfold Obligations.StepKeepsInv
  exact fun _ _ hinv h => (CoreFrame.guards_step h).1 hinv

/-- Settles O7: a tampered block has no entropy test under way and its CORE makes no key; without power nothing of a start is left. -/
theorem tamperKeepsKeysDead : Obligations.TamperKeepsKeysDead := by
  unfold Obligations.TamperKeepsKeysDead
  exact fun _ _ hinv h => (CoreFrame.guards_step h).2 hinv

/-- Settles O60: `CoreFrame.effect_exec` gives for each command not listed that it leaves the vault. -/
theorem vaultKeptByOthers : Obligations.VaultKeptByOthers := by
  unfold Obligations.VaultKeptByOthers
  exact fun _ _ _ hc h => CoreFrame.slots_exec hc h

end Sys2Proof.Proofs

/-! Tamper zeroisation: what the sequence leaves of keys and key stores (03 R99, R103 to R105). -/
namespace Sys2Proof.Proofs.Tamper
open Sys2Proof.Machine CoreFrame

/-- The key stores of CORE are empty, and unless ACLK is lost the vault too. -/
def Spent (lost : Bool) (s : State) : Prop :=
  s.key.dkc = [] ∧ s.key.missq = [] ∧ s.lane.ctx = [] ∧ s.ile.resident = [] ∧ (lost = false → s.key.slots = [])

variable {lost : Bool} {s : State}

theorem Spent.endLinkCal (h : Spent lost s) (e : Nat) : Spent lost (endLinkCal s e) := by
  unfold Machine.endLinkCal
  split
  · exact h
  · exact h

theorem Spent.clearSession (h : Spent lost s) (e : Nat) : Spent lost (clearSession s e) := by
  obtain ⟨hd, hm, hc, hr, hs⟩ := h
  refine ⟨?_, ?_, ?_, hr, fun hl => ?_⟩
  · simp [Machine.clearSession, emptySlot, setSlot, dropKeysOf, hd]
  · simp [Machine.clearSession, emptySlot, setSlot, dropKeysOf, hm]
  · simp [Machine.clearSession, emptySlot, setSlot, dropKeysOf, hc]
  · simp [Machine.clearSession, emptySlot, setSlot, dropKeysOf, hs hl, tset, tdel]

theorem Spent.setPortSt (h : Spent lost s) (e : Nat) (st : PortSt) : Spent lost (setPortSt s e st) := by
  unfold Machine.setPortSt
  dsimp only
  split
  · exact h
  · split <;> exact h

theorem Spent.recordPlain (h : Spent lost s) (c u loc act : Nat) : Spent lost (recordPlain s c u loc act) := by
  simpa [Spent, Machine.recordPlain] using h

theorem Spent.portsDown (h : Spent lost s) (l : List Nat) :
    Spent lost (l.foldl (fun s e => portDown (setLnkPin s e { lnkPin s e with en := false }) e) s) := by
  induction l generalizing s with
  | nil => exact h
  | cons e l ih =>
    have hp : Spent lost (setLnkPin s e { lnkPin s e with en := false }) := h
    exact ih (((hp.endLinkCal e).clearSession e).setPortSt e .down)

theorem Spent.tamperTail (h : Spent lost s) (vaultClean : Bool) : Spent lost (tamperTail s vaultClean) := by
  have hr := (h.portsDown (lnkPortsOf s)).recordPlain Flc.tamper 6 0 0
  unfold CoreFrame.tamperTail
  dsimp only
  split
  · exact hr
  · exact hr.recordPlain ..

theorem tamperCore_stores (s : State) :
    (tamperCore s).key.dkc = [] ∧ (tamperCore s).key.missq = [] ∧ (tamperCore s).lane.ctx = [] ∧ (tamperCore s).ile.resident = [] := by
  unfold tamperCore
  extract_lets t u _ v w x y
  clear_value y
  exact ⟨rfl, rfl, rfl, rfl⟩

theorem tamperHead_stores (s : State) :
    (tamperHead s).key.dkc = [] ∧ (tamperHead s).key.missq = [] ∧ (tamperHead s).lane.ctx = [] ∧ (tamperHead s).ile.resident = [] :=
  tamperCore_stores _

/-- Once the vault array is overwritten, nothing is left but what waits for ACLK. -/
theorem spent_overwritten (s : State) (wait : Bool) : Spent s.dom.aclkLost (vaultOverwritten (tamperHead s) wait) := by
  have hcore := core_tamperHead s
  obtain ⟨hd, hm, hc, hr⟩ := tamperHead_stores s
  generalize tamperHead s = t at hcore hd hm hc hr ⊢
  refine ⟨hd, hm, hc, hr, fun hl => ?_⟩
  have hlost : t.dom.aclkLost = s.dom.aclkLost := congrArg Core.aclkLost hcore
  simp [vaultOverwritten, hlost, hl]

end Sys2Proof.Proofs.Tamper

namespace Sys2Proof.Proofs
open Sys2Proof.Machine CoreFrame Tamper

/-- Settles O10: the sequence is `tamperTail` after `vaultOverwritten` after `tamperHead`; `core_tamperZeroise` and `Spent` say what they
leave. -/
theorem tamperZeroises : Obligations.TamperZeroises := by
  unfold Obligations.TamperZeroises
  intro vaultClean s hp
  refine ⟨tamperZeroise s vaultClean, rfl, ?_⟩
  cases ht : s.key.tampered with
  | true =>
    rw [tamperZeroise_again hp ht]
    exact ⟨rfl, rfl, ht, fun h => absurd h (by simp), fun _ => rfl⟩
  | false =>
    have hcore := core_tamperZeroise hp ht vaultClean
    have hspent : Spent s.dom.aclkLost (tamperZeroise s vaultClean) := by
      rw [tamperZeroise_first hp ht]
      exact (spent_overwritten (bankFallen s) _).tamperTail vaultClean
    generalize tamperZeroise s vaultClean = t at hcore hspent
    obtain ⟨hdkc, hmiss, hctx, hres, hslots⟩ := hspent
    exact ⟨congrArg Core.kill hcore, congrArg Core.killed hcore, congrArg Core.tampered hcore,
      fun _ => ⟨hdkc, hmiss, hctx, congrArg Core.drbgUp hcore, hres, hslots, congrArg Core.zeroised hcore, congrArg Core.coreWipeDue hcore⟩,
      fun h => absurd h (by simp)⟩

end Sys2Proof.Proofs

/-! Key commands: how one ends, and what it does to the halves of a slot (03 R89 to R96, Tables 3-12, 3-13). -/
namespace Sys2Proof.Proofs.KeyCommands
open Sys2Proof.Machine CoreFrame

variable {s t : State} {i j : Nat} {v : Slot} {mk : Masks}

/-! ### The end of a command -/

/-- A key command that runs ends with the code and the state its meaning gives, and the write is answered OKAY. -/
theorem keyWrite_runs (ha : Safety.admitted s 0x100C) (hb : s.key.cmdBusy = false) (ht : s.key.tampered = false) (f : State → Code × State) :
    ctlWriteBy s 0x100C (fun s => keyRun s f) = Safety.okay (keyEnd (f s).2 (f s).1) := by
  simp [ctlWriteBy_admitted ha, keyRun, hb, ht]

@[simp] theorem keyEnd_result (t : State) (c : Code) : (Safety.okay (keyEnd t c)).key.cmdResult = c := rfl

@[simp] theorem keyEnd_busy (t : State) (c : Code) : (Safety.okay (keyEnd t c)).key.cmdBusy = false := rfl

@[simp] theorem keyEnd_slots (t : State) (c : Code) : (Safety.okay (keyEnd t c)).key.slots = t.key.slots := rfl

@[simp] theorem keyEnd_slotAt (t : State) (c : Code) (i : Nat) : slotAt (Safety.okay (keyEnd t c)) i = slotAt t i := rfl

@[simp] theorem keyEnd_dkc (t : State) (c : Code) : (Safety.okay (keyEnd t c)).key.dkc = t.key.dkc := rfl

/-- The sources of the interrupt stand, and KEY is among them. -/
theorem keyEnd_irq (t : State) (c : Code) (n : Nat) :
    (Safety.okay (keyEnd t c)).gen.irqStatus.getLsbD n = (t.gen.irqStatus.getLsbD n || (1#32 <<< 4).getLsbD n) :=
  BitVec.getLsbD_or

@[simp] theorem keyEnd_keySource (t : State) (c : Code) : (Safety.okay (keyEnd t c)).gen.irqStatus.getLsbD 4 = true := by
  rw [keyEnd_irq]
  exact Bool.or_true _

/-! ### Halves and slots -/

theorem halfOf_withHalf_same (v : Slot) (g : Nat) (x : Option Half) : halfOf (withHalf v g x) g = x := by
  unfold halfOf withHalf
  split <;> rfl

theorem halfOf_withHalf_succ (v : Slot) (g : Nat) (x : Option Half) : halfOf (withHalf v (g + 1) x) g = halfOf v g := by
  obtain h | h := Nat.mod_two_eq_zero_or_one g <;> simp [halfOf, withHalf, Nat.add_mod, h]

theorem withHalf_genCur (v : Slot) (g : Nat) (x : Option Half) : (withHalf v g x).genCur = v.genCur := by
  unfold withHalf
  split <;> rfl

theorem withHalf_masks (v : Slot) (g : Nat) (x : Option Half) : (withHalf v g x).masks = v.masks := by
  unfold withHalf
  split <;> rfl

@[simp] theorem slotAt_dropKeysOf (s : State) (i h j : Nat) : slotAt (dropKeysOf s i h) j = slotAt s j := rfl

theorem zeroHalf_held (hv : slotAt s i = some v) (h : Nat) : zeroHalf s i h = setSlot (dropKeysOf s i h) i (some (withHalf v h none)) := by
  simp [zeroHalf, hv]

theorem retireHalf_held (hv : slotAt s i = some v) :
    retireHalf s i = setSlot (zeroHalf s i (v.genCur + 1)) i (some { withHalf v (v.genCur + 1) none with prevLive := false }) := by
  simp [retireHalf, hv, zeroHalf_held hv, slotAt_setSlot]

/-- With no job open, none ends (03 R95). -/
theorem jobsRevoked_none (h : s.bce.jobs = []) (i half : Nat) : jobsRevoked s i half = s := by
  simp [jobsRevoked, h]

/-! ### Re-shelving counts blocks under PLATFORM slot 2 alone (04 R111, R140) -/

theorem slotAt_of_keep (h : keep t = keep s) (j : Nat) : slotAt t j = slotAt s j :=
  congrArg (tget · j) (slots_of_keep h)

theorem slotAt_foldl {α : Type} {f : State → α → State} (hf : ∀ s x, slotAt (f s x) j = slotAt s j) (l : List α) (s : State) :
    slotAt (l.foldl f s) j = slotAt s j := by
  induction l generalizing s with
  | nil => rfl
  | cons x l ih => exact (ih (f s x)).trans (hf s x)

theorem slotAt_countBlocks (h : i ≠ j) (s : State) (half vol n : Nat) : slotAt (countBlocks s i half vol n) j = slotAt s j := by
  unfold countBlocks
  split
  · rfl
  · refine (slotAt_foldl (fun s mark => ?_) _ _).trans (by simp [slotAt_setSlot, h])
    split
    · exact slotAt_of_keep (keep_record ..) j
    · rfl

theorem slotAt_sealCatLine (h : 2 ≠ j) (s : State) (ix : Nat) (r : Region) : slotAt (sealCatLine s ix r) j = slotAt s j := by
  unfold sealCatLine
  extract_lets cr c half minor
  have hp := slotAt_of_keep (keep_lanePass s (memPort s (catLine s ix)) (lineHandles s catIx cr 2 half) none 0) j
  generalize lanePass s (memPort s (catLine s ix)) (lineHandles s catIx cr 2 half) none 0 = p at hp
  obtain ⟨ok, t⟩ := p
  dsimp only
  split
  · split
    · exact hp
    · exact ((slotAt_of_keep (keep_pushPast ..) j).trans (slotAt_countBlocks h ..)).trans hp
  · exact hp

theorem slotAt_setIme (s : State) (m : Ime) (j : Nat) : slotAt { s with ime := m } j = slotAt s j := rfl

theorem slotAt_catReencrypt (h : 2 ≠ j) (s : State) (page : Nat) : slotAt (catReencrypt s page) j = slotAt s j := by
  unfold catReencrypt
  extract_lets cr c ixs t u w _ x
  have ht : slotAt t j = slotAt s j := (slotAt_of_keep (keep_ownReads s ..) j :)
  have hu : slotAt u j = slotAt t j := (slotAt_of_keep (keep_setCtr t ..) j :)
  have hw : slotAt w j = slotAt u j := slotAt_foldl (fun s i => slotAt_sealCatLine h s i (entryAt s i)) ixs u
  have hx : slotAt x j = slotAt w j := (slotAt_setIme w _ j :)
  have hxs : slotAt x j = slotAt s j := hx.trans (hw.trans (hu.trans ht))
  clear_value x
  split
  · exact (slotAt_of_keep (keep_record ..) j).trans hxs
  · exact hxs

theorem slotAt_catWrite (h : 2 ≠ j) (s : State) (ix : Nat) (r : Region) : slotAt (catWrite s ix r) j = slotAt s j := by
  unfold catWrite
  extract_lets cr page t due u c w
  split
  · exact slotAt_of_keep (keep_imeReason ..) j
  · have ht : slotAt t j = slotAt s j := (slotAt_of_keep (keep_fetchPath s ..) j :)
    have hu : slotAt u j = slotAt t j := by
      unfold u
      split
      · exact slotAt_catReencrypt h t page
      · rfl
    have hw : slotAt w j = slotAt u j := (slotAt_of_keep (keep_setCtr u ..) j :)
    clear_value w u t
    calc slotAt (touchCat (writeCtr (sealCatLine (setRegion w ix r) ix r) catIx cr page 0) ix) j
        = slotAt (writeCtr (sealCatLine (setRegion w ix r) ix r) catIx cr page 0) j := slotAt_of_keep (keep_touchCat ..) j
      _ = slotAt (sealCatLine (setRegion w ix r) ix r) j := slotAt_of_keep (keep_writeCtr ..) j
      _ = slotAt w j := slotAt_sealCatLine h (setRegion w ix r) ix r
      _ = slotAt u j := hw
      _ = slotAt t j := hu
      _ = slotAt s j := ht

theorem slotAt_startShelving (h : 2 ≠ j) (s : State) (tenant : Nat) : slotAt (startShelving s tenant) j = slotAt s j := by
  unfold startShelving
  refine slotAt_foldl (fun s x => ?_) _ _
  split
  · exact slotAt_catWrite h ..
  · rfl

theorem slotAt_genReached (s : State) (i old new j : Nat) : slotAt (genReached s i old new) j = slotAt s j :=
  slotAt_of_keep (keep_genReached ..) j

/-! ### The commands -/

theorem activate_staged (hi : 64 ≤ i) (hv : slotAt s i = some v) (hmk : v.staged = some mk) :
    (activate i s).1 = Kc.done
      ∧ slotAt (activate i s).2 i = some { v with genCur := v.genCur + 1, prevLive := true, masks := mk, staged := none } := by
  have hact : slotAt (activateHalf s i) i = some { v with genCur := v.genCur + 1, prevLive := true, masks := mk, staged := none } := by
    simp [activateHalf, hv, slotAt_setSlot, hmk]
  have h64 : ¬ i < 64 := by omega
  have h2 : 2 ≠ i := by omega
  unfold activate
  rw [if_neg h64, hv]
  dsimp only
  rw [if_neg (by simp [hmk])]
  refine ⟨rfl, (slotAt_genReached ..).trans ?_⟩
  split
  · exact (slotAt_startShelving h2 ..).trans hact
  · exact hact

theorem afterMem_quiet (h : Safety.memIdle s) : afterMem s = s := by
  obtain ⟨hents, hingress, hdying, hheld⟩ := h
  exact afterMem_idle s hents hingress hheld hdying

theorem retirePrev_held (hi : 64 ≤ i) (hv : slotAt s i = some v) (hp : v.prevLive = true) (hu : prevUsers s i = 0) (hj : s.bce.jobs = [])
    (hm : Safety.memIdle s) :
    (retirePrev i s).1 = Kc.done
      ∧ slotAt (retirePrev i s).2 i = some { withHalf v (v.genCur + 1) none with prevLive := false } := by
  have h64 : ¬ i < 64 := by omega
  have hm' : Safety.memIdle (retireHalf s i) := by
    rw [retireHalf_held hv, zeroHalf_held hv]
    exact hm
  have h : retirePrev i s = (Kc.done, retireHalf s i) := by
    simp [retirePrev, h64, hv, hp, hu, jobsRevoked_none hj, afterMem_quiet hm']
  rw [h, retireHalf_held hv]
  exact ⟨rfl, (slotAt_setSlot ..).trans (if_pos rfl)⟩

theorem discardStaged_held (hi : 64 ≤ i) (hv : slotAt s i = some v) (hmk : v.staged = some mk) (hj : s.bce.jobs = []) :
    (discardStaged i s).1 = Kc.done
      ∧ slotAt (discardStaged i s).2 i = some { withHalf v (v.genCur + 1) none with staged := none } := by
  have h64 : ¬ i < 64 := by omega
  have hz := zeroHalf_held hv (v.genCur + 1)
  unfold discardStaged
  rw [if_neg h64, hv]
  dsimp only
  rw [if_neg (by simp [hmk]), jobsRevoked_none hj]
  refine ⟨rfl, ?_⟩
  have hget : slotAt (zeroHalf s i (v.genCur + 1)) i = some (withHalf v (v.genCur + 1) none) := by simp [hz, slotAt_setSlot]
  generalize zeroHalf s i (v.genCur + 1) = t at hget
  exact (tget_tmod ..).trans (by simp [show tget t.key.slots i = _ from hget])

theorem dkc_emptySlot {e : DkEntry} (he : e ∈ (emptySlot s i).key.dkc) : e.tag.slot ≠ i := by
  simp only [emptySlot, setSlot, dropKeysOf, List.mem_filter] at he
  intro h
  obtain hm | hm := Nat.mod_two_eq_zero_or_one e.tag.half <;> simp [h, hm] at he

theorem zeroise_idle (hi : 64 ≤ i) (hj : s.bce.jobs = []) (hm : Safety.memIdle s) :
    (zeroise i s).1 = Kc.done ∧ slotAt (zeroise i s).2 i = none ∧ (zeroise i s).2.key.dkc = (emptySlot s i).key.dkc := by
  have h64 : ¬ i < 64 := by omega
  have hget : slotAt (emptySlot s i) i = none := by simp [emptySlot, slotAt_setSlot]
  have hm' : Safety.memIdle (emptySlot s i) := hm
  unfold zeroise
  rw [if_neg h64]
  dsimp only
  rw [jobsRevoked_none hj, jobsRevoked_none hj]
  generalize emptySlot s i = t at hget hm'
  refine ⟨rfl, ?_⟩
  split
  · split
    · rw [afterMem_quiet (by exact hm')]
      exact ⟨hget, rfl⟩
    · rw [afterMem_quiet hm']
      exact ⟨hget, rfl⟩
  · rw [afterMem_quiet hm']
    exact ⟨hget, rfl⟩

/-! ### LOAD_WRAPPED (Table 3-13) -/

section
variable {m m1 : MemIn} {b : List Byte} {s1 : State} {k : BitVec 256}

theorem loadChecks_empty (hi : 64 ≤ i) (h0 : wrDomain b ≠ 0) (hd : wrDomain b = domainId s) (ht : tenantAvail s = true) (hn : slotAt s i = none)
    (hk : tenantTaken s (wrKind b) (wrTenant b) = false) : loadChecks s i b = Kc.done := by
  have h64 : ¬ i < 64 := by omega
  simp [loadChecks, ← hd, h0, h64, ht, hn, hk]

theorem loadChecks_next (hi : 64 ≤ i) (h0 : wrDomain b ≠ 0) (hd : wrDomain b = domainId s) (ht : tenantAvail s = true) (hv : slotAt s i = some v)
    (hk : v.kind = wrKind b) (hw : v.tenant = wrTenant b) (hs : v.staged = none) (hp : v.prevLive = false) (hg : v.genCur ≠ 0xFFFFFFFF)
    (hn : wrGen b = v.genCur + 1) : loadChecks s i b = Kc.done := by
  have h64 : ¬ i < 64 := by omega
  simp [loadChecks, ← hd, h0, h64, ht, hv, hk, hw, hs, hp, hg, hn]

theorem loadWrapped_unopened (hr : ctlRead s s.key.cmdShelf.toNat s.key.cmdAddr.toNat 192 m = (.ok b, s1, m1)) (hw : wrOk b = true)
    (hc : loadChecks s1 i b = Kc.done) (hu : unwrap s1 b = none) : loadWrapped i m s = (Kc.unwrapFail, s1) := by
  simp [loadWrapped, hr, hw, hc, hu]

/-- The record opens and the slot is empty: the key enters it as current. -/
theorem loadWrapped_empty (hr : ctlRead s s.key.cmdShelf.toNat s.key.cmdAddr.toNat 192 m = (.ok b, s1, m1)) (hw : wrOk b = true)
    (hc : loadChecks s1 i b = Kc.done) (hu : unwrap s1 b = some k) (hn : slotAt s1 i = none) :
    loadWrapped i m s = (Kc.done, genReached
      (fillSlot s1 i (wrKind b) (tenantClass s1) (wrTenant b) (wrGen b) (attrMasks (wrAttr b)) k) i 0 (wrGen b)) := by
  simp [loadWrapped, hr, hw, hc, hu, hn]

/-- The record opens and the slot is valid: the key is staged. -/
theorem loadWrapped_valid (hr : ctlRead s s.key.cmdShelf.toNat s.key.cmdAddr.toNat 192 m = (.ok b, s1, m1)) (hw : wrOk b = true)
    (hc : loadChecks s1 i b = Kc.done) (hu : unwrap s1 b = some k) (hv : slotAt s1 i = some v) :
    loadWrapped i m s = (Kc.done, stageHalf s1 i (attrMasks (wrAttr b)) k) := by
  simp [loadWrapped, hr, hw, hc, hu, hv]

end

theorem slotAt_fillSlot (s : State) (i kind rc tenant gen : Nat) (mk : Masks) (k : BitVec 256) :
    slotAt (fillSlot s i kind rc tenant gen mk k) i
      = some (withHalf (Safety.newSlot kind rc tenant gen mk) gen (maskHalf s i (gen % 2) k)) :=
  (slotAt_setSlot ..).trans (if_pos rfl)

/-- What staging makes of a slot: the key in the half that is not current, its count at 0, its masks kept for ACTIVATE. -/
def stagedSlot (s : State) (i : Nat) (v : Slot) (mk : Masks) (k : BitVec 256) : Slot :=
  { withHalf v ((v.genCur + 1) % 2) (maskHalf s i ((v.genCur + 1) % 2) k) with
    staged := some mk
    cnt0 := if (v.genCur + 1) % 2 = 0 then 0 else v.cnt0
    cnt1 := if (v.genCur + 1) % 2 = 1 then 0 else v.cnt1 }

theorem slotAt_stageHalf (hv : slotAt s i = some v) (mk : Masks) (k : BitVec 256) :
    slotAt (stageHalf s i mk k) i = some (stagedSlot s i v mk k) := by
  simp [stageHalf, hv, slotAt_setSlot, stagedSlot]

theorem withHalf_mod (v : Slot) (g : Nat) (x : Option Half) : withHalf v (g % 2) x = withHalf v g x := by
  simp [withHalf]

theorem halfOf_stagedSlot (s : State) (i : Nat) (v : Slot) (mk : Masks) (k : BitVec 256) :
    halfOf (stagedSlot s i v mk k) (v.genCur + 1) = maskHalf s i ((v.genCur + 1) % 2) k
      ∧ halfOf (stagedSlot s i v mk k) v.genCur = halfOf v v.genCur := by
  unfold stagedSlot
  rw [withHalf_mod]
  exact ⟨halfOf_withHalf_same .., halfOf_withHalf_succ ..⟩

/-! ### GEN_EPHEMERAL -/

theorem genChecks_empty (hi : 64 ≤ i) (hr : bits s.key.cmdArg.toNat 9 23 = 0) (hk : attrOk (bits s.key.cmdArg.toNat 32 32) = true)
    (ht : tenantAvail s = true) (hn : slotAt s i = none) (hf : tenantTaken s 3 (bits s.key.cmdArg.toNat 0 9) = false) :
    genChecks s i = Kc.done := by
  have h64 : ¬ i < 64 := by omega
  simp [genChecks, hr, hk, h64, ht, hn, hf]

/-- A random number that is served goes into the slot, masked as before it was drawn. -/
theorem genNow_served (hc : genChecks s i = Kc.done) (hd : drbgServes s = true) :
    (genNow i s).1 = Kc.done ∧ ∃ k, slotAt (genNow i s).2 i =
      some { Safety.newSlot 3 (tenantClass s) (bits s.key.cmdArg.toNat 0 9) 0 (attrMasks (bits s.key.cmdArg.toNat 32 32)) with
        half0 := maskHalf s i 0 k } := by
  have h : genNow i s = (Kc.done, fillSlot (drbgTake 256 s).2 i 3 (tenantClass (drbgTake 256 s).2) (bits (drbgTake 256 s).2.key.cmdArg.toNat 0 9) 0
      (attrMasks (bits (drbgTake 256 s).2.key.cmdArg.toNat 32 32)) (drbgTake 256 s).1) := by
    simp [genNow, hc, hd]
  have hp := StartSteps.provisioned_drbgTake 256 s
  rw [h]
  refine ⟨rfl, (drbgTake 256 s).1, (slotAt_fillSlot ..).trans ?_⟩
  rw [hp]
  rfl

end Sys2Proof.Proofs.KeyCommands

namespace Sys2Proof.Proofs
open Sys2Proof.Machine CoreFrame KeyCommands

/-- Settles O16: each command ends by `keyWrite_runs`, and `activate_staged`, `retirePrev_held`, `discardStaged_held` and `zeroise_idle` say what it
leaves of the slot. -/
theorem keyHalvesMove : Obligations.KeyHalvesMove := by
  unfold Obligations.KeyHalvesMove
  intro slot s ha hb ht hi
  have hrun := keyWrite_runs ha hb ht
  refine ⟨fun v mk hv hmk => ?_, fun v hv hp hu hj hm => ?_, fun v mk hv hmk hj => ?_, fun hj hm => ?_⟩
  · obtain ⟨hc, hs⟩ := activate_staged hi hv hmk
    refine ⟨_, congrArg Host.Outcome.next (hrun (activate slot.toNat)), (keyEnd_result ..).trans hc, keyEnd_keySource ..,
      (keyEnd_slotAt ..).trans hs⟩
  · obtain ⟨hc, hs⟩ := retirePrev_held hi hv hp hu hj hm
    exact ⟨_, _, congrArg Host.Outcome.next (hrun (retirePrev slot.toNat)), (keyEnd_result ..).trans hc, keyEnd_keySource ..,
      (keyEnd_slotAt ..).trans hs, rfl, withHalf_genCur ..,
      halfOf_withHalf_same .., halfOf_withHalf_succ ..⟩
  · obtain ⟨hc, hs⟩ := discardStaged_held hi hv hmk hj
    exact ⟨_, _, congrArg Host.Outcome.next (hrun (discardStaged slot.toNat)), (keyEnd_result ..).trans hc, keyEnd_keySource ..,
      (keyEnd_slotAt ..).trans hs, rfl, withHalf_genCur .., halfOf_withHalf_same ..,
      halfOf_withHalf_succ ..⟩
  · obtain ⟨hc, hs, hd⟩ := zeroise_idle hi hj hm
    refine ⟨_, congrArg Host.Outcome.next (hrun (zeroise slot.toNat)), (keyEnd_result ..).trans hc, keyEnd_keySource ..,
      (keyEnd_slotAt ..).trans hs, fun e he => ?_⟩
    rw [keyEnd_dkc, hd] at he
    exact dkc_emptySlot he

/-- Settles O15: `loadWrapped_unopened`, `loadWrapped_empty` and `loadWrapped_valid` for the load, `genNow_served` for the draw. -/
theorem keyLoadsComplete : Obligations.KeyLoadsComplete := by
  unfold Obligations.KeyLoadsComplete
  refine ⟨fun slot m m1 b s s1 ha hb ht hr hw h0 hd hi hav => ?_, fun slot s ha hb hd hwait hr hk hi hav hn hf => ?_⟩
  · have hrun := keyWrite_runs ha hb ht (loadWrapped slot.toNat m)
    refine ⟨fun hn hf => ?_, fun v hv hkind htenant hs hp hg hgen => ?_⟩
    · have hc := loadChecks_empty hi h0 hd hav hn hf
      refine ⟨_, congrArg Host.Outcome.next hrun, keyEnd_busy .., fun hu => ?_, fun k hu => ?_⟩
      · rw [loadWrapped_unopened hr hw hc hu]
        exact ⟨keyEnd_result .., keyEnd_slots ..⟩
      · rw [loadWrapped_empty hr hw hc hu hn]
        exact ⟨keyEnd_result .., ((keyEnd_slotAt ..).trans (slotAt_genReached ..)).trans (slotAt_fillSlot ..)⟩
    · have hc := loadChecks_next hi h0 hd hav hv hkind htenant hs hp hg hgen
      refine ⟨_, congrArg Host.Outcome.next hrun, keyEnd_busy .., fun hu => ?_, fun k hu => ?_⟩
      · rw [loadWrapped_unopened hr hw hc hu]
        exact ⟨keyEnd_result .., keyEnd_slots ..⟩
      · rw [loadWrapped_valid hr hw hc hu hv]
        obtain ⟨hnext, hcur⟩ := halfOf_stagedSlot s1 slot.toNat v (attrMasks (wrAttr b)) k
        exact ⟨keyEnd_result .., _, (keyEnd_slotAt ..).trans (slotAt_stageHalf hv ..), rfl, withHalf_genCur .., withHalf_masks .., hnext, hcur⟩
  · have ht : s.key.tampered = false := by simp_all [drbgServes, drbgLive]
    have hc := genChecks_empty hi hr hk hav hn hf
    obtain ⟨hdone, k, hslot⟩ := genNow_served hc hd
    have hgen : genEphemeral s slot.toNat = keyRun s (genNow slot.toNat) := by simp [genEphemeral, hwait]
    have hrun : ctlWriteBy s 0x100C (fun s => genEphemeral s slot.toNat) = Safety.okay (keyEnd (genNow slot.toNat s).2 (genNow slot.toNat s).1) := by
      rw [← keyWrite_runs ha hb ht, ctlWriteBy_admitted ha, ctlWriteBy_admitted ha, hgen]
    exact ⟨_, k, congrArg Host.Outcome.next hrun, (keyEnd_result ..).trans hdone, keyEnd_busy .., (keyEnd_slotAt ..).trans hslot⟩

end Sys2Proof.Proofs

/-! Derivations, entropy tests and reseeds: what reaches the key caches, and what a repeat of the start-up tests ends with (03 R85, R86, R100,
R101). -/
namespace Sys2Proof.Proofs.Entropy
open Sys2Proof.Machine KeyCommands StartSteps

variable {s t : State} {h : KeyHandle} {g : Nat}

/-! ### A derived key reaches the cache and the buffers -/

/-- Of one set, the first entry stays. -/
theorem mem_dkcTrim_head (set n : Nat) (e : DkEntry) (l : List DkEntry) : e ∈ dkcTrim set (n + 1) (e :: l) := by
  unfold dkcTrim
  split <;> exact List.mem_cons_self ..

theorem scrambled_tag {e : DkEntry} (he : scrambled s h = some e) : e.tag = h := by
  unfold scrambled at he
  split at he
  · exact (Option.some.inj he) ▸ rfl
  · cases he

theorem dkcHas_dkcPut (hs : (scrambled s h).isSome = true) : dkcHas (dkcPut s h) h = true := by
  obtain ⟨e, he⟩ := Option.isSome_iff_exists.mp hs
  unfold dkcPut dkcHas
  rw [he]
  exact List.any_eq_true.mpr ⟨e, mem_dkcTrim_head .., by simp [scrambled_tag he]⟩

/-- A derivation reads the slots, the kill bank and the root classes alone. -/
theorem scrambled_dkcPut (s : State) (h k : KeyHandle) : scrambled (dkcPut s h) k = scrambled s k := by
  unfold dkcPut
  split <;> rfl

theorem scrambled_ctxPut (s : State) (g : Nat) (h k : KeyHandle) : scrambled (ctxPut s g h) k = scrambled s k := by
  obtain ⟨c, hc⟩ := ctxPut_eq s g h
  rw [hc]
  rfl

theorem ctxHas_ctxPut_same (hs : (scrambled s h).isSome = true) (g : Nat) : ctxHas (ctxPut s g h) g h = true := by
  obtain ⟨e, he⟩ := Option.isSome_iff_exists.mp hs
  unfold ctxPut ctxHas
  rw [he]
  simp [dget, scrambled_tag he]

theorem ctxHas_ctxPut (hs : (scrambled s h).isSome = true) (x : Nat) (hg : ctxHas s g h = true) : ctxHas (ctxPut s x h) g h = true := by
  by_cases hx : x = g
  · exact hx ▸ ctxHas_ctxPut_same hs x
  · obtain ⟨e, he⟩ := Option.isSome_iff_exists.mp hs
    unfold ctxPut ctxHas
    rw [he]
    simpa [dget, tget_tput, hx, ctxHas] using hg

/-- The buffers of every group of a list take a key that can be read. -/
def ctxPuts (s : State) (gs : List Nat) (h : KeyHandle) : State := gs.foldl (fun s x => ctxPut s x h) s

theorem ctxPuts_eq (gs : List Nat) (s : State) (h : KeyHandle) : ∃ c, ctxPuts s gs h = { s with lane := { s.lane with ctx := c } } := by
  induction gs generalizing s with
  | nil => exact ⟨s.lane.ctx, rfl⟩
  | cons x gs ih =>
    obtain ⟨c, hc⟩ := ctxPut_eq s x h
    obtain ⟨d, hd⟩ := ih (ctxPut s x h)
    exact ⟨d, hd.trans (by rw [hc])⟩

theorem ctxHas_ctxPuts (hs : (scrambled s h).isSome = true) (gs : List Nat) (hg : g ∈ gs ∨ ctxHas s g h = true) :
    ctxHas (ctxPuts s gs h) g h = true := by
  induction gs generalizing s with
  | nil => exact hg.resolve_left List.not_mem_nil
  | cons x gs ih =>
    refine ih (by rwa [scrambled_ctxPut]) ?_
    rcases hg with hg | hg
    · rcases List.mem_cons.mp hg with rfl | hg
      · exact .inr (ctxHas_ctxPut_same hs g)
      · exact .inl hg
    · exact .inr (ctxHas_ctxPut hs x hg)

theorem derivationDone_idle {gs : List Nat} {r : List (KeyHandle × List Nat)} (hq : s.key.missq = (h, gs) :: r) (hc : coreDown s = false)
    (hs : (scrambled s h).isSome = true) (hm : Safety.memIdle s) :
    keyDerivationDone s = ctxPuts (dkcPut { s with key := { s.key with missq := r } } h) gs h := by
  have hk : ∃ k, derive { s with key := { s.key with missq := r } } h = some k := by
    rw [← Option.isSome_iff_exists]
    change (derive s h).isSome = true
    unfold scrambled at hs
    cases hd : derive s h with
    | some k => rfl
    | none => simp [hd] at hs
  obtain ⟨k, hk⟩ := hk
  have hidle : Safety.memIdle (ctxPuts (dkcPut { s with key := { s.key with missq := r } } h) gs h) := by
    obtain ⟨c, hp⟩ := ctxPuts_eq gs (dkcPut { s with key := { s.key with missq := r } } h) h
    rw [hp]
    unfold dkcPut
    split <;> exact hm
  unfold keyDerivationDone
  rw [hq]
  dsimp only
  rw [if_neg (by simp [hc]), hk]
  exact afterMem_quiet hidle

/-! ### The entropy tests -/

theorem seedServed_idle (h : Safety.nothingWaitsForSeed s) : seedServed s = s := by
  have hw : s.key.seedWait = 0 := h.1
  simp [seedServed, hw, bit, bits, serveSeed_idle h]

theorem nothingWaits_retries (h : Safety.nothingWaitsForSeed s) (n : Nat) :
    Safety.nothingWaitsForSeed { s with key := { s.key with retries := n } } := h

/-- The record of a failed entropy source moves nothing that waits for a seed. -/
theorem nothingWaits_drbgFailNow (h : Safety.nothingWaitsForSeed s) : Safety.nothingWaitsForSeed (drbgFailNow s) := by
  obtain ⟨q, w, l, p, st, irq, hr⟩ := record_eq { s with key := { s.key with drbgFail := true, retries := 0 } } Flc.rootFail 5 2 0 0#8 none 0
  rw [show drbgFailNow s = _ from hr]
  exact h

theorem drbgFailNow_key (s : State) : (drbgFailNow s).key = { s.key with drbgFail := true, retries := 0 } := record_key ..

end Sys2Proof.Proofs.Entropy

namespace Sys2Proof.Proofs
open Sys2Proof.Machine KeyCommands StartSteps Entropy

/-- Settles O18: `derivationDone_idle` with what the cache and the buffers then hold; where nothing waits for a seed, none is served. -/
theorem derivationsAndEntropy : Obligations.DerivationsAndEntropy := by
  unfold Obligations.DerivationsAndEntropy
  refine ⟨fun h gs r s hq hc hs hm => ?_, fun s hr hf hn ht => ?_, fun s hr hf hw => ⟨fun hn => ?_, fun hn => ?_, fun hn => ?_⟩,
    fun s hd hdue hn => ?_⟩
  · have hdone := derivationDone_idle hq hc hs hm
    have hs' : (scrambled { s with key := { s.key with missq := r } } h).isSome = true := hs
    have hput := dkcHas_dkcPut hs'
    have hmiss : (dkcPut { s with key := { s.key with missq := r } } h).key.missq = r := by
      unfold dkcPut
      split <;> rfl
    rw [← scrambled_dkcPut _ h h] at hs'
    generalize dkcPut { s with key := { s.key with missq := r } } h = t at hdone hs' hput hmiss
    obtain ⟨c, hctx⟩ := ctxPuts_eq gs t h
    refine ⟨_, congrArg Host.Outcome.next hdone, ?_, ?_, fun g hg => ctxHas_ctxPuts hs' gs (.inl hg)⟩
    · rw [hctx]
      exact hmiss
    · rw [hctx]
      exact hput
  · exact congrArg Host.Outcome.next (by simp [entropyTestFail, hr, hf, hn, ht])
  · refine congrArg Host.Outcome.next (?_ : entropyRetest s true = _)
    rw [← seedServed_idle (nothingWaits_retries hw 0)]
    simp [entropyRetest, hr, hf, hn]
  · refine congrArg Host.Outcome.next (?_ : entropyRetest s false = _)
    simp [entropyRetest, hr, hf, hn, show s.key.retries ≠ 0 by omega]
  · refine ⟨drbgFailNow s, congrArg Host.Outcome.next (?_ : entropyRetest s false = _), drbgFailNow_key s⟩
    rw [← seedServed_idle (nothingWaits_drbgFailNow hw)]
    simp [entropyRetest, hr, hf, hn]
  · have hlive : drbgLive s = true := (Bool.and_eq_true_iff.mp hd).1
    exact ⟨reseed s, congrArg Host.Outcome.next (by simp [drbgReseed, hlive, hdue, hn]), rfl, rfl, rfl, rfl⟩

end Sys2Proof.Proofs

/-! The last place of the annals queue: where re-shelving fences a lane, the LANE_CHECK record takes it, and a KEY_EXHAUSTED event that follows
finds none (11 R332, R336; 03 R96). -/
namespace Sys2Proof.Proofs.LastPlace
open Sys2Proof.Machine CoreFrame KeyCommands Memory

variable {s t : State}

/-! ### The queue of records -/

/-- No record of the queue may be given up for another: none is an EVENT. -/
def NoEvent (s : State) : Prop := ∀ r ∈ s.flt.queue, r.verdict ≠ 0

/-- The queue is full, and no record in it gives way. -/
structure Full (s : State) : Prop where
  length : 256 ≤ s.flt.queue.length
  stays : NoEvent s

/-- One place is left, and no record in the queue gives way. -/
structure OneLeft (s : State) : Prop where
  length : s.flt.queue.length = 255
  stays : NoEvent s

theorem Full.of_flt (h : Full s) (he : t.flt = s.flt) : Full t := ⟨he ▸ h.length, fun r hr => h.stays r (he ▸ hr)⟩

theorem dropEvent_none {q : List FaultRec} (h : ∀ r ∈ q, r.verdict ≠ 0) : dropEvent q = none := by
  induction q with
  | nil => rfl
  | cons r q ih =>
    have hr : r.verdict ≠ 0 := h r (List.mem_cons_self ..)
    simp [dropEvent, hr, ih fun x hx => h x (List.mem_cons_of_mem _ hx)]

theorem record_queue (s : State) (c u loc act : Nat) (rsn : Code) (who : Option Who) (detail : Nat) :
    (record s c u loc act rsn who detail).flt.queue = (queueRecord s (mkRecord s c u loc act rsn who detail)).flt.queue := by
  unfold record
  dsimp only
  split <;> split <;> rfl

/-- A full queue takes no record more. -/
theorem Full.record (h : Full s) (c u loc act : Nat) (rsn : Code) (who : Option Who) (detail : Nat) :
    Full (record s c u loc act rsn who detail) := by
  have hq : (Machine.record s c u loc act rsn who detail).flt.queue = s.flt.queue := by
    rw [record_queue]
    unfold queueRecord
    rw [if_neg (Nat.not_lt.mpr h.length), dropEvent_none h.stays]
    dsimp only
    split <;> rfl
  exact ⟨hq ▸ h.length, fun r hr => h.stays r (hq ▸ hr)⟩

/-- A record that is no EVENT takes the last place. -/
theorem OneLeft.record (h : OneLeft s) {c : Nat} (hc : isEvent c = false) (u loc act : Nat) (rsn : Code) (who : Option Who) (detail : Nat) :
    Full (record s c u loc act rsn who detail) := by
  have hv : (mkRecord s c u loc act rsn who detail).verdict ≠ 0 := by
    change verdictOf s c u loc ≠ 0
    unfold verdictOf
    rw [if_neg (by simp [hc])]
    split <;> decide
  have hq : (Machine.record s c u loc act rsn who detail).flt.queue = s.flt.queue ++ [mkRecord s c u loc act rsn who detail] := by
    rw [record_queue]
    unfold queueRecord
    rw [if_pos (by rw [h.length]; decide)]
  refine ⟨by simp [hq, h.length], fun r hr => ?_⟩
  rw [hq] at hr
  rcases List.mem_append.mp hr with hr | hr
  · exact h.stays r hr
  · exact List.mem_singleton.mp hr ▸ hv

theorem Full.foldl {α : Type} {f : State → α → State} (hf : ∀ s x, Full s → Full (f s x)) (l : List α) (h : Full s) :
    Full (l.foldl f s) := by
  induction l generalizing s with
  | nil => exact h
  | cons x l ih => exact ih (hf s x h)

theorem Full.genReached (h : Full s) (slot old new : Nat) : Full (genReached s slot old new) := by
  unfold Machine.genReached
  split
  · exact h.record ..
  · exact h

/-! ### The counter cache records nothing -/

theorem foldl_flt {α : Type} {f : State → α → State} (hf : ∀ s x, (f s x).flt = s.flt) (l : List α) (s : State) :
    (l.foldl f s).flt = s.flt := by
  induction l generalizing s with
  | nil => rfl
  | cons x l ih => exact (ih (f s x)).trans (hf s x)

theorem ownReads_flt (s : State) (lines : List Nat) (cls : Nat) : (ownReads s lines cls).flt = s.flt := by
  obtain ⟨w, o, h⟩ := ownReads_eq s lines cls
  rw [h]

theorem bumpPath_flt (s : State) (ix : Nat) (r : Region) (i : Nat) : (bumpPath s ix r i).flt = s.flt := by
  refine foldl_flt (fun s k => ?_) _ s
  unfold bumpParent
  dsimp only
  split <;> rfl

theorem writeTree_flt (s : State) (ix : Nat) (r : Region) (level i cls : Nat) : (writeTree s ix r level i cls).flt = s.flt := by
  unfold writeTree
  split <;> rfl

theorem writeCtr_flt (s : State) (ix : Nat) (r : Region) (page cls : Nat) : (writeCtr s ix r page cls).flt = s.flt := by
  simp only [writeCtr, writeTree_flt, foldl_flt, implies_true, bumpPath_flt, ownReads_flt]

theorem evictTree_flt (s : State) (x : Nat × Nat × Nat) : (evictTree s x).flt = s.flt := by
  unfold evictTree
  split
  · split
    · exact writeCtr_flt ..
    · rfl
  · rfl

theorem touchTree_flt (s : State) (x : Nat × Nat × Nat) : (touchTree s x).flt = s.flt := by
  simp only [touchTree, foldl_flt, implies_true, evictTree_flt]

theorem pathArrived_flt (s : State) (ix : Nat) (r : Region) (page : Nat) (m : MemIn) : (pathArrived s ix r page m).2.1.flt = s.flt := by
  unfold pathArrived touchCtr
  dsimp only
  split
  · exact (touchTree_flt ..).trans (foldl_flt (fun s x => touchTree_flt ..) _ s)
  · rfl

theorem fetchPath_flt (s : State) (ix : Nat) (r : Region) (page cls : Nat) (m : MemIn) : (fetchPath s ix r page cls m).2.1.flt = s.flt := by
  simp only [fetchPath, pathArrived_flt, ownReads_flt]

theorem arrived_fetchPath (s : State) (ix : Nat) (r : Region) (page cls : Nat) (m : MemIn) : Arrived s (fetchPath s ix r page cls m).2.1 :=
  ((treeStep_ownReads ..).trans (treeStep_pathArrived ..)).arrived

theorem touchCat_flt (s : State) (ix : Nat) : (touchCat s ix).flt = s.flt := rfl

theorem pushPast_flt (s : State) (e : MemEnt) : (pushPast s e).flt = s.flt := by
  unfold pushPast
  split <;> rfl

/-! ### A line of the catalogue passes a flawed lane -/

/-- One place is left in the queue, and every memory port's group holds a lane whose next compare fails. -/
structure Flawed (s : State) : Prop where
  oneLeft : OneLeft s
  ports : s.cfg.memPorts ≤ 4
  lanes : ∀ g < 4, ∃ i ∈ members s g, (tget s.lane.flaw i).isSome = true

theorem Flawed.congr (h : Flawed s) (hf : t.flt = s.flt) (hc : t.cfg = s.cfg) (hl : t.lane.l = s.lane.l) (hw : t.lane.flaw = s.lane.flaw) :
    Flawed t := by
  refine ⟨⟨hf ▸ h.oneLeft.length, fun r hr => h.oneLeft.stays r (hf ▸ hr)⟩, hc ▸ h.ports, fun g hg => ?_⟩
  have hm : members t g = members s g := by simp [members, laneAt, hc, hl]
  rw [hm, hw]
  exact h.lanes g hg

theorem memPort_lt (h : s.cfg.memPorts ≤ 4) (line : Nat) : memPort s line < 4 := by
  have hlt : Config.memPortOf line % max 1 s.cfg.memPorts < max 1 s.cfg.memPorts := Nat.mod_lt _ (by omega)
  unfold memPort
  omega

theorem fenceLane_flt (s : State) (i : Nat) : (fenceLane s i).flt = s.flt := by
  unfold fenceLane
  dsimp only
  split <;> rfl

/-- A fenced lane's record takes the last place. -/
theorem OneLeft.fenceFault (h : OneLeft s) (i : Nat) (who : Option Who) (tag : Nat) : Full (fenceFault s i who tag) := by
  have hq := fenceLane_flt s i
  unfold Machine.fenceFault
  generalize fenceLane s i = t at hq
  exact OneLeft.record (s := setLane t i _) ⟨hq ▸ h.length, fun r hr => h.stays r (hq ▸ hr)⟩ rfl ..

theorem Full.fenceFault (h : Full s) (i : Nat) (who : Option Who) (tag : Nat) : Full (fenceFault s i who tag) := by
  have hq := fenceLane_flt s i
  unfold Machine.fenceFault
  generalize fenceLane s i = t at hq
  exact Full.record (s := setLane t i _) (h.of_flt hq) ..

theorem Flawed.lanePass (h : Flawed s) {g : Nat} (hg : g < 4) (hs : List KeyHandle) (who : Option Who) (tag : Nat) :
    Full (lanePass s g hs who tag).2 := by
  obtain ⟨c, d, hu⟩ := keysUse_eq g hs s
  have ht : Flawed (hs.foldl (fun s h => ctxPut (keyUse s h) g h) s) := h.congr (by rw [hu]) (by rw [hu]) (by rw [hu]) (by rw [hu])
  unfold Machine.lanePass
  generalize hs.foldl (fun s h => ctxPut (keyUse s h) g h) s = t at ht
  dsimp only
  have hserve : serving t g = members t g := if_neg (by omega)
  obtain ⟨j, hj, hjf⟩ := ht.lanes g hg
  split
  · next hnone => exact absurd hjf (by simpa using List.find?_eq_none.mp hnone j (hserve ▸ hj))
  · next i _ =>
    have hfence : Full (Machine.fenceFault { t with lane := { t.lane with flaw := tdel t.lane.flaw i } } i who tag) :=
      OneLeft.fenceFault (s := { t with lane := { t.lane with flaw := tdel t.lane.flaw i } }) ⟨ht.oneLeft.length, ht.oneLeft.stays⟩ ..
    split
    · exact hfence
    · dsimp only
      split
      · exact hfence
      · exact hfence.fenceFault ..

theorem Full.countBlocks (h : Full s) (slot half vol n : Nat) : Full (countBlocks s slot half vol n) := by
  unfold Machine.countBlocks
  split
  · exact h
  · refine Full.foldl (fun s mark hs => ?_) _ (h.of_flt rfl)
    split
    · exact hs.record ..
    · exact hs

theorem Flawed.sealCatLine (h : Flawed s) (ix : Nat) (r : Region) : Full (sealCatLine s ix r) := by
  unfold Machine.sealCatLine
  extract_lets cr c half minor
  have hp := h.lanePass (memPort_lt h.ports (catLine s ix)) (lineHandles s catIx cr 2 half) none 0
  generalize Machine.lanePass s (memPort s (catLine s ix)) (lineHandles s catIx cr 2 half) none 0 = p at hp
  obtain ⟨ok, t⟩ := p
  dsimp only
  split
  · split
    · exact hp
    · exact (hp.countBlocks ..).of_flt (pushPast_flt ..)
  · exact hp

/-- An entry of a catalogue whose counters stand as FORMAT left them is written: its line passes the flawed lane. -/
theorem Flawed.catWrite (h : Flawed s) (hc : s.ime.ctr = []) (hr : s.ime.catRenew = false) (ix : Nat) (r : Region) : Full (catWrite s ix r) := by
  have ha := arrived_fetchPath s catIx (catRegion s) (ix / 64) 0 { lines := [] }
  have hf := fetchPath_flt s catIx (catRegion s) (ix / 64) 0 { lines := [] }
  have hctr (u : State) (hu : u.ime.ctr = []) : ctrOf u catIx (catRegion s) (ix / 64) =
      { major := regionGen u (catRegion s) * 2 ^ 32, minors := [], parity := false } := by
    simp [ctrOf, hu, dget, catRegion]
  have hend : catEnded s ix = false := by simp [catEnded, hctr s hc]
  unfold Machine.catWrite
  dsimp only
  rw [hend]
  generalize (fetchPath s catIx (catRegion s) (ix / 64) 0 { lines := [] }).2.1 = t at ha hf
  have htc : t.ime.ctr = [] := by rw [ha]; exact hc
  have htr : t.ime.catRenew = false := by rw [ha]; exact hr
  have ht : Flawed t := h.congr hf (by rw [ha]) (by rw [ha]) (by rw [ha])
  have hnone : ¬ ((t.ime.catRenew && !t.ime.renewed.contains (catIx, ix / 64)) = true ∨
      127 ≤ dget 0 (ctrOf t catIx (catRegion s) (ix / 64)).minors (ix % 64)) := by
    simp [htr, hctr t htc, dget]
  rw [if_neg (by decide), if_neg hnone]
  have hset (c : CtrLine) : Flawed (setRegion (setCtr t catIx (ix / 64) c) ix r) := ht.congr rfl rfl rfl rfl
  exact ((hset _).sealCatLine ix r).of_flt ((touchCat_flt ..).trans (writeCtr_flt ..))

/-! ### The counterexample -/

/-- A TRANSIENT LANE_CHECK record, as the queue of the counterexample holds it 255 times. -/
def laneRecord : FaultRec :=
  { cls := Flc.laneCheck, verdict := 1, action := 3, reason := Rsn.laneCheck, unit := 0, loc := 0, who := none, epoch := 0#32, detail := 0,
    time := 0, hours := 0, boot := 0 }

/-- A DOMAIN slot of tenant 1 with a key staged, one generation short of 0xFFFF_FF00. -/
def lateSlot : Slot :=
  { kind := 1, rootClass := 2, tenant := 1, masks := ownMasks, genCur := 0xFFFFFEFF, prevLive := false, staged := some ownMasks,
    half0 := some { masked := 0#256, keyNo := false, epoch := 0 }, half1 := some { masked := 0#256, keyNo := false, epoch := 0 }
    cnt0 := 0, cnt1 := 0 }

/-- A P1 region of tenant 1. -/
def liveRegion : Region := { freeRegion with state := 1, mode := 1, size := 65536 }

/-- A charter with a TABLES section: the catalogue at 2^40 with 8192 entries, the trees at 2^41. -/
def tablesCharter : Charter :=
  { schemaMajor := 1, schemaMinor := 0, signer := 1, sequence := 1, configId := 1
    secs := [(3, (1, leBytes 8 (2 ^ 40) ++ leBytes 8 (2 ^ 20) ++ leBytes 8 (2 ^ 41) ++ leBytes 8 (2 ^ 20) ++ leBytes 4 8192 ++ zeros 12))] }

/-- The block out of reset with one lane for each memory port, each about to fail its compare, one place left in the annals queue, a region of
tenant 1, and its DOMAIN slot about to reach the mark. -/
def crowded : State :=
  { State.reset with
    pin := { Pin.reset with pwrok := true }
    dom := { State.reset.dom with d := [(0, { inReset := false }), (1, { inReset := false })] }
    gen := { Gen.reset with released := true, ready := true, charter := some tablesCharter }
    lane := { LanePool.reset with
      l := (List.range 4).map fun p => (p, { st := .bound p })
      flaw := (List.range 4).map fun p => (p, false) }
    key := { Key.reset with slots := [(64, lateSlot)] }
    ime := { Ime.reset with formatted := true, cat := [(4096, liveRegion)] }
    flt := { Flt.reset with queue := List.replicate 255 laneRecord } }

theorem crowded_admitted : Safety.admitted crowded 0x100C := ⟨rfl, by decide⟩

theorem crowded_flawed : Flawed crowded := by
  refine ⟨⟨List.length_replicate .., fun r hr => ?_⟩, by decide, fun g hg => ⟨g, ?_, ?_⟩⟩
  · rw [List.eq_of_mem_replicate hr]
    decide
  · have hb : groupOf (laneAt crowded g).st = some g := by interval_cases g <;> rfl
    have hlt : g < 208 := by omega
    exact List.mem_filter.mpr ⟨List.mem_range.mpr hlt, by simp [hb]⟩
  · interval_cases g <;> rfl

/-- Re-shelving of the region of tenant 1 writes its entry of the catalogue, whose line passes a flawed lane. -/
theorem full_shelving (h : Flawed s) (hcat : s.ime.cat = [(4096, liveRegion)]) (hn : catEntries s = 8192) (hc : s.ime.ctr = [])
    (hr : s.ime.catRenew = false) : Full (startShelving s 1) := by
  have hlive : (s.ime.cat.filter fun x => x.2.state != 0 && x.2.mode != 0 && x.1 / 4096 == 1 && decide (x.2.volume ≤ 1)) =
      [(4096, liveRegion)] := by
    rw [hcat]
    rfl
  have hat : regionAt s 4096 = some liveRegion := by
    unfold regionAt
    rw [hn, hcat, if_pos (by decide)]
    rfl
  have hwritten (w : List Sweep) (r : Region) : Full (catWrite { s with ime := { s.ime with sweeps := w } } 4096 r) :=
    have hw : Flawed { s with ime := { s.ime with sweeps := w } } := h.congr rfl rfl rfl rfl
    hw.catWrite hc hr ..
  unfold startShelving
  rw [hlive, List.foldl_cons, List.foldl_nil]
  dsimp only
  rw [hat]
  exact hwritten _ _

/-- ACTIVATE of the slot leaves a full queue in which no record is an EVENT: the LANE_CHECK record took the place of KEY_EXHAUSTED. -/
theorem full_activate : Full (activate 64 crowded).2 := by
  have hact : activateHalf crowded 64 = { crowded with key := (activateHalf crowded 64).key } := rfl
  have h : activate 64 crowded = (Kc.done, genReached (startShelving (activateHalf crowded 64) 1) 64 0xFFFFFEFF (0xFFFFFEFF + 1)) := rfl
  have hs : Full (startShelving (activateHalf crowded 64) 1) := by
    rw [hact]
    exact full_shelving (crowded_flawed.congr rfl rfl rfl rfl) rfl (by decide) rfl rfl
  rw [h]
  exact hs.genReached 64 0xFFFFFEFF (0xFFFFFEFF + 1)

end Sys2Proof.Proofs.LastPlace

namespace Sys2Proof.Proofs
open Sys2Proof.Machine KeyCommands LastPlace

/-- Refutes O52: ACTIVATE of a DOMAIN slot re-shelves the tenant's regions before it raises KEY_EXHAUSTED. Where the catalogue's line passes a lane
whose compare fails, the LANE_CHECK record takes the last place of the queue, and nothing in it gives way to KEY_EXHAUSTED (`crowded`, with
255 records). -/
theorem not_generationsNeverWrap : ¬ Obligations.GenerationsNeverWrap := by
  unfold Obligations.GenerationsNeverWrap
  intro h
  obtain ⟨hact, -⟩ := h 64#10 crowded crowded_admitted rfl rfl (by decide)
  obtain ⟨t, w, hx, -, hw, hmark⟩ := hact lateSlot ownMasks rfl rfl
  obtain ⟨-, hq⟩ := hmark hw
  obtain ⟨r, hr, -, hv, -⟩ := hq (by rw [crowded_flawed.oneLeft.length]; decide)
  have ht : t = Safety.okay (keyEnd (activate 64 crowded).2 (activate 64 crowded).1) :=
    (Host.Outcome.next.inj ((congrArg Host.Outcome.next (keyWrite_runs crowded_admitted rfl rfl (activate 64))).symm.trans hx)).symm
  rw [ht] at hr
  exact full_activate.stays r hr hv

end Sys2Proof.Proofs

/-! A calibration window left open beyond its limit (04 R152; 11 R342, R344). -/
namespace Sys2Proof.Proofs.CalWindow
open Sys2Proof.Machine

variable {s : State} {p cls : Nat}

/-- With no reset before it nothing climbs: the first reset of a port is of that port alone (11 R345). -/
theorem climbTo_first (hh : s.flt.history = []) (he : epochOf s (2 + p) ≠ 0xFFFFFFFF#32) (n : Nat) : climbTo s p (n + 1) 1 = 1 := by
  have hbeyond : beyondLimit s 1 p = false := by
    simp only [beyondLimit, recentResets, hh, List.filter_nil, List.length_nil, Bool.and_eq_false_iff, bne_eq_false_iff_eq, decide_eq_false_iff_not]
    omega
  simp [climbTo, rungDomains, he, hbeyond]

/-- A port reset that starts with none in progress runs alone, and its timer with it (11 R342, Table 11-7). -/
theorem startRung_first (hr : s.flt.running = []) (hh : s.flt.history = []) (hc : coreDown s = false) (he : epochOf s (2 + p) ≠ 0xFFFFFFFF#32) :
    (startRung s 1 p cls).flt.running =
      [{ rung := 1, port := p, phase := .requested, cls := cls, start := StartIn.plain, due := rungDue s 1 }] := by
  have htop : topRung s = 0 := by simp [topRung, hr]
  have hrun : isRunning s 1 p = false := by simp [isRunning, hr]
  simp [startRung, htop, hc, hrun, climbTo_first hh he 3, enterRung, hr]

/-- A window open for its limit starts the port's reset, and the reset its timer (04 R152). -/
theorem calOverrun_running {c : CalWin} (hmem : c ∈ s.ime.cals) (hport : c.port = p) (hopen : c.open_ = true) (hlimit : c.at_ + c.limit ≤ s.tm.ns)
    (hr : s.flt.running = []) (hh : s.flt.history = []) (hc : coreDown s = false) (he : epochOf s (2 + p) ≠ 0xFFFFFFFF#32) :
    (calOverrun s p).flt.running =
      [{ rung := 1, port := p, phase := .requested, cls := Flc.calOverrun, start := StartIn.plain, due := rungDue s 1 }] := by
  have hover : (s.ime.cals.any fun c => c.port == p && c.open_ && decide (c.at_ + c.limit ≤ s.tm.ns)) = true :=
    List.any_eq_true.mpr ⟨c, hmem, by simp [hport, hopen, hlimit]⟩
  have hdue : rungDue (recordPlain s Flc.calOverrun 1 p 5) 1 = rungDue s 1 := by simp [rungDue, escField, recordPlain]
  have hdom (d : Nat) : domAt (recordPlain s Flc.calOverrun 1 p 5) d = domAt s d := by simp [domAt, recordPlain]
  unfold calOverrun
  rw [if_pos hover, startRung_first (by simp [recordPlain, hr]) (by simp [recordPlain, hh]) (by simpa [coreDown, hdom] using hc)
    (by simpa [epochOf, hdom] using he), hdue]

/-- The block out of reset with a calibration window of memory port 2 open, its limit 0. -/
def openWindow : State :=
  { State.reset with
    dom := { State.reset.dom with d := [(0, { inReset := false })] }
    ime := { Ime.reset with cals := [{ port := 2, open_ := true, at_ := 0, limit := 0 }] } }

/-- PORT_MS of FLT_ESC_CTRL is not 0 as it is reset: the timer of a port reset runs out later than it starts. -/
theorem rungDue_openWindow : rungDue openWindow 1 ≠ 0 := by decide

end Sys2Proof.Proofs.CalWindow

namespace Sys2Proof.Proofs
open Sys2Proof.Machine CalWindow

/-- Refutes O26: its clause of an overrun window gives the port's reset no timer. The reset starts with one (11 R342), which in `openWindow` runs
out after 50 ms; the rest of the clause holds with it (`calOverrun_running`). -/
theorem not_memoryPortHandshakes : ¬ Obligations.MemoryPortHandshakes := by
  unfold Obligations.MemoryPortHandshakes
  rintro ⟨-, -, -, -, -, hover, -⟩
  have hmem : (⟨2, true, 0, 0⟩ : CalWin) ∈ openWindow.ime.cals := List.mem_singleton.mpr rfl
  obtain ⟨t, ht, -, -, hrunning⟩ := hover 2 ⟨2, true, 0, 0⟩ openWindow hmem rfl rfl (Nat.le_refl 0) (by decide)
  obtain rfl : calOverrun openWindow 2 = t := Host.Outcome.next.inj ht
  have hstart := (calOverrun_running hmem rfl rfl (Nat.le_refl 0) rfl rfl rfl (by decide)).symm.trans (hrunning rfl rfl rfl (by decide))
  exact rungDue_openWindow (congrArg Running.due (List.cons.inj hstart).1)

end Sys2Proof.Proofs

/-! The block's own work at memory: what its reads, and the writes of catalogue and tree lines, leave of the state, and what they leave of the queue
(04 R107, R114, R130, R131; 15 R454). -/
namespace Sys2Proof.Proofs.OwnWork
open Sys2Proof.Machine Lanes Memory

variable {s t u : State}

/-! ### What own work changes -/

/-- `t` differs from `s` at most by the block's own reads and writes: records, outputs, charges, lanes, keys used and blocks counted, the last
reasons, and of the engine the queue, the caches, the counters, and the beats that the sweeps owe. -/
def Worked (s t : State) : Prop :=
  t = { s with
    flash := t.flash, flt := t.flt, qos := t.qos, out := t.out, lane := t.lane, key := t.key
    gen := { s.gen with irqStatus := t.gen.irqStatus }
    ime := { s.ime with
      ents := t.ime.ents, seq := t.ime.seq, cached := t.ime.cached, catCache := t.ime.catCache, dirty := t.ime.dirty, node := t.ime.node
      roots := t.ime.roots, ctr := t.ime.ctr, renewed := t.ime.renewed, lastReason := t.ime.lastReason
      shelveDebt := t.ime.shelveDebt } }

/-- Own work on a state. Of the queue it adds only writes that wait for MEMPORT, and nothing leaves. -/
structure Own (s t : State) : Prop where
  worked : Worked s t
  stays : ∀ e ∈ s.ime.ents, e ∈ t.ime.ents
  adds : ∀ e ∈ t.ime.ents, e ∈ s.ime.ents ∨ e.phase = .writeReady

theorem Worked.trans (h : Worked s t) (h' : Worked t u) : Worked s u := by
  unfold Worked at *
  rw [h] at h'
  exact h'

theorem Own.refl (s : State) : Own s s := ⟨rfl, fun _ h => h, fun _ h => .inl h⟩

theorem Own.trans (h : Own s t) (h' : Own t u) : Own s u :=
  ⟨h.worked.trans h'.worked, fun e he => h'.stays e (h.stays e he), fun e he => (h'.adds e he).elim (h.adds e) .inr⟩

/-- Work that leaves the queue as it is. -/
theorem Worked.own (h : Worked s t) (he : t.ime.ents = s.ime.ents) : Own s t := ⟨h, fun _ hx => he ▸ hx, fun _ hx => .inl (he ▸ hx)⟩

theorem Own.foldl {α : Type} {f : State → α → State} (hf : ∀ s a, Own s (f s a)) (l : List α) (s : State) : Own s (l.foldl f s) := by
  induction l generalizing s with
  | nil => exact .refl s
  | cons a l ih => exact (hf s a).trans (ih _)

theorem Own.ite {c : Prop} [Decidable c] (ht : c → Own s t) (hu : ¬c → Own s u) : Own s (if c then t else u) := by
  split
  · exact ht ‹_›
  · exact hu ‹_›

/-! ### What it leaves -/

theorem Own.hob (h : Own s t) : t.hob = s.hob := by rw [h.worked]

theorem Own.tm (h : Own s t) : t.tm = s.tm := by rw [h.worked]

theorem Own.cfg (h : Own s t) : t.cfg = s.cfg := by rw [h.worked]

theorem Own.ile (h : Own s t) : t.ile = s.ile := by rw [h.worked]

theorem Own.cat (h : Own s t) : t.ime.cat = s.ime.cat := by rw [h.worked]

theorem Own.sweeps (h : Own s t) : t.ime.sweeps = s.ime.sweeps := by rw [h.worked]

theorem Own.blks (h : Own s t) : t.ime.blks = s.ime.blks := by rw [h.worked]

theorem Own.dying (h : Own s t) : t.ime.dying = s.ime.dying := by rw [h.worked]

theorem Own.catEntries (h : Own s t) : catEntries t = catEntries s := by rw [h.worked]; rfl

theorem Own.regionAt (h : Own s t) (ix : Nat) : regionAt t ix = regionAt s ix := by rw [h.worked]; rfl

theorem Own.anyRegion (h : Own s t) (ix : Nat) : anyRegion t ix = anyRegion s ix := by rw [h.worked]; rfl

theorem Own.calm (h : Own s t) (hc : Calm s) : Calm t := by
  obtain ⟨hi, hcr, hd⟩ := hc
  rw [h.worked]
  exact ⟨hi, hcr, hd⟩

theorem Own.placed (h : Own s t) (hp : allPlaced s.ime.ents) : allPlaced t.ime.ents := fun e he => by
  rcases h.adds e he with hs | hw
  · exact hp e hs
  · simp [hw, holdPhase]

/-! ### Records, keys and lanes -/

theorem own_emit (s : State) (o : Out) : Own s (emit s o) := Worked.own rfl rfl

theorem own_imeReason (s : State) (c : Code) : Own s (imeReason s c) := by
  unfold imeReason keyReason
  split
  · exact Worked.own rfl rfl
  · split
    · exact Worked.own rfl rfl
    · exact .refl s

theorem own_of_recorded (h : Recorded s t) : Own s t := by
  have he := congrArg Ime.ents h.ime
  refine Worked.own ?_ he
  rw [h]
  rfl

theorem own_record (s : State) (c u loc act : Nat) (rsn : Code) (who : Option Who) (detail : Nat) : Own s (record s c u loc act rsn who detail) :=
  own_of_recorded (recorded_record ..)

theorem own_setKey (s : State) (k : Key) : Own s { s with key := k } := Worked.own rfl rfl

theorem own_setLane (s : State) (l : LanePool) : Own s { s with lane := l } := Worked.own rfl rfl

theorem own_countBlocks (s : State) (slot half vol n : Nat) : Own s (countBlocks s slot half vol n) := by
  obtain ⟨k, h⟩ := countBlocks_recorded s slot half vol n
  exact (own_setKey s k).trans (own_of_recorded h)

theorem fenceLane_eq (s : State) (i : Nat) : ∃ l, fenceLane s i = { s with lane := l } := by
  unfold fenceLane
  dsimp only
  split <;> exact ⟨_, rfl⟩

theorem own_fenceFault (s : State) (i : Nat) (who : Option Who) (tag : Nat) : Own s (fenceFault s i who tag) := by
  obtain ⟨l, h⟩ := fenceLane_eq s i
  unfold fenceFault
  rw [h]
  exact ((own_setLane s l).trans (own_setLane ..)).trans (own_record ..)

/-- A request that passes its lanes uses keys and may fence (01 R22, R23). -/
theorem own_lanePass (s : State) (g : Nat) (hs : List KeyHandle) (who : Option Who) (tag : Nat) : Own s (lanePass s g hs who tag).2 := by
  obtain ⟨c, d, hu⟩ := keysUse_eq g hs s
  have hk : Own s { s with key := { s.key with dkc := c }, lane := { s.lane with ctx := d } } := Worked.own rfl rfl
  unfold lanePass
  rw [hu]
  generalize { s with key := { s.key with dkc := c }, lane := { s.lane with ctx := d } } = t at hk ⊢
  dsimp only
  split
  · exact hk
  · next i _ =>
    have hfence := (hk.trans (own_setLane t _)).trans (own_fenceFault { t with lane := { t.lane with flaw := tdel t.lane.flaw i } } i who tag)
    split
    · exact hfence
    · exact .ite (fun _ => hfence) fun _ => hfence.trans (own_fenceFault ..)

/-! ### The queue, the counter cache and its writes (04 R107, R130, R131) -/

theorem own_pushEnt (s : State) {e : MemEnt} (h : e.phase = .writeReady) : Own s (pushEnt s e) := by
  refine ⟨rfl, fun x hx => List.mem_append_left _ hx, fun x hx => ?_⟩
  rcases List.mem_append.mp hx with hx | hx
  · exact .inl hx
  · exact .inr (List.mem_singleton.mp hx ▸ h)

theorem mem_insertBefore (s : State) (q : Nat) (e x : MemEnt) : x ∈ (insertBefore s q e).ime.ents ↔ x = e ∨ x ∈ s.ime.ents := by
  have hsplit := List.takeWhile_append_dropWhile (p := fun x => x.seq != q) (l := s.ime.ents)
  show x ∈ s.ime.ents.takeWhile _ ++ e :: s.ime.ents.dropWhile _ ↔ _
  conv_rhs => rw [← hsplit]
  simp only [List.mem_append, List.mem_cons]
  tauto

theorem own_pushPast (s : State) {e : MemEnt} (h : e.phase = .writeReady) : Own s (pushPast s e) := by
  unfold pushPast
  split
  · refine ⟨rfl, fun x hx => (mem_insertBefore ..).mpr (.inr hx), fun x hx => ?_⟩
    rcases (mem_insertBefore ..).mp hx with rfl | hx
    · exact .inr h
    · exact .inl hx
  · exact own_pushEnt s h

theorem mem_pushPast (s : State) (e : MemEnt) : e ∈ (pushPast s e).ime.ents := by
  unfold pushPast
  split
  · exact (mem_insertBefore ..).mpr (.inl rfl)
  · exact List.mem_append_right _ (List.mem_singleton.mpr rfl)

theorem own_ownReads (s : State) (lines : List Nat) (cls : Nat) : Own s (ownReads s lines cls) := by
  obtain ⟨w, o, h⟩ := ownReads_eq s lines cls
  rw [h]
  exact Worked.own rfl rfl

theorem own_setCtr (s : State) (ix page : Nat) (c : CtrLine) : Own s (setCtr s ix page c) := Worked.own rfl rfl

theorem own_bumpParent (s : State) (ix : Nat) (r : Region) (level i : Nat) : Own s (bumpParent s ix r level i) := by
  unfold bumpParent
  exact .ite (fun _ => Worked.own rfl rfl) fun _ => Worked.own rfl rfl

theorem own_writeTree (s : State) (ix : Nat) (r : Region) (level i cls : Nat) : Own s (writeTree s ix r level i cls) := by
  unfold writeTree
  split
  · exact own_pushEnt s rfl
  · exact .refl s

theorem own_bumpPath (s : State) (ix : Nat) (r : Region) (i : Nat) : Own s (bumpPath s ix r i) :=
  .foldl (f := fun s k => bumpParent s ix r k (i / 8 ^ k)) (fun t k => own_bumpParent t ix r k (i / 8 ^ k)) _ s

theorem own_cleaned (s : State) (l : List (Nat × Nat × CtrLine)) : Own s { s with ime := { s.ime with dirty := l } } := Worked.own rfl rfl

theorem own_writeTrees (ix : Nat) (r : Region) (cls : Nat) (l : List (Nat × Nat)) (s : State) :
    Own s (l.foldl (fun s x => writeTree s ix r x.1 x.2 cls) s) :=
  .foldl (α := Nat × Nat) (f := fun s x => writeTree s ix r x.1 x.2 cls) (fun t x => own_writeTree t ix r x.1 x.2 cls) l s

theorem own_writeCtr (s : State) (ix : Nat) (r : Region) (page cls : Nat) : Own s (writeCtr s ix r page cls) := by
  unfold writeCtr
  extract_lets up t u v
  have ht : Own s t := own_ownReads ..
  have hu : Own s u := ht.trans (own_bumpPath ..)
  have hv : Own s v := hu.trans (own_writeTrees ..)
  clear_value v
  exact (hv.trans (own_cleaned v _)).trans (own_writeTree ..)

theorem own_evictTree (s : State) (x : Nat × Nat × Nat) : Own s (evictTree s x) := by
  unfold evictTree
  split
  · split
    · exact own_writeCtr ..
    · exact .refl s
  · exact .refl s

theorem own_touchTree (s : State) (x : Nat × Nat × Nat) : Own s (touchTree s x) := by
  have hcached (l : List (Nat × Nat × Nat)) : Own s { s with ime := { s.ime with cached := l } } := Worked.own rfl rfl
  exact (hcached _).trans (.foldl own_evictTree _ _)

theorem own_touchCtr (s : State) (ix page : Nat) : Own s (touchCtr s ix page) := own_touchTree ..

theorem own_dirtyCtr (s : State) (ix : Nat) (r : Region) (page : Nat) (c : CtrLine) : Own s (dirtyCtr s ix r page c) := by
  unfold dirtyCtr
  extract_lets old _ t
  have ht : Own s t := .ite (fun _ => .refl s) fun _ => own_cleaned s _
  clear_value t
  exact (ht.trans (own_setCtr ..)).trans (own_touchCtr ..)

theorem own_touchTrees (ix : Nat) (l : List (Nat × Nat)) (s : State) : Own s (l.foldl (fun s x => touchTree s (ix, x.1, x.2)) s) :=
  .foldl (α := Nat × Nat) (f := fun s x => touchTree s (ix, x.1, x.2)) (fun t x => own_touchTree t (ix, x.1, x.2)) l s

theorem own_pathArrived (s : State) (ix : Nat) (r : Region) (page : Nat) (m : MemIn) : Own s (pathArrived s ix r page m).2.1 := by
  unfold pathArrived
  generalize missingOf s ix r page = l
  dsimp only
  cases (pathGood s ix r l m).1 with
  | false => exact .refl s
  | true => exact (own_touchTrees ix l.reverse s).trans (own_touchCtr ..)

theorem own_fetchPath (s : State) (ix : Nat) (r : Region) (page cls : Nat) (m : MemIn) : Own s (fetchPath s ix r page cls m).2.1 :=
  (own_ownReads ..).trans (own_pathArrived ..)

/-! ### The catalogue (04 R114, R133) -/

theorem own_touchCat (s : State) (ix : Nat) : Own s (touchCat s ix) := Worked.own rfl rfl

theorem own_sealCatLine (s : State) (ix : Nat) (r : Region) : Own s (sealCatLine s ix r) := by
  unfold sealCatLine
  extract_lets cr c half minor
  have hp := own_lanePass s (memPort s (catLine s ix)) (lineHandles s catIx cr 2 half) none 0
  generalize lanePass s (memPort s (catLine s ix)) (lineHandles s catIx cr 2 half) none 0 = p at hp ⊢
  dsimp only
  split
  · exact .ite (fun _ => hp) fun _ => (hp.trans (own_countBlocks ..)).trans (own_pushPast _ rfl)
  · exact hp

/-- Where the counters stay, so does whether a page of the catalogue is exhausted. -/
theorem Own.catEnded (h : Own s t) (hc : t.ime.ctr = s.ime.ctr) (ix : Nat) : catEnded t ix = catEnded s ix := by
  have hctr : ctrOf t catIx (catRegion t) (ix / 64) = ctrOf s catIx (catRegion s) (ix / 64) := by
    unfold ctrOf
    rw [hc, h.worked]
    rfl
  simp only [Machine.catEnded, hctr]

theorem own_renewed (s : State) (l : List (Nat × Nat)) : Own s { s with ime := { s.ime with renewed := l } } := Worked.own rfl rfl

theorem own_catReencrypt (s : State) (page : Nat) : Own s (catReencrypt s page) := by
  unfold catReencrypt
  extract_lets cr c ixs t u w _ x
  have ht : Own s t := own_ownReads ..
  have hu : Own s u := ht.trans (own_setCtr ..)
  have hw : Own s w := hu.trans (.foldl (f := fun s i => sealCatLine s i (entryAt s i)) (fun v i => own_sealCatLine v i (entryAt v i)) ixs u)
  have hx : Own s x := hw.trans (own_renewed w _)
  exact .ite (fun _ => hx.trans (own_record ..)) fun _ => hx

/-- The state that `catWrite` seals an entry in, its new counters set. -/
def catCounted (s : State) (ix : Nat) : State :=
  let cr := catRegion s
  let page := ix / 64
  let t := (fetchPath s catIx cr page 0 { lines := [] }).2.1
  let due := t.ime.catRenew && !t.ime.renewed.contains (catIx, page)
  let u := if due ∨ 127 ≤ dget 0 (ctrOf t catIx cr page).minors (ix % 64) then catReencrypt t page else t
  let c := ctrOf u catIx cr page
  setCtr u catIx page { c with minors := tput c.minors (ix % 64) (dget 0 c.minors (ix % 64) + 1) }

theorem own_catCounted (s : State) (ix : Nat) : Own s (catCounted s ix) := by
  have hfetch := own_fetchPath s catIx (catRegion s) (ix / 64) 0 { lines := [] }
  unfold catCounted
  extract_lets cr page t due u c
  have hu : Own s u := .ite (fun _ => hfetch.trans (own_catReencrypt ..)) fun _ => hfetch
  exact hu.trans (own_setCtr ..)

/-- An entry whose page has a count left is put in the catalogue, its line and its tree lines queued. -/
theorem catWrite_open {ix : Nat} (h : catEnded s ix = false) (r : Region) :
    Own (setRegion (catCounted s ix) ix r) (catWrite s ix r) := by
  have heq : catWrite s ix r =
      touchCat (writeCtr (sealCatLine (setRegion (catCounted s ix) ix r) ix r) catIx (catRegion s) (ix / 64) 0) ix := by
    unfold catWrite
    rw [h]
    rfl
  rw [heq]
  exact ((own_sealCatLine ..).trans (own_writeCtr ..)).trans (own_touchCat ..)

/-- The entry that is put changes the catalogue and nothing else that own work leaves. -/
theorem catWrite_own {ix : Nat} (h : catEnded s ix = false) (r : Region) : ∃ t, Own s t ∧ Own (setRegion t ix r) (catWrite s ix r) :=
  ⟨_, own_catCounted s ix, catWrite_open h r⟩

/-- An entry whose page is exhausted stays as it is (04 R133). -/
theorem catWrite_ended {ix : Nat} (h : catEnded s ix = true) (r : Region) : catWrite s ix r = imeReason s Rsn.counterEnd := by
  unfold catWrite
  rw [h]
  rfl

/-- An entry written changes the catalogue at most, and nothing else that own work leaves. -/
theorem catWrite_frame (s : State) (ix : Nat) (r : Region) : ∃ t, Own s t ∧ (Own t (catWrite s ix r) ∨ Own (setRegion t ix r) (catWrite s ix r)) := by
  cases h : catEnded s ix with
  | true => exact ⟨s, .refl s, .inl (catWrite_ended h r ▸ own_imeReason ..)⟩
  | false =>
    obtain ⟨t, ht, hu⟩ := catWrite_own h r
    exact ⟨t, ht, .inr hu⟩

theorem catWrite_stays {ix : Nat} {r : Region} {e : MemEnt} (he : e ∈ s.ime.ents) : e ∈ (catWrite s ix r).ime.ents := by
  obtain ⟨t, ht, hu | hu⟩ := catWrite_frame s ix r
  · exact hu.stays e (ht.stays e he)
  · exact hu.stays e (ht.stays e he)

theorem catWrite_placed {ix : Nat} {r : Region} (hp : allPlaced s.ime.ents) : allPlaced (catWrite s ix r).ime.ents := by
  obtain ⟨t, ht, hu | hu⟩ := catWrite_frame s ix r
  · exact hu.placed (ht.placed hp)
  · exact hu.placed (s := setRegion t ix r) (ht.placed hp)

theorem catWrite_calm {ix : Nat} {r : Region} (hc : Calm s) : Calm (catWrite s ix r) := by
  obtain ⟨t, ht, hu | hu⟩ := catWrite_frame s ix r
  · exact hu.calm (ht.calm hc)
  · obtain ⟨hi, hcr, hd⟩ := ht.calm hc
    exact hu.calm (s := setRegion t ix r) ⟨hi, hcr, hd⟩

theorem catWrite_sweeps (s : State) (ix : Nat) (r : Region) : (catWrite s ix r).ime.sweeps = s.ime.sweeps := by
  obtain ⟨t, ht, hu | hu⟩ := catWrite_frame s ix r
  · exact hu.sweeps.trans ht.sweeps
  · exact hu.sweeps.trans ht.sweeps

/-- An entry written is the region it describes. -/
theorem catWrite_regionAt {ix : Nat} {r : Region} (h : catEnded s ix = false) (hix : ix < catEntries s) (hr : r.state ≠ 0) :
    regionAt (catWrite s ix r) ix = some r := by
  obtain ⟨t, ht, hu⟩ := catWrite_own h r
  have hlt : ix < catEntries t := ht.catEntries ▸ hix
  rw [hu.regionAt]
  simp [regionAt, setRegion, show catEntries { t with ime := { t.ime with cat := tput t.ime.cat ix r } } = catEntries t from rfl, hlt, hr]

theorem own_catLook (s : State) (ix cls : Nat) (m : MemIn) : Own s (catLook s ix cls m).2.1 := by
  have hfetch := own_fetchPath s catIx (catRegion s) (ix / 64) cls m
  unfold catLook
  dsimp only
  generalize fetchPath s catIx (catRegion s) (ix / 64) cls m = x at hfetch
  obtain ⟨ok, t, m'⟩ := x
  dsimp only at hfetch ⊢
  have hread := hfetch.trans (own_ownReads t [catLine t ix] cls)
  generalize ownReads t [catLine t ix] cls = u at hread
  have hpass := hread.trans (own_lanePass u (memPort u (catLine u ix)) ((slotAt u 2).elim [] fun v => lineHandles u catIx (catRegion s) 2 (curHalf v)) none 0)
  generalize lanePass u (memPort u (catLine u ix)) _ none 0 = y at hpass
  split
  · exact .refl s
  · split
    · exact own_touchCat ..
    · split
      · exact .ite (fun _ => hfetch.trans (own_touchCat ..)) fun _ => hfetch
      · exact .ite (fun _ => hpass.trans (own_touchCat ..)) fun _ => hpass

/-! ### A request's checks, and the block's reads of operands (04 Table 4-6; 15 R454) -/

theorem own_memGateBy (acc : Acc) (s : State) (w : Who) (k : MemKind) (cls : Nat) (m : MemIn) : Own s (memGateBy acc s w k cls m).2.1 := by
  have hlook := own_catLook s (regionIx w.shelf) cls m
  unfold memGateBy
  split
  · exact .refl s
  · dsimp only
    split
    · exact .ite (fun _ => hlook.trans (own_record ..)) fun _ => hlook
    · exact hlook

theorem own_memGate (s : State) (w : Who) (k : MemKind) (cls : Nat) (m : MemIn) : Own s (memGate s w k cls m).2.1 := own_memGateBy ..

theorem own_lineFault (s : State) (e : MemEnt) (c : Code) : Own s (lineFault s e c) := own_record ..

/-- The lanes a line passes as it is opened: none where it needs no key. -/
theorem own_passed (h : Own s t) (hs : List KeyHandle) (g : Nat) (who : Option Who) (tag : Nat) :
    Own s (if hs.isEmpty then (true, t) else lanePass t g hs who tag).2 := by
  split
  · exact h
  · exact h.trans (own_lanePass ..)

theorem own_readStored (s : State) (e : MemEnt) (r : Region) (m : MemIn) : Own s (readStored s e r m).2.1 := by
  unfold readStored
  dsimp only
  split
  · exact own_passed (.refl s) ..
  · refine own_passed (.trans ?_ (own_ownReads ..)) ..
    split
    · exact own_fetchPath ..
    · exact .refl s

theorem own_readLine (s : State) (w : Who) (cls : Nat) (acc : Acc) (m : MemIn) : Own s (readLine s w cls acc m).2.1 := by
  have hgate := own_memGateBy acc s w .read cls m
  unfold readLine
  generalize memGateBy acc s w .read cls m = x at hgate ⊢
  obtain ⟨c | ⟨ix, r⟩, t, m1⟩ := x
  · exact hgate.trans (own_imeReason ..)
  · dsimp only at hgate ⊢
    split
    · exact hgate
    · split
      · exact hgate
      · have hread := hgate.trans (own_readStored t (newEnt t .own .read w ix r cls none) r m1)
        generalize readStored t (newEnt t .own .read w ix r cls none) r m1 = y at hread ⊢
        obtain ⟨o, u, m2⟩ := y
        dsimp only at hread ⊢
        have hfault : Own s (if o.code = Rsn.treeFail then lineFault u (newEnt t .own .read w ix r cls none) o.code else u) :=
          .ite (fun _ => hread.trans (own_lineFault ..)) fun _ => hread
        split
        · exact hfault
        · exact hfault.trans (own_imeReason ..)

theorem own_readLines (w : Who) (cls : Nat) (acc : Acc) : ∀ (n line : Nat) (s : State) (m : MemIn), Own s (readLines s w cls acc m n line).2.1
  | 0, _, s, _ => .refl s
  | n + 1, line, s, m => by
    have hline := own_readLine s { w with addr := line * 64 } cls acc m
    unfold readLines
    generalize readLine s { w with addr := line * 64 } cls acc m = x at hline ⊢
    obtain ⟨c | l, t, m1⟩ := x
    · exact hline
    · have hrest := hline.trans (own_readLines w cls acc n (line + 1) t m1)
      dsimp only at hrest ⊢
      generalize readLines t w cls acc m1 n (line + 1) = y at hrest ⊢
      obtain ⟨c | b, u, m2⟩ := y <;> exact hrest

/-- A command's operands are read as its own work. -/
theorem own_ctlRead (s : State) (shelf addr len : Nat) (m : MemIn) : Own s (ctlRead s shelf addr len m).2.1 := by
  have hlines := own_readLines (ctlWho shelf addr) 0 .live (linesOf (ctlWho shelf addr).addr len) ((ctlWho shelf addr).addr / 64) s m
  unfold ctlRead readBytes readBytesBy
  generalize readLines s (ctlWho shelf addr) 0 .live m _ _ = x at hlines ⊢
  obtain ⟨c | b, t, m1⟩ := x <;> exact hlines

theorem own_admitted (s : State) (w : Who) (len : Nat) (k : MemKind) (cls : Nat) (m : MemIn) : Own s (admitted s w len k cls m).2.1 := by
  have hgate := own_memGate s { w with addr := w.addr / 64 * 64 } k cls m
  unfold admitted
  generalize memGate s { w with addr := w.addr / 64 * 64 } k cls m = x at hgate ⊢
  obtain ⟨c | x, t, m1⟩ := x <;> exact hgate

/-- What own work that answers a triple leaves, its state has left. -/
theorem Own.of_eq {α β : Type} {x : α × State × β} {a : α} {b : β} (h : Own s x.2.1) (he : x = (a, t, b)) : Own s t := by
  subst he
  exact h

end Sys2Proof.Proofs.OwnWork

/-! Control commands on host objects (09 R280 to R301). -/
namespace Sys2Proof.Proofs.HostObjects
open Sys2Proof.Machine Memory OwnWork

variable {s t u : State} {slc i h : Nat}

/-! ### Tables -/

theorem tput_tput {α : Type} (l : Tbl α) (k : Nat) (v w : α) : tput (tput l k v) k w = tput l k w := by
  induction l with
  | nil => simp [tput]
  | cons p l ih =>
    obtain ⟨j, x⟩ := p
    rcases Nat.lt_trichotomy k j with hlt | rfl | hgt
    · simp [tput, hlt]
    · simp [tput]
    · simp [tput, Nat.not_lt_of_gt hgt, Nat.ne_of_gt hgt, ih]

theorem mem_of_tget {α : Type} {l : Tbl α} {k : Nat} {v : α} (hg : tget l k = some v) : (k, v) ∈ l := by
  induction l with
  | nil => simp at hg
  | cons p l ih =>
    obtain ⟨j, x⟩ := p
    simp only [tget] at hg
    split at hg
    · next hj => simp_all
    · exact List.mem_cons_of_mem _ (ih hg)

theorem tget_filter_of_dropped {α : Type} (l : Tbl α) (k : Nat) {p : Nat × α → Bool} (hp : ∀ v, p (k, v) = false) : tget (l.filter p) k = none := by
  induction l with
  | nil => rfl
  | cons q l ih =>
    obtain ⟨j, x⟩ := q
    rw [List.filter_cons]
    split
    · next hq =>
      have hj : j ≠ k := by
        rintro rfl
        simp [hp] at hq
      simpa [tget, hj] using ih
    · exact ih

/-! ### A control command that is taken -/

@[simp] theorem okay_hob (s : State) : (Safety.okay s).hob = s.hob := rfl

@[simp] theorem okay_gen (s : State) : (Safety.okay s).gen = s.gen := rfl

@[simp] theorem okay_ime (s : State) : (Safety.okay s).ime = s.ime := rfl

/-- A command that ends with code 0, none written while it ran. -/
theorem hobEnd_done (hb : s.hob.busyHit = false) : Safety.okay (hobEnd s 0#8 0) = Safety.hobDone s := by
  have hnone : hobReason { s with hob := { s.hob with cmdBusy := false, busyHit := false, cmdCode := 0#8, cmdDetail := 0, cmdWait := none } } 0#8
      = { s with hob := { s.hob with cmdBusy := false, busyHit := false, cmdCode := 0#8, cmdDetail := 0, cmdWait := none } } := by
    simp [hobReason]
  unfold hobEnd
  simp only [hb, Bool.false_eq_true, if_false, hnone]
  rfl

/-- What a command's end writes: its words, the last reason and the HOB source. -/
theorem hobEnd_eq (s : State) (c : Code) (d : Nat) : ∃ c' x, hobEnd s c d = { s with
    hob := { s.hob with cmdBusy := false, busyHit := false, cmdCode := c', cmdDetail := d, cmdWait := none, lastReason := x }
    gen := { s.gen with irqStatus := s.gen.irqStatus ||| 0x20#32 } } := by
  unfold hobEnd hobReason
  generalize (if s.hob.busyHit = true then Hc.hobBusy else c) = c'
  dsimp only
  split <;> exact ⟨_, _, rfl⟩

/-- The end of a command leaves its objects; BUSY is clear and the HOB source set. -/
theorem hobEnd_fields (s : State) (c : Code) (d : Nat) :
    (hobEnd s c d).hob.cmdBusy = false ∧ (hobEnd s c d).gen.irqStatus.getLsbD 5 = true ∧ (hobEnd s c d).hob.objs = s.hob.objs := by
  obtain ⟨c', x, h⟩ := hobEnd_eq s c d
  rw [h]
  simp

theorem regionAt_hobEnd (s : State) (c : Code) (d ix : Nat) : regionAt (Safety.okay (hobEnd s c d)) ix = regionAt s ix := by
  obtain ⟨c', x, h⟩ := hobEnd_eq s c d
  rw [h]
  rfl

/-- A command that is taken runs, and ends with its code. -/
theorem hobRun_taken {a : Bool} {n : Nat} (hs : Safety.hobTakes s slc a n) (f : State → Code × State) :
    ctlWriteBy s 0x8014 (fun s => hobRun s slc a n f) = Safety.okay (hobEnd (f s).2 (f s).1 0) := by
  obtain ⟨hadm, hbusy, -, hgate⟩ := hs
  simp [ctlWriteBy_admitted hadm, hobRun, hbusy, hgate]

/-- A command that is taken and ends with code 0, its state without a second command. -/
theorem hobRun_done {a : Bool} {n : Nat} (hs : Safety.hobTakes s slc a n) {f : State → Code × State} (hf : f s = (0#8, t)) (hb : t.hob = { s.hob with
      ctxs := t.hob.ctxs, slices := t.hob.slices, queues := t.hob.queues, events := t.hob.events, objs := t.hob.objs }) :
    ctlWriteBy s 0x8014 (fun s => hobRun s slc a n f) = Safety.hobDone t := by
  rw [hobRun_taken hs, hf]
  exact hobEnd_done (by rw [hb]; exact hs.2.2.1)

theorem newIndex_free {α : Type} {l : Tbl α} {n : Nat} (hn : i < n) (hi : tget l i = none) : newIndex l i n = 0#8 := by
  simp [newIndex, hi, Nat.not_le_of_lt hn]

/-! ### Contexts, queues and events -/

theorem ctxCreate_free (hn : i < 4096) (hi : tget s.hob.ctxs i = none) :
    ctxCreate slc i s = (0#8, { s with hob := { s.hob with ctxs := tput s.hob.ctxs i { slice := slc, world := bits s.hob.cmdArg.toNat 0 2 } } }) := by
  simp [ctxCreate, newIndex_free hn hi]

theorem ctxOf_own {c : HCtx} (hi : tget s.hob.ctxs i = some c) (hc : c.slice = slc) : ctxOf s slc i = true := by simp [ctxOf, hi, hc]

theorem ofOther_own {α : Type} {l : Tbl α} {f : α → Nat} {v : α} (hi : tget l i = some v) (hv : f v = slc) : ofOther l f slc i = false := by
  simp [ofOther, hi, hv]

theorem ofOther_ctx (hc : ctxOf s slc i = true) : ofOther s.hob.ctxs (·.slice) slc i = false := by
  unfold ctxOf at hc
  unfold ofOther
  cases hg : tget s.hob.ctxs i with
  | none => rfl
  | some c => simp_all

theorem ctxDestroy_unused (ho : ctxOf s slc i = true) (hlive : (sliceAt s slc).live ≠ some i) (hq : ∀ q ∈ s.hob.queues, q.2.ctx ≠ i) :
    ctxDestroy slc i s = (0#8, { s with hob := { s.hob with ctxs := tdel s.hob.ctxs i } }) := by
  have hnone : (s.hob.queues.any fun q => q.2.ctx == i) = false := List.any_eq_false.mpr fun q hm => by simpa using hq q hm
  simp [ctxDestroy, ho, hlive, hnone]

theorem switchCtx_none : switchCtx slc 0xFFFF s = (0#8, setSlice s slc { sliceAt s slc with live := none }) := rfl

theorem switchCtx_own (hi : i ≠ 0xFFFF) (ho : ctxOf s slc i = true) :
    switchCtx slc i s = (0#8, setSlice s slc { sliceAt s slc with live := some i }) := by
  simp [switchCtx, hi, ho]

theorem queueDestroy_unused {q : HQueue} (hg : tget s.hob.queues i = some q) (hq : q.slice = slc) (hcq : ∀ x ∈ s.hob.queues, x.2.cq = i → x.2.kind = 2)
    (hf : s.hob.flight = []) (hm : ∀ g ∈ s.ile.msgs, g.queue ≠ i) :
    queueDestroy slc i s = (0#8, { s with hob := { s.hob with queues := tdel s.hob.queues i } }) := by
  have hnocq : (s.hob.queues.any fun x => x.2.kind != 2 && q.kind == 2 && x.2.cq == i) = false := by
    refine List.any_eq_false.mpr fun x hx => ?_
    have hkind := hcq x hx
    simp only [Bool.and_eq_true, bne_iff_ne, beq_iff_eq]
    exact fun ⟨⟨hne, _⟩, hc⟩ => hne (hkind hc)
  have hnomsg : (s.ile.msgs.any fun g => g.queue == i) = false := List.any_eq_false.mpr fun g hx => by simpa using hm g hx
  simp [queueDestroy, hg, hq, hnocq, hnomsg, hf]

theorem eventDestroy_unused {e : HEvent} (hg : tget s.hob.events i = some e) (he : e.slice = slc) (hf : s.hob.flight = []) :
    eventDestroy slc i s = (0#8, { s with hob := { s.hob with events := tdel s.hob.events i } }) := by
  simp [eventDestroy, hg, he, hf]

/-- The queue a record describes (09 Table 9-2). -/
def recordQueue (slc : Nat) (b : List Byte) : HQueue :=
  { kind := fld b 1 1, ctx := fld b 0x10 2, slice := slc, sizeLog2 := fld b 2 1, slotLog2 := fld b 3 1, shelf := fld b 4 3, addr := fld b 8 8,
    cq := fld b 0x12 2, notify := bit (fld b 0x14 1) 0, head := 0, tail := 0, reserved := 0 }

/-- The event a record describes (09 R295). -/
def recordEvent (slc : Nat) (b : List Byte) : HEvent :=
  { slice := slc, value := fld b 8 8, ignored := 0, mirror := bit (fld b 1 1) 0, mShelf := fld b 4 3, mAddr := fld b 0x10 8 }

section
variable {m m1 m2 m3 : MemIn} {b : List Byte} {s1 s2 s3 : State} {w : Who} {len : Nat} {x y : Nat × Region}

/-- A queue whose record, context, completion queue and ring pass is entered. -/
theorem queueCreate_formed (hn : i < 4096) (hi : tget s.hob.queues i = none)
    (hread : ctlRead s s.hob.cmdShelf.toNat s.hob.cmdAddr.toNat 64 m = (.ok b, s1, m1)) (hform : queueForm b = true)
    (hctx : ctxOf s1 slc (fld b 0x10 2) = true)
    (hcq : fld b 1 1 = 2 ∨ ∃ c, tget s1.hob.queues (fld b 0x12 2) = some c ∧ c.kind = 2 ∧ c.slice = slc)
    (hw : w = hobWho (ctxWorld s1 (fld b 0x10 2)) slc (fld b 0x10 2) (fld b 4 3) (fld b 8 8))
    (hlen : len = if fld b 1 1 = 3 then 2 ^ (fld b 2 1 + fld b 3 1) else 64 * 2 ^ fld b 2 1)
    (hr : Machine.admitted s1 w len .read (hostClass s1) m1 = (.ok x, s2, m2))
    (hwr : Machine.admitted s2 w len .write (hostClass s2) m2 = (.ok y, s3, m3)) :
    queueCreate slc i m s = (0#8, setQueue s3 i (recordQueue slc b)) := by
  have hforeign : ¬(fld b 1 1 ≠ 2 ∧ ofOther s1.hob.queues (·.slice) slc (fld b 0x12 2) = true) := by
    rintro ⟨hk, ho⟩
    obtain ⟨c, hg, -, hc⟩ := hcq.resolve_left hk
    rw [ofOther_own hg hc] at ho
    exact absurd ho Bool.false_ne_true
  have hcompl : ¬(fld b 1 1 ≠ 2 ∧ (!(tget s1.hob.queues (fld b 0x12 2)).any fun c => c.kind == 2) = true) := by
    rintro ⟨hk, ho⟩
    obtain ⟨c, hg, hkind, -⟩ := hcq.resolve_left hk
    simp [hg, hkind] at ho
  subst hw hlen
  simp only [queueCreate, newIndex_free hn hi, hread, hform, ofOther_ctx hctx, hctx, if_neg hforeign, if_neg hcompl, ne_eq, not_true_eq_false,
    Bool.not_true, Bool.false_eq_true, if_false, hr, hwr]
  rfl

/-- An event whose record passes is entered. -/
theorem eventCreate_formed (hn : i < 16384) (hi : tget s.hob.events i = none)
    (hread : ctlRead s s.hob.cmdShelf.toNat s.hob.cmdAddr.toNat 32 m = (.ok b, s1, m1))
    (h0 : fld b 0 1 = 1) (h1 : fld b 1 1 < 2) (h2 : fld b 2 2 = 0) (h7 : fld b 7 1 = 0) (halign : fld b 0x10 8 % 8 = 0) (hadr : fld b 0x10 8 < 2 ^ 52)
    (h18 : fld b 0x18 8 = 0) (hplain : fld b 1 1 = 0 → fld b 0x10 8 = 0) :
    eventCreate slc i m s = (0#8, { s1 with hob := { s1.hob with events := tput s1.hob.events i (recordEvent slc b) } }) := by
  have hmirror : ¬((!bit (fld b 1 1) 0) = true ∧ fld b 0x10 8 ≠ 0) := by
    rintro ⟨hbit, hne⟩
    have hmod : fld b 1 1 % 2 ≠ 1 := by simpa [bit, bits] using hbit
    exact hne (hplain (by omega))
  have hpass : ¬(fld b 0 1 ≠ 1 ∨ 2 ≤ fld b 1 1 ∨ fld b 2 2 ≠ 0 ∨ fld b 7 1 ≠ 0 ∨ fld b 0x10 8 % 8 ≠ 0 ∨ 2 ^ 52 ≤ fld b 0x10 8
      ∨ ((!bit (fld b 1 1) 0) = true ∧ fld b 0x10 8 ≠ 0) ∨ fld b 0x18 8 ≠ 0) := by
    simp only [not_or]
    exact ⟨not_not.mpr h0, Nat.not_le_of_lt h1, not_not.mpr h2, not_not.mpr h7, not_not.mpr halign, Nat.not_le_of_lt hadr, hmirror, not_not.mpr h18⟩
  unfold eventCreate
  simp only [newIndex_free hn hi, ne_eq, not_true_eq_false, if_false, hread]
  exact if_neg hpass
end

/-- What a command that reads its record and ends with code 0 leaves of the unit. -/
theorem hobEnd_quiet (hb : t.hob.busyHit = false) :
    (Safety.okay (hobEnd t 0#8 0)).hob.cmdCode = 0#8 ∧ (Safety.okay (hobEnd t 0#8 0)).hob.cmdBusy = false
      ∧ (Safety.okay (hobEnd t 0#8 0)).gen.irqStatus.getLsbD 5 = true ∧ (Safety.okay (hobEnd t 0#8 0)).hob.queues = t.hob.queues
      ∧ (Safety.okay (hobEnd t 0#8 0)).hob.events = t.hob.events := by
  rw [hobEnd_done hb]
  simp [Safety.hobDone]

/-! ### Memory objects (09 R296 to R298) -/

theorem objAdopt_live {r : Region} (hn : h < 8192) (hh : tget s.hob.objs h = none) (ht : sliceTenant s slc = some (bits s.hob.cmdArg.toNat 0 21 / 4096))
    (hr : regionAt s (bits s.hob.cmdArg.toNat 0 21) = some r) :
    objAdopt slc h s = (0#8, { s with hob := { s.hob with
      objs := tput s.hob.objs h { slice := slc, cat := bits s.hob.cmdArg.toNat 0 21, state := 1, hold := true, refs := 1 } } }) := by
  simp only [objAdopt, newIndex_free hn hh, argCat, ht, hr, ne_eq, not_true_eq_false, if_false]
  rfl

/-- An object's handle is bound once its CREATE is done. -/
theorem objCreate_bound {m m1 : MemIn} {b : List Byte} {s1 s2 : State} (hs : Safety.hobTakes s slc true 21) (hn : h < 8192) (hh : tget s.hob.objs h = none)
    (ht : sliceTenant s slc = some (bits s.hob.cmdArg.toNat 0 21 / 4096)) (hf : s.ime.formatted = true)
    (hread : ctlRead s s.hob.cmdShelf.toNat s.hob.cmdAddr.toNat 64 m = (.ok b, s1, m1))
    (hc : regionCreate s1 (bits s1.hob.cmdArg.toNat 0 21) b m1 = (Rc.done, s2)) :
    ctlWriteBy s 0x8014 (fun s => objCreate s slc h m) = Safety.okay (hobEnd (objBind (afterMem s2) slc h (bits s2.hob.cmdArg.toNat 0 21)) 0#8 0) := by
  obtain ⟨hadm, hbusy, -, hgate⟩ := hs
  have hrun : objCreateRun s slc h m = (0#8, 0, objBind (afterMem s2) slc h (bits s2.hob.cmdArg.toNat 0 21)) := by
    simp [objCreateRun, hread, argCat, hc]
  rw [ctlWriteBy_admitted hadm]
  simp [objCreate, hbusy, hgate, newIndex_free hn hh, argCat, ht, hf, hrun]

/-- A DESTROY that is refused leaves the region, and no region closes. -/
theorem regionDestroy_refused {s1 : State} {c : Code} {ix : Nat} {drv : Bool} {m m1 : MemIn} (hd : regionDestroy s ix drv m = (c, s1, m1))
    (hc : c ≠ Rc.done) : Own s s1 := by
  have hlook := own_catLook s ix 0 m
  unfold regionDestroy liveEntry at hd
  generalize catLook s ix 0 m = y at hlook hd
  obtain ⟨v, t, m2⟩ := y
  dsimp only at hlook hd
  split at hd
  · next heq => grind
  · next r t' m3 heq =>
    split at hd
    · grind
    · simp_all

/-- The state whose one closing region is the one at an index. -/
def closing (s : State) (ix : Nat) : State := { s with ime := { s.ime with dying := [(ix, false)] } }

/-- A DESTROY of a live region that no snapshot and no resident line holds: the region is closing. -/
theorem regionDestroy_live {s1 : State} {r : Region} {ix : Nat} {m m1 : MemIn} (hlook : catLook s ix 0 m = (0#8, s1, m1)) (hd : s.ime.dying = [])
    (hr : regionAt s ix = some r) (hend : catEnded s1 ix = false) (hsnap : snapState r = 0) (hres : s.ile.resident = []) :
    regionDestroy s ix false m = (Rc.done, closing s1 ix, m1) := by
  have hown : Own s s1 := (own_catLook s ix 0 m).of_eq hlook
  have hlive : liveEntry s ix m = (.ok r, s1, m1) := by
    simp [liveEntry, hlook, hown.dying, hd, hown.regionAt, hr, hend]
  have hnone : s1.ile.resident = [] := by rw [hown.ile, hres]
  have hdying : s1.ime.dying = [] := hown.dying.trans hd
  simp only [regionDestroy, hlive, hsnap, hnone, closing]
  simp [hdying]

/-- What a region's cleared state keeps of the catalogue's page counters. -/
theorem catEnded_clearRegion {ix k : Nat} {r : Region} (he : catEnded s k = false) : catEnded (clearRegion s ix r) k = false := by
  by_cases hix : ix = catIx
  · subst hix
    have hgone : ctrOf (clearRegion s catIx r) catIx (catRegion (clearRegion s catIx r)) (k / 64)
        = { major := regionGen s (catRegion s) * 2 ^ 32, minors := [], parity := (catRegion s).baseGen % 2 == 1 } := by
      have hnone : tget (dget [] (clearRegion s catIx r).ime.ctr catIx) (k / 64) = none := by simp [clearRegion, dget]
      unfold ctrOf
      rw [hnone]
      rfl
    simp only [catEnded, hgone]
    simp [dget]
  · have hsame : ctrOf (clearRegion s ix r) catIx (catRegion (clearRegion s ix r)) (k / 64) = ctrOf s catIx (catRegion s) (k / 64) := by
      have hkept : dget [] (clearRegion s ix r).ime.ctr catIx = dget [] s.ime.ctr catIx := by simp [clearRegion, dget, tget_tdel_other _ hix]
      unfold ctrOf
      rw [hkept]
      rfl
    simpa only [catEnded, hsame] using he

theorem regionIdle_quiet {ix : Nat} (he : ∀ e ∈ s.ime.ents, e.phase = .writeReady) (hb : s.ime.blks = []) (hr : s.ile.resident = []) :
    regionIdle s ix = true := by
  have hents : (s.ime.ents.any fun e => e.region == ix && e.phase != .writeReady && e.phase != .writeOut) = false :=
    List.any_eq_false.mpr fun e hm => by simp [he e hm]
  simp [regionIdle, hents, hb, hr]

/-- A region closed by DESTROY ends at once where nothing waits there. -/
theorem afterMem_closing {ix : Nat} (he : ∀ e ∈ s.ime.ents, e.phase = .writeReady) (hb : s.ime.blks = []) (hr : s.ile.resident = [])
    (hi : s.ile.ingress = []) (hc : heldCredits s = 0) : afterMem (closing s ix) = closeRegion (closing s ix) ix false := by
  have hset : settle (closing s ix) = closing s ix := settle_placed fun e hm => by simp [he e hm, holdPhase]
  have hpass : ingressPass (closing s ix) = closing s ix := by simp [ingressPass, closing, hi]
  have hdrain : drainIngress (closing s ix) = closing s ix := by
    simp [drainIngress, hpass, returnCredits, show heldCredits (closing s ix) = 0 from hc]
  have hidle : regionIdle (closing s ix) ix = true := regionIdle_quiet he hb hr
  rw [afterMem, hset, hdrain, hset]
  show [(ix, false)].foldl _ _ = _
  simp only [List.foldl_cons, List.foldl_nil, hidle, if_true]

/-- A freed entry is no region. -/
theorem regionAt_freed (s : State) (ix n : Nat) : regionAt (setRegion s ix { freeRegion with creations := n }) ix = none := by
  unfold regionAt setRegion
  split <;> simp [freeRegion]

/-- A closed region is free, and so is the handle that waited for it. -/
theorem closeRegion_frees {ix : Nat} {r : Region} {o : HObj} (hr : regionAt s ix = some r) (hend : catEnded s ix = false)
    (ho : tget s.hob.objs h = some o) (hcat : o.cat = ix) (hstate : o.state = 2) (hrefs : o.refs = 0) :
    regionAt (closeRegion s ix false) ix = none ∧ tget (closeRegion s ix false).hob.objs h = none := by
  obtain ⟨t, hto, hu⟩ := catWrite_own (catEnded_clearRegion (r := r) hend) { freeRegion with creations := r.creations }
  have hobj : (catWrite (clearRegion s ix r) ix { freeRegion with creations := r.creations }).hob = s.hob := hu.hob.trans (hto.hob.trans rfl)
  have hfree : regionAt (catWrite (clearRegion s ix r) ix { freeRegion with creations := r.creations }) ix = none :=
    (hu.regionAt ix).trans (regionAt_freed t ix r.creations)
  have hclose : closeRegion s ix false = (let u := catWrite (clearRegion s ix r) ix { freeRegion with creations := r.creations }
      let gone := (u.hob.objs.filter fun o => o.2.cat == ix && o.2.state == 2 && o.2.refs == 0).map (·.1)
      { u with hob := { u.hob with objs := u.hob.objs.filter fun o => !gone.contains o.1 } }) := by
    simp [closeRegion, hr, hend]
  generalize catWrite (clearRegion s ix r) ix { freeRegion with creations := r.creations } = u at hobj hfree hclose
  rw [hclose]
  refine ⟨hfree, tget_filter_of_dropped _ _ fun v => ?_⟩
  have hin : h ∈ (u.hob.objs.filter fun o => o.2.cat == ix && o.2.state == 2 && o.2.refs == 0).map (·.1) :=
    List.mem_map.mpr ⟨(h, o), List.mem_filter.mpr ⟨hobj ▸ mem_of_tget ho, by simp [hcat, hstate, hrefs]⟩, rfl⟩
  simpa using hin

/-- A DESTROY with no memory operation under way closes its region at once (04 R118; 09 R298). -/
theorem destroyed_frees {s1 : State} {r : Region} {o : HObj} {m m1 : MemIn} (hq : Safety.imeQuiet s) (hm : Safety.memIdle s)
    (hlook : catLook s o.cat 0 m = (0#8, s1, m1)) (hend : catEnded s1 o.cat = false) (hr : regionAt s o.cat = some r) (hsnap : snapState r = 0)
    (ho : tget s.hob.objs h = some o) (hstate : o.state = 2) (hrefs : o.refs = 0) :
    regionAt (afterMem (regionDestroy s o.cat false m).2.1) o.cat = none
      ∧ tget (afterMem (regionDestroy s o.cat false m).2.1).hob.objs h = none := by
  obtain ⟨hents, hing, hdying, hcred⟩ := hm
  obtain ⟨-, hblks, hres, -⟩ := hq
  have hown : Own s s1 := (own_catLook s o.cat 0 m).of_eq hlook
  have hready : ∀ e ∈ s1.ime.ents, e.phase = .writeReady := fun e he => (hown.adds e he).resolve_left (by simp [hents])
  have hclose : afterMem (closing s1 o.cat) = closeRegion (closing s1 o.cat) o.cat false :=
    afterMem_closing hready (hown.blks.trans hblks) (hown.ile ▸ hres) (hown.ile ▸ hing) (by rw [heldCredits, hown.ile]; exact hcred)
  rw [regionDestroy_live hlook hdying hr hend hsnap hres, hclose]
  exact closeRegion_frees (s := closing s1 o.cat) ((hown.regionAt o.cat).trans hr) hend
    ((congrArg (fun b => tget b.objs h) hown.hob).trans ho) rfl hstate hrefs

theorem setObj_setObj (s : State) (h : Nat) (o o' : HObj) : setObj (setObj s h (some o)) h (some o') = setObj s h (some o') := by
  simp only [setObj, tset, tput_tput]

theorem tget_setObj (s : State) (h : Nat) (o : HObj) : tget (setObj s h (some o)).hob.objs h = some o := tget_tput_same ..

/-- The DESTROY of an object no one holds, marked RETIRING and tried now. -/
theorem objDestroy_unheld {o : HObj} {m : MemIn} (ho : tget s.hob.objs h = some o) (hrefs : o.refs = 0) :
    (objDestroy s h m).1 = afterMem (regionDestroy (setObj s h (some { o with state := 2, tried := s.tm.ns })) o.cat false m).2.1 := by
  simp only [objDestroy, ho, hrefs, ne_eq, not_true_eq_false, if_false]

theorem objDestroy_held {o : HObj} {m : MemIn} (ho : tget s.hob.objs h = some o) (hrefs : o.refs ≠ 0) : (objDestroy s h m).1 = s := by
  simp only [objDestroy, ho, ne_eq, hrefs, not_false_eq_true, if_true]

/-- OBJ_FREE takes the driver's hold. -/
theorem objFree_live {o : HObj} {m : MemIn} (ho : tget s.hob.objs h = some o) (hslice : o.slice = slc) (hstate : o.state = 1) :
    objFree slc h m s = (0#8, (objDestroy (setObj s h (some { o with hold := false, refs := o.refs - 1, state := 2 })) h m).1) := by
  subst hslice
  simp only [objFree, ho, hstate, ne_eq, not_true_eq_false, if_false]

/-- An object that commands hold is RETIRING. -/
theorem objFree_held {o : HObj} {m : MemIn} (ho : tget s.hob.objs h = some o) (hslice : o.slice = slc) (hstate : o.state = 1) (hrefs : 1 < o.refs) :
    objFree slc h m s = (0#8, setObj s h (some { o with hold := false, refs := o.refs - 1, state := 2 })) := by
  rw [objFree_live ho hslice hstate, objDestroy_held (tget_setObj ..) (Nat.sub_ne_zero_of_lt hrefs)]

/-- An object that only the driver holds has its region destroyed. -/
theorem objFree_unheld {o o' : HObj} {m : MemIn} (ho : tget s.hob.objs h = some o) (hslice : o.slice = slc) (hstate : o.state = 1) (hrefs : o.refs = 1)
    (ho' : o' = { o with hold := false, refs := 0, state := 2, tried := s.tm.ns }) :
    objFree slc h m s = (0#8, afterMem (regionDestroy (setObj s h (some o')) o.cat false m).2.1) := by
  rw [objFree_live ho hslice hstate, hrefs, objDestroy_unheld (tget_setObj ..) rfl, setObj_setObj, ho']
  rfl

/-- A command's end leaves what its run has made of a handle. -/
theorem freed_ends (c : Code) (d : Nat) (v : Option HObj) (hv : tget u.hob.objs h = v) :
    (Safety.okay (hobEnd u c d)).hob.cmdBusy = false ∧ (Safety.okay (hobEnd u c d)).gen.irqStatus.getLsbD 5 = true
      ∧ tget (Safety.okay (hobEnd u c d)).hob.objs h = v := by
  obtain ⟨hbusy, hirq, hobjs⟩ := hobEnd_fields u c d
  exact ⟨hbusy, hirq, by rw [okay_hob, hobjs, hv]⟩

/-- A DESTROY that is refused leaves the handle RETIRING. -/
theorem objFree_refused {o' : HObj} {ix : Nat} {c : Code} {m m1 : MemIn} {s1 : State} (hm : Safety.memIdle s)
    (hd : regionDestroy (setObj s h (some o')) ix false m = (c, s1, m1)) (hc : c ≠ Rc.done) :
    tget (afterMem s1).hob.objs h = some o' := by
  obtain ⟨hents, hing, hdying, hcred⟩ := hm
  have hown := regionDestroy_refused hd hc
  have hplaced : allPlaced (setObj s h (some o')).ime.ents := fun e he => absurd he (by simp [setObj, hents])
  rw [afterMem_placed (hown.placed hplaced) (hown.calm ⟨hing, hcred, hdying⟩), hown.hob]
  exact tget_setObj ..

/-! ### The commands, from the write of their doorbell (15 R459) -/

/-- A queue that is entered leaves the others. -/
theorem qCreate_enters {m : MemIn} {s1 s3 : State} {q : HQueue} (hs : Safety.hobTakes s slc true 0) (hf : queueCreate slc i m s = (0#8, setQueue s3 i q))
    (h1 : Own s s1) (h3 : Own s1 s3) :
    ∃ t, exec (.qCreate slc i m) s = .next t ∧ t.hob.cmdCode = 0#8 ∧ t.hob.cmdBusy = false ∧ t.gen.irqStatus.getLsbD 5 = true
      ∧ tget t.hob.queues i = some q ∧ ∀ j, j ≠ i → tget t.hob.queues j = tget s1.hob.queues j := by
  obtain ⟨hcode, hbusy, hirq, hqueues, -⟩ := hobEnd_quiet (t := setQueue s3 i q) (show s3.hob.busyHit = false by rw [h3.hob, h1.hob, hs.2.2.1])
  refine ⟨_, congrArg Host.Outcome.next ((hobRun_taken hs _).trans (by rw [hf])), hcode, hbusy, hirq, ?_, fun j hj => ?_⟩
  · rw [hqueues]
    exact tget_tput_same ..
  · rw [hqueues, ← h3.hob]
    exact tget_tput_other _ _ hj.symm

/-- An event that is entered leaves the others. -/
theorem eventCreate_enters {m : MemIn} {s1 : State} {e : HEvent} (hs : Safety.hobTakes s slc true 0)
    (hf : eventCreate slc i m s = (0#8, { s1 with hob := { s1.hob with events := tput s1.hob.events i e } })) (h1 : Own s s1) :
    ∃ t, exec (.eventCreate slc i m) s = .next t ∧ t.hob.cmdCode = 0#8 ∧ t.hob.cmdBusy = false ∧ t.gen.irqStatus.getLsbD 5 = true
      ∧ tget t.hob.events i = some e ∧ ∀ j, j ≠ i → tget t.hob.events j = tget s1.hob.events j := by
  obtain ⟨hcode, hbusy, hirq, -, hevents⟩ := hobEnd_quiet (t := { s1 with hob := { s1.hob with events := tput s1.hob.events i e } })
    (show s1.hob.busyHit = false by rw [h1.hob, hs.2.2.1])
  refine ⟨_, congrArg Host.Outcome.next ((hobRun_taken hs _).trans (by rw [hf])), hcode, hbusy, hirq, ?_, fun j hj => ?_⟩
  · rw [hevents]
    exact tget_tput_same ..
  · rw [hevents]
    exact tget_tput_other _ _ hj.symm

section
variable {o o' : HObj} {s1 : State} {m m1 : MemIn}

theorem exec_objFree_unheld (hs : Safety.hobTakes s slc false 0) (ho : tget s.hob.objs h = some o) (hslice : o.slice = slc) (hstate : o.state = 1)
    (hrefs : o.refs = 1) (ho' : o' = { o with hold := false, refs := 0, state := 2, tried := s.tm.ns }) (m : MemIn) :
    exec (.objFree slc ⟨h, m⟩) s = .next (Safety.okay (hobEnd (afterMem (regionDestroy (setObj s h (some o')) o.cat false m).2.1) 0#8 0)) :=
  congrArg Host.Outcome.next ((hobRun_taken hs _).trans (by rw [objFree_unheld ho hslice hstate hrefs ho']))

/-- Before its 100 µs nothing is tried. -/
theorem exec_objDestroyRetry_early (ho : tget s.hob.objs h = some o) (hearly : s.tm.ns < o.tried + 100000) :
    exec (.objDestroyRetry ⟨h, m⟩) s = .next s := by
  have hstay : objRetry s h m = s := by simp [objRetry, ho, Nat.not_le_of_lt hearly]
  exact congrArg Host.Outcome.next hstay

theorem exec_objDestroyRetry_due (ho : tget s.hob.objs h = some o) (hup : hobUp s = true) (hstate : o.state = 2) (hrefs : o.refs = 0)
    (hdue : o.tried + 100000 ≤ s.tm.ns) :
    exec (.objDestroyRetry ⟨h, m⟩) s
      = .next (afterMem (regionDestroy (setObj s h (some { o with tried := s.tm.ns })) o.cat false m).2.1) := by
  have htry : objRetry s h m = (objDestroy s h m).1 := by simp [objRetry, ho, hup, hstate, hrefs, hdue]
  have hsame : ({ o with state := 2, tried := s.tm.ns } : HObj) = { o with tried := s.tm.ns } := by rw [← hstate]
  exact congrArg Host.Outcome.next (htry.trans ((objDestroy_unheld ho hrefs).trans (by rw [hsame])))
end

end Sys2Proof.Proofs.HostObjects

namespace Sys2Proof.Proofs
open Sys2Proof.Machine Memory OwnWork HostObjects

/-- Settles O38: each control command on a host object changes the object it names, and OBJ_FREE and its retry close the object's region at once where
nothing waits there. -/
theorem hostObjectsMade : Obligations.HostObjectsMade := by
  unfold Obligations.HostObjectsMade
  refine ⟨fun slc i s hs hn hi => congrArg Host.Outcome.next (hobRun_done hs (ctxCreate_free hn hi) rfl), fun slc i c s hs hi hc => ⟨?_, ?_⟩, ?_, ?_, ?_, ?_, ?_⟩
  · exact fun hlive hq => congrArg Host.Outcome.next (hobRun_done hs (ctxDestroy_unused (ctxOf_own hi hc) hlive hq) rfl)
  · exact fun hne => congrArg Host.Outcome.next (hobRun_done hs (switchCtx_own hne (ctxOf_own hi hc)) rfl)
  · exact fun slc s hs => congrArg Host.Outcome.next (hobRun_done hs switchCtx_none rfl)
  · intro slc i m m1 b s s1 hs
    constructor
    · intro hn hi hread hform hctx hcq w len x y s2 s3 m2 m3 hw hlen hr hwr
      exact qCreate_enters hs (queueCreate_formed hn hi hread hform hctx hcq hw hlen hr hwr) ((own_ctlRead ..).of_eq hread)
        (((own_admitted ..).of_eq hr).trans ((own_admitted ..).of_eq hwr))
    · intro hn hi hread h0 hk h2 h7 halign hadr h18 hplain
      exact eventCreate_enters hs (eventCreate_formed hn hi hread h0 hk h2 h7 halign hadr h18 hplain) ((own_ctlRead ..).of_eq hread)
  · intro slc i s hs hf
    exact ⟨fun q hg hq hcq hm => congrArg Host.Outcome.next (hobRun_done hs (queueDestroy_unused hg hq hcq hf hm) rfl),
      fun e hg he => congrArg Host.Outcome.next (hobRun_done hs (eventDestroy_unused hg he hf) rfl)⟩
  · intro slc h s hn hh ht
    refine ⟨fun m m1 b s1 s2 hs hf hread hc => ?_, fun r hs hr => congrArg Host.Outcome.next (hobRun_done hs (objAdopt_live hn hh ht hr) rfl)⟩
    obtain ⟨hbusy, hirq, hobj⟩ := freed_ends (u := objBind (afterMem s2) slc h (bits s2.hob.cmdArg.toNat 0 21)) 0#8 0 _ (tget_tput_same ..)
    exact ⟨_, congrArg Host.Outcome.next (objCreate_bound hs hn hh ht hf hread hc), hbusy, hirq, by rw [hobj]; rfl⟩
  · intro slc h o s ho
    refine ⟨fun m hs hslice hstate hrefs => congrArg Host.Outcome.next (hobRun_done hs (objFree_held ho hslice hstate hrefs) rfl),
      fun o' s0 hs hslice hstate hrefs hm ho' hs0 => ?_, fun m => exec_objDestroyRetry_early ho, ?_⟩
    · replace hs0 : s0 = setObj s h (some o') := hs0
      have hexec := exec_objFree_unheld hs ho hslice hstate hrefs ho'
      rw [← hs0] at hexec
      constructor
      · intro c m m1 s1 hd hc
        have hkept := objFree_refused hm (hs0 ▸ hd) hc
        exact ⟨_, hexec m, freed_ends 0#8 0 _ (by rw [hd]; exact hkept)⟩
      · intro r m m1 s1 hq hlook hend hr hsnap
        have hcat : o'.cat = o.cat := by rw [ho']
        have hm0 : Safety.memIdle s0 := by rw [hs0]; exact hm
        have hq0 : Safety.imeQuiet s0 := by rw [hs0]; exact hq
        have hr0 : regionAt s0 o.cat = some r := by rw [hs0]; exact hr
        rw [← hcat] at hlook hend hr0
        obtain ⟨hfree, hnone⟩ := destroyed_frees hq0 hm0 hlook hend hr0 hsnap (by rw [hs0, tget_setObj]) (by rw [ho']) (by rw [ho'])
        rw [hcat] at hfree hnone
        obtain ⟨hbusy, hirq, hobj⟩ := freed_ends 0#8 0 _ hnone
        exact ⟨_, hexec m, hbusy, hirq, hobj, (regionAt_hobEnd ..).trans hfree⟩
    · intro r m m1 s1 hup hstate hrefs hdue hm hq hlook hend hr hsnap
      obtain ⟨hfree, hnone⟩ := destroyed_frees (o := { o with tried := s.tm.ns }) (s := setObj s h (some { o with tried := s.tm.ns })) hq hm hlook hend hr
        hsnap (tget_setObj ..) hstate hrefs
      dsimp only at hfree hnone
      exact ⟨_, exec_objDestroyRetry_due ho hup hstate hrefs hdue, hnone, hfree⟩

end Sys2Proof.Proofs

/-! Pages re-encrypted and the sweeps (04 R132 to R134, R139 to R143). -/
namespace Sys2Proof.Proofs.Sweeps
open Sys2Proof.Machine Lanes Memory OwnWork LastPlace

variable {s t u : State} {ix page slot cls : Nat} {r : Region} {v : Slot} {w : Sweep} {m m1 : MemIn}

/-! ### Reads that a sweep paces -/

theorem payShelve_eq (s : State) (on : Bool) (l : List Nat) : ∃ d, payShelve s on l = { s with ime := { s.ime with shelveDebt := d } } := by
  unfold payShelve
  split <;> exact ⟨_, rfl⟩

theorem shelveReads_eq (s : State) (l : List Nat) (cls : Nat) (paced : Bool) :
    ∃ q o d, shelveReads s l cls paced = { s with qos := q, out := o, ime := { s.ime with shelveDebt := d } } := by
  obtain ⟨q, o, h⟩ := ownReads_eq s l cls
  obtain ⟨d, hd⟩ := payShelve_eq { s with qos := q, out := o } paced l
  exact ⟨q, o, d, by rw [shelveReads, h, hd]⟩

theorem own_payShelve (s : State) (on : Bool) (l : List Nat) : Own s (payShelve s on l) := by
  obtain ⟨d, h⟩ := payShelve_eq s on l
  rw [h]
  exact Worked.own rfl rfl

theorem own_shelveReads (s : State) (l : List Nat) (cls : Nat) (paced : Bool) : Own s (shelveReads s l cls paced) :=
  (own_ownReads ..).trans (own_payShelve ..)

/-! ### A page re-encrypted (04 R132, R133) -/

/-- The counter line of a page as it is set, whatever the counter cache does with it. -/
theorem ctrOf_arrived {c : CtrLine} (h : Arrived (setCtr s ix page c) t) (r : Region) : ctrOf t ix r page = c := by
  have hc : t.ime.ctr = (setCtr s ix page c).ime.ctr := by rw [h]
  simp [ctrOf, hc, setCtr, dget]

theorem ctrOf_dirtyCtr (s : State) (ix : Nat) (r : Region) (page : Nat) (c : CtrLine) : ctrOf (dirtyCtr s ix r page c) ix r page = c :=
  ctrOf_arrived (treeStep_touchTree ..).arrived r

/-- The counter line that a page has once it is re-encrypted: the first count of its generation where the half changes, the same and ended at the last
major count, the next major count else. -/
def nextCtr (s : State) (ix : Nat) (r : Region) (page : Nat) (v : Slot) : CtrLine :=
  if (ctrOf s ix r page).parity ≠ decide (curHalf v = 1) then { major := regionGen s r * 2 ^ 32, minors := [], parity := decide (curHalf v = 1), ended := false }
  else if (ctrOf s ix r page).major % 2 ^ 32 = 0xFFFFFFFF then { ctrOf s ix r page with ended := true }
  else { major := (ctrOf s ix r page).major + 1, minors := [], parity := decide (curHalf v = 1), ended := false }

/-- A page re-encrypted, or at its last major count ended, has its next counter line. -/
theorem ctrOf_reencrypt {paced : Bool} {failed : List Nat} (h : reencrypt s ix r page slot v cls paced m = (some failed, t, m1)) :
    ctrOf t ix r page = nextCtr s ix r page v := by
  have hbeq : (curHalf v == 1) = decide (curHalf v = 1) := rfl
  unfold reencrypt at h
  extract_lets c half change major first all y src at h
  split at h
  · next hlast =>
    obtain ⟨hsame, hfull⟩ := hlast
    obtain rfl : dirtyCtr s ix r page { c with ended := true } = t := congrArg (fun x => x.2.1) h
    have hpar : (ctrOf s ix r page).parity = decide (curHalf v = 1) := by simpa [change, c, half, hbeq] using hsame
    rw [ctrOf_dirtyCtr, nextCtr, if_neg (not_not.mpr hpar), if_pos hfull]
  · next hnext =>
    generalize readPage s ix r slot c first 64 0 m = x at h
    obtain ⟨ls, rest⟩ := x
    generalize passLines y all (pageHandles y ix r slot (b2n c.parity) half) = x at h
    obtain ⟨ok, y⟩ := x
    cases ok with
    | false => cases h
    | true =>
      simp only [Bool.not_true, Bool.false_eq_true, if_false] at h
      generalize ls.foldl (rewriteLine ix r slot half major first cls) (y, []) = x at h
      obtain ⟨z, f⟩ := x
      dsimp only at h
      generalize countBlocks (payShelve z paced (all.filter fun l => !f.contains l)) slot half r.volume (4 * (64 - f.length)) = z at h
      have ht := congrArg (fun x => x.2.1) h
      dsimp only at ht
      have hwrite : Arrived (setCtr z ix page { major := major, minors := [], parity := half == 1, ended := false }) t := by
        have hctr := ((treeStep_touchTree (setCtr z ix page { major := major, minors := [], parity := half == 1, ended := false }) (ix, 0, page)).trans
          (treeStep_writeCtr _ ix r page cls)).arrived
        rw [← ht]
        split
        · exact hctr.trans (recorded_record ..).arrived
        · exact hctr
      rw [ctrOf_arrived hwrite, nextCtr]
      by_cases hpar : (ctrOf s ix r page).parity = decide (curHalf v = 1)
      · have hchange : change = false := by simpa [change, c, half, hbeq] using hpar
        have hmajor : ¬(ctrOf s ix r page).major % 2 ^ 32 = 0xFFFFFFFF := fun hfull => hnext ⟨by simp [hchange], hfull⟩
        rw [if_neg (not_not.mpr hpar), if_neg hmajor]
        simp [major, hchange, half, hbeq, c]
      · have hchange : change = true := by simpa [change, c, half, hbeq] using hpar
        rw [if_pos hpar]
        simp [major, hchange, half, hbeq]

/-- Where no lane is about to fail its compare, a page is re-encrypted (01 R23). -/
theorem reencrypt_clear (ix : Nat) (r : Region) (page slot : Nat) (v : Slot) (cls : Nat) (paced : Bool) (m : MemIn) (hf : s.lane.flaw = []) :
    ∃ failed t m', reencrypt s ix r page slot v cls paced m = (some failed, t, m') := by
  obtain ⟨q, o, d, hread⟩ := shelveReads_eq s (pageReads s (r.base / 64 + 64 * page)) cls paced
  have hclear : (shelveReads s (pageReads s (r.base / 64 + 64 * page)) cls paced).lane.flaw = [] := by rw [hread]; exact hf
  unfold reencrypt
  extract_lets c half change major first all t src
  split
  · exact ⟨_, _, _, rfl⟩
  · generalize readPage s ix r slot c first 64 0 m = x
    obtain ⟨ls, rest⟩ := x
    obtain ⟨k, b, hpass⟩ := passLines_clear t all (pageHandles t ix r slot (b2n c.parity) half) hclear
    rw [hpass]
    exact ⟨_, _, _, rfl⟩

section
variable (hr : anyRegion s ix = some r) (hheld : s.ime.pageHeld.contains (ix, page) = true) (hdown : coreDown s = false)
  (hbusy : pageBusy s ix r page = false) (hstop : pageStopped s (r.base / 64 + 64 * page) = false) (hslot : regionSlot s ix r = some slot)
  (hv : slotAt s slot = some v) (hk : (halfKey s slot (curHalf v)).isSome = true)
  (hcls : cls = ((s.ime.ents.find? fun e => e.phase == .pageHeld && e.region == ix && pageOf r e.line == page).map (·.cls)).getD 0)
include hr hheld hdown hbusy hstop hslot hv hk hcls

/-- A page whose counter line fails has its accesses fail (04 R131). -/
theorem pageReencrypt_failed {s1 : State} (hfetch : fetchPath s ix r page cls m = (false, s1, m1)) :
    pageReencrypt s ix page m = releasePage (failPage s1 ix r page) ix page := by
  subst hcls
  have hnone : (halfKey s slot (curHalf v)).isNone = false := by simpa using hk
  have hmem : (ix, page) ∈ s.ime.pageHeld := by simpa using hheld
  simp [pageReencrypt, hr, hmem, hdown, hbusy, hstop, hslot, hv, hnone, hfetch]

/-- A page whose counter line verifies is re-encrypted, and its accesses go on (04 R132). -/
theorem pageReencrypt_done {s1 s2 : State} {m2 : MemIn} {failed : List Nat} (hfetch : fetchPath s ix r page cls m = (true, s1, m1))
    (hre : reencrypt s1 ix r page slot v cls false m1 = (some failed, s2, m2)) :
    pageReencrypt s ix page m = releasePage (markRenewed s2 ix r page) ix page := by
  subst hcls
  have hnone : (halfKey s slot (curHalf v)).isNone = false := by simpa using hk
  have hmem : (ix, page) ∈ s.ime.pageHeld := by simpa using hheld
  simp [pageReencrypt, hr, hmem, hdown, hbusy, hstop, hslot, hv, hnone, hfetch, hre]

end

/-! ### A sweep step (04 R139 to R141) -/

theorem pushPast_ctr (s : State) (e : MemEnt) : (pushPast s e).ime.ctr = s.ime.ctr := by
  unfold pushPast
  split <;> rfl

/-- What a sweep's step keeps: the place it has, and the entry it writes, ahead of which nothing waits. -/
theorem sweepKept_stays {e : MemEnt} (he : e ∈ t.ime.ents) : e ∈ (sweepKept t w ix).ime.ents := by
  unfold sweepKept sweepEntry
  split
  · exact he
  · split
    · exact he
    · split
      · split
        · exact he
        · exact catWrite_stays he
      · split
        · split
          · exact he
          · exact catWrite_stays he
        · exact he

theorem sweepEntry_frame (s : State) (ix : Nat) (r : Region) (hp : allPlaced s.ime.ents) (hc : Calm s) :
    allPlaced (sweepEntry s ix r).ime.ents ∧ Calm (sweepEntry s ix r) ∧ (sweepEntry s ix r).ime.sweeps = s.ime.sweeps := by
  unfold sweepEntry
  split
  · exact ⟨hp, ⟨hc.ingress, hc.credits, hc.dying⟩, rfl⟩
  · exact ⟨catWrite_placed hp, catWrite_calm hc, catWrite_sweeps ..⟩

/-- With nothing held and no region closing, nothing goes on once a sweep's place is kept. -/
theorem afterMem_sweepKept (hp : allPlaced t.ime.ents) (hc : Calm t) : afterMem (sweepKept t w ix) = sweepKept t w ix := by
  have hentry (u : State) (hu : allPlaced u.ime.ents) (hcu : Calm u) (r : Region) : allPlaced (sweepEntry u ix r).ime.ents ∧ Calm (sweepEntry u ix r) :=
    ⟨(sweepEntry_frame u ix r hu hcu).1, (sweepEntry_frame u ix r hu hcu).2.1⟩
  have hput (w' : Sweep) : Calm (putSweep t w') := ⟨hc.ingress, hc.credits, hc.dying⟩
  suffices h : allPlaced (sweepKept t w ix).ime.ents ∧ Calm (sweepKept t w ix) from afterMem_placed h.1 h.2
  unfold sweepKept
  split
  · exact ⟨hp, hc⟩
  · split
    · exact ⟨hp, hput _⟩
    · split
      · exact hentry (putSweep t _) hp (hput _) _
      · split
        · exact hentry (putSweep t _) hp (hput _) _
        · exact ⟨hp, hput _⟩

theorem mem_putSweep (s : State) (w : Sweep) : w ∈ (putSweep s w).ime.sweeps := List.mem_append_right _ (List.mem_singleton.mpr rfl)

/-- Between two entries of the catalogue a sweep's place is kept by the IME alone. -/
theorem sweepKept_between (hr : anyRegion t ix = some r) (hv : w.verifying = false) (hlt : w.ptr < r.size / 64) (hmod : w.ptr % 4096 ≠ 0) :
    sweepKept t w ix = putSweep t w := by
  simp only [sweepKept, hr, hv, Bool.false_eq_true, if_false, if_neg (Nat.not_le_of_lt hlt), if_neg hmod]

/-- Before the end of its region a sweep goes on from its place. -/
theorem sweepKept_goes (hr : anyRegion t ix = some r) (hv : w.verifying = false) (hlt : w.ptr < r.size / 64) : w ∈ (sweepKept t w ix).ime.sweeps := by
  by_cases hmod : w.ptr % 4096 = 0
  · have hkept : sweepKept t w ix = sweepEntry (putSweep t w) ix { r with sweepPtr := w.ptr } := by
      simp only [sweepKept, hr, hv, Bool.false_eq_true, if_false, if_neg (Nat.not_le_of_lt hlt), if_pos hmod]
    rw [hkept]
    unfold sweepEntry
    split
    · exact mem_putSweep ..
    · rw [catWrite_sweeps]
      exact mem_putSweep ..
  · rw [sweepKept_between hr hv hlt hmod]
    exact mem_putSweep ..

theorem lt_of_regionAt (h : regionAt s ix = some r) : ix < catEntries s ∧ r.state ≠ 0 := by
  unfold regionAt at h
  split at h
  · next hlt =>
    obtain ⟨-, hst⟩ := Option.filter_eq_some_iff.mp h
    exact ⟨hlt, by simpa using hst⟩
  · cases h

theorem regionAt_of_any (hix : ix ≠ catIx) (h : anyRegion s ix = some r) : regionAt s ix = some r := by simpa [anyRegion, hix] using h

/-- At the end of its region a sweep begins to verify (04 R142). -/
theorem sweepKept_ends (hr : anyRegion t ix = some r) (hv : w.verifying = false) (hend : r.size / 64 ≤ w.ptr) (hix : ix ≠ catIx)
    (hopen : catEnded t ix = false) :
    anyRegion (sweepKept t w ix) ix = some { r with state := 3, sweepPtr := w.ptr }
      ∧ { w with ptr := 0, verifying := true } ∈ (sweepKept t w ix).ime.sweeps := by
  have hkept : sweepKept t w ix = catWrite (putSweep t { w with ptr := 0, verifying := true }) ix { r with state := 3, sweepPtr := w.ptr } := by
    simp only [sweepKept, hr, hv, Bool.false_eq_true, if_false, if_pos hend, sweepEntry, if_neg hix]
  obtain ⟨hlt, -⟩ := lt_of_regionAt (regionAt_of_any hix hr)
  rw [hkept]
  constructor
  · rw [anyRegion, if_neg hix]
    exact catWrite_regionAt (r := { r with state := 3, sweepPtr := w.ptr }) hopen hlt (by simp)
  · rw [catWrite_sweeps]
    exact mem_putSweep ..

/-- Lines of no queued write are answered by memory. -/
theorem ownLine_memory {a : MemAnswer} {line : Nat} (he : s.ime.ents = []) (ha : m.lines.head? = some a) :
    ∃ m', ownLine s line m = (a, none, m') := by
  have hnone : lastWrite s line = none := by simp [lastWrite, he]
  cases hl : m.lines with
  | nil => simp [hl] at ha
  | cons b l =>
    obtain rfl : b = a := by simpa [hl] using ha
    exact ⟨{ m with lines := l }, by simp [ownLine, hnone, takeLine, hl]⟩

section
variable {a : MemAnswer} (hm : Safety.memIdle s) (ha : m.lines.head? = some a) (hpoison : a.poison = false) (hv : w.verifying = false)

/-- The line that a sweep of a P1 or P2 region reads. -/
theorem sweepReads_one (he : s.ime.ents = []) (l : Nat) : ([l].filter fun l => (lastWrite s l).isNone) = [l] := by simp [lastWrite, he]

include hm ha hpoison hv

/-- A line of the current half is skipped. -/
theorem sweepLine_current (hpar : storedParity a.data = decide (curHalf v = 1)) :
    ∃ m', sweepLine s w ix r slot v m =
      (shelveReads s [r.base / 64 + w.ptr] (shelveClass s) true, { w with skipped := w.skipped + 1, ptr := w.ptr + 1 }, m') := by
  obtain ⟨m', hline⟩ := ownLine_memory (line := r.base / 64 + w.ptr) hm.1 ha
  have hcur : (storedParity a.data == (curHalf v == 1)) = true := by rw [hpar]; exact beq_self_eq_true _
  refine ⟨m', ?_⟩
  simp only [sweepLine, hline, sweepReads_one hm.1, hv, hpoison, hcur, Bool.not_false, Bool.and_self, if_true]

/-- A line of the other half that opens is re-encrypted: the write waits at its port, and nothing else is changed but what own work changes. -/
theorem sweepLine_other {p : Line} {d : Stored} (hpar : storedParity a.data ≠ decide (curHalf v = 1)) (hf : s.lane.flaw = [])
    (hopen : ownOpen s ix r slot (r.base / 64 + w.ptr) (0, 0) a = .ok p)
    (hseal : sealLine s ix r slot (curHalf v) (r.base / 64 + w.ptr) 0 0 p = some d) :
    ∃ t e m', sweepLine s w ix r slot v m = (t, { w with ptr := w.ptr + 1 }, m') ∧ Own s t ∧ t.ime.ctr = s.ime.ctr ∧ e ∈ t.ime.ents
      ∧ e.line = r.base / 64 + w.ptr ∧ e.phase = .writeReady ∧ e.stored = d := by
  obtain ⟨m', hline⟩ := ownLine_memory (line := r.base / 64 + w.ptr) hm.1 ha
  have hbeq : (curHalf v == 1) = decide (curHalf v = 1) := rfl
  obtain ⟨q, o, debt, hread⟩ := shelveReads_eq s [r.base / 64 + w.ptr] (shelveClass s) true
  have hown := own_shelveReads s [r.base / 64 + w.ptr] (shelveClass s) true
  have hflaw : (shelveReads s [r.base / 64 + w.ptr] (shelveClass s) true).lane.flaw = [] := by rw [hread]; exact hf
  have hctr : (shelveReads s [r.base / 64 + w.ptr] (shelveClass s) true).ime.ctr = s.ime.ctr := by rw [hread]
  have hopens (k : List DkEntry) (b : Tbl (List DkEntry)) :
      ownOpen (keyed (shelveReads s [r.base / 64 + w.ptr] (shelveClass s) true) k b) ix r slot (r.base / 64 + w.ptr) (0, 0) a = .ok p := by
    rw [hread, ← hopen]
    rfl
  have hseals (k : List DkEntry) (b : Tbl (List DkEntry)) :
      sealLine (keyed (shelveReads s [r.base / 64 + w.ptr] (shelveClass s) true) k b) ix r slot (curHalf v) (r.base / 64 + w.ptr) 0 0 p = some d := by
    rw [hread, ← hseal]
    rfl
  generalize hu : shelveReads s [r.base / 64 + w.ptr] (shelveClass s) true = u at hown hflaw hctr hopens hseals
  obtain ⟨k, b, hpass⟩ := lanePass_clear u (memPort u (r.base / 64 + w.ptr)) (pageHandles u ix r slot (b2n (storedParity a.data)) (curHalf v)) none 0 hflaw
  have hkeyed : Own u (keyed u k b) := Worked.own rfl rfl
  let e : MemEnt := { newEnt (keyed u k b) .own .ownWrite (ownWho (r.base / 64 + w.ptr)) ix r (shelveClass s) none with
    stored := d, phase := .writeReady, answered := true, cutOk := true }
  have hpush : Own (keyed u k b) (pushPast (keyed u k b) e) := own_pushPast _ rfl
  obtain ⟨y, hcount⟩ := countBlocks_recorded (pushPast (keyed u k b) e) slot (curHalf v) r.volume 4
  have hall := ((hown.trans (hkeyed.trans hpush)).trans (own_countBlocks _ slot (curHalf v) r.volume 4)).trans
    (own_payShelve _ true [r.base / 64 + w.ptr])
  obtain ⟨debt', hpay⟩ := payShelve_eq (countBlocks (pushPast (keyed u k b) e) slot (curHalf v) r.volume 4) true [r.base / 64 + w.ptr]
  refine ⟨_, e, m', ?_, hall, ?_, ?_, ?_, rfl, rfl⟩
  · have hne : (storedParity a.data == (curHalf v == 1)) = false := by rw [hbeq]; exact beq_false_of_ne hpar
    simp only [sweepLine, hline, sweepReads_one hm.1, hu, hv, hpoison, hne, hpass, Bool.not_false, Bool.and_false, Bool.false_eq_true, if_false,
      Bool.not_true]
    rw [show ({ u with key := { u.key with dkc := k }, lane := { u.lane with ctx := b } } : State) = keyed u k b from rfl, hopens k b]
    dsimp only
    rw [if_neg (by rw [hbeq]; exact hpar), hseals k b]
  · rw [hpay, ← hctr]
    exact (congrArg Ime.ctr hcount.ime).trans (pushPast_ctr ..)
  · rw [hpay]
    exact (congrArg Ime.ents hcount.ime) ▸ mem_pushPast (keyed u k b) e
  · simp [e, newEnt, ownWho]
end

/-- A step that may be taken takes one line or page, and keeps its place. -/
theorem sweepStep_taken {w' : Sweep} (hr : anyRegion s ix = some r) (hw : sweepOf s ix r = some w) (hready : sweepReady s w r = true)
    (hone : sweepOne s w ix r m = (t, w', m1)) : sweepStep s ix m = afterMem (sweepKept t w' ix) := by
  simp [sweepStep, hr, hw, hready, hone]

theorem sweepOne_line (hslot : regionSlot s ix r = some slot) (hv : slotAt s slot = some v) (hmode : r.mode = 1 ∨ r.mode = 2) :
    sweepOne s w ix r m = sweepLine s w ix r slot v m := by
  have hne : r.mode ≠ 3 := by omega
  simp [sweepOne, hslot, hv, hne]

theorem sweepOne_page (hslot : regionSlot s ix r = some slot) (hv : slotAt s slot = some v) (hmode : r.mode = 3) :
    sweepOne s w ix r m = sweepPage s w ix r slot v m := by
  simp [sweepOne, hslot, hv, hmode]

/-- A page of a P3 region whose counter line verifies, at the current half and not due for renewal, is skipped. -/
theorem sweepPage_current {s1 : State} (hverify : w.verifying = false) (hfailed : w.failed = [])
    (hfetch : fetchPath s ix r (w.ptr / 64) (shelveClass s) m = (true, s1, m1))
    (hpar : (ctrOf s1 ix r (w.ptr / 64)).parity = decide (curHalf v = 1)) (hdue : renewDue s1 ix r (w.ptr / 64) = false) :
    sweepPage s w ix r slot v m = (s1, { w with skipped := w.skipped + 64, ptr := w.ptr + 64 }, m1) := by
  have hcur : ((ctrOf s1 ix r (w.ptr / 64)).parity == (curHalf v == 1)) = true := by rw [hpar]; exact beq_self_eq_true _
  simp [sweepPage, hverify, hfailed, hfetch, hcur, hdue]

/-- A catalogue's own renewal is in ANCHOR form. -/
theorem ne_catIx_of_mode (hr : anyRegion s ix = some r) (hmode : r.mode = 1 ∨ r.mode = 2) : ix ≠ catIx := by
  rintro rfl
  obtain rfl : catRegion s = r := by simpa [anyRegion] using hr
  simp [catRegion] at hmode

/-! ### The end of a verify pass (04 R134, R142) -/

/-- The state with other counter lines. -/
def withCtr (s : State) (l : Tbl (Tbl CtrLine)) : State := { s with ime := { s.ime with ctr := l } }

/-- Counter lines kept for a region are its own. -/
theorem keepBase_eq (s : State) (ix : Nat) (r : Region) :
    ∃ l, keepBase s ix r = withCtr s l ∧ ∀ j, j ≠ ix → dget [] l j = dget [] s.ime.ctr j := by
  unfold keepBase
  split
  · exact ⟨s.ime.ctr, rfl, fun _ _ => rfl⟩
  · generalize List.filter _ _ = pages
    suffices ∀ (l : List Nat) (c : Tbl (Tbl CtrLine)), (∀ j, j ≠ ix → dget [] c j = dget [] s.ime.ctr j) →
        ∃ c', l.foldl (fun t p => setCtr t ix p (ctrOf t ix r p)) (withCtr s c) = withCtr s c' ∧ ∀ j, j ≠ ix → dget [] c' j = dget [] s.ime.ctr j from
      this pages s.ime.ctr fun _ _ => rfl
    intro l
    induction l with
    | nil => exact fun c hc => ⟨c, rfl, hc⟩
    | cons p l ih =>
      intro c hc
      refine ih (tput c ix (tput (dget [] c ix) p (ctrOf (withCtr s c) ix r p))) fun j hj => ?_
      rw [← hc j hj, dget, tget_tput_other _ _ hj.symm]
      rfl

/-- The state in which the entry of a region whose verify pass is over is written. -/
def passOver (s : State) (ix : Nat) (l : Tbl (Tbl CtrLine)) : State :=
  { withCtr s l with ime := { (withCtr s l).ime with
      sweeps := s.ime.sweeps.filter fun x => x.region != ix
      renewed := s.ime.renewed.filter fun x => x.1 != ix } }

theorem catEnded_passOver {l : Tbl (Tbl CtrLine)} (hix : ix ≠ catIx) (hl : ∀ j, j ≠ ix → dget [] l j = dget [] s.ime.ctr j) (k : Nat) :
    catEnded (passOver s ix l) k = catEnded s k := by
  have hsame : ctrOf (passOver s ix l) catIx (catRegion (passOver s ix l)) (k / 64) = ctrOf s catIx (catRegion s) (k / 64) := by
    unfold ctrOf
    rw [show dget [] (passOver s ix l).ime.ctr catIx = dget [] s.ime.ctr catIx from hl catIx hix.symm]
    rfl
  simp only [catEnded, hsame]

/-- The entry of a region whose verify pass is over (04 R142). -/
def settledEntry (s : State) (ix : Nat) (r : Region) : Region :=
  { r with state := 1, renew := false, baseGen := (((regionSlot s ix r).bind (slotAt s)).map (·.genCur)).getD r.baseGen }

/-- A verify pass that reaches its end writes the region's entry. -/
theorem sweepVerifyDone_over {s1 : State} {w1 : Sweep} (hr : anyRegion s ix = some r) (hw : sweepOf s ix r = some w) (hv : w.verifying = true)
    (hrest : verifyRest ix r (r.size / 64) s w m = (s1, w1)) (hend : r.size / 64 ≤ w1.ptr) (hr1 : anyRegion s1 ix = some r) :
    ∃ l, sweepVerifyDone s ix m = afterMem (sweepEntry (passOver s1 ix l) ix (settledEntry s1 ix r))
      ∧ ∀ j, j ≠ ix → dget [] l j = dget [] s1.ime.ctr j := by
  obtain ⟨l, hkeep, hl⟩ := keepBase_eq s1 ix r
  have hover : sweepVerifyDone s ix m = afterMem (sweepEntry (passOver (if (settledEntry s1 ix r).baseGen = r.baseGen then s1 else keepBase s1 ix r) ix
      (if (settledEntry s1 ix r).baseGen = r.baseGen then s1 else keepBase s1 ix r).ime.ctr) ix (settledEntry s1 ix r)) := by
    unfold sweepVerifyDone
    simp only [hr, hw, hv, hrest, hr1, Nat.not_lt_of_le hend, Bool.not_true, Bool.false_eq_true, if_false, Option.getD_some]
    rfl
  by_cases hgen : (settledEntry s1 ix r).baseGen = r.baseGen
  · exact ⟨s1.ime.ctr, by rw [hover, if_pos hgen], fun _ _ => rfl⟩
  · refine ⟨l, ?_, hl⟩
    rw [hover, if_neg hgen, hkeep]
    rfl

/-- The region is SETTLED, and its sweep gone. -/
theorem sweepEntry_settles {l : Tbl (Tbl CtrLine)} (hr : anyRegion s ix = some r) (hl : ∀ j, j ≠ ix → dget [] l j = dget [] s.ime.ctr j)
    (hend : catEnded s ix = false) :
    (ix ≠ catIx → regionAt (sweepEntry (passOver s ix l) ix (settledEntry s ix r)) ix = some (settledEntry s ix r))
      ∧ (ix = catIx → (sweepEntry (passOver s ix l) ix (settledEntry s ix r)).ime.catSt = 1
        ∧ (sweepEntry (passOver s ix l) ix (settledEntry s ix r)).ime.catRenew = false) := by
  unfold sweepEntry
  constructor
  · intro hix
    obtain ⟨hlt, -⟩ := lt_of_regionAt (regionAt_of_any hix hr)
    rw [if_neg hix]
    exact catWrite_regionAt ((catEnded_passOver hix hl ix).trans hend) hlt (by simp [settledEntry])
  · intro hix
    rw [if_pos hix]
    exact ⟨rfl, rfl⟩

end Sys2Proof.Proofs.Sweeps

namespace Sys2Proof.Proofs
open Sys2Proof.Machine Lanes Memory OwnWork LastPlace Sweeps

/-- Settles O28: a page taken has its next counter line, and a sweep's step moves one line or page, its place kept by the IME or in the catalogue. -/
theorem pagesAndSweeps : Obligations.PagesAndSweeps := by
  unfold Obligations.PagesAndSweeps
  refine ⟨fun ix page slot cls r v m m1 s s1 hr hheld hdown hbusy hstop hslot hv hk hcls => ⟨fun hfetch => ?_, fun hfetch hf => ?_⟩,
    fun ix page slot cls paced r v m m1 failed s s1 h => ctrOf_reencrypt h,
    fun ix slot r v w a m s hr hw hwix hverify hready hmode hslot hv ha hpoison hm => ⟨fun hpar hlt hmod => ?_, fun p d hpar hf hend hopen hseal => ?_⟩,
    fun ix slot r v w m m1 s s1 hr hw hwix hverify hfailed hready hmode hslot hv hfetch hpar hdue hr1 hlt hmod => ?_, ?_⟩
  · exact congrArg Host.Outcome.next (pageReencrypt_failed hr hheld hdown hbusy hstop hslot hv hk hcls hfetch)
  · have hflaw : s1.lane.flaw = [] := by
      have h := (arrived_fetchPath s ix r page cls m).flaw
      rw [hfetch] at h
      exact h.trans hf
    obtain ⟨failed, s2, m2, hre⟩ := reencrypt_clear ix r page slot v cls false m1 hflaw
    exact ⟨failed, s2, m2, hre, congrArg Host.Outcome.next (pageReencrypt_done hr hheld hdown hbusy hstop hslot hv hk hcls hfetch hre)⟩
  · obtain ⟨m', hline⟩ := sweepLine_current (ix := ix) (r := r) (slot := slot) hm ha hpoison hverify hpar
    have hown := own_shelveReads s [r.base / 64 + w.ptr] (shelveClass s) true
    have hplaced : allPlaced (shelveReads s [r.base / 64 + w.ptr] (shelveClass s) true).ime.ents := hown.placed (hm.1 ▸ allPlaced_nil)
    have hcalm : Calm (shelveReads s [r.base / 64 + w.ptr] (shelveClass s) true) := hown.calm ⟨hm.2.1, hm.2.2.2, hm.2.2.1⟩
    refine congrArg Host.Outcome.next ((sweepStep_taken hr hw hready ((sweepOne_line hslot hv hmode).trans hline)).trans ?_)
    exact (afterMem_sweepKept hplaced hcalm).trans
      (sweepKept_between (w := { w with skipped := w.skipped + 1, ptr := w.ptr + 1 }) ((hown.anyRegion ix).trans hr) hverify hlt hmod)
  · obtain ⟨t, e, m', hline, hown, hctr, he, heline, hephase, hestored⟩ := sweepLine_other hm ha hpoison hverify hpar hf hopen hseal
    have hix := ne_catIx_of_mode hr hmode
    have hreg : anyRegion t ix = some r := (hown.anyRegion ix).trans hr
    have hstep := (sweepStep_taken hr hw hready ((sweepOne_line hslot hv hmode).trans hline)).trans
      (afterMem_sweepKept (hown.placed (hm.1 ▸ allPlaced_nil)) (hown.calm ⟨hm.2.1, hm.2.2.2, hm.2.2.1⟩))
    exact ⟨_, e, congrArg Host.Outcome.next hstep, sweepKept_stays he, heline, hephase, hestored,
      fun hlt => sweepKept_goes (w := { w with ptr := w.ptr + 1 }) hreg hverify hlt,
      fun hle => sweepKept_ends (w := { w with ptr := w.ptr + 1 }) hreg hverify hle hix ((hown.catEnded hctr ix).trans hend)⟩
  · refine congrArg Host.Outcome.next ((sweepStep_taken hr hw hready ((sweepOne_page hslot hv hmode).trans
      (sweepPage_current hverify hfailed hfetch hpar hdue))).trans ?_)
    exact congrArg afterMem (sweepKept_between (w := { w with skipped := w.skipped + 64, ptr := w.ptr + 64 }) hr1 hverify hlt hmod)
  · intro ix r w w1 m s s1 hr hw hverify hrest hend hr1 hopen hing hcred hdying hents
    obtain ⟨l, hover, hl⟩ := sweepVerifyDone_over hr hw hverify hrest hend hr1
    obtain ⟨hsettled, hcat⟩ := sweepEntry_settles hr1 hl hopen
    have hplaced : allPlaced (passOver s1 ix l).ime.ents := fun e he => by rcases hents e he with h | h <;> simp [h, holdPhase]
    obtain ⟨hp, hc, hsweeps⟩ := sweepEntry_frame (passOver s1 ix l) ix (settledEntry s1 ix r) hplaced ⟨hing, hcred, hdying⟩
    refine ⟨_, congrArg Host.Outcome.next (hover.trans (afterMem_placed hp hc)), hsettled, hcat, fun x hx => ?_⟩
    rw [hsweeps] at hx
    simpa using (List.mem_filter.mp hx).2

end Sys2Proof.Proofs

/-! Requests at FABPORT that pass their checks: what waits for MEMPORT, and what is answered (04 R108, R109, R137, R145). -/
namespace Sys2Proof.Proofs.Accepting
open Sys2Proof.Machine Lanes Memory OwnWork

variable {s s1 t u : State} {q : FabReq} {k : MemKind} {ix slot : Nat} {r : Region} {v : Slot} {m m1 : MemIn} {e : MemEnt} {w : Who} {cls : Nat}

/-! ### The region that a request's checks give (04 Table 4-6) -/

theorem regionIx_lt (shelf : Nat) : regionIx shelf < catIx := by
  have hten : shTenant shelf < 512 := Nat.mod_lt _ (by decide)
  have hfol : shFolio shelf < 4096 := Nat.mod_lt _ (by decide)
  unfold regionIx catIx
  omega

theorem mStepsBy_region {acc : Acc} (h : mStepsBy acc s w k = .ok (ix, r)) : ix = regionIx w.shelf ∧ regionAt s ix = some r := by
  unfold mStepsBy at h
  grind

theorem memChecksBy_region {acc : Acc} (h : memChecksBy acc s w k = .ok (ix, r)) : ix = regionIx w.shelf ∧ regionAt s ix = some r := by
  unfold memChecksBy at h
  cases hsteps : mStepsBy acc s w k with
  | error c => simp [hsteps] at h
  | ok x =>
    obtain ⟨ix', r'⟩ := x
    have hsame : ix' = ix ∧ r' = r := by
      simp only [hsteps] at h
      grind
    obtain ⟨rfl, rfl⟩ := hsame
    exact mStepsBy_region hsteps

/-- A request that passes is for the live region that its shelfmark names. -/
theorem memGate_region (h : memGate s w k cls m = (.ok (ix, r), s1, m1)) : ix ≠ catIx ∧ regionAt s1 ix = some r := by
  have hchecks : memChecksBy .live s1 w k = .ok (ix, r) := by
    unfold memGate memGateBy at h
    grind
  obtain ⟨hix, hr⟩ := memChecksBy_region hchecks
  exact ⟨hix ▸ Nat.ne_of_lt (regionIx_lt w.shelf), hr⟩

/-! ### A request that passes its port's gates -/

theorem blkLines_le (shape : Nat) {n : Nat} (hn : n ≤ 16) : blkLines shape n ≤ 16 := by
  unfold blkLines
  split
  · exact Nat.le_refl 16
  · split
    · split
      · decide
      · split
        · decide
        · split <;> decide
    · exact hn

/-- An empty queue has room for the lines of any block. -/
theorem roomFor_empty {port n cap : Nat} {cost : MemKind → Nat} (he : s.ime.ents = []) (hn : n ≤ 16) (hcap : 128 ≤ cap) :
    roomFor s port cls n cap cost = true := by
  have hshare : 16 ≤ classShare s cap := by
    unfold classShare
    dsimp only
    split
    · omega
    · have hpos : 1 ≤ bits s.qos.ctrl.toNat 5 3 := Nat.pos_of_ne_zero ‹_›
      have hmul : cap * 1 ≤ cap * bits s.qos.ctrl.toNat 5 3 := Nat.mul_le_mul_left cap hpos
      omega
  simp [roomFor, entsHeld, he]
  omega

theorem portRoom_empty {port reads writes : Nat} (he : s.ime.ents = []) (hr : reads ≤ 16) (hw : writes ≤ 16) :
    portRoom s port cls reads writes = true := by
  simp [portRoom, roomFor_empty he hr, roomFor_empty he hw]

/-- The alignment of an opcode's address. -/
def alignOf (k : MemKind) : Nat := if k = .cread ∨ k = .cwrite then 1024 else 64

/-- A request whose checks pass becomes its entries, and what they let go on goes on. -/
theorem fabMem_passes (hq : Safety.fabPasses s q (alignOf k)) (hgate : memGate s (whoOf s q) k q.cls.toNat m = (.ok (ix, r), s1, m1))
    (hsnap : snapState r = 0) (hhead : k = .cwrite → bits (q.data.headD 0#576).toNat 0 4 = q.count.toNat) :
    fabMem s q k m = settle (fabEntries s1 (.fab q.ch q.tag q.epoch) k (whoOf s q) ix r q.cls.toNat (deadlineOf s q.budget) (q.count.toNat + 1) q.mask q.data m1) := by
  obtain ⟨hopen, hfab, hstop, hlanes, hents⟩ := hq
  have hfab' : fabGate s q (whoOf s q) (decide ((whoOf s q).addr % (if (k == .cread || k == .cwrite) = true then 1024 else 64) = 0)) = none := by
    have halign : (if (k == .cread || k == .cwrite) = true then 1024 else 64) = alignOf k := by simp [alignOf]
    rw [halign]
    exact hfab
  have hcount : q.count.toNat + 1 ≤ 16 := q.count.isLt
  have hroom (shape : Nat) : portRoom s (memPort s ((whoOf s q).addr / 64)) q.cls.toNat
      (if k = .cread then blkLines shape (q.count.toNat + 1) else readCost k) (if k = .cwrite then blkLines shape (q.count.toNat + 1) else writeCost k) = true := by
    have hblk := blkLines_le shape hcount
    refine portRoom_empty hents ?_ ?_
    · split
      · exact hblk
      · cases k <;> simp [readCost]
    · split
      · exact hblk
      · cases k <;> simp [writeCost]
  have hhead' : ¬(k = .cwrite ∧ bits (q.data.headD 0#576).toNat 0 4 + 1 ≠ q.count.toNat + 1) := fun ⟨hk, hne⟩ => hne (by rw [hhead hk])
  have hstop' : portStopped s (memPort s ((whoOf s q).addr / 64)) = false := hstop
  have hlanes' : noLanes s (memPort s ((whoOf s q).addr / 64)) = false := hlanes
  have hhold : holdFull s1 (.fab q.ch q.tag q.epoch) k (whoOf s q) ix r (memPort s ((whoOf s q).addr / 64)) = false := by
    simp [holdFull, cutVerdict, behindHeld, hsnap]
  have hdeadline : deadlineOf s1 q.budget = deadlineOf s q.budget := by
    unfold deadlineOf
    rw [((own_memGate ..).of_eq hgate).tm]
  unfold fabMem
  simp only [hopen, hfab', hstop', hlanes', hroom, hgate, if_neg hhead', hhold, hdeadline, Bool.not_true, Bool.false_eq_true, if_false]

/-! ### An operation that nothing holds (04 R108; 03 R86; 08 R261) -/

/-- A new operation from FABPORT whose keys are at hand and that no earlier operation on its line, resident line, page or cut holds. -/
structure Clear (s : State) (e : MemEnt) : Prop where
  fresh : ∀ x ∈ s.ime.ents, x.seq ≠ e.seq
  waits : e.phase = .lineWait
  source : isRemote e = false
  keys : keyGone s e = false
  cached : ∀ h ∈ entHandles s e, dkcHas s h = true
  uncut : snapState (entRegion s e) = 0
  line : ∀ x ∈ s.ime.ents, x.line ≠ e.line
  resident : s.ile.resident = []
  page : s.ime.pageHeld = []

theorem setEnt_pushEnt {e' : MemEnt} (h : ∀ x ∈ s.ime.ents, x.seq ≠ e.seq) (hseq : e'.seq = e.seq) : setEnt (pushEnt s e) e' = pushEnt s e' := by
  have hmap : (s.ime.ents ++ [e]).map (fun x => if x.seq = e'.seq then e' else x) = s.ime.ents ++ [e'] := by
    rw [List.map_append]
    congr 1
    · refine (List.map_congr_left fun x hx => if_neg ?_).trans (List.map_id _)
      rw [hseq]
      exact h x hx
    · simp [hseq]
  simp [setEnt, pushEnt, hmap]

/-- An operation as its own line's first goes on. -/
theorem earlierOnLine_pushEnt {e' : MemEnt} (h : ∀ x ∈ s.ime.ents, x.line ≠ e.line) (hline : e'.line = e.line) (hseq : e'.seq = e.seq)
    (hx : ∀ x ∈ s.ime.ents, x.seq ≠ e.seq) : earlierOnLine (pushEnt s e) e' = [] := by
  have htake : (s.ime.ents ++ [e]).takeWhile (fun x => x.seq != e'.seq) = s.ime.ents := by
    rw [List.takeWhile_append_of_pos fun x hm => by simpa [hseq] using hx x hm]
    simp [hseq]
  refine List.filter_eq_nil_iff.mpr fun x hm => ?_
  rw [show (pushEnt s e).ime.ents = s.ime.ents ++ [e] from rfl, htake] at hm
  simpa [hline] using h x hm

/-- The operation once it is past its holds. -/
def passed (e : MemEnt) : MemEnt := { e with cutOk := true }

/-- An operation that nothing holds takes its place as it is accepted. -/
theorem accept_clear (h : Clear s e) (hhead : headPending s e = false) : accept s e = place (pushEnt s (passed e)) (passed e) := by
  obtain ⟨hfresh, hwaits, hsource, hkeys, hcached, huncut, hline, hres, hpage⟩ := h
  have hat : entAt (pushEnt s e) e.seq = some e := by
    have hnone : s.ime.ents.find? (fun x => x.seq == e.seq) = none := List.find?_eq_none.mpr fun x hx => by simpa using hfresh x hx
    simp [entAt, pushEnt, List.find?_append, hnone]
  have hkeys' : keyGone (pushEnt s e) e = false := hkeys
  have hmiss : ((entHandles (pushEnt s e) e).filter fun h => !dkcHas (pushEnt s e) h) = [] :=
    List.filter_eq_nil_iff.mpr fun k hk => by
      rw [show dkcHas (pushEnt s e) k = true from hcached k hk]
      decide
  have hpass : passHeld (pushEnt s e) e (entRegion (pushEnt s e) e) = pushEnt s e := by simp [passHeld, hsource]
  have huncut' : snapState (entRegion (pushEnt s e) e) = 0 := huncut
  have hcut : cutVerdict (pushEnt s e) e (entRegion (pushEnt s e) e) = 0 := by simp [cutVerdict, huncut']
  have hbehind : behindHeld (pushEnt s e) e (entRegion (pushEnt s e) e) = false := by simp [behindHeld, huncut']
  have hblocked (x e' : MemEnt) (hx : x.line = e.line ∧ x.seq = e.seq) (he' : e'.line = e.line ∧ e'.seq = e.seq) : lineBlocked (pushEnt s x) e' = false := by
    rw [lineBlocked, earlierOnLine_pushEnt (by rwa [hx.1]) (he'.1.trans hx.1.symm) (he'.2.trans hx.2.symm) (by rwa [hx.2])]
    rfl
  have hhead' : headPending (pushEnt s e) e = false := hhead
  have hres' : residentAt (pushEnt s e) e.line = none := by
    rw [residentAt, show (pushEnt s e).ile.resident = [] from hres]
    rfl
  have hset : setEnt (pushEnt s e) (passed e) = pushEnt s (passed e) := setEnt_pushEnt hfresh rfl
  have hpage' : (pushEnt s (passed e)).ime.pageHeld.contains (e.region, pageOf (entRegion (pushEnt s e) e) e.line) = false := by
    rw [show (pushEnt s (passed e)).ime.pageHeld = [] from hpage]
    rfl
  have hb0 := hblocked e e ⟨rfl, rfl⟩ ⟨rfl, rfl⟩
  have hb1 := hblocked (passed e) (passed e) ⟨rfl, rfl⟩ ⟨rfl, rfl⟩
  have hopen : ¬e.phase = .openWait := by simp [hwaits]
  have hhold : holdPhase e.phase = true := by simp [hwaits, holdPhase]
  rw [accept, advance, hat]
  simp only [if_neg hopen, hhold, hkeys', hmiss, hpass, hcut, hbehind, hb0, hhead', hres', Bool.not_true, Bool.false_eq_true, if_false, List.isEmpty_nil,
    Nat.zero_ne_one, Bool.or_self, Nat.reduceBEq, Bool.false_and, OfNat.zero_ne_ofNat]
  change (if (entRegion (pushEnt s e) e).mode = 3
      ∧ (setEnt (pushEnt s e) (passed e)).ime.pageHeld.contains (e.region, pageOf (entRegion (pushEnt s e) e) e.line) = true
    then waitIn (setEnt (pushEnt s e) (passed e)) (passed e) (entRegion (pushEnt s e) e) .pageHeld
    else if lineBlocked (setEnt (pushEnt s e) (passed e)) (passed e) = true
      then waitIn (setEnt (pushEnt s e) (passed e)) (passed e) (entRegion (pushEnt s e) e) .lineWait
      else place (setEnt (pushEnt s e) (passed e)) (passed e)) = _
  rw [hset, hpage', hb1, if_neg (by simp), if_neg (by simp)]

/-- A line of a CWRITE whose header line is not checked waits as it is (04 R137). -/
theorem advance_headPending (hat : entAt s e.seq = some e) (huniq : ∀ x ∈ s.ime.ents, x.seq = e.seq → x = e) (hwaits : e.phase = .lineWait)
    (hsource : isRemote e = false) (hkeys : keyGone s e = false) (hcached : ∀ h ∈ entHandles s e, dkcHas s h = true)
    (huncut : snapState (entRegion s e) = 0) (hhead : headPending s e = true) : advance s e.seq = s := by
  have hmiss : ((entHandles s e).filter fun h => !dkcHas s h) = [] := List.filter_eq_nil_iff.mpr fun k hk => by simp [hcached k hk]
  have hpass : passHeld s e (entRegion s e) = s := by simp [passHeld, hsource]
  have hcut : cutVerdict s e (entRegion s e) = 0 := by simp [cutVerdict, huncut]
  have hbehind : behindHeld s e (entRegion s e) = false := by simp [behindHeld, huncut]
  have hopen : ¬e.phase = .openWait := by simp [hwaits]
  have hhold : holdPhase e.phase = true := by simp [hwaits, holdPhase]
  have hkind : e.kind = .cwrite := by
    simp only [headPending, Bool.and_eq_true, beq_iff_eq] at hhead
    exact hhead.1
  have hsame : setEnt s { e with phase := .lineWait } = s := by
    have hself : { e with phase := .lineWait } = e := by rw [← hwaits]
    have hmap : s.ime.ents.map (fun x => if x.seq = e.seq then e else x) = s.ime.ents :=
      (List.map_congr_left fun x hx => by
        split
        · next h => exact (huniq x hx h).symm
        · rfl).trans (List.map_id _)
    rw [hself]
    simp [setEnt, hmap]
  have hwait : waitIn s e (entRegion s e) .lineWait = s := by
    have hnow : answerNow s e (entRegion s e) = (s, e) := by simp [answerNow, hkind]
    rw [waitIn, hnow]
    exact hsame
  rw [advance, hat]
  simp only [if_neg hopen, hhold, hkeys, hmiss, hpass, hcut, hbehind, hhead, hwait, Bool.not_true, Bool.false_eq_true, if_false, List.isEmpty_nil,
    Nat.zero_ne_one, Bool.or_true, Bool.false_or, Nat.reduceBEq, Bool.false_and, OfNat.zero_ne_ofNat, if_true]

/-! ### An operation of a region whose keys are at hand (03 K7) -/

/-- A live region whose working keys are at hand or not needed, no snapshot on it. -/
structure Serves (s : State) (ix : Nat) (r : Region) (k : MemKind) : Prop where
  ne : ix ≠ catIx
  live : regionAt s ix = some r
  keys : isRaw k = true ∨ Safety.keysReady s ix r
  uncut : snapState r = 0

/-- An operation as a request of a region makes it, under the generation of now. -/
structure Requested (s : State) (ix : Nat) (r : Region) (e : MemEnt) : Prop where
  region : e.region = ix
  reg : e.reg = r
  gen : e.gen = regionGenCur s ix r
  waits : e.phase = .lineWait
  source : isRemote e = false

theorem Serves.entRegion (h : Serves s ix r k) (he : Requested s ix r e) : entRegion s e = r := by
  simp [Machine.entRegion, anyRegion, he.region, he.reg, h.ne, h.live]

/-- Outside P0 the region's slot is filled, and the operation resolves its current half (03 R93). -/
theorem liveHalf_requested (hslot : regionSlot s ix r = some slot) (hv : slotAt s slot = some v) (he : Requested s ix r e) :
    liveHalf s slot e.gen = some (curHalf v) := by
  have hgen : e.gen = v.genCur := by simp [he.gen, regionGenCur, hslot, hv]
  simp [liveHalf, hv, hgen]

theorem entHandles_requested (h : Serves s ix r k) (he : Requested s ix r e) (hraw : isRaw e.kind = false) (hslot : regionSlot s ix r = some slot)
    (hv : slotAt s slot = some v) : entHandles s e = lineHandles s ix r slot (curHalf v) := by
  simp [entHandles, h.entRegion he, he.region, hraw, h.ne, hslot, liveHalf_requested hslot hv he]

theorem lineHandles_ne_nil (s : State) (ix : Nat) (r : Region) (slot half : Nat) (hmode : r.mode ≠ 0) : lineHandles s ix r slot half ≠ [] := by
  unfold lineHandles
  rw [if_neg hmode]
  split
  · simp
  · split <;> simp

/-- The keys of such an operation are there, and none is missing from the cache. -/
theorem Serves.keysThere (h : Serves s ix r k) (he : Requested s ix r e) (hk : isRaw e.kind = isRaw k) :
    keyGone s e = false ∧ ∀ x ∈ entHandles s e, dkcHas s x = true := by
  rcases hraw : isRaw k with _ | _
  · have hkind : isRaw e.kind = false := hk.trans hraw
    rcases h.keys.resolve_left (by simp [hraw]) with hmode | ⟨slot, v, hslot, hv, hall⟩
    · have hnone : ∀ x ∈ entHandles s e, dkcHas s x = true := by
        unfold entHandles
        dsimp only
        rw [h.entRegion he, he.region]
        split
        · simp
        · split
          · next slot _ => cases liveHalf s slot e.gen <;> simp [lineHandles, hmode]
          · simp
      exact ⟨by simp [keyGone, h.entRegion he, hmode], hnone⟩
    · have hhandles := entHandles_requested h he hkind hslot hv
      refine ⟨?_, fun x hx => (hall x (hhandles ▸ hx)).2⟩
      by_cases hmode : r.mode = 0
      · simp [keyGone, h.entRegion he, hmode]
      · have hany : ((lineHandles s ix r slot (curHalf v)).any fun x => (derive s x).isNone) = false :=
          List.any_eq_false.mpr fun x hx => by simp [Option.isSome_iff_ne_none.mp (hall x hx).1]
        have hne : (lineHandles s ix r slot (curHalf v)).isEmpty = false := by simpa using lineHandles_ne_nil s ix r slot (curHalf v) hmode
        simp [keyGone, hhandles, hany, hne]
  · have hkind : isRaw e.kind = true := hk.trans hraw
    exact ⟨by simp [keyGone, hkind], by simp [entHandles, hkind]⟩

/-- Such an operation, first on its line in a quiet engine, is held by nothing. -/
theorem Serves.clear (h : Serves s ix r k) (he : Requested s ix r e) (hk : isRaw e.kind = isRaw k) (hfresh : ∀ x ∈ s.ime.ents, x.seq ≠ e.seq)
    (hline : ∀ x ∈ s.ime.ents, x.line ≠ e.line) (hres : s.ile.resident = []) (hpage : s.ime.pageHeld = []) : Clear s e := by
  obtain ⟨hgone, hcached⟩ := h.keysThere he hk
  exact ⟨hfresh, he.waits, he.source, hgone, hcached, (h.entRegion he).symm ▸ h.uncut, hline, hres, hpage⟩

/-! ### Reads (04 R108, R126) -/

/-- The kinds whose line is read first. -/
def readsFirst : MemKind → Bool
  | .read | .partial_ | .rawRead | .cread | .cwHead => true
  | _ => false

/-- An operation ready for MEMPORT under the counters of now. -/
def readied (s : State) (e : MemEnt) : MemEnt :=
  { passed e with phase := .ready, major := (ctrNow s e.region (entRegion s e) e.line).1, minor := (ctrNow s e.region (entRegion s e) e.line).2 }

/-- An operation that reads its line is ready for MEMPORT as it is accepted. -/
theorem accept_reads (h : Clear s e) (hk : readsFirst e.kind = true) : accept s e = pushEnt s (readied s e) := by
  have hhead : headPending s e = false := by
    cases hkind : e.kind <;> simp_all [headPending, readsFirst]
  have hplace : place (pushEnt s (passed e)) (passed e) = readPlace (pushEnt s (passed e)) (passed e) := by
    have hkind : (passed e).kind = e.kind := rfl
    unfold place
    rw [hkind]
    cases hk' : e.kind <;> simp_all [readsFirst]
  have hnone : queuedWrite (pushEnt s (passed e)) (passed e) = none := by
    rw [queuedWrite, earlierOnLine_pushEnt (e := passed e) (e' := passed e) h.line rfl rfl h.fresh]
    rfl
  rw [accept_clear h hhead, hplace, readPlace, hnone]
  exact setEnt_pushEnt h.fresh rfl

/-- A request's single operation. -/
def lineEnt (s : State) (q : FabReq) (k : MemKind) (w : Who) (ix : Nat) (r : Region) (deadline : Option Nat) (m : MemIn) : MemEnt :=
  { newEnt s (.fab q.ch q.tag q.epoch) k w ix r q.cls.toNat deadline with
    port := memPort s (w.addr / 64), plain := storedData (q.data.headD 0#576), mask := q.mask, stored := q.data.headD 0#576, answers := m.lines }

theorem fabEntries_line (hk : ¬(k = .cread ∨ k = .cwrite)) (w : Who) (deadline : Option Nat) (n : Nat) (m : MemIn) :
    fabEntries s (.fab q.ch q.tag q.epoch) k w ix r q.cls.toNat deadline n q.mask q.data m = accept s (lineEnt s q k w ix r deadline m) := by
  unfold fabEntries
  rw [if_neg hk]
  rfl

theorem requested_lineEnt (s : State) (q : FabReq) (k : MemKind) (w : Who) (ix : Nat) (r : Region) (deadline : Option Nat) (m : MemIn) :
    Requested s ix r (lineEnt s q k w ix r deadline m) := ⟨rfl, rfl, rfl, rfl, rfl⟩

/-- A request of one line that passes its checks is held by nothing in a quiet engine. -/
theorem clear_lineEnt (h : Serves s ix r k) (hq : Safety.imeQuiet s) (w : Who) (deadline : Option Nat) (m : MemIn) :
    Clear s (lineEnt s q k w ix r deadline m) := by
  obtain ⟨hents, -, hres, hpage⟩ := hq
  exact h.clear (requested_lineEnt ..) rfl (by simp [hents]) (by simp [hents]) hres hpage

/-- A request of one line that passes its checks is accepted alone. -/
theorem fabMem_line (hk : ¬(k = .cread ∨ k = .cwrite)) (hq : Safety.fabPasses s q 64)
    (hgate : memGate s (whoOf s q) k q.cls.toNat m = (.ok (ix, r), s1, m1)) (hsnap : snapState r = 0) :
    fabMem s q k m = settle (accept s1 (lineEnt s1 q k (whoOf s q) ix r (deadlineOf s q.budget) m1)) := by
  have halign : alignOf k = 64 := if_neg hk
  rw [fabMem_passes (halign ▸ hq) hgate hsnap fun h => absurd (.inr h) hk, fabEntries_line hk]

theorem serves_of_gate (hgate : memGate s w k cls m = (.ok (ix, r), s1, m1)) (hsnap : snapState r = 0)
    (hkeys : isRaw k = true ∨ Safety.keysReady s1 ix r) : Serves s1 ix r k := by
  obtain ⟨hne, hlive⟩ := memGate_region hgate
  exact ⟨hne, hlive, hkeys, hsnap⟩

theorem memPort_gate (hgate : memGate s w k cls m = (.ok (ix, r), s1, m1)) (line : Nat) : memPort s1 line = memPort s line := by
  unfold memPort
  rw [((own_memGate ..).of_eq hgate).cfg]

/-- A reading request of one line that passes its checks waits alone, ready for MEMPORT. -/
theorem fabMem_reads (hreads : readsFirst k = true) (hk : ¬(k = .cread ∨ k = .cwrite)) (hq : Safety.fabPasses s q 64)
    (hgate : memGate s (whoOf s q) k q.cls.toNat m = (.ok (ix, r), s1, m1)) (hquiet : Safety.imeQuiet s1) (hsnap : snapState r = 0)
    (hkeys : Safety.keysReady s1 ix r) :
    fabMem s q k m = pushEnt s1 (readied s1 (lineEnt s1 q k (whoOf s q) ix r (deadlineOf s q.budget) m1)) := by
  have hserves := serves_of_gate hgate hsnap (.inr hkeys)
  rw [fabMem_line hk hq hgate hsnap, accept_reads (clear_lineEnt hserves hquiet ..) hreads]
  refine settle_placed fun e he => ?_
  have hone : e = readied s1 (lineEnt s1 q k (whoOf s q) ix r (deadlineOf s q.budget) m1) := by simpa [pushEnt, hquiet.1] using he
  rw [hone]
  exact ⟨rfl, nofun⟩

/-! ### The lines of a compressed block (04 R145) -/

/-- `t` differs from `s` at most by what waits in its queue, its blocks and the filler taken. -/
def Queued (s t : State) : Prop :=
  t = { s with ime := { s.ime with ents := t.ime.ents, seq := t.ime.seq, blks := t.ime.blks, padUsed := t.ime.padUsed } }

theorem Queued.trans (h : Queued s t) (h' : Queued t u) : Queued s u := by
  unfold Queued at *
  rw [h] at h'
  exact h'

theorem Queued.serves (h : Queued s t) (hs : Serves s ix r k) : Serves t ix r k := by
  obtain ⟨hne, hlive, hkeys, hsnap⟩ := hs
  rw [h]
  exact ⟨hne, hlive, hkeys, hsnap⟩

/-- The first lines of a block have been made: consecutive lines, each as `p` says, numbered in order. -/
structure Made (s : State) (p : MemEnt → Prop) (b : Blk) (first i : Nat) (t : State) : Prop where
  queued : Queued s t
  blks : t.ime.blks = [b]
  lines : t.ime.ents.map (·.line) = (List.range i).map (first + ·)
  each : ∀ e ∈ t.ime.ents, p e
  below : ∀ e ∈ t.ime.ents, e.seq < t.ime.seq
  apart : (t.ime.ents.map (·.seq)).Nodup

/-- The state once a line's filler is taken. -/
def padded (s : State) (n : Nat) : State := { s with ime := { s.ime with padUsed := n } }

theorem Made.pushed {p : MemEnt → Prop} {b : Blk} {first i n : Nat} (h : Made s p b first i t) (hline : e.line = first + i) (hseq : e.seq = t.ime.seq)
    (hp : p e) : Made s p b first (i + 1) (pushEnt (padded t n) e) := by
  obtain ⟨hq, hb, hl, he, hbelow, hapart⟩ := h
  refine ⟨hq.trans rfl, hb, ?_, ?_, ?_, ?_⟩
  · show (t.ime.ents ++ [e]).map _ = _
    rw [List.map_append, hl, List.range_succ, List.map_append]
    simp [hline]
  · intro x hx
    rcases List.mem_append.mp hx with hx | hx
    · exact he x hx
    · exact List.mem_singleton.mp hx ▸ hp
  · intro x hx
    show x.seq < t.ime.seq + 1
    rcases List.mem_append.mp hx with hx | hx
    · exact Nat.lt_succ_of_lt (hbelow x hx)
    · rw [List.mem_singleton.mp hx, hseq]
      exact Nat.lt_succ_self _
  · show ((t.ime.ents ++ [e]).map (·.seq)).Nodup
    rw [List.map_append, List.nodup_append]
    refine ⟨hapart, by simp, fun a ha c hc => ?_⟩
    obtain ⟨x, hx, rfl⟩ := List.mem_map.mp ha
    have hce : c = t.ime.seq := by simpa [hseq] using hc
    exact hce ▸ Nat.ne_of_lt (hbelow x hx)

/-- What each line keeps, all the lines of a block keep. -/
theorem made_foldl {p : MemEnt → Prop} {b : Blk} {first : Nat} {f : State → Nat → State} (hf : ∀ t i, Made s p b first i t → Made s p b first (i + 1) (f t i))
    (h : Made s p b first 0 s) (n : Nat) : Made s p b first n ((List.range n).foldl f s) := by
  induction n with
  | zero => exact h
  | succ n ih =>
    rw [List.range_succ, List.foldl_append]
    exact hf _ n ih

/-- A line not made yet is on none of the lines made, and has a number of its own. -/
theorem Made.fresh {p : MemEnt → Prop} {b : Blk} {first i : Nat} (h : Made s p b first i t) (hline : e.line = first + i) (hseq : e.seq = t.ime.seq) :
    (∀ x ∈ t.ime.ents, x.seq ≠ e.seq) ∧ ∀ x ∈ t.ime.ents, x.line ≠ e.line := by
  refine ⟨fun x hx => hseq ▸ Nat.ne_of_lt (h.below x hx), fun x hx heq => ?_⟩
  have hmem : x.line ∈ t.ime.ents.map (·.line) := List.mem_map_of_mem hx
  rw [h.lines, heq, hline] at hmem
  obtain ⟨j, hj, hjeq⟩ := List.mem_map.mp hmem
  have hlt := List.mem_range.mp hj
  omega

/-- Entries with numbers of their own are found by them. -/
theorem entAt_of_apart (hapart : (s.ime.ents.map (·.seq)).Nodup) (he : e ∈ s.ime.ents) :
    entAt s e.seq = some e ∧ ∀ x ∈ s.ime.ents, x.seq = e.seq → x = e := by
  have huniq (x : MemEnt) (hx : x ∈ s.ime.ents) (hseq : x.seq = e.seq) : x = e := List.inj_on_of_nodup_map hapart hx he hseq
  refine ⟨?_, huniq⟩
  obtain ⟨y, hy⟩ := Option.isSome_iff_exists.mp (List.find?_isSome.mpr ⟨e, he, beq_self_eq_true e.seq⟩ :
    (s.ime.ents.find? fun x => x.seq == e.seq).isSome = true)
  have hye : y = e := huniq y (List.mem_of_find?_eq_some hy) (by simpa using List.find?_some hy)
  rw [entAt, hy, hye]

/-- The compressed block that a request makes. -/
def blkOf (s : State) (q : FabReq) (k : MemKind) (w : Who) (ix : Nat) (r : Region) (deadline : Option Nat) : Blk :=
  { id := s.ime.seq + 1, src := .fab q.ch q.tag q.epoch, who := w, write := k == .cwrite, n := q.count.toNat + 1, s := blkLines r.shape (q.count.toNat + 1)
    region := ix, deadline := deadline, cls := q.cls.toNat, port := memPort s (w.addr / 64), got := [], checked := k != .cwrite }

/-- A line of a block, its filler or its data given. -/
def blkEnt (s : State) (q : FabReq) (k : MemKind) (w : Who) (r : Region) (b : Blk) (m : MemIn) (i : Nat) (f : Line) : MemEnt :=
  { newEnt s (.fab q.ch q.tag q.epoch) (if k = .cwrite ∧ i = 0 then .cwHead else k) { w with addr := w.addr + 64 * i } b.region r q.cls.toNat b.deadline with
    port := b.port, plain := f, lineIx := i, n := b.id, lines := b.s, answers := if i = 0 then m.lines else [] }

/-- One more line of a block is made. -/
def blkStep (q : FabReq) (k : MemKind) (w : Who) (r : Region) (b : Blk) (m : MemIn) (s : State) (i : Nat) : State :=
  let x := if k = .cwrite ∧ b.n ≤ i then padLine s else (storedData (q.data.getD i 0#576), s)
  accept x.2 (blkEnt x.2 q k w r b m i x.1)

theorem blkStep_eq (q : FabReq) (k : MemKind) (w : Who) (r : Region) (b : Blk) (m : MemIn) (s : State) (i : Nat) :
    ∃ n f, blkStep q k w r b m s i = accept (padded s n) (blkEnt (padded s n) q k w r b m i f) := by
  unfold blkStep
  split
  · exact ⟨s.ime.padUsed + 1, _, rfl⟩
  · exact ⟨s.ime.padUsed, _, rfl⟩

/-- The state with a block begun. -/
def begun (s : State) (b : Blk) : State := { s with ime := { s.ime with blks := s.ime.blks ++ [b] } }

theorem fabEntries_block (hk : k = .cread ∨ k = .cwrite) (w : Who) (deadline : Option Nat) (m : MemIn) :
    fabEntries s (.fab q.ch q.tag q.epoch) k w ix r q.cls.toNat deadline (q.count.toNat + 1) q.mask q.data m =
      (List.range (blkLines r.shape (q.count.toNat + 1))).foldl (blkStep q k w r (blkOf s q k w ix r deadline) m)
        (begun s (blkOf s q k w ix r deadline)) := by
  unfold fabEntries
  rw [if_pos hk]
  rfl

theorem blkEnt_line (s : State) (q : FabReq) (k : MemKind) (w : Who) (r : Region) (b : Blk) (m : MemIn) (i : Nat) (f : Line) :
    (blkEnt s q k w r b m i f).line = w.addr / 64 + i := by
  show (w.addr + 64 * i) / 64 = _
  omega

theorem requested_blkEnt (s : State) (q : FabReq) (k : MemKind) (w : Who) (r : Region) (b : Blk) (m : MemIn) (i : Nat) (f : Line) :
    Requested s b.region r (blkEnt s q k w r b m i f) := ⟨rfl, rfl, rfl, rfl, rfl⟩

theorem Serves.begun (h : Serves s ix r k) (b : Blk) : Serves (begun s b) ix r k := ⟨h.ne, h.live, h.keys, h.uncut⟩

theorem made_begun {p : MemEnt → Prop} {b : Blk} {first : Nat} (hq : Safety.imeQuiet s) : Made (begun s b) p b first 0 (begun s b) := by
  obtain ⟨hents, hblks, -, -⟩ := hq
  have hnone : (begun s b).ime.ents = [] := hents
  refine ⟨rfl, ?_, ?_, ?_, ?_, ?_⟩
  · show s.ime.blks ++ [b] = [b]
    rw [hblks, List.nil_append]
  all_goals simp [hnone]

section
variable {b : Blk} {i : Nat} {f : Line} {p : MemEnt → Prop}

/-- The next line of a block is held by nothing but, in a CWRITE, the check of its header line. -/
theorem Made.clear {n : Nat} (h : Made s p b (w.addr / 64) i t) (hserves : Serves s b.region r k) (hraw : isRaw k = false) (hres : s.ile.resident = [])
    (hpage : s.ime.pageHeld = []) : Clear (padded t n) (blkEnt (padded t n) q k w r b m i f) := by
  obtain ⟨hfresh, hline⟩ := h.fresh (e := blkEnt (padded t n) q k w r b m i f) (blkEnt_line ..) rfl
  have hq : Queued s (padded t n) := h.queued.trans rfl
  have hkind : isRaw (blkEnt (padded t n) q k w r b m i f).kind = isRaw k := by
    show isRaw (if k = .cwrite ∧ i = 0 then .cwHead else k) = isRaw k
    split
    · exact hraw.symm
    · rfl
  exact (hq.serves hserves).clear (requested_blkEnt ..) hkind hfresh hline (by rw [hq]; exact hres) (by rw [hq]; exact hpage)

/-- The next line of a CREAD is ready for MEMPORT. -/
theorem made_cread (hserves : Serves s b.region r .cread) (hres : s.ile.resident = []) (hpage : s.ime.pageHeld = [])
    (h : Made s (fun e => e.phase = .ready ∧ e.kind = .cread) b (w.addr / 64) i t) :
    Made s (fun e => e.phase = .ready ∧ e.kind = .cread) b (w.addr / 64) (i + 1) (blkStep q .cread w r b m t i) := by
  obtain ⟨n, f, hstep⟩ := blkStep_eq q .cread w r b m t i
  rw [hstep, accept_reads (h.clear hserves rfl hres hpage) rfl]
  exact h.pushed (blkEnt_line (padded t n) q .cread w r b m i f) rfl ⟨rfl, rfl⟩
end

/-- A CREAD that passes its checks becomes its block and its lines, each ready for MEMPORT. -/
theorem fabMem_cread (hq : Safety.fabPasses s q 1024) (hgate : memGate s (whoOf s q) .cread q.cls.toNat m = (.ok (ix, r), s1, m1))
    (hquiet : Safety.imeQuiet s1) (hsnap : snapState r = 0) (hkeys : Safety.keysReady s1 ix r) :
    Made (begun s1 (blkOf s1 q .cread (whoOf s q) ix r (deadlineOf s q.budget))) (fun e => e.phase = .ready ∧ e.kind = .cread)
      (blkOf s1 q .cread (whoOf s q) ix r (deadlineOf s q.budget)) (q.addr.toNat / 64) (blkLines r.shape (q.count.toNat + 1)) (fabMem s q .cread m) := by
  have hserves := serves_of_gate hgate hsnap (.inr hkeys)
  have hmade := made_foldl (f := blkStep q .cread (whoOf s q) r (blkOf s1 q .cread (whoOf s q) ix r (deadlineOf s q.budget)) m1)
    (fun t i => made_cread (w := whoOf s q) (m := m1) (q := q) (s := begun s1 (blkOf s1 q .cread (whoOf s q) ix r (deadlineOf s q.budget)))
      (hserves.begun _) hquiet.2.2.1 hquiet.2.2.2)
    (made_begun hquiet) (blkLines r.shape (q.count.toNat + 1))
  rw [fabMem_passes hq hgate hsnap nofun, fabEntries_block (.inl rfl)]
  generalize List.foldl _ _ _ = t at hmade ⊢
  rw [settle_placed fun e he => by simp [(hmade.each e he).1, holdPhase]]
  exact hmade

end Sys2Proof.Proofs.Accepting

namespace Sys2Proof.Proofs
open Sys2Proof.Machine OwnWork Accepting

/-- Settles O22: in a quiet engine a reading request that passes its checks takes its place at once, and each line of a CREAD after the others. -/
theorem fabReadsAccepted : Obligations.FabReadsAccepted := by
  unfold Obligations.FabReadsAccepted
  constructor
  · intro q m m1 c k ix r s s1 hc hq hgate hquiet hsnap hkeys
    have hexec : exec c s = .next (fabMem s q k m) := by
      simp only [List.mem_cons, Prod.mk.injEq, List.not_mem_nil, or_false] at hc
      rcases hc with ⟨rfl, rfl⟩ | ⟨rfl, rfl⟩ | ⟨rfl, rfl⟩ <;> rfl
    have hkind : readsFirst k = true ∧ ¬(k = .cread ∨ k = .cwrite) := by
      simp only [List.mem_cons, Prod.mk.injEq, List.not_mem_nil, or_false] at hc
      rcases hc with ⟨-, rfl⟩ | ⟨-, rfl⟩ | ⟨-, rfl⟩ <;> decide
    rw [fabMem_reads hkind.1 hkind.2 hq hgate hquiet hsnap hkeys] at hexec
    exact ⟨_, readied s1 (lineEnt s1 q k (whoOf s q) ix r (deadlineOf s q.budget) m1), hexec, by simp [pushEnt, hquiet.1], rfl, rfl, rfl,
      memPort_gate hgate _, rfl, rfl, rfl, rfl, rfl, rfl, rfl, rfl, rfl, rfl, rfl, rfl, rfl, rfl, rfl⟩
  · intro q m m1 ix r s s1 hq hgate hquiet hsnap hkeys
    obtain ⟨hqueued, hblks, hlines, heach, -, -⟩ := fabMem_cread hq hgate hquiet hsnap hkeys
    exact ⟨_, _, rfl, hblks, rfl, rfl, rfl, rfl, hlines, heach, by rw [hqueued]; rfl⟩

end Sys2Proof.Proofs

/-! Writes at FABPORT that pass their checks (04 R109, R121 to R126, R137). -/
namespace Sys2Proof.Proofs.AcceptingWrites
open Sys2Proof.Machine Lanes Memory OwnWork LastPlace Accepting Sweeps

variable {s s1 t u : State} {q : FabReq} {k : MemKind} {ix slot half : Nat} {r : Region} {v : Slot} {m m1 : MemIn} {e : MemEnt} {w : Who} {cls : Nat}

/-! ### The lines of a CWRITE (04 R137, R145) -/

/-- The header line of a CWRITE is read first, and the others wait for its check. -/
def cwriteLine (s : State) (r : Region) (b : Blk) (first : Nat) (e : MemEnt) : Prop :=
  (e.line = first → e.kind = .cwHead ∧ e.phase = .ready)
    ∧ (e.line ≠ first → e.kind = .cwrite ∧ e.n = b.id ∧ Requested s b.region r e)

theorem Queued.requested (h : Queued s t) (he : Requested s ix r e) : Requested t ix r e := by
  refine ⟨he.region, he.reg, ?_, he.waits, he.source⟩
  rw [h]
  exact he.gen

section
variable {b : Blk} {first i : Nat}

/-- A line that waits for the header line's check stays as it is. -/
theorem advance_waits (h : Made s (cwriteLine s r b first) b first i t) (hserves : Serves s b.region r .cwrite) (hb : b.checked = false)
    (he : e ∈ t.ime.ents) (hline : e.line ≠ first) : advance t e.seq = t := by
  obtain ⟨hkind, hn, hreq⟩ := (h.each e he).2 hline
  have hserves' := h.queued.serves hserves
  have hreq' := Queued.requested h.queued hreq
  obtain ⟨hat, huniq⟩ := entAt_of_apart h.apart he
  obtain ⟨hgone, hcached⟩ := hserves'.keysThere hreq' (by rw [hkind])
  exact advance_headPending hat huniq hreq'.waits hreq'.source hgone hcached ((hserves'.entRegion hreq').symm ▸ hserves'.uncut)
    (by simp [headPending, hkind, h.blks, hn, hb])

/-- The lines of a CWRITE wait, the header line at MEMPORT and the others for its check. -/
theorem settle_cwrite (h : Made s (cwriteLine s r b first) b first i t) (hserves : Serves s b.region r .cwrite) (hb : b.checked = false) :
    settle t = t := by
  have hstill (e : MemEnt) (he : e ∈ t.ime.ents) : advance t e.seq = t := by
    by_cases hline : e.line = first
    · obtain ⟨-, hphase⟩ := (h.each e he).1 hline
      obtain ⟨hat, -⟩ := entAt_of_apart h.apart he
      simp [advance, hat, hphase, holdPhase]
    · exact advance_waits h hserves hb he hline
  unfold settle
  suffices ∀ l : List Nat, (∀ n ∈ l, advance t n = t) → l.foldl advance t = t from
    this _ fun n hn => by
      obtain ⟨e, he, rfl⟩ := List.mem_map.mp hn
      exact hstill e he
  intro l hl
  induction l with
  | nil => rfl
  | cons n l ih =>
    rw [List.foldl_cons, hl n (List.mem_cons_self ..)]
    exact ih fun x hx => hl x (List.mem_cons_of_mem n hx)

/-- The next line of a CWRITE waits: the header line at MEMPORT, any other for its check. -/
theorem made_cwrite (hserves : Serves s b.region r .cwrite) (hb : b.checked = false) (hres : s.ile.resident = []) (hpage : s.ime.pageHeld = [])
    (h : Made s (cwriteLine s r b (w.addr / 64)) b (w.addr / 64) i t) :
    Made s (cwriteLine s r b (w.addr / 64)) b (w.addr / 64) (i + 1) (blkStep q .cwrite w r b m t i) := by
  obtain ⟨n, f, hstep⟩ := blkStep_eq q .cwrite w r b m t i
  have hline := blkEnt_line (padded t n) q .cwrite w r b m i f
  have hq : Queued s (padded t n) := h.queued.trans rfl
  rw [hstep]
  by_cases hi : i = 0
  · have hkind : (blkEnt (padded t n) q .cwrite w r b m i f).kind = .cwHead := if_pos ⟨rfl, hi⟩
    have hfirst : (blkEnt (padded t n) q .cwrite w r b m i f).line = w.addr / 64 := by rw [hline, hi, Nat.add_zero]
    rw [accept_reads (h.clear hserves rfl hres hpage) (by rw [hkind]; rfl)]
    exact h.pushed hline rfl ⟨fun _ => ⟨hkind, rfl⟩, fun hne => absurd hfirst hne⟩
  · have hkind : (blkEnt (padded t n) q .cwrite w r b m i f).kind = .cwrite := if_neg fun hx => hi hx.2
    have hne : (blkEnt (padded t n) q .cwrite w r b m i f).line ≠ w.addr / 64 := by rw [hline]; omega
    have hreq : Requested s b.region r (blkEnt (padded t n) q .cwrite w r b m i f) := by
      refine ⟨rfl, rfl, ?_, rfl, rfl⟩
      show regionGenCur (padded t n) b.region r = _
      rw [hq]
      rfl
    have hmade : Made s (cwriteLine s r b (w.addr / 64)) b (w.addr / 64) (i + 1) (pushEnt (padded t n) (blkEnt (padded t n) q .cwrite w r b m i f)) :=
      h.pushed hline rfl ⟨fun heq => absurd heq hne, fun _ => ⟨hkind, rfl, hreq⟩⟩
    have hstay : accept (padded t n) (blkEnt (padded t n) q .cwrite w r b m i f) = pushEnt (padded t n) (blkEnt (padded t n) q .cwrite w r b m i f) :=
      advance_waits hmade hserves hb (List.mem_append_right _ (List.mem_singleton.mpr rfl)) hne
    rw [hstay]
    exact hmade
end

/-- A CWRITE that passes its checks becomes its block and its lines. -/
theorem fabMem_cwrite (hq : Safety.fabPasses s q 1024) (hgate : memGate s (whoOf s q) .cwrite q.cls.toNat m = (.ok (ix, r), s1, m1))
    (hquiet : Safety.imeQuiet s1) (hsnap : snapState r = 0) (hkeys : Safety.keysReady s1 ix r)
    (hhead : bits (q.data.headD 0#576).toNat 0 4 = q.count.toNat) :
    Made (begun s1 (blkOf s1 q .cwrite (whoOf s q) ix r (deadlineOf s q.budget)))
      (cwriteLine (begun s1 (blkOf s1 q .cwrite (whoOf s q) ix r (deadlineOf s q.budget))) r
        (blkOf s1 q .cwrite (whoOf s q) ix r (deadlineOf s q.budget)) (q.addr.toNat / 64))
      (blkOf s1 q .cwrite (whoOf s q) ix r (deadlineOf s q.budget)) (q.addr.toNat / 64) (blkLines r.shape (q.count.toNat + 1)) (fabMem s q .cwrite m) := by
  have hserves := (serves_of_gate hgate hsnap (.inr hkeys)).begun (blkOf s1 q .cwrite (whoOf s q) ix r (deadlineOf s q.budget))
  have hmade := made_foldl (f := blkStep q .cwrite (whoOf s q) r (blkOf s1 q .cwrite (whoOf s q) ix r (deadlineOf s q.budget)) m1)
    (fun t i => made_cwrite (w := whoOf s q) (m := m1) (q := q) (s := begun s1 (blkOf s1 q .cwrite (whoOf s q) ix r (deadlineOf s q.budget)))
      hserves rfl hquiet.2.2.1 hquiet.2.2.2)
    (made_begun hquiet) (blkLines r.shape (q.count.toNat + 1))
  rw [fabMem_passes hq hgate hsnap fun _ => hhead, fabEntries_block (.inr rfl)]
  generalize List.foldl _ _ _ = t at hmade ⊢
  rw [settle_cwrite hmade hserves rfl]
  exact hmade

/-! ### Writes of a full line (04 R109, R121 to R126) -/

/-- A write that nothing holds is sealed as it is accepted. -/
theorem accept_write (h : Clear s e) (hk : e.kind = .write) : accept s e = sealEnt (pushEnt s (passed e)) (passed e) := by
  rw [accept_clear h (by simp [headPending, hk])]
  simp [place, passed, hk]

theorem accept_rawWrite (h : Clear s e) (hk : e.kind = .rawWrite) :
    ∃ major minor, accept s e = sealed (pushEnt s (passed e)) (passed e) e.stored major minor := by
  rw [accept_clear h (by simp [headPending, hk])]
  have hkind : (passed e).kind = .rawWrite := hk
  unfold place
  rw [hkind]
  exact ⟨_, _, rfl⟩

/-- A half that holds a key gives every working key of its slot. -/
theorem derive_regionHandle (hk : (halfKey s slot half).isSome = true) (ix : Nat) (r : Region) (purpose bits : Nat) :
    ∃ kd, derive s (regionHandle s ix r slot half purpose bits) = some kd := by
  obtain ⟨x, hx⟩ := Option.isSome_iff_exists.mp hk
  exact ⟨_, by rw [derive, show halfKey s (regionHandle s ix r slot half purpose bits).slot (regionHandle s ix r slot half purpose bits).half = some x from hx]; rfl⟩

/-- A line is sealed under a half that holds a key. -/
theorem sealLine_keyed (hk : (halfKey s slot half).isSome = true) (ix : Nat) (r : Region) (line major minor : Nat) (l : Line) :
    ∃ d, sealLine s ix r slot half line major minor l = some d := by
  unfold sealLine
  split
  · exact ⟨_, rfl⟩
  · obtain ⟨kd, hkd⟩ := derive_regionHandle hk ix r 0x0301 (if r.mode = 3 then 256 else 512)
    obtain ⟨kt, hkt⟩ := derive_regionHandle hk ix r 0x0302 256
    dsimp only
    rw [hkd, hkt]
    dsimp only [Option.bind_some, Option.map_some]
    split <;> exact ⟨_, rfl⟩

/-- Outside P0 the keys at hand are of a half that holds a key. -/
theorem halfKey_ready (hmode : r.mode ≠ 0) (hkeys : Safety.keysReady s ix r) (hslot : regionSlot s ix r = some slot) (hv : slotAt s slot = some v) :
    (halfKey s slot (curHalf v)).isSome = true := by
  obtain ⟨slot', v', hslot', hv', hall⟩ := hkeys.resolve_left hmode
  obtain rfl : slot = slot' := Option.some.inj (hslot.symm.trans hslot')
  obtain rfl : v = v' := Option.some.inj (hv.symm.trans hv')
  obtain ⟨x, hx⟩ := List.exists_mem_of_ne_nil _ (lineHandles_ne_nil s ix r slot (curHalf v) hmode)
  have hplace : x.slot = slot ∧ x.half = curHalf v := by
    unfold lineHandles at hx
    rw [if_neg hmode] at hx
    split at hx
    · obtain rfl := List.mem_singleton.mp hx
      exact ⟨rfl, rfl⟩
    · split at hx <;> simp only [List.mem_cons, List.not_mem_nil, or_false] at hx
      · rcases hx with rfl | rfl <;> exact ⟨rfl, rfl⟩
      · rcases hx with rfl | rfl | rfl <;> exact ⟨rfl, rfl⟩
  have hderive := (hall x hx).1
  rw [derive, hplace.1, hplace.2] at hderive
  simpa using hderive

theorem imeReason_done (s : State) : imeReason s 0#8 = s := rfl

/-- A write of its own from FABPORT is answered DONE as it begins to wait, and nothing else moves but what is counted. -/
theorem sealed_fab {ch : Nat} {tg : BitVec 16} {fe : Word} (hkind : e.kind ≠ .cwrite) (ha : e.answered = false) (hsrc : e.src = .fab ch tg fe) (d : Stored)
    (major minor : Nat) :
    ∃ c, sealed s e d major minor = { setEnt s (sealedEnt e d major minor) with
      qos := c, out := s.out ++ fabBeats s ch tg fe 0 0 e.deadline [(0#576, false)] } := by
  have hsealed : sealed s e d major minor =
      finishMem (setEnt s (sealedEnt e d major minor)) (.fab ch tg fe) e.port e.cls e.deadline 0#8 false [(0#576, false)] := by
    simp [sealed, sealedEnt, ha, hkind, hsrc]
  exact ⟨_, hsealed⟩

/-- The operation of a WRITE or RAW_WRITE past its holds. -/
def writeEnt (s s1 : State) (q : FabReq) (k : MemKind) (ix : Nat) (r : Region) (m1 : MemIn) : MemEnt :=
  passed (lineEnt s1 q k (whoOf s q) ix r (deadlineOf s q.budget) m1)

theorem requested_writeEnt : Requested s1 ix r (writeEnt s s1 q k ix r m1) := ⟨rfl, rfl, rfl, rfl, rfl⟩

theorem fabBeats_gate (hgate : memGate s w k cls m = (.ok (ix, r), s1, m1)) (ht : t.tm = s1.tm) : fabBeats t = fabBeats s :=
  fabBeats_tm (ht.trans ((own_memGate ..).of_eq hgate).tm)

/-- Outside P3 a full line is sealed at once: in P0 as it is, else under the current half of its region's slot. -/
theorem sealEnt_line (hserves : Serves s ix r k) (he : Requested s ix r e) (hfail : e.fail = 0#8) (hkeys : Safety.keysReady s ix r)
    (hlanes : s.lane.flaw = []) (hmode : r.mode ≠ 3) :
    ∃ u d, SameQueue s u ∧ sealEnt s e = sealed u e d 0 0 ∧ (r.mode = 0 → d = withSide e.plain 0#56 false 0)
      ∧ ∀ slot v, regionSlot s ix r = some slot → slotAt s slot = some v → r.mode ≠ 0 → sealLine s ix r slot (curHalf v) e.line 0 0 e.plain = some d := by
  have hregion := hserves.entRegion he
  by_cases hplain : r.mode = 0
  · exact ⟨s, _, ⟨rfl, rfl, rfl, rfl⟩, by rw [sealEnt, hregion, if_pos hplain], fun _ => rfl, fun _ _ _ _ hne => absurd hplain hne⟩
  · obtain ⟨slot, v, hslot, hv, -⟩ := hkeys.resolve_left hplain
    obtain ⟨d, hd⟩ := sealLine_keyed (halfKey_ready hplain hkeys hslot hv) ix r e.line 0 0 e.plain
    obtain ⟨u, hu, hout⟩ := sealOut_sealed (r := r) (slot := slot) (half := curHalf v) (major := 0) (minor := 0) hlanes hfail (by rw [he.region]; exact hd)
    refine ⟨u, d, hu, ?_, fun h0 => absurd h0 hplain, fun slot' v' hslot' hv' _ => ?_⟩
    · rw [← hout, sealEnt, hregion, if_neg hplain, he.region, hslot]
      simp [hv, liveHalf_requested hslot hv he, hmode]
    · obtain rfl : slot = slot' := Option.some.inj (hslot.symm.trans hslot')
      obtain rfl : v = v' := Option.some.inj (hv.symm.trans hv')
      exact hd

/-- A single write sealed from a queue of its own is all that waits, and nothing follows. -/
theorem settle_sealed {d : Stored} {major minor : Nat} (hu : SameQueue (pushEnt s e) u) (hnone : s.ime.ents = []) (hkind : e.kind ≠ .cwrite)
    (ha : e.answered = false) {ch : Nat} {tg : BitVec 16} {fe : Word} (hsrc : e.src = .fab ch tg fe) :
    (settle (sealed u e d major minor)).ime.ents = [sealedEnt e d major minor]
      ∧ (settle (sealed u e d major minor)).out = s.out ++ fabBeats s ch tg fe 0 0 e.deadline [(0#576, false)]
      ∧ (settle (sealed u e d major minor)).key = u.key := by
  have hents : u.ime.ents = [e] := by
    rw [hu.ime]
    show s.ime.ents ++ [e] = [e]
    rw [hnone, List.nil_append]
  obtain ⟨c, hsealed⟩ := sealed_fab (s := u) hkind ha hsrc d major minor
  have hone : (sealed u e d major minor).ime.ents = [sealedEnt e d major minor] := by
    rw [hsealed]
    exact setEnt_single hents rfl
  rw [settle_placed (hone ▸ allPlaced_single (.inr rfl))]
  refine ⟨hone, ?_, ?_⟩
  · rw [hsealed]
    show u.out ++ fabBeats u ch tg fe 0 0 e.deadline [(0#576, false)] = _
    rw [hu.out, fabBeats_tm hu.tm]
    rfl
  · rw [hsealed]
    rfl

/-! ### Writes of a P3 line (04 R126) -/

/-- Whether a page's tree lines verify: those it lacks do. -/
theorem fetchPath_fst (s : State) (ix : Nat) (r : Region) (page cls : Nat) (m : MemIn) :
    (fetchPath s ix r page cls m).1 = (pathGood s ix r (missingOf s ix r page) m).1 := by
  have hread : Emitted s (ownReads s (treeReads s r (missingOf s ix r page)) cls) := Emitted.ownReads (show Emitted s s from rfl) ..
  rw [fetchPath, hread.pathArrived, pathArrived]
  dsimp only
  split
  · next h => exact h.symm
  · next h => exact (eq_false_of_ne_true h).symm

theorem missingOf_pushEnt (s : State) (e : MemEnt) (ix : Nat) (r : Region) (page : Nat) : missingOf (pushEnt s e) ix r page = missingOf s ix r page := by
  have hcached (k i : Nat) : treeCached (pushEnt s e) ix k i = treeCached s ix k i := rfl
  unfold missingOf
  generalize (treeLevels r).length = n
  generalize 0 = k
  induction n generalizing k page with
  | zero => rfl
  | succ n ih => simp only [missingPath, hcached, ih]

/-- An operation that has no place yet does not move the verdict of a tree path. -/
theorem fetchPath_pushEnt (hw : e.phase = .lineWait) (ix : Nat) (r : Region) (page cls : Nat) (m : MemIn) :
    (fetchPath (pushEnt s e) ix r page cls m).1 = (fetchPath s ix r page cls m).1 := by
  have hlast (n : Nat) : lastWrite (pushEnt s e) n = lastWrite s n := by simp [lastWrite, pushEnt, List.filter_append, hw]
  have hgood (l : List (Nat × Nat)) (m : MemIn) : pathGood (pushEnt s e) ix r l m = pathGood s ix r l m := by
    have htree (k i : Nat) (a : MemAnswer) : treeGood (pushEnt s e) ix r k i a = treeGood s ix r k i a := rfl
    have hline (k i : Nat) : treeLine (pushEnt s e) r k i = treeLine s r k i := rfl
    induction l generalizing m with
    | nil => rfl
    | cons x l ih => simp only [pathGood, hlast, hline, htree, ih]
  rw [fetchPath_fst, fetchPath_fst, hgood, missingOf_pushEnt]

/-- A page whose line a write takes: its counter line at the current half, not full, ended or due for renewal. -/
structure Counts (s : State) (ix : Nat) (r : Region) (page i : Nat) (v : Slot) (c : CtrLine) (n : Nat) : Prop where
  line : c = ctrOf s ix r page
  count : n = dget 0 c.minors i
  parity : c.parity = decide (curHalf v = 1)
  goes : c.ended = false
  room : n < 127
  undue : renewDue s ix r page = false

/-- The engine once a line's minor count has advanced. -/
def counted (s : State) (e : MemEnt) (ix : Nat) (r : Region) (c : CtrLine) (n : Nat) (m : MemIn) : State :=
  dirtyCtr (fetchPath (pushEnt s e) ix r (pageOf r e.line) e.cls m).2.1 ix r (pageOf r e.line) { c with minors := tput c.minors (lineInPage r e.line) (n + 1) }

theorem own_counted (s : State) (e : MemEnt) (ix : Nat) (r : Region) (c : CtrLine) (n : Nat) (m : MemIn) : Own (pushEnt s e) (counted s e ix r c n m) :=
  (own_fetchPath ..).trans (own_dirtyCtr ..)

theorem arrived_sealLine (h : Arrived s t) (ix : Nat) (r : Region) (slot half line major minor : Nat) (l : Line) :
    sealLine t ix r slot half line major minor l = sealLine s ix r slot half line major minor l := by
  rw [h]
  rfl

theorem dirtyCtr_arrived (s : State) (ix : Nat) (r : Region) (page : Nat) (c : CtrLine) : ∃ d, Arrived (setCtr { s with ime := { s.ime with dirty := d } } ix page c)
    (dirtyCtr s ix r page c) := by
  unfold dirtyCtr
  extract_lets old _ t
  have ht : ∃ d, t = { s with ime := { s.ime with dirty := d } } := by
    by_cases h : (s.ime.dirty.any fun x => x.1 == ix && x.2.1 == page) = true
    · exact ⟨s.ime.dirty, if_pos h⟩
    · exact ⟨_, if_neg h⟩
  obtain ⟨d, hd⟩ := ht
  rw [hd]
  exact ⟨d, (treeStep_touchTree ..).arrived⟩

/-- Counting moves neither the keys nor the lanes that a line is sealed with. -/
theorem counted_seals (s : State) (e : MemEnt) (ix : Nat) (r : Region) (c : CtrLine) (n : Nat) (m : MemIn) :
    (counted s e ix r c n m).lane.flaw = s.lane.flaw
      ∧ ∀ slot half line major minor l, sealLine (counted s e ix r c n m) ix r slot half line major minor l = sealLine s ix r slot half line major minor l := by
  have hfetch := arrived_fetchPath (pushEnt s e) ix r (pageOf r e.line) e.cls m
  unfold counted
  generalize (fetchPath (pushEnt s e) ix r (pageOf r e.line) e.cls m).2.1 = z at hfetch
  generalize pageOf r e.line = page
  generalize ({ c with minors := tput c.minors (lineInPage r e.line) (n + 1) } : CtrLine) = c'
  obtain ⟨d, hdirty⟩ := dirtyCtr_arrived z ix r page c'
  refine ⟨hdirty.flaw.trans hfetch.flaw, fun slot half line major minor l => ?_⟩
  rw [arrived_sealLine hdirty]
  exact arrived_sealLine hfetch ..

/-- A P3 line goes to its counters, under the half it resolved (04 R126). -/
theorem sealEnt_eq_sealP3 (hregion : entRegion s e = r) (hmode : r.mode = 3) (hslot : regionSlot s e.region r = some slot) (hv : slotAt s slot = some v)
    (hlive : liveHalf s slot e.gen = some half) : sealEnt s e = sealP3 s e r slot half v := by
  simp [sealEnt, hregion, hmode, hslot, hv, hlive]

/-- A line whose counter line verifies and has a count left is sealed at the next one. -/
theorem sealP3_counts {c : CtrLine} {n : Nat} (hnotree : ¬e.fail = Rsn.treeFail) (hnopage : s.ime.pageHeld.contains (e.region, pageOf r e.line) = false)
    (hok : (fetchPath s e.region r (pageOf r e.line) e.cls ⟨e.answers⟩).1 = true)
    (hc : Counts (fetchPath s e.region r (pageOf r e.line) e.cls ⟨e.answers⟩).2.1 e.region r (pageOf r e.line) (lineInPage r e.line) v c n) :
    sealP3 s e r slot (curHalf v) v = sealOut (dirtyCtr (fetchPath s e.region r (pageOf r e.line) e.cls ⟨e.answers⟩).2.1 e.region r (pageOf r e.line)
      { c with minors := tput c.minors (lineInPage r e.line) (n + 1) }) e r slot (curHalf v) c.major (n + 1) := by
  obtain ⟨hline, hcount, hparity, hgoes, hroom, hdue⟩ := hc
  have hhalf : c.parity = (curHalf v == 1) := hparity
  unfold sealP3
  generalize hf : fetchPath s e.region r (pageOf r e.line) e.cls ⟨e.answers⟩ = x at hok hline hdue
  obtain ⟨ok, z, m'⟩ := x
  dsimp only at hok hline hdue
  subst hok
  simp only [if_neg hnotree, hnopage, hf, ← hline, hdue, hgoes, ← hcount, Nat.not_le_of_lt hroom, Bool.not_true, Bool.false_eq_true, if_false, ne_eq, hhalf,
    if_true, not_true_eq_false, or_self]

/-- A P3 write whose counter line verifies is sealed under its page's next minor count. -/
theorem sealEnt_p3 {c : CtrLine} {n : Nat} {d : Stored} (hserves : Serves s ix r k) (he : Requested s ix r e) (hfail : e.fail = 0#8)
    (hpage : s.ime.pageHeld = []) (hmode : r.mode = 3) (hslot : regionSlot s ix r = some slot) (hv : slotAt s slot = some v)
    (hlanes : s.lane.flaw = []) (hfetch : (fetchPath s ix r (pageOf r e.line) e.cls ⟨e.answers⟩).1 = true)
    (hc : Counts s ix r (pageOf r e.line) (lineInPage r e.line) v c n)
    (hd : sealLine s ix r slot (curHalf v) e.line c.major (n + 1) e.plain = some d) :
    ∃ u, SameQueue (counted s e ix r c n ⟨e.answers⟩) u ∧ sealEnt (pushEnt s e) e = sealed u e d c.major (n + 1) := by
  obtain ⟨hline, hcount, hparity, hgoes, hroom, hdue⟩ := hc
  obtain ⟨hflaw, hseals⟩ := counted_seals s e ix r c n ⟨e.answers⟩
  have hregion : entRegion (pushEnt s e) e = r := hserves.entRegion he
  obtain ⟨u, hu, hout⟩ := sealOut_sealed (s := counted s e ix r c n ⟨e.answers⟩) (e := e) (r := r) (slot := slot) (half := curHalf v) (major := c.major)
    (minor := n + 1) (d := d) (hflaw.trans hlanes) hfail (by rw [he.region, hseals]; exact hd)
  refine ⟨u, hu, ?_⟩
  have hok : (fetchPath (pushEnt s e) ix r (pageOf r e.line) e.cls ⟨e.answers⟩).1 = true := (fetchPath_pushEnt he.waits ..).trans hfetch
  have harrived := arrived_fetchPath (pushEnt s e) ix r (pageOf r e.line) e.cls ⟨e.answers⟩
  have hctr : ctrOf (fetchPath (pushEnt s e) ix r (pageOf r e.line) e.cls ⟨e.answers⟩).2.1 ix r (pageOf r e.line) = c := by
    rw [hline, harrived]
    rfl
  have hdue' : renewDue (fetchPath (pushEnt s e) ix r (pageOf r e.line) e.cls ⟨e.answers⟩).2.1 ix r (pageOf r e.line) = false := by
    rw [← hdue, harrived]
    rfl
  have hslot' : regionSlot (pushEnt s e) ix r = some slot := hslot
  have hv' : slotAt (pushEnt s e) slot = some v := hv
  have hlive : liveHalf s slot e.gen = some (curHalf v) := liveHalf_requested hslot hv he
  have hp3 : sealEnt (pushEnt s e) e = sealP3 (pushEnt s e) e r slot (curHalf v) v :=
    sealEnt_eq_sealP3 hregion hmode (by rw [he.region]; exact hslot') hv' hlive
  have hnotree : ¬e.fail = Rsn.treeFail := by rw [hfail]; decide
  have hnopage : (pushEnt s e).ime.pageHeld.contains (ix, pageOf r e.line) = false := by
    rw [show (pushEnt s e).ime.pageHeld = [] from hpage]
    rfl
  obtain rfl : e.region = ix := he.region
  rw [hp3, ← hout]
  exact sealP3_counts hnotree hnopage hok ⟨hctr.symm, hcount, hparity, hgoes, hroom, hdue'⟩

/-- What a P3 write leaves: it waits with its line, and the tree lines that left the counter cache with it. -/
theorem sealed_counted {c : CtrLine} {n major minor : Nat} {d : Stored} {m : MemIn} (hnone : s.ime.ents = [])
    (hu : SameQueue (counted s e ix r c n m) u) (hkind : e.kind ≠ .cwrite) (ha : e.answered = false) {ch : Nat} {tg : BitVec 16} {fe : Word}
    (hsrc : e.src = .fab ch tg fe) :
    settle (sealed u e d major minor) = sealed u e d major minor
      ∧ sealedEnt e d major minor ∈ (sealed u e d major minor).ime.ents
      ∧ ctrOf (sealed u e d major minor) ix r (pageOf r e.line) = { c with minors := tput c.minors (lineInPage r e.line) (n + 1) }
      ∧ ∀ o ∈ fabBeats s ch tg fe 0 0 e.deadline [(0#576, false)], o ∈ (sealed u e d major minor).out := by
  have hown := own_counted s e ix r c n m
  have hin : e ∈ u.ime.ents := hu.ime ▸ hown.stays e (List.mem_append_right _ (List.mem_singleton.mpr rfl))
  have honly : ∀ x ∈ u.ime.ents, x = e ∨ x.phase = .writeReady := fun x hx => by
    rcases hown.adds x (hu.ime ▸ hx) with h | h
    · exact .inl (by simpa [pushEnt, hnone] using h)
    · exact .inr h
  obtain ⟨q, hsealed⟩ := sealed_fab (s := u) hkind ha hsrc d major minor
  have hents : (sealed u e d major minor).ime.ents = u.ime.ents.map fun x => if x.seq = e.seq then sealedEnt e d major minor else x := by
    rw [hsealed]
    rfl
  have hctr : ctrOf (sealed u e d major minor) ix r (pageOf r e.line) = ctrOf (counted s e ix r c n m) ix r (pageOf r e.line) := by
    rw [hsealed, ctrOf, ctrOf, ← hu.ime, regionGen, regionGen, ← hu.ime]
    rfl
  refine ⟨settle_placed fun x hx => ?_, ?_, hctr.trans (ctrOf_dirtyCtr ..), fun o ho => ?_⟩
  · rw [hents] at hx
    obtain ⟨y, hy, rfl⟩ := List.mem_map.mp hx
    split
    · exact ⟨rfl, nofun⟩
    · next hne =>
      have hready := (honly y hy).resolve_left fun h => hne (by rw [h])
      simp [hready, holdPhase]
  · rw [hents]
    exact List.mem_map.mpr ⟨e, hin, if_pos rfl⟩
  · rw [hsealed]
    refine List.mem_append_right _ ?_
    have htm : u.tm = s.tm := hu.tm.trans hown.tm
    rwa [fabBeats_tm htm]

end Sys2Proof.Proofs.AcceptingWrites

namespace Sys2Proof.Proofs
open Sys2Proof.Machine Memory OwnWork Accepting AcceptingWrites

/-- Settles O23: in a quiet engine a full line that passes its checks is sealed at once and answered, and a CWRITE waits for the check of its header line. -/
theorem fabWritesAccepted : Obligations.FabWritesAccepted := by
  unfold Obligations.FabWritesAccepted
  refine ⟨?_, ?_, ?_, ?_⟩
  · intro q m m1 cat tree ix r s s1 hq hm hgate hquiet hsnap hkeys hlanes hmode
    subst hm
    have hserves := serves_of_gate hgate hsnap (.inr hkeys)
    have hclear := clear_lineEnt (q := q) hserves hquiet (whoOf s q) (deadlineOf s q.budget) m1
    obtain ⟨u, d, hu, hseal, hplain, hcipher⟩ := sealEnt_line (s := pushEnt s1 (writeEnt s s1 q .write ix r m1)) (e := writeEnt s s1 q .write ix r m1)
      (k := .write) (r := r) (ix := ix) ⟨hserves.ne, hserves.live, hserves.keys, hserves.uncut⟩ ⟨rfl, rfl, rfl, rfl, rfl⟩ rfl hkeys hlanes hmode
    have hexec : exec (.fabWrite q cat tree) s = .next (settle (sealed u (writeEnt s s1 q .write ix r m1) d 0 0)) := by
      refine congrArg Host.Outcome.next ((fabMem_line (k := .write) (by decide) hq hgate hsnap).trans ?_)
      rw [accept_write hclear rfl, ← hseal]
      rfl
    obtain ⟨hents, hout, -⟩ := settle_sealed (s := s1) (e := writeEnt s s1 q .write ix r m1) (major := 0) (minor := 0) (d := d) hu hquiet.1 nofun rfl rfl
    refine ⟨_, _, hexec, hents, rfl, rfl, rfl, memPort_gate hgate _, hplain, hcipher, ?_⟩
    rw [hout, fabBeats_gate hgate rfl]
    rfl
  · intro q m m1 cat tree ix slot r v c n s s1 hq hm hgate hquiet hsnap hkeys hlanes hmode hslot hv hfetch hc hn hparity hended hroom hdue
    subst hm
    have hserves := serves_of_gate hgate hsnap (.inr hkeys)
    have hclear := clear_lineEnt (q := q) hserves hquiet (whoOf s q) (deadlineOf s q.budget) m1
    obtain ⟨d, hd⟩ := sealLine_keyed (halfKey_ready (by omega) hkeys hslot hv) ix r (q.addr.toNat / 64) c.major (n + 1) (storedData (q.data.headD 0#576))
    obtain ⟨u, hu, hseal⟩ := sealEnt_p3 (e := writeEnt s s1 q .write ix r m1) (c := c) (n := n) (d := d) hserves requested_writeEnt rfl hquiet.2.2.2 hmode
      hslot hv hlanes hfetch ⟨hc, hn, hparity, hended, hroom, hdue⟩ hd
    obtain ⟨hsettle, hin, hctr, hout⟩ := sealed_counted (major := c.major) (minor := n + 1) (d := d) hquiet.1 hu nofun rfl rfl
    have hexec : exec (.fabWrite q cat tree) s = .next (sealed u (writeEnt s s1 q .write ix r m1) d c.major (n + 1)) := by
      refine congrArg Host.Outcome.next ((fabMem_line (k := .write) (by decide) hq hgate hsnap).trans ?_)
      rw [accept_write hclear rfl, ← hsettle, ← hseal]
      rfl
    refine ⟨_, _, hexec, hin, rfl, rfl, rfl, rfl, hctr, hd, fun o ho => hout o ?_⟩
    rw [fabBeats_gate hgate rfl]
    exact ho
  · intro q m m1 ix r s s1 hq hgate hquiet hsnap
    have hserves := serves_of_gate hgate hsnap (.inl rfl)
    obtain ⟨major, minor, hplace⟩ := accept_rawWrite (clear_lineEnt (q := q) hserves hquiet (whoOf s q) (deadlineOf s q.budget) m1) rfl
    have hexec : exec (.fabRawWrite q m) s = .next (settle (sealed (pushEnt s1 (writeEnt s s1 q .rawWrite ix r m1)) (writeEnt s s1 q .rawWrite ix r m1)
        (q.data.headD 0#576) major minor)) :=
      congrArg Host.Outcome.next ((fabMem_line (k := .rawWrite) (by decide) hq hgate hsnap).trans (by rw [hplace]; rfl))
    obtain ⟨hents, hout, hkey⟩ := settle_sealed (s := s1) (e := writeEnt s s1 q .rawWrite ix r m1) (major := major) (minor := minor)
      (d := q.data.headD 0#576) ⟨rfl, rfl, rfl, rfl⟩ hquiet.1 nofun rfl rfl
    refine ⟨_, _, hexec, hents, rfl, rfl, rfl, hkey, ?_⟩
    rw [hout, fabBeats_gate hgate rfl]
    rfl
  · intro q m m1 ix r s s1 hq hgate hquiet hsnap hkeys hhead
    obtain ⟨hqueued, hblks, hlines, heach, -, -⟩ := fabMem_cwrite hq hgate hquiet hsnap hkeys hhead
    refine ⟨_, _, rfl, hblks, rfl, rfl, rfl, rfl, hlines, fun e he => ⟨fun hline => (heach e he).1 hline, fun hne => ?_⟩, by rw [hqueued]; rfl⟩
    obtain ⟨hkind, -, hreq⟩ := (heach e he).2 hne
    exact ⟨hkind, hreq.waits⟩

end Sys2Proof.Proofs

/-! A CREATE whose INIT writes use up the last count of its page of the catalogue (04 R117, R133). -/
namespace Sys2Proof.Proofs.LastCount
open Sys2Proof.Machine Memory OwnWork LastPlace Accepting AcceptingWrites

/-- A P0 region of tenant 1 at offset 0, open to every master and world. -/
def plainRegion : Region := { freeRegion with state := 1, size := 65536, lcs := 63#6, world := 15#4, rd := 255#8, wr := 255#8, creations := 1 }

/-- A record of 4 KiB of P0 at 2^16 with INIT set. -/
def initRecord : List Byte := leBytes 8 65536 ++ leBytes 8 4096 ++ leBytes 4 128 ++ leBytes 4 0xFFDFDFC0 ++ zeros 40

/-- What memory answers to the read of the record. -/
def recordIn : MemIn := { lines := [{ data := BitVec.ofNat 576 (leNat initRecord), poison := false }] }

/-- PLATFORM slot 2 with no key in it. -/
def bareSlot : Slot :=
  { kind := 0, rootClass := 0, tenant := 0, masks := ownMasks, genCur := 0, prevLive := false, staged := none, half0 := none, half1 := none
    cnt0 := 0, cnt1 := 0 }

/-- The catalogue formatted, with one P0 region; the first page of its counters one short of the last count of entry 0, and the first line that the new
region gets resident in the atomic unit, dirty, under the catalogue's index. -/
def lastCount : State :=
  { State.reset with
    pin := { Pin.reset with pwrok := true }
    dom := { State.reset.dom with d := [(0, { inReset := false }), (1, { inReset := false })] }
    gen := { Gen.reset with released := true, ready := true, charter := some tablesCharter, glob := leBytes 4 4 ++ zeros 4 }
    key := { Key.reset with slots := [(2, bareSlot)] }
    ile := { Ile.reset with resident := [{ line := 1024, data := 0#512, region := catIx, dirty := true }] }
    ime := { Ime.reset with
      formatted := true, cat := [(4096, plainRegion)], cmdShelf := 32768#32, catCache := [0, 4096], cached := [(catIx, 0, 0)]
      ctr := [(catIx, [(0, { major := 0xFFFFFFFF, minors := [(0, 126)], parity := false })])] } }

/-- The state that reads the record. -/
def asked : State := { lastCount with ime := { lastCount.ime with cmdOp := 1, cmdIndex := 0 } }

theorem asked_reads : (ctlRead asked 32768 0 64 recordIn).1 = .ok initRecord := by decide +kernel

/-- The state that has read it, and the answers left. -/
def read : State × MemIn := (ctlRead asked 32768 0 64 recordIn).2

theorem read_looks : (catLook read.1 0 0 read.2).1 = 0#8 := by decide +kernel

/-- The state that has looked up the entry. -/
def looked : State := (catLook read.1 0 0 read.2).2.1

theorem looked_open : catEnded looked 0 = false := by decide +kernel

theorem looked_passes : createChecks looked 0 (entryAt looked 0) (recordRegion looked (entryAt looked 0) initRecord) = Rc.done := by decide +kernel

/-- The region that the record describes. -/
def newRegion : Region := recordRegion looked (entryAt looked 0) initRecord

theorem newRegion_plain : newRegion.mode = 0 ∧ newRegion.init = true ∧ newRegion.size / 64 = 64 := by decide +kernel

/-- The INIT write of a line of the region. -/
def initEnt (s : State) (i : Nat) : MemEnt :=
  { newEnt s .own .ownWrite (ownWho (newRegion.base / 64 + i)) 0 newRegion (bits s.qos.ctrl.toNat 0 4) none with answered := true }

/-- One line of INIT. -/
def initStep (s : State) (i : Nat) : State := accept s (initEnt s i)

/-! ### The first INIT write: the resident line on it is written back under the catalogue's counters -/

/-- A lane with nothing in its key stores passes a request as it is. -/
theorem lanePass_bare {s : State} (g : Nat) (hs : List KeyHandle) (who : Option Who) (tag : Nat) (hf : s.lane.flaw = []) (hd : s.key.dkc = [])
    (hk : s.key.kill.scramble = none) : lanePass s g hs who tag = (true, s) := by
  have hnone (h : KeyHandle) : scrambled s h = none := by
    unfold scrambled
    rw [hk]
    cases derive s h <;> rfl
  have huse (h : KeyHandle) : ctxPut (keyUse s h) g h = s := by simp [keyUse, dkcHas, hd, dkcPut, ctxPut, hnone]
  have hall : hs.foldl (fun s h => ctxPut (keyUse s h) g h) s = s := by
    induction hs with
    | nil => rfl
    | cons h hs ih => rw [List.foldl_cons, huse, ih]
  have hclear : (serving s g).find? (fun i => (tget s.lane.flaw i).isSome) = none := List.find?_eq_none.mpr fun i _ => by simp [hf]
  simp only [lanePass, hall, hclear]

/-- An operation on a line that the atomic unit holds takes its place behind the line's write. -/
theorem advance_resident {s u : State} {e : MemEnt} {v : Resident} (hat : entAt s e.seq = some e) (hwaits : e.phase = .lineWait)
    (hsource : isRemote e = false) (hkeys : keyGone s e = false) (hhandles : entHandles s e = []) (huncut : snapState (entRegion s e) = 0)
    (hblocked : lineBlocked s e = false) (hhead : headPending s e = false) (hres : residentAt s e.line = some v) (hkind : e.kind ≠ .resident)
    (hback : writeBack s v (some e.seq) = u) (hmode : (entRegion s e).mode ≠ 3) (hfree : lineBlocked (setEnt u (passed e)) (passed e) = false) :
    advance s e.seq = place (setEnt u (passed e)) (passed e) := by
  have hopen : ¬e.phase = .openWait := by simp [hwaits]
  have hhold : holdPhase e.phase = true := by simp [hwaits, holdPhase]
  have hpass : passHeld s e (entRegion s e) = s := by simp [passHeld, hsource]
  have hcut : cutVerdict s e (entRegion s e) = 0 := by simp [cutVerdict, huncut]
  have hbehind : behindHeld s e (entRegion s e) = false := by simp [behindHeld, huncut]
  rw [advance, hat]
  simp only [if_neg hopen, hhold, hkeys, hhandles, hpass, hcut, hbehind, hblocked, hhead, hres, if_neg hkind, hback, Bool.not_true, Bool.false_eq_true,
    if_false, List.filter_nil, List.isEmpty_nil, Nat.zero_ne_one, Bool.or_self, Nat.reduceBEq, Bool.false_and, OfNat.zero_ne_ofNat, hmode, false_and]
  change (if lineBlocked (setEnt u (passed e)) (passed e) = true then waitIn (setEnt u (passed e)) (passed e) (entRegion s e) .lineWait
    else place (setEnt u (passed e)) (passed e)) = _
  rw [hfree, if_neg (by decide)]

/-- The write of a resident line that is dirty takes its place ahead of the operation that drives it out, and is sealed (05 R179). -/
theorem writeBack_dirty {s : State} {v : Resident} {r : Region} (hd : v.dirty = true) (hr : anyRegion (dropResident s v.line) v.region = some r) (q : Nat) :
    writeBack s v (some q) =
      sealEnt (insertBefore (dropResident s v.line) q { newEnt (dropResident s v.line) .own .ownWrite (ownWho v.line) v.region r 0 none with
          plain := v.data, mask := BitVec.allOnes 64, answered := true })
        { newEnt (dropResident s v.line) .own .ownWrite (ownWho v.line) v.region r 0 none with
          plain := v.data, mask := BitVec.allOnes 64, answered := true } := by
  simp only [writeBack, hd, hr, Bool.not_true, Bool.false_eq_true, if_false]

/-- The engine with the first INIT write accepted, and the write of the resident line. -/
def first : MemEnt := initEnt looked 0
def pushed : State := pushEnt looked first
def oldLine : Resident := { line := 1024, data := 0#512, region := catIx, dirty := true }
def dropped : State := dropResident pushed 1024
def back : MemEnt := { newEnt dropped .own .ownWrite (ownWho 1024) catIx (catRegion dropped) 0 none with
  plain := 0#512, mask := BitVec.allOnes 64, answered := true }
def inserted : State := insertBefore dropped first.seq back

/-- The counter line of the catalogue's first page. -/
def lastLine : CtrLine := { major := 0xFFFFFFFF, minors := [(0, 126)], parity := false }

/-- The engine with the counter line fetched, and once the write's minor count has advanced to the last. -/
def fetched : State := (fetchPath inserted back.region (catRegion inserted) (pageOf (catRegion inserted) back.line) back.cls ⟨back.answers⟩).2.1
def full : State := dirtyCtr fetched back.region (catRegion inserted) (pageOf (catRegion inserted) back.line)
  { lastLine with minors := tput lastLine.minors (lineInPage (catRegion inserted) back.line) 127 }

/-- Slot 2 holds no key: the write ends, and the count has advanced. -/
def ended : State := imeReason (dropEnt full back.seq) Rsn.keyRevoked

theorem sealOut_back : sealOut full back (catRegion inserted) 2 0 0xFFFFFFFF 127 = ended := by
  have hlanes : full.lane.flaw = [] := by decide +kernel
  have hcache : full.key.dkc = [] := by decide +kernel
  have hkill : full.key.kill.scramble = none := by decide +kernel
  have hnokey : sealLine full back.region (catRegion inserted) 2 0 back.line 0xFFFFFFFF 127 back.plain = none := by decide +kernel
  unfold sealOut
  rw [lanePass_bare _ _ _ _ hlanes hcache hkill]
  simp only [hnokey]
  rfl

theorem back_counts : Counts fetched back.region (catRegion inserted) (pageOf (catRegion inserted) back.line)
    (lineInPage (catRegion inserted) back.line) bareSlot lastLine 126 :=
  ⟨by decide +kernel, by decide +kernel, by decide +kernel, rfl, by decide, by decide +kernel⟩

theorem sealP3_back : sealP3 inserted back (catRegion inserted) 2 0 bareSlot = ended :=
  (sealP3_counts (by decide) (by decide +kernel) (by decide +kernel) back_counts).trans sealOut_back

theorem sealEnt_back : sealEnt inserted back = ended :=
  (sealEnt_eq_sealP3 (r := catRegion inserted) (by decide +kernel) rfl (by decide +kernel) (by decide +kernel) (by decide +kernel)).trans sealP3_back

theorem writeBack_oldLine : writeBack pushed oldLine (some first.seq) = ended :=
  (writeBack_dirty (r := catRegion dropped) rfl (by decide +kernel) _).trans sealEnt_back

/-- The engine with the first line of the region waiting. -/
def started : State := place (setEnt ended (passed first)) (passed first)

theorem initStep_first : initStep looked 0 = started := by
  have hat : entAt pushed first.seq = some first := by
    have hnone : looked.ime.ents = [] := by decide +kernel
    have hents : pushed.ime.ents = [first] := by rw [pushed, pushEnt, hnone]; rfl
    simp [entAt, hents]
  exact advance_resident hat rfl rfl (by decide +kernel) (by decide +kernel) (by decide +kernel) (by decide +kernel) (by decide +kernel)
    (v := oldLine) (by decide +kernel) (by decide) writeBack_oldLine (by decide +kernel) (by decide +kernel)

/-! ### The rest of the command -/

/-- The engine with every line of the region waiting. -/
def inited : State := ((List.range 63).map (· + 1)).foldl initStep started

theorem initLines_inited : initLines looked 0 newRegion = inited := by
  obtain ⟨-, -, hsize⟩ := newRegion_plain
  have hrange : List.range 64 = 0 :: (List.range 63).map (· + 1) := by decide
  rw [initLines, hsize, hrange, List.foldl_cons]
  exact congrArg (List.foldl initStep · ((List.range 63).map (· + 1))) initStep_first

/-- The INIT writes have used up the last count of the entry, every one of them waits, and no entry has changed. -/
theorem inited_ended : catEnded inited 0 = true := by decide +kernel

theorem inited_placed : (inited.ime.ents.all fun e => !holdPhase e.phase && e.phase != .openWait) = true := by decide +kernel

theorem inited_absent : regionAt inited 0 = none := by decide +kernel

theorem inited_calm : inited.ile.ingress = [] ∧ heldCredits inited = 0 ∧ inited.ime.dying = [] := by decide +kernel

/-- A CREATE of a P0 region that passes its checks, with INIT, writes its lines, and then its entry (04 R117). -/
theorem regionCreate_init {s t : State} {ix : Nat} {b : List Byte} {m m' : MemIn} {r : Region} (hform : recordForm b = true)
    (hlook : catLook s ix 0 m = (0#8, t, m')) (hr : recordRegion t (entryAt t ix) b = r) (hchecks : createChecks t ix (entryAt t ix) r = Rc.done)
    (hopen : catEnded t ix = false) (hmode : r.mode = 0) (hinit : r.init = true) (hbase : r.baseGen = 0) (hroot : r.rootIx = 0) :
    regionCreate s ix b m = (Rc.done, catWrite (initLines t ix r) ix r) := by
  have hsame : { r with baseGen := 0, rootIx := 0 } = r := by
    cases r
    simp_all
  have h3 : ¬r.mode = 3 := by omega
  simp only [regionCreate, hform, hlook, hr, hchecks, hopen, if_pos hmode, if_neg h3, hsame, if_pos hinit, Bool.not_true, Bool.false_eq_true, if_false, if_true,
    ne_eq, not_true_eq_false]

/-- A CREATE whose record is read runs on the state that has read it. -/
theorem regionRun_record {s t : State} {ix : Nat} {b : List Byte} {m m' : MemIn}
    (hread : ctlRead s s.ime.cmdShelf.toNat s.ime.cmdAddr.toNat 64 m = (.ok b, t, m')) : regionRun s 1 ix m = regionCreate t ix b m' := by
  unfold regionRun
  rw [if_neg (by decide), if_pos (by decide), hread]
  rfl

/-- A command that ends with every operation placed ends and leaves the engine at rest. -/
theorem regionDo_placed {s t : State} {ix : Nat} {m : MemIn} {c : Code} (hrun : regionRun s 1 ix m = (c, t))
    (hplaced : allPlaced (regionEnd t c).ime.ents) (hcalm : Calm (regionEnd t c)) : regionDo s 1 ix m = regionEnd t c := by
  unfold regionDo
  rw [hrun]
  change afterMem (if 1 = 2 ∧ c = Rc.done then t else regionEnd t c) = _
  rw [if_neg fun h => absurd h.1 (by decide), afterMem_placed hplaced hcalm]

theorem asked_record : ctlRead asked asked.ime.cmdShelf.toNat asked.ime.cmdAddr.toNat 64 recordIn = (.ok initRecord, read.1, read.2) :=
  Prod.ext asked_reads rfl

theorem read_entry : catLook read.1 0 0 read.2 = (0#8, looked, (catLook read.1 0 0 read.2).2.2) := Prod.ext read_looks rfl

theorem regionRun_create : regionRun asked 1 0 recordIn = (Rc.done, imeReason inited Rsn.counterEnd) := by
  obtain ⟨hmode, hinit, -⟩ := newRegion_plain
  have hcreate := regionCreate_init (r := newRegion) (by decide +kernel) read_entry rfl looked_passes looked_open hmode hinit rfl rfl
  rw [initLines_inited, OwnWork.catWrite_ended inited_ended] at hcreate
  exact (regionRun_record asked_record).trans hcreate

/-- A CREATE that is admitted runs at once where no command runs and the catalogue is formatted. -/
theorem create_admitted {s : State} (hadmit : Safety.admitted s 0x2008) (hidle : s.ime.cmdBusy = false) (hformat : s.ime.formatted = true)
    (ix : BitVec 21) (m : MemIn) :
    exec (.create ix m) s = .next (Safety.okay (regionDo { s with ime := { s.ime with cmdOp := 1, cmdIndex := ix.toNat } } 1 ix.toNat m)) := by
  change Host.Outcome.next (ctlWriteBy s 0x2008 fun s => regionCmd s 1 ix.toNat m) = _
  rw [ctlWriteBy_admitted hadmit]
  simp only [regionCmd, hidle, hformat, Bool.not_true, Bool.false_eq_true, if_false]

/-- The end of a region command leaves the queue, the ingress and every region as they are. -/
theorem regionEnd_placed {s : State} (h : allPlaced s.ime.ents) (c : Code) : allPlaced (regionEnd s c).ime.ents := h

theorem regionEnd_calm {s : State} (h : Calm s) (c : Code) : Calm (regionEnd s c) := ⟨h.ingress, h.credits, h.dying⟩

theorem okay_regionEnd_regionAt (s : State) (c : Code) (ix : Nat) : regionAt (Safety.okay (regionEnd s c)) ix = regionAt s ix := rfl

/-- The engine once the CREATE has ended. -/
def outcome : State := regionEnd (imeReason inited Rsn.counterEnd) Rc.done

theorem regionDo_create : regionDo asked 1 0 recordIn = outcome := by
  obtain ⟨hingress, hcredits, hdying⟩ := inited_calm
  have hown := own_imeReason inited Rsn.counterEnd
  have hplaced : allPlaced inited.ime.ents := by
    intro e he
    simpa using List.all_eq_true.mp inited_placed e he
  exact regionDo_placed regionRun_create (regionEnd_placed (hown.placed hplaced) _) (regionEnd_calm (hown.calm ⟨hingress, hcredits, hdying⟩) _)

theorem outcome_absent : regionAt (Safety.okay outcome) 0 = none :=
  (okay_regionEnd_regionAt ..).trans (((own_imeReason inited Rsn.counterEnd).regionAt 0).trans inited_absent)

theorem lastCount_admitted : Safety.admitted lastCount 0x2008 := ⟨rfl, by decide +kernel⟩

theorem exec_create : exec (.create 0#21 recordIn) lastCount = .next (Safety.okay outcome) :=
  (create_admitted lastCount_admitted rfl rfl 0#21 recordIn).trans (congrArg (fun t => Host.Outcome.next (Safety.okay t)) regionDo_create)

/-- Refutes O27: a CREATE whose checks pass and whose entry's page has a count left before the INIT writes. The first of these drives the dirty resident
line of the same address out of the atomic unit; its write is sealed under the catalogue, takes the last count of entry 0, and the entry that the command
then writes is refused: the command reports DONE, and no region stands at the index. -/
theorem not_regionCommandsComplete : ¬ Obligations.RegionCommandsComplete := by
  rintro ⟨hcreate, -⟩
  obtain ⟨hdone, -⟩ := hcreate 0#21 recordIn read.2 _ initRecord lastCount read.1 looked newRegion lastCount_admitted rfl rfl ⟨rfl, rfl, rfl, rfl⟩
    asked_record (by decide +kernel) read_entry looked_open rfl
  obtain ⟨t, hexec, -, -, -, hlive, -⟩ := hdone looked_passes
  have ht : Safety.okay outcome = t := Host.Outcome.next.inj (exec_create.symm.trans hexec)
  rw [← ht] at hlive
  exact absurd (outcome_absent.symm.trans hlive) (by simp)

end Sys2Proof.Proofs.LastCount

/-! Origination at FABPORT: the gates passed, the first entry of an empty table, the place in a VC (05 R173, R175 to R178, R185). -/
namespace Sys2Proof.Proofs.Originating
open Sys2Proof.Machine

variable {s : State} {q : FabReq} {op : Nat} {fl fe : Bool} {data : List Byte}

/-! ### A place in a VC and an entry of the table (05 R169, R185) -/

/-- An operation of the origination table joins its VC, last in the port's queue. -/
theorem txPut_orig (s : State) (e vc : Nat) (op : FabOp) (deadline : Option Nat) (ix pad : Nat) :
    ∃ x : TxOp, x.vc = vc ∧ x.op = op ∧ x.orig = some ix ∧ x.deadline = deadline
      ∧ txPut s e vc op deadline (some ix) pad = setLport s e { lportAt s e with txq := (lportAt s e).txq ++ [x] } :=
  ⟨_, rfl, rfl, rfl, rfl, rfl⟩

/-- The entry that an operation takes in an empty origination table. -/
def firstOrig (s : State) (src : OrigSrc) (op : FabOp) (vc : Nat) (who : Who) (deadline : Option Nat) (posted : Bool) (msg : Option Nat) (pad : Nat) : Orig :=
  let e := routeEgress (routeOf s op.dest)
  { src := src, op := { op with tag := 0 + 4096 * (dget 0 s.ile.issue 0 % 2 ^ 20), epoch := epochOf s (domLnk e) }, vc := vc, egress := e, who := who
    deadline := deadline, accepted := s.tm.ns, posted := posted, held := false, nacks := 0, resend := false, msg := msg, seq := s.ile.nextMsg, pad := pad }

/-- The first operation of an empty table takes entry 0; nothing is before it to hold it (05 R176). -/
theorem originate_first (h : s.ile.orig = []) (src : OrigSrc) (op : FabOp) (vc : Nat) (who : Who) (deadline : Option Nat) (posted : Bool)
    (msg : Option Nat) (pad : Nat) {o : Orig} (ho : o = firstOrig s src op vc who deadline posted msg pad) :
    originate s src op vc who deadline posted msg pad =
      txPut { s with ile := { s.ile with orig := [(0, o)], nextMsg := s.ile.nextMsg + 1 } } o.egress vc o.op deadline (some 0) pad := by
  have hheld (op : FabOp) (seq : Nat) : flagHeld s src op vc seq = false := by simp [flagHeld, h]
  subst ho
  simp only [originate, hheld, h, tput, firstOrig]
  rfl

theorem origRoom_empty (h : s.ile.orig = []) (cls : Nat) : origRoom s cls 1 = true := by
  have hshare : 1 ≤ classShare s 4096 := by
    unfold classShare
    dsimp only
    split <;> omega
  simp [origRoom, h, hshare]

/-! ### The gates of FABPORT (14 R425; 05 R175, R185) -/

/-- A fabric opcode of FABPORT as the ILE accepts it. -/
def asked (s : State) (q : FabReq) (op : Nat) (fl fe : Bool) (data : List Byte) : HeldOut :=
  { src := .fab q.ch q.tag q.epoch q.mid, who := whoOf s q, deadline := deadlineOf s q.budget, posted := isStoreOp op && !fl && !fe
    op := mkOp s op fl fe false 0 q.addr.toNat q.shelf.toNat q.cls.toNat (whoOf s q).world q.dest.toNat data }

/-- A fabric opcode that every gate passes is originated at once. -/
theorem fabOut_passes (h : Safety.fabricPasses s q) (hf : op = 4 → fld data 0 1 = 11 → (lportAt s (routeEgress (routeOf s q.dest.toNat))).fabVer ≠ 1) :
    fabOut s q op fl fe data = originateFab s (asked s q op fl fe data) := by
  obtain ⟨hclosed, hgate, hroute, hstopped, hlanes, horig, hheld, hcut⟩ := h
  have hfadd : ¬(needsFadd op data = true ∧ (lportAt s (routeEgress (routeOf s q.dest.toNat))).fabVer = 1) := by
    rintro ⟨hn, hv⟩
    simp only [needsFadd, Bool.and_eq_true, beq_iff_eq] at hn
    exact hf hn.1 hn.2 hv
  have hg : fabGate s q (whoOf s q) (decide ((whoOf s q).addr % 64 = 0)) = none := hgate
  simp only [fabOut, hclosed, hg, hroute, hstopped, hlanes, hfadd, hcut, hheld, origRoom_empty horig]
  simp
  rfl

/-- Each fabric opcode of FABPORT is its row of Table 14-5. -/
theorem exec_fabricRow {c : Instr} (h : (c, op, fl, fe, data) ∈ Safety.fabricRows q) (s : State) : exec c s = .next (fabOut s q op fl fe data) := by
  simp only [Safety.fabricRows, List.mem_cons, Prod.mk.injEq, List.not_mem_nil, or_false] at h
  obtain ⟨rfl, rfl, rfl, rfl, rfl⟩ | ⟨rfl, rfl, rfl, rfl, rfl⟩ | ⟨rfl, rfl, rfl, rfl, rfl⟩ | ⟨rfl, rfl, rfl, rfl, rfl⟩ | ⟨rfl, rfl, rfl, rfl, rfl⟩ |
    ⟨rfl, rfl, rfl, rfl, rfl⟩ | ⟨rfl, rfl, rfl, rfl, rfl⟩ := h <;> rfl

theorem posted_iff : (isStoreOp op && !fl && !fe) = true ↔ (op = 2 ∨ op = 3 ∨ op = 4) ∧ fl = false ∧ fe = false := by
  simp [isStoreOp, or_assoc, and_assoc]

/-- The table with one entry, and its operation last in its VC. -/
def joined (s : State) (o : Orig) (x : TxOp) : State :=
  setLport { s with ile := { s.ile with orig := [(0, o)], nextMsg := s.ile.nextMsg + 1 } } o.egress
    { lportAt s o.egress with txq := (lportAt s o.egress).txq ++ [x] }

/-- A completion counted and answered moves only the statistics and the outputs. -/
theorem counted_frame (s : State) (port cls : Nat) (refused : Bool) (deadline : Option Nat) (l : List Out) :
    let t := emits (countOutcome s port cls refused deadline) l
    t.ile = s.ile ∧ t.out = s.out ++ l ∧ t.key = s.key ∧ t.ime = s.ime ∧ t.hob = s.hob ∧ t.flt = s.flt := by
  simp [countOutcome, emits]

theorem lportAt_joined (s : State) (o : Orig) (x : TxOp) : (lportAt (joined s o x) o.egress).txq = (lportAt s o.egress).txq ++ [x] := by
  simp [joined, lportAt_setLport]

/-- The entry of a fabric opcode in an empty table. -/
def askedOrig (s : State) (q : FabReq) (op : Nat) (fl fe : Bool) (data : List Byte) : Orig :=
  firstOrig s (asked s q op fl fe data).src (asked s q op fl fe data).op (vcOfClass s q.cls.toNat) (whoOf s q) (deadlineOf s q.budget)
    (isStoreOp op && !fl && !fe) none data.length

/-- An accepted opcode takes entry 0 of an empty table and its place in its VC; a posted one is answered DONE at once (05 R177, R185). -/
theorem originateFab_first (h : s.ile.orig = []) (q : FabReq) (op : Nat) (fl fe : Bool) (data : List Byte) :
    ∃ x : TxOp, x.vc = vcOfClass s q.cls.toNat ∧ x.op = (askedOrig s q op fl fe data).op ∧ x.orig = some 0
      ∧ originateFab s (asked s q op fl fe data) =
        if isStoreOp op && !fl && !fe then
          emits (countOutcome (joined s (askedOrig s q op fl fe data) x) (qpOfLnk (routeEgress (routeOf s q.dest.toNat))) q.cls.toNat false
            (deadlineOf s q.budget)) (fabBeats s q.ch q.tag q.epoch 0 0#8 (deadlineOf s q.budget) [(0#576, false)])
        else joined s (askedOrig s q op fl fe data) x := by
  obtain ⟨x, hvc, hop, horig, -, hput⟩ :=
    txPut_orig { s with ile := { s.ile with orig := [(0, askedOrig s q op fl fe data)], nextMsg := s.ile.nextMsg + 1 } }
      (askedOrig s q op fl fe data).egress (vcOfClass s q.cls.toNat) (askedOrig s q op fl fe data).op (deadlineOf s q.budget) 0 data.length
  have hstep := (originate_first h _ _ _ _ _ _ _ _ rfl).trans hput
  refine ⟨x, hvc, hop, horig, ?_⟩
  unfold originateFab
  dsimp only
  rw [show originate s (asked s q op fl fe data).src (asked s q op fl fe data).op (vcOfClass s (asked s q op fl fe data).op.cls)
    (asked s q op fl fe data).who (asked s q op fl fe data).deadline (asked s q op fl fe data).posted none
    (asked s q op fl fe data).op.data.length = joined s (askedOrig s q op fl fe data) x from hstep]
  rfl

end Sys2Proof.Proofs.Originating

namespace Sys2Proof.Proofs
open Sys2Proof.Machine Originating

/-- Settles O24: the gates of `fabricPasses` bring the opcode to an empty table, where it takes entry 0 and joins its VC. -/
theorem fabricOpsOriginate : Obligations.FabricOpsOriginate := by
  unfold Obligations.FabricOpsOriginate
  intro q c op fl fe data s hrow hpasses hfadd
  have ⟨_, _, _, _, _, hempty, _, _⟩ := hpasses
  obtain ⟨x, hvc, hop, horig, hstep⟩ := originateFab_first hempty q op fl fe data
  have hmem : x ∈ (lportAt (joined s (askedOrig s q op fl fe data) x) (askedOrig s q op fl fe data).egress).txq := by simp [lportAt_joined]
  rw [exec_fabricRow hrow, fabOut_passes hpasses hfadd, hstep]
  by_cases hposted : (op = 2 ∨ op = 3 ∨ op = 4) ∧ fl = false ∧ fe = false
  · rw [if_pos (posted_iff.mpr hposted), if_pos hposted]
    obtain ⟨hile, hout, hkey, hime, hhob, hflt⟩ := counted_frame (joined s (askedOrig s q op fl fe data) x)
      (qpOfLnk (routeEgress (routeOf s q.dest.toNat))) q.cls.toNat false (deadlineOf s q.budget)
      (fabBeats s q.ch q.tag q.epoch 0 0#8 (deadlineOf s q.budget) [(0#576, false)])
    refine ⟨_, askedOrig s q op fl fe data, rfl, ?_, rfl, rfl, rfl, rfl, rfl, rfl, rfl, rfl, rfl, rfl, rfl, rfl, rfl, rfl, rfl, rfl,
      ⟨x, ?_, horig, hvc, hop⟩, hout, hkey, hime, hhob, hflt⟩
    · rw [hile]
      rfl
    · rw [lportAt, hile]
      exact hmem
  · rw [if_neg (fun h => hposted (posted_iff.mp h)), if_neg hposted]
    exact ⟨_, askedOrig s q op fl fe data, rfl, rfl, rfl, rfl, rfl, rfl, rfl, rfl, rfl, rfl, rfl, rfl, rfl, rfl, rfl, rfl, rfl, rfl,
      ⟨x, hmem, horig, hvc, hop⟩, (List.append_nil _).symm, rfl, rfl, rfl, rfl⟩

end Sys2Proof.Proofs

/-! A link or D2D port: what each of its operations writes, and what the port, its pins and its session slot are after it (05 R153 to R159, R188; 14 R436). -/
namespace Sys2Proof.Proofs.LinkPorts
open Sys2Proof.Machine

variable (s : State) (e : Nat)

/-! ### A port, its pins and a slot after an update of something else -/

@[simp] theorem lportAt_setLnkPin (v : LnkPin) (j : Nat) : lportAt (setLnkPin s e v) j = lportAt s j := rfl
@[simp] theorem lportAt_emit (o : Out) (j : Nat) : lportAt (emit s o) j = lportAt s j := rfl
@[simp] theorem lnkPin_emit (o : Out) (j : Nat) : lnkPin (emit s o) j = lnkPin s j := rfl
@[simp] theorem lnkPin_setLport (p : LPort) (j : Nat) : lnkPin (setLport s e p) j = lnkPin s j := rfl
@[simp] theorem slotAt_setLport (p : LPort) (j : Nat) : slotAt (setLport s e p) j = slotAt s j := rfl
@[simp] theorem slotAt_setLnkPin (v : LnkPin) (j : Nat) : slotAt (setLnkPin s e v) j = slotAt s j := rfl

/-! ### Fault records of a port (11 R331, R332) -/

/-- A record depends on the annals, the charter, the epochs and the counts of AON alone. -/
theorem mkRecord_congr {s t : State} (hflt : t.flt = s.flt) (hflash : t.flash = s.flash) (hchr : t.gen.charter = s.gen.charter) (hdom : t.dom = s.dom)
    (htm : t.tm = s.tm) (c u loc act : Nat) (rsn : Code) (who : Option Who) (detail : Nat) :
    mkRecord t c u loc act rsn who detail = mkRecord s c u loc act rsn who detail := by
  have hlimit : annalsLimit t c = annalsLimit s c := by simp [annalsLimit, secBody, hchr]
  have hverdict : verdictOf t c u loc = verdictOf s c u loc := by
    simp [verdictOf, standing, verdictCount, unitRecords, hlimit, hflash, hflt]
  have hepoch : unitEpoch t u = unitEpoch s u := by simp [unitEpoch, epochOf, domAt, hdom]
  simp [mkRecord, hverdict, hepoch, hflt, hflash, htm]

/-- A queue with room takes the record at its end. -/
theorem record_queue_room {s : State} (h : s.flt.queue.length < 256) (c u loc act : Nat) (rsn : Code) (who : Option Who) (detail : Nat) :
    (record s c u loc act rsn who detail).flt.queue = s.flt.queue ++ [mkRecord s c u loc act rsn who detail] := by
  rw [LastPlace.record_queue, queueRecord, if_pos h]

@[simp] theorem lportAt_record (c u loc act : Nat) (rsn : Code) (who : Option Who) (detail j : Nat) :
    lportAt (record s c u loc act rsn who detail) j = lportAt s j := by simp [lportAt]

@[simp] theorem lnkPin_record (c u loc act : Nat) (rsn : Code) (who : Option Who) (detail j : Nat) :
    lnkPin (record s c u loc act rsn who detail) j = lnkPin s j := by simp [lnkPin]

@[simp] theorem slotAt_record (c u loc act : Nat) (rsn : Code) (who : Option Who) (detail j : Nat) :
    slotAt (record s c u loc act rsn who detail) j = slotAt s j := by simp [slotAt]

/-! ### A change of state (05 Table 5-1; 15 Table 15-5) -/

/-- Entering a state writes the ports, the PORT source, and for HELLO the port reset it completes. -/
theorem setPortSt_eq (st : PortSt) : ∃ ports irq running, setPortSt s e st =
    { s with ile := { s.ile with ports := ports }, gen := { s.gen with irqStatus := irq }, flt := { s.flt with running := running } } := by
  refine ⟨(setPortSt s e st).ile.ports, (setPortSt s e st).gen.irqStatus, (setPortSt s e st).flt.running, ?_⟩
  unfold setPortSt
  dsimp only
  split
  · rfl
  · split <;> rfl

theorem lportAt_setPortSt (st : PortSt) (j : Nat) : lportAt (setPortSt s e st) j = if e = j then { lportAt s e with st := st } else lportAt s j := by
  unfold setPortSt
  dsimp only
  split
  · next h => subst h; split <;> simp_all
  · split <;> exact lportAt_setLport ..

section
variable (st : PortSt)

@[simp] theorem setPortSt_pin : (setPortSt s e st).pin = s.pin := by obtain ⟨_, _, _, h⟩ := setPortSt_eq s e st; rw [h]
@[simp] theorem setPortSt_dom : (setPortSt s e st).dom = s.dom := by obtain ⟨_, _, _, h⟩ := setPortSt_eq s e st; rw [h]
@[simp] theorem setPortSt_tm : (setPortSt s e st).tm = s.tm := by obtain ⟨_, _, _, h⟩ := setPortSt_eq s e st; rw [h]
@[simp] theorem setPortSt_lane : (setPortSt s e st).lane = s.lane := by obtain ⟨_, _, _, h⟩ := setPortSt_eq s e st; rw [h]
@[simp] theorem setPortSt_key : (setPortSt s e st).key = s.key := by obtain ⟨_, _, _, h⟩ := setPortSt_eq s e st; rw [h]
@[simp] theorem setPortSt_ime : (setPortSt s e st).ime = s.ime := by obtain ⟨_, _, _, h⟩ := setPortSt_eq s e st; rw [h]
@[simp] theorem setPortSt_cals : (setPortSt s e st).ile.cals = s.ile.cals := by obtain ⟨_, _, _, h⟩ := setPortSt_eq s e st; rw [h]
@[simp] theorem setPortSt_hob : (setPortSt s e st).hob = s.hob := by obtain ⟨_, _, _, h⟩ := setPortSt_eq s e st; rw [h]
@[simp] theorem setPortSt_queue : (setPortSt s e st).flt.queue = s.flt.queue := by obtain ⟨_, _, _, h⟩ := setPortSt_eq s e st; rw [h]
@[simp] theorem setPortSt_out : (setPortSt s e st).out = s.out := by obtain ⟨_, _, _, h⟩ := setPortSt_eq s e st; rw [h]
@[simp] theorem setPortSt_lnkPin (j : Nat) : lnkPin (setPortSt s e st) j = lnkPin s j := by simp [lnkPin]
@[simp] theorem setPortSt_slotAt (j : Nat) : slotAt (setPortSt s e st) j = slotAt s j := by simp [slotAt]

end

/-! ### The end of a window and of a session (05 R155, R188) -/

/-- The end of a window writes the port's grant, the lanes lent and the windows. -/
theorem endLinkCal_eq : ∃ lnk lent cals, endLinkCal s e =
    { s with pin := { s.pin with lnk := lnk }, lane := { s.lane with lent := lent }, ile := { s.ile with cals := cals } } := by
  unfold endLinkCal
  split
  · exact ⟨_, _, _, rfl⟩
  · exact ⟨s.pin.lnk, s.lane.lent, s.ile.cals, rfl⟩

/-- The link level and LNK_EN stay when a window ends. -/
theorem lnkPin_endLinkCal : (lnkPin (endLinkCal s e) e).up = (lnkPin s e).up ∧ (lnkPin (endLinkCal s e) e).en = (lnkPin s e).en := by
  unfold endLinkCal
  split
  · have h : lnkPin (setLnkPin s e { lnkPin s e with calGnt := false, calSeenLow := !(lnkPin s e).calReq }) e = _ := (lnkPin_setLnkPin ..).trans (if_pos rfl)
    exact ⟨(congrArg LnkPin.up h :), (congrArg LnkPin.en h :)⟩
  · exact ⟨rfl, rfl⟩

theorem lportAt_endLinkCal (j : Nat) : lportAt (endLinkCal s e) j = lportAt s j := by
  obtain ⟨lnk, lent, cals, h⟩ := endLinkCal_eq s e
  rw [h]
  rfl

/-- A port that has lost its session: state, FAIL, THRESH_LOG2, shaping and the operations that wait remain. -/
def cleared (p : LPort) : LPort :=
  { st := p.st, resume := p.resume, fail := p.fail, resetAsked := p.resetAsked, rekeyCtrl := p.rekeyCtrl, txq := p.txq, shape := p.shape, shadow := p.shadow }

theorem lportAt_clearSession (j : Nat) : lportAt (clearSession s e) j = if e = j then cleared (lportAt s e) else lportAt s j := by
  rw [clearSession, lportAt_setLport]
  rfl

theorem slotAt_clearSession : slotAt (clearSession s e) (sessSlot e) = none := by
  rw [clearSession, slotAt_setLport, emptySlot, slotAt_setSlot, if_pos rfl]

/-- The window and the session of a port gone: what the fall of its link begins with. -/
def fallen : State := clearSession (endLinkCal s e) e

theorem lportAt_fallen (j : Nat) : lportAt (fallen s e) j = if e = j then cleared (lportAt s e) else lportAt s j := by
  rw [fallen, lportAt_clearSession, lportAt_endLinkCal, lportAt_endLinkCal]

theorem lnkPin_fallen : (lnkPin (fallen s e) e).up = (lnkPin s e).up := by
  rw [← (lnkPin_endLinkCal s e).1, fallen, clearSession, lnkPin_setLport]
  rfl

/-- It leaves the outputs, the annals and the counts of AON. -/
theorem fallen_frame : (fallen s e).out = s.out ∧ (fallen s e).tm = s.tm ∧ (fallen s e).dom = s.dom ∧ (fallen s e).flash = s.flash
    ∧ (fallen s e).gen = s.gen ∧ (fallen s e).flt = s.flt := by
  obtain ⟨lnk, lent, cals, h⟩ := endLinkCal_eq s e
  rw [fallen, h]
  exact ⟨rfl, rfl, rfl, rfl, rfl, rfl⟩

theorem lportAt_portDown (j : Nat) : lportAt (portDown s e) j = if e = j then { cleared (lportAt s e) with st := .down } else lportAt s j := by
  change lportAt (setPortSt (fallen s e) e .down) j = _
  rw [lportAt_setPortSt, lportAt_fallen, lportAt_fallen, if_pos rfl]
  split <;> rfl

/-! ### A bring-up that fails (05 R159, Table 5-4) -/

/-- The state a bring-up that failed with a code leaves its port in: DOWN for a retry, or held in FAILED. -/
def failSt (code : Nat) : PortSt := if 7 ≤ code then .down else .failed

/-- FAIL set, and the record queued: a failed bring-up but for the state it enters. -/
def failNoted (code : Nat) : State :=
  recordPlain (setLport (fallen s e) e { lportAt (fallen s e) e with fail := code, stepAt := (fallen s e).tm.ns }) Flc.linkBringup 2 (qpOfLnk e) 0

theorem bringupFail_eq (code : Nat) : bringupFail s e code =
    setPortSt (if 7 ≤ code then failNoted s e code else setLnkPin (failNoted s e code) e { lnkPin (failNoted s e code) e with en := false }) e (failSt code) := by
  unfold bringupFail failSt
  split <;> rfl

theorem lportAt_failNoted (code j : Nat) : lportAt (failNoted s e code) j =
    if e = j then { cleared (lportAt s e) with fail := code, stepAt := s.tm.ns } else lportAt s j := by
  obtain ⟨-, htm, -⟩ := fallen_frame s e
  simp only [failNoted, recordPlain, lportAt_record, lportAt_setLport, lportAt_fallen, htm, if_pos]
  split <;> rfl

theorem lportAt_bringupFail (code j : Nat) : lportAt (bringupFail s e code) j =
    if e = j then { cleared (lportAt s e) with fail := code, stepAt := s.tm.ns, st := failSt code } else lportAt s j := by
  have hnoted (j : Nat) : lportAt (if 7 ≤ code then failNoted s e code else
      setLnkPin (failNoted s e code) e { lnkPin (failNoted s e code) e with en := false }) j = lportAt (failNoted s e code) j := by
    split <;> rfl
  rw [bringupFail_eq, lportAt_setPortSt, hnoted, hnoted, lportAt_failNoted, lportAt_failNoted, if_pos rfl]
  split <;> rfl

/-- A failed bring-up puts nothing on a port, empties the session's slot, and records LINK_BRINGUP (11 R331). -/
theorem bringupFail_leaves (code : Nat) : (bringupFail s e code).out = s.out ∧ slotAt (bringupFail s e code) (sessSlot e) = none
    ∧ (s.flt.queue.length < 256 → (bringupFail s e code).flt.queue = s.flt.queue ++ [mkRecord s Flc.linkBringup 2 (qpOfLnk e) 0 0#8 none 0]) := by
  have hslot : slotAt (fallen s e) (sessSlot e) = none := slotAt_clearSession ..
  obtain ⟨hout, -, hdom, hflash, hgen, hflt⟩ := fallen_frame s e
  have htm := (fallen_frame s e).2.1
  rw [bringupFail_eq, setPortSt_out, setPortSt_slotAt, setPortSt_queue]
  have hqueue (hroom : s.flt.queue.length < 256) :
      (failNoted s e code).flt.queue = s.flt.queue ++ [mkRecord s Flc.linkBringup 2 (qpOfLnk e) 0 0#8 none 0] := by
    rw [failNoted, recordPlain, record_queue_room (by simpa [hflt] using hroom), mkRecord_congr (s := s) (by simp [hflt]) (by simp [hflash]) (by simp [hgen])
      (by simp [hdom]) (by simp [htm]), setLport_flt, hflt]
  split
  · exact ⟨by simp [failNoted, recordPlain, hout], by simp [failNoted, recordPlain, hslot], hqueue⟩
  · exact ⟨by simp [failNoted, recordPlain, hout], by simp [failNoted, recordPlain, hslot], hqueue⟩

/-- A port held in FAILED no longer drives LNK_EN. -/
theorem bringupFail_en {code : Nat} (h : code < 7) : (lnkPin (bringupFail s e code) e).en = false := by
  rw [bringupFail_eq, if_neg (by omega), setPortSt_lnkPin, lnkPin_setLnkPin, if_pos rfl]

/-! ### A port that comes up (05 R156, R157) -/

/-- A random value drawn moves the DRBG's count and the free values alone (03 R101). -/
theorem drbgTake_eq (w : Nat) : ∃ reqs due ix, (drbgTake w s).2 = { s with key := { s.key with drbgReqs := reqs, reseedDue := due }, freeIx := ix } := by
  unfold drbgTake
  dsimp only
  split <;> exact ⟨_, _, _, rfl⟩

theorem msgAt_keepMsg (i : Nat) (m : List Byte) (j : Nat) : msgAt (keepMsg s e i m) e j = if i = j then m else msgAt s e j := by
  have hport : lportAt (keepMsg s e i m) e = { lportAt s e with msgs := tput (lportAt s e).msgs i m, stepAt := s.tm.ns } :=
    (lportAt_setLport ..).trans (if_pos rfl)
  simp only [msgAt, hport, dget, tget_tput]
  split <;> rfl

theorem lportAt_keepMsg (i : Nat) (m : List Byte) (j : Nat) : lportAt (keepMsg s e i m) j =
    if e = j then { lportAt s e with msgs := tput (lportAt s e).msgs i m, stepAt := s.tm.ns } else lportAt s j := lportAt_setLport ..

/-- A bring-up message as its frame carries it (05 R157, R162). -/
theorem sendBringup_eq (m : List Byte) : sendBringup s e m = emit s (.frame e (Safety.bringFrame m)) := rfl

end Sys2Proof.Proofs.LinkPorts

/-! LINK_UP, LINK_DOWN, BRINGUP_TIMEOUT and BRINGUP_RETRY (05 R155, R156, R158, R159). -/
namespace Sys2Proof.Proofs.LinkPorts
open Sys2Proof.Machine

variable {s : State} {e : Nat}

theorem mayBringUp_released (hp : s.pin.pwrok = true) (hpresent : lnkPresent s e = true) (hen : (lnkPin s e).en = true) (hup : (lnkPin s e).up = true)
    (hc : coreDown s = false) (hd : (domAt s (domLnk e)).inReset = false) (ht : s.key.tampered = false) : mayBringUp s e = true := by
  simp [mayBringUp, hp, hpresent, hen, hup, hc, hd, ht]

/-- A released port that is DOWN sends its HELLO with a fresh nonce and enters HELLO. -/
theorem startHello_sends (hup : mayBringUp s e = true) (hst : (lportAt s e).st = .down) (hdrbg : drbgServes s = true) :
    ∃ n, (lportAt (startHello s e) e).st = .hello ∧ msgAt (startHello s e) e 0 = helloBytes s e n ∧ lnkPin (startHello s e) e = lnkPin s e
      ∧ (startHello s e).out = s.out ++ [Out.frame e (Safety.bringFrame (helloBytes s e n))] ∧ (startHello s e).ime = s.ime ∧ (startHello s e).hob = s.hob := by
  obtain ⟨reqs, due, ix, hdraw⟩ := drbgTake_eq s 256
  have hbytes : helloBytes (drbgTake 256 s).2 e (drbgTake 256 s).1 = helloBytes s e (drbgTake 256 s).1 := by rw [hdraw]; rfl
  have hstep : startHello s e = sendBringup (keepMsg (setPortSt (clearSession (drbgTake 256 s).2 e) e .hello) e 0 (helloBytes s e (drbgTake 256 s).1)) e
      (helloBytes s e (drbgTake 256 s).1) := by
    simp [startHello, hup, hst, hdrbg, hbytes]
  refine ⟨(drbgTake 256 s).1, ?_⟩
  rw [hstep, hdraw, sendBringup_eq]
  have hmsg (t : State) (o : Out) (j : Nat) : msgAt (emit t o) e j = msgAt t e j := rfl
  have hclear (k : Key) (i : Nat) : lnkPin (clearSession { s with key := k, freeIx := i } e) e = lnkPin s e := rfl
  refine ⟨?_, ?_, ?_, ?_, ?_, ?_⟩
  · rw [lportAt_emit, lportAt_keepMsg, if_pos rfl, lportAt_setPortSt, if_pos rfl]
  · rw [hmsg, msgAt_keepMsg, if_pos rfl]
  · rw [lnkPin_emit, keepMsg, lnkPin_setLport, setPortSt_lnkPin, hclear]
  · rw [emit, keepMsg, setLport_out, setPortSt_out]
    rfl
  · rw [emit_ime, keepMsg, setLport_ime, setPortSt_ime]
    rfl
  · rw [emit_hob, keepMsg, setLport_hob, setPortSt_hob]
    rfl

/-- LINK_UP at a released port that is DOWN. -/
theorem linkUp_sends (hp : s.pin.pwrok = true) (hpresent : lnkPresent s e = true) (hen : (lnkPin s e).en = true) (hc : coreDown s = false)
    (hd : (domAt s (domLnk e)).inReset = false) (ht : s.key.tampered = false) (hst : (lportAt s e).st = .down) (hdrbg : drbgServes s = true) :
    ∃ t n, exec (.linkUp e) s = .next t ∧ (lnkPin t e).up = true ∧ (lportAt t e).st = .hello ∧ msgAt t e 0 = helloBytes s e n
      ∧ t.out = s.out ++ [Out.frame e (Safety.bringFrame (helloBytes s e n))] ∧ t.ime = s.ime ∧ t.hob = s.hob := by
  have hpin : lnkPin (setLnkPin s e { lnkPin s e with up := true }) e = { lnkPin s e with up := true } := (lnkPin_setLnkPin ..).trans (if_pos rfl)
  have hup := mayBringUp_released (s := setLnkPin s e { lnkPin s e with up := true }) hp hpresent (by rw [hpin]; exact hen) (by rw [hpin]) hc hd ht
  obtain ⟨n, hhello, hmsg, hsame, hout, hime, hhob⟩ := startHello_sends hup hst hdrbg
  have hstep : linkUp s e = startHello (setLnkPin s e { lnkPin s e with up := true }) e := by simp [linkUp, hp, hpresent, hen]
  refine ⟨_, n, congrArg Host.Outcome.next hstep, ?_, hhello, hmsg, hout, hime, hhob⟩
  rw [hsame, hpin]

/-- BRINGUP_RETRY at a port that dropped for a timeout or a malformed message 100 ms ago. -/
theorem bringupRetry_sends (hup : mayBringUp s e = true) (hst : (lportAt s e).st = .down) (hdrbg : drbgServes s = true)
    (hfail : (lportAt s e).fail = 8 ∨ (lportAt s e).fail = 9) (hwait : (lportAt s e).stepAt + 100000000 ≤ s.tm.ns) :
    ∃ t n, exec (.bringupRetry e) s = .next t ∧ (lportAt t e).st = .hello ∧ msgAt t e 0 = helloBytes s e n
      ∧ t.out = s.out ++ [Out.frame e (Safety.bringFrame (helloBytes s e n))] ∧ t.ime = s.ime ∧ t.hob = s.hob := by
  obtain ⟨n, hhello, hmsg, -, hout, hime, hhob⟩ := startHello_sends hup hst hdrbg
  exact ⟨_, n, congrArg Host.Outcome.next (if_pos ⟨hfail, hwait⟩), hhello, hmsg, hout, hime, hhob⟩

/-- LINK_DOWN at a present port that is not FAILED. -/
theorem linkDown_falls (hp : s.pin.pwrok = true) (hpresent : lnkPresent s e = true) (hst : (lportAt s e).st ≠ .failed) :
    exec (.linkDown e) s = .next (portDown (setLnkPin s e { lnkPin s e with up := false }) e) := by
  change Host.Outcome.next (linkDown s e) = _
  simp [linkDown, hp, hpresent, hst]

end Sys2Proof.Proofs.LinkPorts

namespace Sys2Proof.Proofs
open Sys2Proof.Machine LinkPorts

/-- Settles O29: `startHello` for the two commands that begin a bring-up, `portDown` and `bringupFail` for the two that end it. -/
theorem bringUpSends : Obligations.BringUpSends := by
  unfold Obligations.BringUpSends
  refine ⟨?_, ?_, ?_⟩
  · intro e s hp hpresent hen hc hd ht hst hdrbg
    refine ⟨linkUp_sends hp hpresent hen hc hd ht hst hdrbg, fun hup hfail hwait => ?_⟩
    exact bringupRetry_sends (mayBringUp_released hp hpresent hen hup hc hd ht) hst hdrbg hfail hwait
  · intro e s hp hpresent hst
    have hport (j : Nat) := lportAt_portDown (setLnkPin s e { lnkPin s e with up := false }) e j
    have hself : lportAt _ e = _ := (hport e).trans (if_pos rfl)
    refine ⟨_, linkDown_falls hp hpresent hst, ?_, ?_, ?_, ?_, ?_, ?_, ?_, ?_, fun x hx => (hport x).trans (if_neg (Ne.symm hx))⟩
    · change (lnkPin (setPortSt (fallen _ e) e .down) e).up = false
      rw [setPortSt_lnkPin, lnkPin_fallen, lnkPin_setLnkPin, if_pos rfl]
    · rw [hself]
    · rw [hself]; rfl
    · rw [hself]; rfl
    · rw [hself]; rfl
    · exact (setPortSt_slotAt ..).trans (slotAt_clearSession ..)
    · rw [hself]; rfl
    · exact (setPortSt_out ..).trans (fallen_frame _ e).1
  · intro e s hst hwait hroom
    have hport := lportAt_bringupFail s e 8
    have hself : lportAt _ e = _ := (hport e).trans (if_pos rfl)
    obtain ⟨hout, hslot, hqueue⟩ := bringupFail_leaves s e 8
    refine ⟨_, congrArg Host.Outcome.next (if_pos ⟨hst, hwait⟩), ?_, ?_, ?_, hslot, hqueue hroom, hout, fun x hx => (hport x).trans (if_neg (Ne.symm hx))⟩
    · rw [hself]; rfl
    · rw [hself]
    · rw [hself]; rfl

end Sys2Proof.Proofs

/-! Sealed frames as a port sends them: what the pass through its lanes leaves, the frame, and the port after it (01 R17, R22, R23; 05 R163 to R166). -/
namespace Sys2Proof.Proofs.SealedFrames
open Sys2Proof.Machine Memory OwnWork LinkPorts

variable {s t u : State} {e : Nat}

/-! ### What a pass through the lanes leaves (01 R22, R23) -/

/-- `t` differs from `s` at most by a pass through the lanes: keys cached and buffered, lanes fenced, and their records. -/
def Passed (s t : State) : Prop :=
  t = { s with
    key := { s.key with dkc := t.key.dkc }, lane := { t.lane with lent := s.lane.lent }, flt := t.flt, flash := t.flash
    gen := { s.gen with irqStatus := t.gen.irqStatus } }

theorem Passed.refl (s : State) : Passed s s := rfl

theorem Passed.trans (h : Passed s t) (h' : Passed t u) : Passed s u := by
  unfold Passed at *
  rw [h] at h'
  exact h'

theorem passed_of_recorded (h : Recorded s t) : Passed s t := by
  unfold Recorded at h
  rw [h]
  rfl

theorem passed_setLane (s : State) (i : Nat) (v : Lane) : Passed s (setLane s i v) := rfl

theorem passed_fenceLane (s : State) (i : Nat) : Passed s (fenceLane s i) := by
  unfold fenceLane
  dsimp only
  split <;> rfl

theorem passed_fenceFault (s : State) (i : Nat) (who : Option Who) (tag : Nat) : Passed s (fenceFault s i who tag) := by
  unfold fenceFault
  have hfence := passed_fenceLane s i
  generalize fenceLane s i = u at hfence ⊢
  exact (hfence.trans (passed_setLane u i _)).trans (passed_of_recorded (recorded_record ..))

theorem passed_lanePass (s : State) (g : Nat) (hs : List KeyHandle) (who : Option Who) (tag : Nat) : Passed s (lanePass s g hs who tag).2 := by
  obtain ⟨c, d, hkeys⟩ := keysUse_eq g hs s
  have hk : Passed s { s with key := { s.key with dkc := c }, lane := { s.lane with ctx := d } } := rfl
  unfold lanePass
  rw [hkeys]
  generalize { s with key := { s.key with dkc := c }, lane := { s.lane with ctx := d } } = u at hk ⊢
  dsimp only
  split
  · exact hk
  · next i _ =>
    have hflaw : Passed u { u with lane := { u.lane with flaw := tdel u.lane.flaw i } } := rfl
    have hfence := (hk.trans hflaw).trans (passed_fenceFault _ i who tag)
    split
    · exact hfence
    · dsimp only
      split
      · exact hfence
      · exact hfence.trans (passed_fenceFault ..)

theorem passed_formPass (s : State) (e : Nat) (tx : Bool) (who : Option Who) (tag : Nat) : Passed s (formPass s e tx who tag).2 := passed_lanePass ..

/-- With no lane about to fail its compare the pass succeeds, and caches keys alone. -/
theorem formPass_clear (hflaw : s.lane.flaw = []) (e : Nat) (tx : Bool) (who : Option Who) (tag : Nat) :
    ∃ c d, formPass s e tx who tag = (true, { s with key := { s.key with dkc := c }, lane := { s.lane with ctx := d } }) := lanePass_clear _ _ _ _ _ hflaw

theorem Passed.ile (h : Passed s t) : t.ile = s.ile := by rw [h]
theorem Passed.pin (h : Passed s t) : t.pin = s.pin := by rw [h]
theorem Passed.out (h : Passed s t) : t.out = s.out := by rw [h]
theorem Passed.slots (h : Passed s t) : t.key.slots = s.key.slots := by rw [h]
theorem Passed.lent (h : Passed s t) : t.lane.lent = s.lane.lent := by rw [h]
theorem Passed.lportAt (h : Passed s t) (j : Nat) : lportAt t j = lportAt s j := by rw [h]; rfl
theorem Passed.sessUse (h : Passed s t) (j : Nat) (tx : Bool) : sessUse t j tx = sessUse s j tx := by rw [h]; rfl
theorem Passed.sessKey (h : Passed s t) (j : Nat) (tx : Bool) : sessKey t j tx = sessKey s j tx := by rw [h]; rfl
theorem Passed.openFrame (h : Passed s t) (j : Nat) (f : Frame) : openFrame t j f = openFrame s j f := by rw [h]; rfl

/-! ### The frame (05 R162 to R166) -/

/-- The frame that seals content at a port's next sequence under a key and salt. -/
def sealedFrame (s : State) (e ftype vc : Nat) (content : List Byte) (size : Nat) (k : BitVec 256 × List Byte) : Frame :=
  let p := lportAt s e
  let iv := frameIv k.2 p.txSeq
  let c := gcmCrypt k.1 iv (padTo size (innerBytes ftype vc content.length (creditField p) ++ content))
  let f : Frame :=
    { version := BitVec.ofNat 8 p.portVer, kind := 0#8, payloadLen := BitVec.ofNat 16 size, session := BitVec.ofNat 32 (sessUse s e true).2
      sequence := BitVec.ofNat 64 p.txSeq, payload := c, tag := 0#128 }
  { f with tag := gcmTag k.1 iv (outerBytes f) c }

/-- The sequence beyond which no frame of a type goes (05 R166). -/
def frameLimit (s : State) (e ftype : Nat) : Nat := if ftype ≤ 1 then seqLimit (lportAt s e) else seqLimit (lportAt s e) + 16

/-- What a port keeps for a resend once it has sent a frame (05 R165). -/
def keptWith (s : State) (e : Nat) (f : Frame) : List (Nat × Frame) :=
  let kept := (lportAt s e).replay ++ [((lportAt s e).txSeq, f)]
  kept.drop (kept.length - if e < 16 then 128 else 256)

/-- A port after a frame: the next sequence, nothing left to report, the frame kept. -/
def portSent (s : State) (e : Nat) (f : Frame) : LPort :=
  { lportAt s e with txSeq := (lportAt s e).txSeq + 1, freed := [], replay := keptWith s e f }

/-- A port with a session key and a sequence left sends its frame; without one it only passes its lanes. -/
theorem sendSealed_eq (s : State) (e ftype vc : Nat) (content : List Byte) (size : Nat) :
    ∃ u, Passed s u ∧ sendSealed s e ftype vc content size =
      if frameLimit s e ftype ≤ (lportAt s e).txSeq then u
      else match sessKey s e true with
        | none => u
        | some k => emit (setLport u e (portSent s e (sealedFrame s e ftype vc content size k))) (Out.frame e (sealedFrame s e ftype vc content size k)) := by
  have hu : Passed s (if ftype = 0 then s else (formPass s e true none 0).2) := by
    split
    · exact .refl s
    · exact passed_formPass ..
  unfold sendSealed
  generalize (if ftype = 0 then s else (formPass s e true none 0).2) = u at hu ⊢
  refine ⟨u, hu, ?_⟩
  dsimp only
  rw [hu.lportAt, hu.sessKey, hu.sessUse]
  cases sessKey s e true with
  | none => rfl
  | some k => rfl

/-- A port with a session key and a sequence left sends its frame: the next sequence follows, and what was freed has been reported. -/
theorem sendSealed_sends {k : BitVec 256 × List Byte} (hk : sessKey s e true = some k) {ftype : Nat}
    (hlim : (lportAt s e).txSeq < frameLimit s e ftype) (vc : Nat) (content : List Byte) (size : Nat) :
    ∃ u, Passed s u ∧ sendSealed s e ftype vc content size =
      emit (setLport u e (portSent s e (sealedFrame s e ftype vc content size k))) (Out.frame e (sealedFrame s e ftype vc content size k)) := by
  obtain ⟨u, hu, hsend⟩ := sendSealed_eq s e ftype vc content size
  refine ⟨u, hu, ?_⟩
  rw [hsend, if_neg (Nat.not_le.mpr hlim), hk]

/-- Whether or not a frame goes, a pass is all that happens but at the port, and there its sequence, its report and its kept frames alone move. -/
theorem sendSealed_cases (s : State) (e ftype vc : Nat) (content : List Byte) (size : Nat) :
    ∃ u, Passed s u ∧ (sendSealed s e ftype vc content size = u ∨
      ∃ f, sendSealed s e ftype vc content size = emit (setLport u e (portSent s e f)) (Out.frame e f)) := by
  obtain ⟨u, hu, hsend⟩ := sendSealed_eq s e ftype vc content size
  refine ⟨u, hu, ?_⟩
  rw [hsend]
  split
  · exact .inl rfl
  · split
    · exact .inl rfl
    · exact .inr ⟨_, rfl⟩

end Sys2Proof.Proofs.SealedFrames

/-! Rekeys, the sequences of a port, and the frames that carry credits and cadences (05 R163, R166, R167, R170, R189). -/
namespace Sys2Proof.Proofs.Rekeys
open Sys2Proof.Machine Memory OwnWork LinkPorts SealedFrames

variable {s t : State} {e : Nat}

/-! ### Frames without an operation -/

theorem lportAt_frameSent (u : State) (p : LPort) (f : Frame) : lportAt (emit (setLport u e p) (Out.frame e f)) e = p :=
  (lportAt_setLport ..).trans (if_pos rfl)

/-- A sealed frame, sent or not, leaves the port's state, its rekey and its session, and every key slot. -/
theorem sendSealed_keeps (s : State) (e ftype vc : Nat) (content : List Byte) (size : Nat) :
    (lportAt (sendSealed s e ftype vc content size) e).st = (lportAt s e).st ∧ (lportAt (sendSealed s e ftype vc content size) e).rekey = (lportAt s e).rekey
      ∧ (lportAt (sendSealed s e ftype vc content size) e).session = (lportAt s e).session
      ∧ (sendSealed s e ftype vc content size).key.slots = s.key.slots := by
  obtain ⟨u, hu, hidle | ⟨f, hsent⟩⟩ := sendSealed_cases s e ftype vc content size
  · rw [hidle, hu.lportAt, hu.slots]
    exact ⟨rfl, rfl, rfl, rfl⟩
  · rw [hsent, lportAt_frameSent, emit_key, setLport_key, hu.slots]
    exact ⟨rfl, rfl, rfl, rfl⟩

/-- So does a REKEY, which goes at once or waits for a window's end. -/
theorem sendRekey_keeps (s : State) (e : Nat) : (lportAt (sendCtl s e 4) e).st = (lportAt s e).st ∧ (lportAt (sendCtl s e 4) e).rekey = (lportAt s e).rekey
    ∧ (lportAt (sendCtl s e 4) e).session = (lportAt s e).session ∧ (sendCtl s e 4).key.slots = s.key.slots := by
  unfold sendCtl
  dsimp only
  split
  · rw [lportAt_setLport, if_pos rfl]
    exact ⟨rfl, rfl, rfl, rfl⟩
  · exact sendSealed_keeps ..

/-! ### A rekey begins (05 R167, Table 5-7 RK1) -/

/-- The rekey of a port that has drawn its key pair and waits for its peer's. -/
def rekeyDrawn (s : State) (d : BitVec 384) : Rekey :=
  { priv := some d, pub := Config.pubOf d, peer := none, hash := 0#384, txDone := false, rxDone := false, since := s.tm.ns }

theorem startRekey_begins (hst : (lportAt s e).st = .open_) (hrekey : (lportAt s e).rekey = none) (hcore : coreDown s = false)
    (hsession : (lportAt s e).session ≠ 0xFFFFFFFF) (hdrbg : drbgServes s = true) :
    ∃ d, (lportAt (startRekey s e) e).st = .rekeying ∧ (lportAt (startRekey s e) e).rekey = some (rekeyDrawn s d)
      ∧ (lportAt (startRekey s e) e).session = (lportAt s e).session ∧ (startRekey s e).key.slots = s.key.slots := by
  obtain ⟨reqs, due, ix, hdrawn⟩ := drbgTake_eq (s := s) 384
  have hport : lportAt (drbgTake 384 s).2 e = lportAt s e := by rw [hdrawn]; rfl
  have htm : (drbgTake 384 s).2.tm = s.tm := by rw [hdrawn]
  have hslots : (drbgTake 384 s).2.key.slots = s.key.slots := by rw [hdrawn]
  have hstart : startRekey s e = sendCtl (setPortSt (setLport (drbgTake 384 s).2 e
      { lportAt s e with rekeyDue := false, rekey := some (rekeyDrawn s (drbgTake 384 s).1) }) e .rekeying) e 4 := by
    unfold startRekey
    simp only [hst, hrekey, hcore, hsession, hdrbg, hport, htm, rekeyDrawn, ne_eq, not_true_eq_false, Option.isSome_none, Bool.false_eq_true, or_self,
      if_false, Bool.not_true]
  obtain ⟨hst', hrekey', hsession', hslots'⟩ := sendRekey_keeps (setPortSt (setLport (drbgTake 384 s).2 e
      { lportAt s e with rekeyDue := false, rekey := some (rekeyDrawn s (drbgTake 384 s).1) }) e .rekeying) e
  rw [← hstart] at hst' hrekey' hsession' hslots'
  rw [lportAt_setPortSt, if_pos rfl, lportAt_setLport, if_pos rfl] at hst' hrekey' hsession'
  rw [setPortSt_key, setLport_key, hslots] at hslots'
  exact ⟨_, hst', hrekey', hsession', hslots'⟩

/-! ### The sequences run out (05 R166, R167) -/

/-- A port that fails, its window ended, FAIL set and its fault recorded. -/
def faultNoted (s : State) (e code cls : Nat) : State :=
  record (setLport (endLinkCal s e) e { lportAt (endLinkCal s e) e with fail := code }) cls 2 (qpOfLnk e) 5 0#8 none 0

/-- The same port FAILED and disabled; its reset is asked for next. -/
def failedPort (s : State) (e code cls : Nat) : State :=
  setPortSt (setLnkPin (faultNoted s e code cls) e { lnkPin (faultNoted s e code cls) e with en := false }) e .failed

theorem linkFail_eq (s : State) (e code cls : Nat) : linkFail s e code cls = startRung (failedPort s e code cls) 1 (qpOfLnk e) cls := rfl

theorem lportAt_failedPort (s : State) (e code cls : Nat) : lportAt (failedPort s e code cls) e = { lportAt s e with fail := code, st := .failed } := by
  rw [failedPort, lportAt_setPortSt, if_pos rfl, lportAt_setLnkPin, faultNoted, lportAt_record, lportAt_setLport, if_pos rfl,
    lportAt_endLinkCal]

theorem lnkPin_failedPort (s : State) (e code cls : Nat) : (lnkPin (failedPort s e code cls) e).en = false := by
  rw [failedPort, setPortSt_lnkPin, lnkPin_setLnkPin, if_pos rfl]

theorem queue_failedPort (hroom : s.flt.queue.length < 256) (e code cls : Nat) :
    (failedPort s e code cls).flt.queue = s.flt.queue ++ [mkRecord s cls 2 (qpOfLnk e) 5 0#8 none 0] := by
  obtain ⟨lnk, lent, cals, hended⟩ := endLinkCal_eq s e
  have hflt : (setLport (endLinkCal s e) e { lportAt (endLinkCal s e) e with fail := code }).flt = s.flt := by rw [hended]; rfl
  rw [failedPort, setPortSt_queue]
  change (faultNoted s e code cls).flt.queue = _
  rw [faultNoted, record_queue_room (by rwa [hflt]), hflt, mkRecord_congr hflt (by rw [hended]; rfl) (by rw [hended]; rfl) (by rw [hended]; rfl)
    (by rw [hended]; rfl)]

/-- A state but HELLO ends no reset. -/
theorem setPortSt_flt {st : PortSt} (h : st ≠ .hello) (s : State) (e : Nat) : (setPortSt s e st).flt = s.flt := by
  unfold setPortSt
  dsimp only
  split
  · rfl
  · rfl

/-- The failed port leaves the resets and the domains as they were. -/
theorem failedPort_frame (s : State) (e code cls : Nat) : (failedPort s e code cls).flt.running = s.flt.running
    ∧ (failedPort s e code cls).flt.history = s.flt.history ∧ (failedPort s e code cls).dom = s.dom := by
  obtain ⟨lnk, lent, cals, hended⟩ := endLinkCal_eq s e
  have hdom : (failedPort s e code cls).dom = (faultNoted s e code cls).dom := setPortSt_dom ..
  have hflt : (failedPort s e code cls).flt = (faultNoted s e code cls).flt := setPortSt_flt (by decide) ..
  rw [hdom, hflt, faultNoted, record_flt_running, record_flt_history, record_dom, hended]
  exact ⟨rfl, rfl, rfl⟩

/-- Asking for a reset leaves the queue of records. -/
theorem startRung_queue (s : State) (rung port cls : Nat) : (startRung s rung port cls).flt.queue = s.flt.queue := by
  obtain ⟨_, _, _, _, _, _, h⟩ := startRung_eq s rung port cls
  rw [h]

/-- A port that loses its sequences or its rekey fails, is disabled, and records its fault. -/
theorem linkFail_fails (hroom : s.flt.queue.length < 256) (e code cls : Nat) :
    (lportAt (linkFail s e code cls) e).st = .failed ∧ (lportAt (linkFail s e code cls) e).fail = code ∧ (lnkPin (linkFail s e code cls) e).en = false
      ∧ mkRecord s cls 2 (qpOfLnk e) 5 0#8 none 0 ∈ (linkFail s e code cls).flt.queue := by
  have hport : lportAt (linkFail s e code cls) e = { lportAt s e with fail := code, st := .failed } := by
    rw [linkFail_eq, lportAt, startRung_ile]
    exact lportAt_failedPort ..
  have hpin : lnkPin (linkFail s e code cls) e = lnkPin (failedPort s e code cls) e := by rw [linkFail_eq, lnkPin, startRung_pin]; rfl
  refine ⟨by rw [hport], by rw [hport], by rw [hpin, lnkPin_failedPort], ?_⟩
  rw [linkFail_eq, startRung_queue, queue_failedPort hroom]
  exact List.mem_append_right _ (List.mem_singleton_self _)

/-- A KEY_EXHAUSTED record sets the EXHAUST source (15 Table 15-5). -/
theorem keyExhausted_source (s : State) (u loc act : Nat) (rsn : Code) (who : Option Who) (detail : Nat) :
    (record s Flc.keyExhausted u loc act rsn who detail).gen.irqStatus.getLsbD 1 = true := by
  unfold record
  dsimp only
  rw [if_pos rfl]
  simp [raiseIrq]

/-- Where no reset is in progress or behind, the port's runs next (11 R344). -/
theorem linkFail_resets (hrun : s.flt.running = []) (hhist : s.flt.history = []) (hcore : coreDown s = false)
    (hepoch : epochOf s (2 + qpOfLnk e) ≠ 0xFFFFFFFF#32) (code cls : Nat) : isRunning (linkFail s e code cls) 1 (qpOfLnk e) = true := by
  obtain ⟨hrun', hhist', hdom⟩ := failedPort_frame s e code cls
  have hfirst := CalWindow.startRung_first (s := failedPort s e code cls) (p := qpOfLnk e) (cls := cls) (hrun'.trans hrun) (hhist'.trans hhist)
    (by rwa [coreDown, domAt, hdom]) (by rwa [epochOf, domAt, hdom])
  rw [linkFail_eq, isRunning, hfirst]
  simp

/-! ### Frames that carry credits and cadences (05 R170, R189) -/

/-- A port that may form DATA frames has a sequence left for an IDLE. -/
theorem idle_goes (h : linkIssues s e = true) : (lportAt s e).txSeq < frameLimit s e 1 := by
  simp only [linkIssues, Bool.and_eq_true, decide_eq_true_eq] at h
  obtain ⟨⟨-, hseq⟩, -⟩ := h
  exact hseq

/-- An IDLE of 16 bytes carries its inner header and no padding (05 R163). -/
theorem padTo_idle (s : State) (credits : Nat) : padTo (payloadLen s 0 0) (innerBytes 1 0 0 credits ++ []) = innerBytes 1 0 0 credits := by
  have hlen : (innerBytes 1 0 0 credits).length = 16 := by simp [innerBytes]
  have hpay : payloadLen s 0 0 = 16 := rfl
  rw [List.append_nil, padTo, hlen, hpay]
  exact List.append_nil _

/-- A paced VC with no operation of its own sends none. -/
theorem vcMaySend_none {vc : Nat} (h : ∀ x ∈ (lportAt s e).txq, x.vc ≠ vc) : vcMaySend s e vc = false := by
  have hnone : ((lportAt s e).txq.any fun x => x.vc == vc) = false := by simpa [List.any_eq_false] using h
  simp only [vcMaySend, hnone, Bool.and_false]

end Sys2Proof.Proofs.Rekeys

namespace Sys2Proof.Proofs
open Sys2Proof.Machine LinkPorts SealedFrames Rekeys

/-- Settles O32: `startRekey` where a rekey begins, `linkFail` where one is late, and one IDLE frame of `sendSealed` for credits and cadence. -/
theorem rekeysAndSequences : Obligations.RekeysAndSequences := by
  unfold Obligations.RekeysAndSequences
  refine ⟨?_, ?_, ?_, ?_, ?_, ?_⟩
  · intro e s hst hrekey hcore hsession hdrbg
    obtain ⟨d, hst', hrekey', hsession', hslots⟩ := startRekey_begins hst hrekey hcore hsession hdrbg
    refine ⟨fun hseq => ?_, fun hadm hpresent => ?_⟩
    · exact ⟨_, d, congrArg Host.Outcome.next (if_pos hseq), hst', hrekey', hsession', hslots⟩
    · exact ⟨_, d, congrArg Host.Outcome.next ((ctlWriteBy_admitted hadm _).trans (congrArg Safety.okay (if_pos hpresent))), hst', hrekey'⟩
  · intro e s hopen hover hseq hroom
    have hmark : rekeyOverdue s e =
        record (setLport s e { lportAt s e with overdue := true }) Flc.keyExhausted 2 (qpOfLnk e) 0 Rsn.keyExhausted none (sessSlot e) := by
      simp [rekeyOverdue, hopen, hover, portSeq, Nat.not_lt.mpr hseq]
    refine ⟨_, congrArg Host.Outcome.next hmark, ?_, ?_, ?_, ?_⟩
    · rw [lportAt_record, lportAt_setLport, if_pos rfl]
    · rw [record_queue_room (s := setLport s e _) hroom, mkRecord_congr (s := s) (t := setLport s e _) rfl rfl rfl rfl rfl, setLport_flt]
    · exact keyExhausted_source ..
    · rw [record_out, setLport_out]
  · intro e s hopen hseq hroom
    have hfail : seqExhausted s e = linkFail s e 12 Flc.linkFault := by
      simp [seqExhausted, hopen, seqLimit, portSeq, hseq]
    obtain ⟨hst, hcode, hen, hrecord⟩ := linkFail_fails hroom e 12 Flc.linkFault
    exact ⟨_, congrArg Host.Outcome.next hfail, hst, hcode, hen, hrecord, fun hrun hhist hcore hepoch => linkFail_resets hrun hhist hcore hepoch 12 _⟩
  · intro e r s hrekey hsince hroom
    have hfail : rekeyTimeout s e = linkFail s e 13 Flc.linkFault :=
      if_pos (by rw [hrekey, Option.any_some]; exact decide_eq_true hsince)
    obtain ⟨hst, hcode, hen, hrecord⟩ := linkFail_fails hroom e 13 Flc.linkFault
    exact ⟨_, congrArg Host.Outcome.next hfail, hst, hcode, hen, hrecord⟩
  · intro e s hissues hfreed hkey
    obtain ⟨k, hk⟩ := Option.isSome_iff_exists.mp hkey
    obtain ⟨u, hu, hsent⟩ := sendSealed_sends hk (idle_goes hissues) 0 [] (payloadLen s 0 0)
    have hidle : creditIdle s e = sendSealed s e 1 0 [] (payloadLen s 0 0) := by
      simp [creditIdle, hissues, hfreed, sendPlain]
    have hport := lportAt_frameSent (e := e) u (portSent s e (sealedFrame s e 1 0 [] (payloadLen s 0 0) k)) (sealedFrame s e 1 0 [] (payloadLen s 0 0) k)
    refine ⟨_, sealedFrame s e 1 0 [] (payloadLen s 0 0) k, congrArg Host.Outcome.next (hidle.trans hsent), ?_, rfl, rfl, ?_, ?_, k, hk, ?_⟩
    · rw [emit_out, setLport_out, hu.out]
    · rw [hport]; rfl
    · rw [hport]; rfl
    · exact congrArg (gcmCrypt k.1 (frameIv k.2 (lportAt s e).txSeq)) (padTo_idle s _).symm
  · intro e vc s hissues hpaced hvc hnone hkey
    obtain ⟨k, hk⟩ := Option.isSome_iff_exists.mp hkey
    obtain ⟨u, hu, hsent⟩ := sendSealed_sends hk (idle_goes hissues) 0 [] (payloadMax s)
    have hidle : cadenceTick s e vc = sendSealed s e 1 0 [] (payloadMax s) := by
      simp [cadenceTick, hissues, hpaced, Nat.not_le.mpr hvc, vcMaySend_none hnone]
    have hport := lportAt_frameSent (e := e) u (portSent s e (sealedFrame s e 1 0 [] (payloadMax s) k)) (sealedFrame s e 1 0 [] (payloadMax s) k)
    refine ⟨_, sealedFrame s e 1 0 [] (payloadMax s) k, congrArg Host.Outcome.next (hidle.trans hsent), ?_, rfl, ?_, ?_⟩
    · rw [emit_out, setLport_out, hu.out]
    · rw [hport]; rfl
    · rw [hport]; rfl

end Sys2Proof.Proofs

/-! Windows of a link port, the route table, resends and dead targets (05 R174, R183, R186 to R188; 14 R436). -/
namespace Sys2Proof.Proofs.LinkWindows
open Sys2Proof.Machine Memory OwnWork Originating LinkPorts SealedFrames Rekeys

variable {s t u : State} {e : Nat}

/-! ### What a window holds back does not move the windows (05 R169, R188) -/

/-- `t` has the pins, the windows and the lent lanes of `s`. -/
def WindowsKept (s t : State) : Prop := t.pin = s.pin ∧ t.ile.cals = s.ile.cals ∧ t.lane.lent = s.lane.lent

theorem WindowsKept.refl (s : State) : WindowsKept s s := ⟨rfl, rfl, rfl⟩

theorem WindowsKept.trans (h : WindowsKept s t) (h' : WindowsKept t u) : WindowsKept s u := by
  obtain ⟨hpin, hcals, hlent⟩ := h
  obtain ⟨hpin', hcals', hlent'⟩ := h'
  exact ⟨hpin'.trans hpin, hcals'.trans hcals, hlent'.trans hlent⟩

theorem windowsKept_setLport (s : State) (e : Nat) (p : LPort) : WindowsKept s (setLport s e p) := ⟨rfl, rfl, rfl⟩

theorem windowsKept_setPortSt (s : State) (e : Nat) (st : PortSt) : WindowsKept s (setPortSt s e st) :=
  ⟨setPortSt_pin .., setPortSt_cals .., congrArg (·.lent) (setPortSt_lane ..)⟩

theorem windowsKept_sendSealed (s : State) (e ftype vc : Nat) (content : List Byte) (size : Nat) :
    WindowsKept s (sendSealed s e ftype vc content size) := by
  obtain ⟨u, hu, hidle | ⟨f, hsent⟩⟩ := sendSealed_cases s e ftype vc content size
  · rw [hidle]
    exact ⟨hu.pin, congrArg _ hu.ile, hu.lent⟩
  · rw [hsent]
    exact ⟨hu.pin, congrArg (·.cals) hu.ile, hu.lent⟩

/-- The half that a finished rekey makes current moves the key slots alone. -/
theorem windowsKept_rekeyHalves (s : State) (i : Nat) : WindowsKept s (retireHalf (activateHalf s i) i) := by
  have hact : WindowsKept s (activateHalf s i) := by
    unfold activateHalf
    split
    · exact ⟨rfl, rfl, rfl⟩
    · exact .refl s
  refine hact.trans ?_
  generalize activateHalf s i = u
  cases hv : slotAt u i with
  | none =>
    rw [show retireHalf u i = u by simp [retireHalf, hv]]
    exact .refl u
  | some v =>
    rw [KeyCommands.retireHalf_held hv, KeyCommands.zeroHalf_held hv]
    exact ⟨rfl, rfl, rfl⟩

theorem windowsKept_finishRekey (s : State) (e : Nat) : WindowsKept s (finishRekey s e) := by
  unfold finishRekey
  dsimp only
  split
  · split
    · exact ((windowsKept_rekeyHalves s (sessSlot e)).trans (windowsKept_setLport ..)).trans (windowsKept_setPortSt ..)
    · exact .refl s
  · exact .refl s

theorem windowsKept_sendCtl (s : State) (e t : Nat) : WindowsKept s (sendCtl s e t) := by
  have hsent := windowsKept_sendSealed s e t 0 (ctlContent (lportAt s e) t) (payloadLen s 0 (ctlContent (lportAt s e) t).length)
  unfold sendCtl
  dsimp only
  split
  · exact windowsKept_setLport ..
  · split
    · exact (hsent.trans (windowsKept_setLport ..)).trans (windowsKept_finishRekey ..)
    · exact hsent

/-- What a window held goes, and moves no window. -/
theorem windowsKept_drainCtl (s : State) (e : Nat) : WindowsKept s (drainCtl s e) := by
  have hstep (s : State) (b : Bool) (t : Nat) : WindowsKept s (if b then sendCtl s e t else s) := by
    split
    · exact windowsKept_sendCtl ..
    · exact .refl s
  exact (((windowsKept_setLport ..).trans (hstep _ _ 2)).trans (hstep _ _ 4)).trans (hstep _ _ 5)

/-- A window that held nothing ends without a frame. -/
theorem drainCtl_nothing (h : (lportAt s e).ctlq = []) : lportAt (drainCtl s e) e = lportAt s e := by
  have hstep : drainCtl s e = setLport s e { lportAt s e with ctlq := [] } := by simp [drainCtl, h]
  rw [hstep, lportAt_setLport, if_pos rfl, ← h]

/-! ### Request, grant and end of a window (05 R188) -/

/-- The windows of the request that a port's pin makes. -/
def requestedCals (s : State) (e : Nat) : List CalWin :=
  if (lnkPin s e).calSeenLow = true then putCal { port := e, open_ := false, at_ := s.tm.ns, limit := lnkCalLimit s } s.ile.cals else s.ile.cals

theorem lnkCalRequest_joins (hp : s.pin.pwrok = true) (hpresent : lnkPresent s e = true) (hreq : (lnkPin s e).calReq = false) :
    lnkCalRequest s e = { setLnkPin s e { lnkPin s e with calReq := true } with ile := { s.ile with cals := requestedCals s e } } := by
  unfold lnkCalRequest requestedCals
  simp only [hp, hpresent, hreq, Bool.not_true, Bool.or_self, Bool.false_eq_true, if_false]
  split <;> rfl

/-- A grant's port with its state kept for the end, before it enters RETRAIN. -/
def granted (s : State) (e : Nat) : State :=
  setLnkPin (setLport s e { lportAt s e with resume := (lportAt s e).st }) e { lnkPin s e with calGnt := true }

/-- A port's window stands open and its lanes are lent. -/
def windowOpened (s : State) (e : Nat) : State :=
  lendLanes { s with ile := { s.ile with cals := s.ile.cals.map fun c => if c.port = e then { c with open_ := true, at_ := s.tm.ns } else c } } (qpOfLnk e)

theorem lnkPin_windowOpened (s : State) (e j : Nat) : lnkPin (windowOpened s e) j = lnkPin s j := rfl
theorem lportAt_windowOpened (s : State) (e j : Nat) : lportAt (windowOpened s e) j = lportAt s j := rfl
theorem cals_windowOpened (s : State) (e : Nat) : (windowOpened s e).ile.cals =
    s.ile.cals.map fun c => if c.port = e then { c with open_ := true, at_ := s.tm.ns } else c := rfl
theorem lent_windowOpened (s : State) (e : Nat) : (windowOpened s e).lane.lent = s.lane.lent ++ [qpOfLnk e] := rfl

theorem lnkCalGrant_opens (hfew : (s.ile.cals.filter (·.open_)).length < 4) (hfirst : (s.ile.cals.find? fun c => !c.open_).map (·.port) = some e)
    (hopen : portOpen s e = true) (hcore : coreDown s = false) (hquiet : linkQuiet s e = true) :
    lnkCalGrant s e = windowOpened (setPortSt (granted s e) e .retrain) e := by
  unfold lnkCalGrant
  simp only [hfirst, hopen, hcore, hquiet, Nat.not_le.mpr hfew, bne_self_eq_false, Bool.not_true, Bool.or_self, decide_false, Bool.false_eq_true, if_false]
  rfl

/-- A port whose window has ended: its pins as before the request, its lanes back, its state the one it left. -/
def windowEnded (s : State) (e : Nat) : State :=
  returnLanes { setLnkPin s e { lnkPin s e with calReq := false, calGnt := false, calSeenLow := true } with
    ile := { s.ile with cals := s.ile.cals.filter fun c => c.port != e } } (qpOfLnk e)

theorem lnkCalEnd_drains (hp : s.pin.pwrok = true) (hreq : (lnkPin s e).calReq = true) (hst : (lportAt s e).st = .retrain) :
    lnkCalEnd s e = drainCtl (setPortSt (windowEnded s e) e (lportAt s e).resume) e := by
  have hport : lportAt (windowEnded s e) e = lportAt s e := rfl
  unfold lnkCalEnd
  simp only [hp, hreq, Bool.not_true, Bool.or_self, Bool.false_eq_true, if_false]
  change drainCtl (if (lportAt (windowEnded s e) e).st = .retrain then setPortSt (windowEnded s e) e (lportAt (windowEnded s e) e).resume else windowEnded s e) e = _
  rw [hport, if_pos hst]

/-! ### The route table (05 R174; 00 R11) -/

/-- The word a write of ILE_ROUTE_DATA stores over an entry. -/
def routeWord (old v : Word) : Nat :=
  2 ^ 31 * bits v.toNat 31 1 + 2 ^ 29 * (if bits v.toNat 29 2 = 3 then bits old.toNat 29 2 else bits v.toNat 29 2)
    + (if 20 ≤ bits v.toNat 0 5 then bits old.toNat 0 5 else bits v.toNat 0 5)

theorem bits_lt (v lo w : Nat) : bits v lo w < 2 ^ w := Nat.mod_lt _ (Nat.two_pow_pos w)

/-- The index that ILE_ROUTE_ADDR names. -/
def routeIx (s : State) : Nat := bits s.ile.routeAddr.toNat 0 14

theorem routeIx_mod (s : State) : routeIx s % 16384 = routeIx s := Nat.mod_eq_of_lt (bits_lt ..)

/-- A write stores its word at ILE_ROUTE_ADDR, and notes a write ignored in part. -/
theorem routeWrite_eq (s : State) (v : Word) : ∃ flt, routeWrite s v =
    { s with flt := flt, ile := { s.ile with routes := dput 0#32 s.ile.routes (routeIx s) (BitVec.ofNat 32 (routeWord (routeOf s (routeIx s)) v)) } } := by
  unfold routeWrite
  dsimp only
  split
  · exact ⟨_, rfl⟩
  · exact ⟨_, rfl⟩

theorem routeOf_routeWrite (s : State) (v : Word) (m : Nat) : routeOf (routeWrite s v) m =
    if routeIx s = m % 16384 then BitVec.ofNat 32 (routeWord (routeOf s (routeIx s)) v) else routeOf s m := by
  obtain ⟨flt, h⟩ := routeWrite_eq s v
  rw [h]
  exact dget_dput ..

/-- The stored word has the three fields, each within its bits. -/
theorem routeWord_fields (old v : Word) : routeValid (BitVec.ofNat 32 (routeWord old v)) = v.getLsbD 31
    ∧ routeStage (BitVec.ofNat 32 (routeWord old v)) = (if bits v.toNat 29 2 = 3 then routeStage old else bits v.toNat 29 2)
    ∧ routeEgress (BitVec.ofNat 32 (routeWord old v)) = (if 20 ≤ bits v.toNat 0 5 then routeEgress old else bits v.toNat 0 5) := by
  have hb := bits_lt v.toNat 31 1
  have hs : (if bits v.toNat 29 2 = 3 then bits old.toNat 29 2 else bits v.toNat 29 2) < 2 ^ 2 := by split <;> exact bits_lt ..
  have he : (if 20 ≤ bits v.toNat 0 5 then bits old.toNat 0 5 else bits v.toNat 0 5) < 2 ^ 5 := by split <;> exact bits_lt ..
  have hv : v.getLsbD 31 = decide (bits v.toNat 31 1 = 1) := by
    rw [← BitVec.testBit_toNat, Nat.testBit_eq_decide_div_mod_eq]; rfl
  simp only [routeStage, routeEgress, routeValid, routeWord, hv]
  generalize (if bits v.toNat 29 2 = 3 then bits old.toNat 29 2 else bits v.toNat 29 2) = st at hs ⊢
  generalize (if 20 ≤ bits v.toNat 0 5 then bits old.toNat 0 5 else bits v.toNat 0 5) = eg at he ⊢
  generalize bits v.toNat 31 1 = b at hb ⊢
  rw [← BitVec.testBit_toNat, Nat.testBit_eq_decide_div_mod_eq]
  simp only [BitVec.toNat_ofNat, bits]
  refine ⟨?_, ?_, ?_⟩
  · rw [decide_eq_decide]; omega
  · omega
  · omega

/-! ### Resends and dead targets (05 R183, R186) -/

/-- The one operation of the table that was refused goes again, as it was. -/
theorem retryResend_one {ix : Nat} {o : Orig} (horig : s.ile.orig = [(ix, o)]) (hresend : o.resend = true) :
    retryResend s o.op.dest o.vc =
      txPut { s with ile := { s.ile with orig := [(ix, { o with resend := false })] } } o.egress o.vc o.op o.deadline (some ix) o.pad := by
  have hput (v : Orig) : tput [(ix, o)] ix v = [(ix, v)] := by simp [tput]
  simp [retryResend, horig, hresend, byIssue, hput]

/-- With no entry, no held store and no waiting message, nothing follows. -/
theorem afterOrig_nothing (horig : s.ile.orig = []) (hheld : s.ile.heldOut = []) (hsend : s.ile.sendq = []) : afterOrig s = s := by
  simp [afterOrig, releaseFlagged, pumpSends, releaseOutgoing, byIssue, horig, hheld, hsend]

/-- A LOAD of FABPORT that no one answered ends with DEAD_TARGET and all ones, its data poisoned (05 R186). -/
theorem origFab_deadLoad {o : Orig} (hop : o.op.op = 1) (hflag : o.op.flagged = false) (hposted : o.posted = false) (ch : Nat) (tg : BitVec 16) (ep mid : Word) :
    ∃ u, origFab s o ch tg ep mid Rsn.deadTarget [] =
        emits u (fabBeats s ch tg ep 1 Rsn.deadTarget o.deadline [(BitVec.ofNat 576 (2 ^ 512 - 1), true)])
      ∧ u.out = s.out ∧ u.ile.orig = s.ile.orig ∧ u.ile.heldOut = s.ile.heldOut ∧ u.ile.sendq = s.ile.sendq := by
  have hreason : ¬ Rsn.deadTarget = (0#8 : Code) := by decide
  have hslice : ¬ Rsn.deadTarget = Hc.sliceReset := by decide
  have hnever (l : List (Word × Nat × Nat)) : (l.any fun _ => false) = false := by simp
  unfold origFab
  rw [if_neg hreason, if_neg hslice]
  generalize hu : ({ s with ile := { s.ile with lastReason := Rsn.deadTarget } } : State) = u
  simp only [hposted, hreason, hop, hflag, hnever, Bool.false_eq_true, false_and, if_false, if_true, Bool.false_and, beq_self_eq_true, Bool.true_or,
    true_or, or_self]
  generalize hv : ({ u with ile := { u.ile with lost := u.ile.lost.filter fun _ => !false } } : State) = v
  have hframe : v.out = s.out ∧ v.ile.orig = s.ile.orig ∧ v.ile.heldOut = s.ile.heldOut ∧ v.ile.sendq = s.ile.sendq ∧ v.tm = s.tm := by
    subst hv hu
    exact ⟨rfl, rfl, rfl, rfl, rfl⟩
  obtain ⟨hout, horig, hheld, hsend, htm⟩ := hframe
  have hbeats : fabBeats (storeFault v o Rsn.deadTarget) = fabBeats s := fabBeats_tm (by simp [storeFault, htm])
  rw [hbeats]
  refine ⟨_, rfl, ?_⟩
  simp [countOutcome, storeFault, hout, horig, hheld, hsend]

end Sys2Proof.Proofs.LinkWindows

namespace Sys2Proof.Proofs
open Sys2Proof.Machine Originating LinkPorts SealedFrames Rekeys LinkWindows

/-- Settles O33: each window command by its own equation, the route word field by field, and the one operation that goes again or ends. -/
theorem linkWindowsRoutesResends : Obligations.LinkWindowsRoutesResends := by
  unfold Obligations.LinkWindowsRoutesResends
  refine ⟨?_, ?_, ?_, ?_, ?_, ?_, ?_⟩
  · intro e s hp hpresent hreq
    refine ⟨_, congrArg Host.Outcome.next (lnkCalRequest_joins hp hpresent hreq), ?_, rfl, rfl, rfl⟩
    exact (lnkPin_setLnkPin s e { lnkPin s e with calReq := true } e).trans (if_pos rfl)
  · intro e s hfew hfirst hopen hcore hquiet
    refine ⟨_, congrArg Host.Outcome.next (lnkCalGrant_opens hfew hfirst hopen hcore hquiet), ?_, ?_, ?_, ?_⟩
    · rw [lnkPin_windowOpened, setPortSt_lnkPin, granted, lnkPin_setLnkPin, if_pos rfl]
    · rw [lportAt_windowOpened, lportAt_setPortSt, if_pos rfl, granted, lportAt_setLnkPin, lportAt_setLport, if_pos rfl]
    · rw [cals_windowOpened, setPortSt_cals, setPortSt_tm]
      rfl
    · rw [lent_windowOpened, setPortSt_lane]
      rfl
  · intro e s hp hreq hst hresume
    obtain ⟨hpin, hcals, hlent⟩ := windowsKept_drainCtl (setPortSt (windowEnded s e) e (lportAt s e).resume) e
    refine ⟨_, congrArg Host.Outcome.next (lnkCalEnd_drains hp hreq hst), ?_, ?_, ?_, ?_⟩
    · rw [lnkPin, hpin]
      change lnkPin (setPortSt (windowEnded s e) e (lportAt s e).resume) e = _
      rw [setPortSt_lnkPin]
      exact (lnkPin_setLnkPin s e _ e).trans (if_pos rfl)
    · intro hctl
      have hport : lportAt (setPortSt (windowEnded s e) e (lportAt s e).resume) e = { lportAt s e with st := (lportAt s e).resume } :=
        (lportAt_setPortSt ..).trans (if_pos rfl)
      rw [drainCtl_nothing (by rw [hport]; exact hctl), hport]
    · rw [hcals, setPortSt_cals]
      rfl
    · rw [hlent, setPortSt_lane]
      rfl
  · intro e s hover hroom
    obtain ⟨hst, hcode, hen, hrecord⟩ := linkFail_fails hroom e 14 Flc.calOverrun
    exact ⟨_, congrArg Host.Outcome.next (if_pos hover), hst, hcode, hen, hrecord⟩
  · intro v s hadm
    have hown : routeOf (routeWrite s v) (routeIx s) = BitVec.ofNat 32 (routeWord (routeOf s (routeIx s)) v) :=
      (routeOf_routeWrite s v _).trans (if_pos (routeIx_mod s).symm)
    obtain ⟨hvalid, hstage, hegress⟩ := routeWord_fields (routeOf s (routeIx s)) v
    obtain ⟨flt, hwrite⟩ := routeWrite_eq s v
    refine ⟨_, congrArg Host.Outcome.next (ctlWriteBy_admitted hadm _), (congrArg routeValid hown).trans hvalid, (congrArg routeStage hown).trans hstage,
      (congrArg routeEgress hown).trans hegress, fun m hm => (routeOf_routeWrite s v m).trans (if_neg (Ne.symm hm)), ?_⟩
    rw [hwrite]
    exact ⟨rfl, rfl, rfl, rfl, rfl⟩
  · intro dest vc ix o s horig hresend hdest hvc
    subst hdest hvc
    obtain ⟨x, hvc, hop, horig', hdeadline, hput⟩ := txPut_orig { s with ile := { s.ile with orig := [(ix, { o with resend := false })] } } o.egress o.vc o.op
      o.deadline ix o.pad
    refine ⟨_, x, congrArg Host.Outcome.next ((retryResend_one horig hresend).trans hput), rfl, ?_, hop, hvc, horig', hdeadline, rfl, rfl, rfl⟩
    rw [lportAt_setLport, if_pos rfl]
    exact List.mem_append_right _ (List.mem_singleton_self x)
  · intro tag ch tg ep mid o s hcore horig htag hsrc hop hflag hposted hmsg hlate hheld hsend
    obtain ⟨u, hend, hout, horig', hheld', hsend'⟩ := origFab_deadLoad (s := freeOrig s (tag % 4096)) hop hflag hposted ch tg ep mid
    have hfreed : (freeOrig s (tag % 4096)).ile.orig = [] := by simp [freeOrig, horig, tdel]
    have hbeats : fabBeats (freeOrig s (tag % 4096)) = fabBeats s := Memory.fabBeats_tm rfl
    have hlive : origOf s tag = some o := by simp [origOf, horig, tget, htag]
    have hended : deadTarget s tag = emits u (fabBeats s ch tg ep 1 Rsn.deadTarget o.deadline [(BitVec.ofNat 576 (2 ^ 512 - 1), true)]) := by
      rw [← afterOrig_nothing (s := emits u _) (horig'.trans hfreed) (hheld'.trans hheld) (hsend'.trans hsend)]
      simp only [deadTarget, hcore, hlive, hlate, endOrig, freeWhole, hmsg, hsrc, hend, hbeats, Bool.false_eq_true, if_false, if_true]
    refine ⟨_, congrArg Host.Outcome.next hended, horig'.trans hfreed, ?_⟩
    rw [emits_out, hout]
    rfl

end Sys2Proof.Proofs

/-! DATA frames at an open port, and the one that shows that a port may report what it frees at once (05 R163, R170). -/
namespace Sys2Proof.Proofs.DataFrames
open Sys2Proof.Machine Sys2Proof.Tests LinkPorts SealedFrames Rekeys

variable {s : State} {e t : Nat} {f : Frame} {b content : List Byte} {m : MemIn}

/-! ### A frame that opens (05 R163, R170) -/

/-- A frame that opens advances the expected sequence, and its type says what follows. -/
theorem rxFrame_opens (h : Safety.opens s e f b t content) (m : MemIn) : rxFrame s e f m =
    takeFrame (setLport (formPass s e false none 0).2 e { lportAt s e with rxSeq := (lportAt s e).rxSeq + 1 }) e b m := by
  obtain ⟨htakes, hopen, hflaw, hkind, hframe, -⟩ := h
  have hst : (lportAt s e).st ≠ .hello ∧ (lportAt s e).st ≠ .keying := by
    constructor <;> · intro hst; simp [portOpen, hst] at hopen
  obtain ⟨hhello, hkeying⟩ := hst
  obtain ⟨c, d, hpass⟩ := formPass_clear hflaw e false none 0
  have hform : (formPass s e false none 0).1 = true := by rw [hpass]
  have hframe' : openFrame (formPass s e false none 0).2 e f = some b := ((passed_formPass s e false none 0).openFrame e f).trans hframe
  unfold rxFrame rxSealed
  simp only [htakes, hkind, hhello, hkeying, hform, hframe', Bool.not_true, Bool.false_eq_true, false_or, false_and, if_true, if_false]

/-- A DATA frame's operations are taken by the port that has received it. -/
theorem rxFrame_data (h : Safety.opens s e f b 0 content) (m : MemIn) : rxFrame s e f m = rxData (Safety.received s e b) e (fld b 1 1) content m := by
  rw [rxFrame_opens h]
  obtain ⟨-, -, -, -, -, hinner, htype, hcontent⟩ := h
  simp only [takeFrame, hinner, htype, hcontent, Bool.not_true, Bool.false_eq_true, if_false, if_true]
  rfl

/-- A stale response is dropped, its slot freed, and with 16 credits to report the port sends an IDLE (05 R170, R187). -/
theorem rxData_stale {op : FabOp} (hops : readOps (content.length / 32 + 1) content = [(op, true)]) (hmine : some op.dest = ownMember s)
    (hresponse : 0x10 ≤ op.op) (hstale : origOf s op.tag = none) (hfull : 16 ≤ freedCredits (lportAt (freeSlot (staleDrop s) e t) e)) :
    rxData s e t content m = creditIdle (freeSlot (staleDrop s) e t) e := by
  have htaken (x : MemIn) : (takeOp s e t (op, true) x).1 = staleDrop s := by
    simp [takeOp, hmine, hresponse, takeResponse, hstale]
  simp [rxData, hops, htaken, hfull]

/-- Receiving a frame leaves the block's membership and the table of its operations. -/
theorem received_keeps (s : State) (e : Nat) (b : List Byte) : (Safety.received s e b).att = s.att ∧ (Safety.received s e b).ile.orig = s.ile.orig := by
  have hpass := passed_formPass s e false none 0
  have hatt : (formPass s e false none 0).2.att = s.att := by rw [hpass]
  exact ⟨hatt, congrArg (·.orig) hpass.ile⟩

theorem lportAt_staleDrop (j : Nat) : lportAt (staleDrop s) j = lportAt s j := rfl

/-- The credits a port takes back move its count of those in use. -/
theorem lportAt_takeCredits (credits : Nat) : lportAt (takeCredits s e credits) e =
    { lportAt s e with used := (List.range 8).foldl (fun u v => dput 0 u v (dget 0 u v - bits credits (12 * v) 12)) (lportAt s e).used } :=
  (lportAt_setLport ..).trans (if_pos rfl)

/-- With room for requests a free slot is reported with the next frame (05 R170). -/
theorem lportAt_freeSlot (hroom : s.ile.ingress.length < 1536) (vc : Nat) : lportAt (freeSlot s e vc) e =
    { lportAt s e with freed := dput 0 (lportAt s e).freed vc (dget 0 (lportAt s e).freed vc + 1) } := by
  have hkeeps : ¬ (2 ≤ vc ∧ 1536 ≤ s.ile.ingress.length) := by omega
  unfold freeSlot
  rw [if_neg hkeeps]
  exact (lportAt_setLport ..).trans (if_pos rfl)

/-! ### A port whose table of freed slots lists one entry out of order -/

/-- Fourteen slots of VC 2 are free; the entry of VC 3, which stands first, is empty. -/
def disordered : LPort := { freed := [(3, 0), (2, 14)] }

/-- The plaintext of a DATA frame in VC 2 that answers an operation no table entry waits for. -/
def staleBytes : List Byte := inner 0 (opOf 0x11 5 3 7)

theorem staleBytes_opens : Safety.opens (openPort disordered) 2 (sealedFor (openPort disordered) staleBytes) staleBytes 0 (opOf 0x11 5 3 7) :=
  open_opens disordered rfl rfl staleBytes (by decide +kernel) (by decide +kernel) (by decide +kernel) (by decide +kernel)

/-- The port once it has received the frame, dropped the response and freed its slot. -/
def slotFreed : State := freeSlot (staleDrop (Safety.received (openPort disordered) 2 staleBytes)) 2 2

/-- Of the receiving state, the lanes that the frame passed and the keys they used are all that is not written out. -/
theorem slotFreed_eq : ∃ c d, slotFreed = freeSlot (staleDrop (takeCredits (setLport
    { openPort disordered with key := { (openPort disordered).key with dkc := c }, lane := { (openPort disordered).lane with ctx := d } } 2
    { disordered with st := .open_, session := 1, rxSeq := 1 }) 2 0)) 2 2 := by
  have hcredits : fld staleBytes 4 12 = 0 := by decide +kernel
  obtain ⟨c, d, hpass⟩ := formPass_clear (s := openPort disordered) rfl 2 false none 0
  refine ⟨c, d, ?_⟩
  rw [slotFreed, Safety.received, hpass, hcredits]
  rfl

theorem lportAt_slotFreed : lportAt slotFreed 2 = { disordered with st := .open_, session := 1, rxSeq := 1, freed := [(2, 15), (3, 0), (2, 14)] } := by
  obtain ⟨c, d, h⟩ := slotFreed_eq
  rw [h, lportAt_freeSlot, lportAt_staleDrop, lportAt_takeCredits, lportAt_setLport, if_pos rfl]
  · rfl
  · exact (by decide : 0 < 1536)

theorem slotFreed_issues : linkIssues slotFreed 2 = true := by
  obtain ⟨c, d, h⟩ := slotFreed_eq
  rw [h]
  rfl

theorem slotFreed_key : (sessKey slotFreed 2 true).isSome = true := by
  have huse : sessUse slotFreed 2 true = (0, 1) := by
    obtain ⟨c, d, h⟩ := slotFreed_eq
    rw [h]
    rfl
  obtain ⟨c, d, h⟩ := slotFreed_eq
  rw [h] at huse ⊢
  simp only [sessKey, huse, Option.isSome_map]
  rfl

end Sys2Proof.Proofs.DataFrames

namespace Sys2Proof.Proofs
open Sys2Proof.Machine Sys2Proof.Tests LinkPorts SealedFrames Rekeys DataFrames

/-- Refutes O31: a slot freed beside fourteen that the table lists out of order makes sixteen credits and more, and the IDLE that carries them away leaves
none to count. -/
theorem not_sealedFramesTaken : ¬ Obligations.SealedFramesTaken := by
  unfold Obligations.SealedFramesTaken
  intro h
  obtain ⟨hdata, -⟩ := h
  obtain ⟨-, hstale, -⟩ := hdata 2 _ staleBytes _ (readOp (opOf 0x11 5 3 7)).1 { lines := [] } (openPort disordered) staleBytes_opens (by decide +kernel)
    (by decide) (by decide +kernel)
  obtain ⟨t, hexec, -, -, hcount, -⟩ := hstale (by decide +kernel) (by decide +kernel) (by decide +kernel)
  obtain ⟨k, hk⟩ := Option.isSome_iff_exists.mp slotFreed_key
  obtain ⟨u, -, hsent⟩ := sendSealed_sends hk (idle_goes slotFreed_issues) 0 [] (payloadLen slotFreed 0 0)
  have hfull : 16 ≤ freedCredits (lportAt slotFreed 2) := by
    rw [lportAt_slotFreed]
    decide
  have hidle : exec (.data 2 (sealedFor (openPort disordered) staleBytes) { lines := [] }) (openPort disordered) =
      .next (sendSealed slotFreed 2 1 0 [] (payloadLen slotFreed 0 0)) := by
    refine congrArg Host.Outcome.next ((rxFrame_data staleBytes_opens _).trans ?_)
    obtain ⟨hatt, horig⟩ := received_keeps (openPort disordered) 2 staleBytes
    have hmine : some (readOp (opOf 0x11 5 3 7)).1.dest = ownMember (Safety.received (openPort disordered) 2 staleBytes) := by
      rw [ownMember, hatt]
      decide +kernel
    have hlate : origOf (Safety.received (openPort disordered) 2 staleBytes) (readOp (opOf 0x11 5 3 7)).1.tag = none := by
      rw [origOf, horig]
      decide +kernel
    have hvc : fld staleBytes 1 1 = 2 := by decide +kernel
    rw [hvc, rxData_stale (by decide +kernel) hmine (by decide +kernel) hlate hfull]
    change creditIdle slotFreed 2 = _
    simp [creditIdle, slotFreed_issues, lportAt_slotFreed, sendPlain, disordered]
  rw [hidle, hsent] at hexec
  obtain rfl := Host.Outcome.next.inj hexec
  rw [lportAt_frameSent] at hcount
  exact absurd (hcount.trans (by decide +kernel : _ = 15)) (show ¬ 0 = 15 by decide)

end Sys2Proof.Proofs

/-! The messages of a bring-up as a port takes them: HELLO, IDENTITY, KEY_SHARE and KEY_CONFIRM (05 R156 to R161, Table 5-4). -/
namespace Sys2Proof.Proofs.BringupMessages
open Sys2Proof.Machine LinkPorts SealedFrames Rekeys DataFrames

variable {s : State} {e : Nat} {b : List Byte}

/-! ### A message and its failure (05 R157, R159) -/

/-- A well-formed bring-up frame is taken by its message. -/
theorem rxPlain_bringFrame (htakes : rxTakes s e = true) (hst : (lportAt s e).st = .hello ∨ (lportAt s e).st = .keying) (hlen : b.length < 65536) :
    rxPlain s e (Safety.bringFrame b) =
      if fld b 0 1 = 1 then rxHello s e true b else if fld b 0 1 = 2 then rxIdentity s e true b else if fld b 0 1 = 3 then rxKeyShare s e true b
      else bringupFail s e 9 := by
  have hform : (BitVec.ofNat 16 b.length).toNat = b.length := by simp [Nat.mod_eq_of_lt hlen]
  have hplain : ¬ (1#8 : BitVec 8) = 0#8 := by decide
  have hup : ¬ ((lportAt s e).st ≠ .hello ∧ (lportAt s e).st ≠ .keying) := fun h => hst.elim h.1 h.2
  have hkind : (Safety.bringFrame b).kind = 1#8 := rfl
  have hfields : (Safety.bringFrame b).version = 0#8 ∧ (Safety.bringFrame b).session = 0#32 ∧ (Safety.bringFrame b).sequence = 0#64
    ∧ (Safety.bringFrame b).payloadLen = BitVec.ofNat 16 b.length ∧ (Safety.bringFrame b).payload = b := ⟨rfl, rfl, rfl, rfl, rfl⟩
  obtain ⟨hversion, hsession, hsequence, hplen, hpayload⟩ := hfields
  unfold rxPlain rxFrame rxBringup
  simp only [htakes, hkind, hversion, hsession, hsequence, hplen, hpayload, hup, hplain, hform, and_self, Bool.not_true,
    Bool.false_eq_true, if_false, if_true, decide_true]

/-- A failure of the first seven holds the port FAILED and disabled, with no session. -/
theorem bringupFail_held {code : Nat} (h : code < 7) : (lportAt (bringupFail s e code) e).st = .failed ∧ (lportAt (bringupFail s e code) e).fail = code
    ∧ (lnkPin (bringupFail s e code) e).en = false ∧ (lportAt (bringupFail s e code) e).session = 0 := by
  have hst : failSt code = .failed := if_neg (by omega)
  rw [lportAt_bringupFail, if_pos rfl, hst]
  exact ⟨rfl, rfl, bringupFail_en s e h, rfl⟩

/-! ### HELLO (05 R156, R158) -/

/-- The port that has kept its peer's HELLO and the versions in common. -/
def helloTaken (s : State) (e : Nat) (b : List Byte) : State :=
  keepMsg (setLport s e { lportAt s e with
    peerInst := fld b 8 8, peerMember := fld b 2 2, peerRole := fld b 1 1, peerPort := fld b 4 1
    portVer := topVersion (maskAnd (offerNow s (portKind e)) (fld b 0x18 2)), fabVer := topVersion (maskAnd (offerNow s 3) (fld b 0x1A 2)) }) e 1 b

/-- The port after it has answered with an IDENTITY of its own. -/
theorem lportAt_helloAnswered (s : State) (e : Nat) (b i : List Byte) : ∃ msgs stepAt, lportAt (keepMsg (helloTaken s e b) e 2 i) e = { lportAt s e with
    peerInst := fld b 8 8, peerMember := fld b 2 2, peerRole := fld b 1 1, peerPort := fld b 4 1
    portVer := topVersion (maskAnd (offerNow s (portKind e)) (fld b 0x18 2)), fabVer := topVersion (maskAnd (offerNow s 3) (fld b 0x1A 2))
    msgs := msgs, stepAt := stepAt } := by
  rw [lportAt_keepMsg, if_pos rfl, helloTaken, lportAt_keepMsg, if_pos rfl, lportAt_setLport, if_pos rfl]
  exact ⟨_, _, rfl⟩

theorem rxHello_taken {pub : BitVec 768} (hst : (lportAt s e).st = .hello) (hform : Safety.helloForm e b) (hfirst : tget (lportAt s e).msgs 1 = none)
    (hpub : s.key.idPub = some pub) (hdomain : domainId s ≠ 0) (hsame : fld b 0x10 8 = domainId s)
    (hport : maskAnd (offerNow s (portKind e)) (fld b 0x18 2) ≠ 0) (hfab : maskAnd (offerNow s 3) (fld b 0x1A 2) ≠ 0) (hinst : fld b 8 8 ≠ instId s) :
    rxHello s e true b = sendBringup (keepMsg (helloTaken s e b) e 2 (2#8 :: (zeros 15 ++ bytes96 pub))) e (2#8 :: (zeros 15 ++ bytes96 pub)) := by
  obtain ⟨hlen, -, hrole, hmember, hkind, hzero, hlast⟩ := hform
  have hrole' : ¬ 2 ≤ fld b 1 1 := by omega
  have hmember' : ¬ 16384 ≤ fld b 2 2 := by omega
  have hpub' : (helloTaken s e b).key.idPub = some pub := hpub
  unfold rxHello
  simp only [eq_true hst, hfirst, hdomain, hsame, hport, hfab, hinst, hlen, hkind, hzero, hlast, hrole', hmember', ne_eq, not_true_eq_false, or_self, if_false,
    Bool.not_true, Bool.false_eq_true, Option.isSome_none]
  change (match (helloTaken s e b).key.idPub with | none => _ | some pub => _) = _
  rw [hpub']
  rfl

/-! ### IDENTITY and the own KEY_SHARE (05 R157, R160) -/

/-- A transcript depends on its four messages and on the sides alone. -/
theorem transcript_congr {t : State} (hmsg : ∀ j < 4, msgAt t e j = msgAt s e j) (hpub : t.key.idPub = s.key.idPub)
    (hpeer : (lportAt t e).peerInst = (lportAt s e).peerInst) : transcript t e = transcript s e := by
  have hinst : instId t = instId s := by rw [instId, hpub]; rfl
  have hside : sideA t e = sideA s e := by rw [sideA, sideA, hinst, hpeer]
  simp only [transcript, hside, hmsg 0 (by decide), hmsg 1 (by decide), hmsg 2 (by decide), hmsg 3 (by decide)]

/-- A random value drawn leaves the ports, the block's identity and the outputs. -/
theorem drbgTake_keeps (s : State) (w : Nat) : (drbgTake w s).2.ile = s.ile ∧ (drbgTake w s).2.key.idPub = s.key.idPub ∧ (drbgTake w s).2.out = s.out := by
  obtain ⟨reqs, due, ix, h⟩ := drbgTake_eq (s := s) w
  rw [h]
  exact ⟨rfl, rfl, rfl⟩

/-- The KEY_SHARE of a pair, up to its signature. -/
def shareHead (d : BitVec 384) : List Byte := 3#8 :: (zeros 15 ++ bytes96 (Config.pubOf d))

theorem identity_congr {t : State} (h : t.key = s.key) : identity t = identity s := by
  simp only [identity, slotScalar, halfKey, slotAt, maskKey, h]

theorem drbgServes_congr {t : State} (h : t.key = s.key) : drbgServes t = drbgServes s := by
  simp only [drbgServes, drbgLive, drbgWaits, h]

theorem msgAt_setPortSt (s : State) (e : Nat) (st : PortSt) (j : Nat) : msgAt (setPortSt s e st) e j = msgAt s e j := by
  rw [msgAt, lportAt_setPortSt, if_pos rfl]
  rfl

/-- A block with an identity and random numbers signs and sends its KEY_SHARE. -/
theorem sendShare_sends {id : BitVec 384} (hid : identity s = some id) (hdrbg : drbgServes s = true) : ∃ d n,
    let full := shareHead d ++ bytes96 (Config.ecdsaSign id (transcript s e ++ shareHead d) n)
    (lportAt (sendShare s e) e).st = (lportAt s e).st ∧ (∀ j, msgAt (sendShare s e) e j = if 4 = j then full else msgAt s e j)
      ∧ (lportAt (sendShare s e) e).ephPriv = some d ∧ transcript (sendShare s e) e = transcript s e
      ∧ (sendShare s e).out = s.out ++ [Out.frame e (Safety.bringFrame full)] := by
  obtain ⟨hile, hpub, hout⟩ := drbgTake_keeps s 384
  obtain ⟨hile', hpub', hout'⟩ := drbgTake_keeps (drbgTake 384 s).2 384
  have hport : lportAt (drbgTake 384 (drbgTake 384 s).2).2 e = lportAt s e := by rw [lportAt, hile', hile]; rfl
  have hscript : transcript (drbgTake 384 (drbgTake 384 s).2).2 e = transcript s e :=
    transcript_congr (fun j _ => by rw [msgAt, hport]; rfl) (hpub'.trans hpub) (by rw [hport])
  refine ⟨(drbgTake 384 s).1, (drbgTake 384 (drbgTake 384 s).2).1.toNat, ?_⟩
  dsimp only
  generalize hfull : shareHead (drbgTake 384 s).1 ++ bytes96 (Config.ecdsaSign id (transcript s e ++ shareHead (drbgTake 384 s).1)
    (drbgTake 384 (drbgTake 384 s).2).1.toNat) = full
  have hstep : sendShare s e = sendBringup (setLport (keepMsg (drbgTake 384 (drbgTake 384 s).2).2 e 4 full) e
      { lportAt (keepMsg (drbgTake 384 (drbgTake 384 s).2).2 e 4 full) e with ephPriv := some (drbgTake 384 s).1, shareDue := false }) e full := by
    unfold sendShare
    simp only [hid, hdrbg, hscript, Bool.not_true, Bool.false_eq_true, if_false]
    rw [← hfull]
    rfl
  have hself : lportAt (sendShare s e) e = { lportAt s e with
      msgs := tput (lportAt s e).msgs 4 full, stepAt := (drbgTake 384 (drbgTake 384 s).2).2.tm.ns, ephPriv := some (drbgTake 384 s).1, shareDue := false } := by
    rw [hstep, sendBringup_eq, lportAt_emit, lportAt_setLport, if_pos rfl, lportAt_keepMsg, if_pos rfl, hport]
  have hmsg (j : Nat) : msgAt (sendShare s e) e j = if 4 = j then full else msgAt s e j := by
    simp only [msgAt, hself, dget, tget_tput]
    split <;> rfl
  have hpub'' : (sendShare s e).key.idPub = s.key.idPub := by
    rw [hstep]
    exact hpub'.trans hpub
  refine ⟨by rw [hself], hmsg, by rw [hself], transcript_congr (fun j hj => ?_) hpub'' (by rw [hself]), ?_⟩
  · rw [hmsg, if_neg (by omega)]
  · rw [hstep, sendBringup_eq, emit, setLport_out, keepMsg, setLport_out, hout', hout]

/-- The peer's IDENTITY is kept, and the port goes on to KEYING (05 R157). -/
theorem rxIdentity_taken (hst : (lportAt s e).st = .hello) (hpeer : (tget (lportAt s e).msgs 1).isSome = true)
    (hown : (tget (lportAt s e).msgs 2).isSome = true) (hlen : b.length = 112) (hzero : zeroBytes (slice b 1 15) = true) :
    rxIdentity s e true b = sendShare (setPortSt (keepMsg s e 3 b) e .keying) e := by
  have hpeer' : (tget (lportAt s e).msgs 1).isNone = false := by simpa using hpeer
  have hown' : (tget (lportAt s e).msgs 2).isNone = false := by simpa using hown
  unfold rxIdentity
  simp only [hst, hpeer', hown', hlen, hzero, ne_eq, not_true_eq_false, or_self, if_false, Bool.not_true, Bool.false_eq_true]

/-! ### KEY_SHARE and the session (05 R159, R161) -/

/-- The session that the two KEY_SHAREs make, before KEY_CONFIRM goes: its key in the port's slot, its transcript's hash kept. -/
def sessionBegun (s : State) (e : Nat) (b all x : List Byte) : State :=
  setLport (fillSlot (keepMsg s e 5 b) (sessSlot e) 4 (tenantClass s) 0 0 ownMasks (sha256of x)) e
    { lportAt (keepMsg s e 5 b) e with
      session := 1, txSeq := 0, rxSeq := 0, ephPriv := none, thash := Config.sha384 all, thresh := threshOf (lportAt s e) }

/-- The transcript of a session: what came before, and the shares without their signatures, side A's first. -/
def sessionScript (s : State) (e : Nat) (own b : List Byte) : List Byte :=
  transcript s e ++ (if sideA s e = true then own.take 112 ++ b.take 112 else b.take 112 ++ own.take 112)

section
variable {pub eph : BitVec 768}

theorem rxKeyShare_verified {own : List Byte} (hst : (lportAt s e).st = .keying) (hown : tget (lportAt s e).msgs 4 = some own)
    (hfirst : (tget (lportAt s e).msgs 5).isNone = true) (hlen : b.length = 208) (hzero : zeroBytes (slice b 1 15) = true)
    (hpub : pub = b768 (slice (msgAt s e 3) 16 96)) (heph : eph = b768 (slice b 16 96)) (hcurve : Config.onCurve pub = true)
    (hcurve' : Config.onCurve eph = true) (hinst : instanceOf pub = (lportAt s e).peerInst)
    (hverify : Config.ecdsaVerify pub (transcript s e ++ b.take 112) (b768 (slice b 112 96)) = true)
    (hlisted : peerListed s (lportAt s e) = true) :
    rxKeyShare s e true b = sendPlain (sessionBegun s e b (sessionScript s e own b) (bytes48 (Config.ecdhX ((lportAt s e).ephPriv.getD 0#384) eph))) e 3
      (bytes48 (Config.sha384 (sessionScript s e own b))) := by
  subst hpub heph
  have hmsg : msgAt s e 4 = own := by rw [msgAt, dget, hown]; rfl
  have hfirst' : (tget (lportAt s e).msgs 5).isSome = false := by simpa using hfirst
  unfold rxKeyShare
  simp only [eq_true hst, hown, hmsg, hfirst', hlen, hzero, hcurve, hcurve', hinst, hverify, hlisted, ne_eq, not_true_eq_false, or_self, and_false, if_false,
    Bool.not_true, Bool.false_eq_true, Option.isNone_some]
  rfl

/-- A key off the curve, or of another block, fails the port with code 5, once its IDENTITY is known. -/
theorem rxKeyShare_badKey (hlen : b.length = 208) (hknown : (tget (lportAt s e).msgs 3).isSome = true)
    (hpub : pub = b768 (slice (msgAt s e 3) 16 96)) (heph : eph = b768 (slice b 16 96))
    (hbad : Config.onCurve pub = false ∨ Config.onCurve eph = false ∨ instanceOf pub ≠ (lportAt s e).peerInst) :
    rxKeyShare s e true b = bringupFail s e 5 := by
  subst hpub heph
  refine if_pos ?_
  rcases hbad with hcurve | hcurve | hinst
  · exact .inl ⟨hknown, .inl (by simp [hcurve])⟩
  · exact .inr ⟨by omega, by simp [hcurve]⟩
  · exact .inl ⟨hknown, .inr hinst⟩

end

section
variable (all x : List Byte)

theorem lportAt_sessionBegun : lportAt (sessionBegun s e b all x) e = { lportAt s e with
    msgs := tput (lportAt s e).msgs 5 b, stepAt := s.tm.ns, session := 1, txSeq := 0, rxSeq := 0, ephPriv := none, thash := Config.sha384 all
    thresh := threshOf (lportAt s e) } := by
  rw [sessionBegun, lportAt_setLport, if_pos rfl, lportAt_keepMsg, if_pos rfl]

/-- The slot of a session just begun: its key in the even half, as generation 0. -/
def sessionHalves (s : State) (e : Nat) (x : List Byte) : Slot :=
  withHalf (Safety.newSlot 4 (tenantClass s) 0 0 ownMasks) 0 (maskHalf s (sessSlot e) 0 (sha256of x))

theorem slotAt_sessionBegun : slotAt (sessionBegun s e b all x) (sessSlot e) = some (sessionHalves s e x) :=
  KeyCommands.slotAt_fillSlot (keepMsg s e 5 b) ..

theorem sessUse_sessionBegun (hrekey : (lportAt s e).rekey = none) (tx : Bool) : sessUse (sessionBegun s e b all x) e tx = (0, 1) := by
  simp only [sessUse, lportAt_sessionBegun, slotAt_sessionBegun, hrekey]
  rfl

/-- A half under a mask key at hand can be read. -/
theorem halfKey_sessionBegun (hmask : (maskHalf s (sessSlot e) 0 (sha256of x)).isSome = true) :
    (halfKey (sessionBegun s e b all x) (sessSlot e) 0).isSome = true := by
  obtain ⟨v, hv⟩ := Option.isSome_iff_exists.mp hmask
  obtain ⟨k, hk, hhalf⟩ := Option.map_eq_some_iff.mp (show (maskKey s s.key.maskCur).map _ = some v from hv)
  have hheld : halfOf (sessionHalves s e x) 0 = some v := hv
  have hno : v.keyNo = s.key.maskCur := by rw [← hhalf]
  have hread : maskKey (sessionBegun s e b all x) v.keyNo = some k := by rw [hno]; exact hk
  simp [halfKey, slotAt_sessionBegun, hheld, hread]

theorem sessKey_sessionBegun (hrekey : (lportAt s e).rekey = none) (hmask : (maskHalf s (sessSlot e) 0 (sha256of x)).isSome = true) :
    (sessKey (sessionBegun s e b all x) e true).isSome = true := by
  obtain ⟨k, hk⟩ := Option.isSome_iff_exists.mp (halfKey_sessionBegun (b := b) all x hmask)
  have hderive : derive (sessionBegun s e b all x) (sessHandle (sessionBegun s e b all x) e 0 1) =
      (halfKey (sessionBegun s e b all x) (sessSlot e) 0).map fun k => kdf k _ _ := rfl
  simp [sessKey, sessUse_sessionBegun all x hrekey, hderive, hk]

/-- A sealed frame, sent or not, moves the port's sequence, its report and its kept frames alone. -/
theorem lportAt_sendSealed (s : State) (e ftype vc : Nat) (content : List Byte) (size : Nat) :
    ∃ n freed kept, lportAt (sendSealed s e ftype vc content size) e = { lportAt s e with txSeq := n, freed := freed, replay := kept } := by
  obtain ⟨u, hu, hidle | ⟨f, hsent⟩⟩ := sendSealed_cases s e ftype vc content size
  · rw [hidle, hu.lportAt]
    exact ⟨_, _, _, rfl⟩
  · rw [hsent, lportAt_frameSent]
    exact ⟨_, _, _, rfl⟩

/-- The first sequence of a session is within its limit. -/
theorem confirm_within : (lportAt (sessionBegun s e b all x) e).txSeq < frameLimit (sessionBegun s e b all x) e 3 := by
  rw [frameLimit, if_neg (by decide), lportAt_sessionBegun]
  exact Nat.lt_of_lt_of_le (by decide : 0 < 16) (Nat.le_add_left ..)

/-- The port that has begun a session keeps it, whether or not its KEY_CONFIRM can go. -/
theorem sendConfirm_begins (content : List Byte) :
    (lportAt (sendPlain (sessionBegun s e b all x) e 3 content) e).session = 1 ∧ (lportAt (sendPlain (sessionBegun s e b all x) e 3 content) e).rxSeq = 0
      ∧ (lportAt (sendPlain (sessionBegun s e b all x) e 3 content) e).ephPriv = none
      ∧ (lportAt (sendPlain (sessionBegun s e b all x) e 3 content) e).thash = Config.sha384 all
      ∧ msgAt (sendPlain (sessionBegun s e b all x) e 3 content) e 5 = b
      ∧ slotAt (sendPlain (sessionBegun s e b all x) e 3 content) (sessSlot e) = some (sessionHalves s e x) := by
  obtain ⟨n, freed, kept, hport⟩ := lportAt_sendSealed (sessionBegun s e b all x) e 3 0 content (payloadLen (sessionBegun s e b all x) 0 content.length)
  obtain ⟨-, -, -, hslots⟩ := sendSealed_keeps (sessionBegun s e b all x) e 3 0 content (payloadLen (sessionBegun s e b all x) 0 content.length)
  rw [sendPlain, msgAt, slotAt, hslots, hport, lportAt_sessionBegun]
  refine ⟨rfl, rfl, rfl, rfl, ?_, slotAt_sessionBegun all x⟩
  simp [dget]

/-- With a key in the session's slot the KEY_CONFIRM goes, as the first frame of session 1. -/
theorem sendConfirm_goes (content : List Byte) (hrekey : (lportAt s e).rekey = none) (hmask : (maskHalf s (sessSlot e) 0 (sha256of x)).isSome = true) :
    (lportAt (sendPlain (sessionBegun s e b all x) e 3 content) e).txSeq = 1 ∧ ∃ f, (sendPlain (sessionBegun s e b all x) e 3 content).out = s.out ++ [Out.frame e f]
      ∧ f.kind = 0#8 ∧ f.session = 1#32 ∧ f.sequence = 0#64 := by
  obtain ⟨k, hk⟩ := Option.isSome_iff_exists.mp (sessKey_sessionBegun (b := b) all x hrekey hmask)
  obtain ⟨u, hu, hsent⟩ := sendSealed_sends hk (confirm_within all x) 0 content (payloadLen (sessionBegun s e b all x) 0 content.length)
  have huse := sessUse_sessionBegun (b := b) all x hrekey true
  have hseq : (lportAt (sessionBegun s e b all x) e).txSeq = 0 := by rw [lportAt_sessionBegun]
  rw [sendPlain, hsent, lportAt_frameSent]
  refine ⟨?_, sealedFrame (sessionBegun s e b all x) e 3 0 content (payloadLen (sessionBegun s e b all x) 0 content.length) k, ?_, rfl, ?_, ?_⟩
  · rw [portSent, hseq]
  · rw [emit_out, setLport_out, hu.out]
    rfl
  · rw [sealedFrame, huse]
  · rw [sealedFrame, hseq]

end

/-! ### KEY_CONFIRM (05 R156, R159; 10 R311) -/

/-- A class's counter after each of a list has been set. -/
theorem creditAt_setCredits (q : Nat) (l : List Nat) (u : State) (c : Nat) :
    creditAt (l.foldl (fun s c => setCredit s q c (ceiling s q c)) u) q c = if c ∈ l then ceiling u q c else creditAt u q c := by
  have hceiling (v : State) (c d : Nat) (n : Nat) : ceiling (setCredit v q c n) q d = ceiling v q d := rfl
  induction l generalizing u with
  | nil => simp
  | cons d l ih =>
    have hset : creditAt (setCredit u q d (ceiling u q d)) q c = if d = c then ceiling u q d else creditAt u q c := by
      rw [creditAt, setCredit, dget_dput]
      by_cases h : d = c
      · simp [h]
      · rw [if_neg h, if_neg (by omega)]; rfl
    rw [List.foldl_cons, ih, hceiling, hset]
    by_cases hmem : c ∈ l
    · simp [hmem]
    · by_cases h : d = c
      · subst h; simp
      · simp [hmem, h, Ne.symm h]

/-- A port that starts has full counters (10 R311). -/
theorem creditAt_startCredits (s : State) (q : Nat) {c : Nat} (h : c < 16) : creditAt (startCredits s q) q c = ceiling s q c := by
  have hset := (creditAt_setCredits q (List.range 16) s c).trans (if_pos (List.mem_range.mpr h))
  unfold startCredits
  generalize (List.range 16).foldl (fun s c => setCredit s q c (ceiling s q c)) s = u at hset ⊢
  exact hset

/-- A frame received leaves the counters' ceilings. -/
theorem ceiling_received (hflaw : s.lane.flaw = []) (p : LPort) (q c : Nat) :
    ceiling (setLport (formPass s e false none 0).2 e p) q c = ceiling s q c := by
  obtain ⟨k, d, hpass⟩ := formPass_clear hflaw e false none 0
  rw [hpass]
  rfl

/-- Where no operation that waits needs FADD32, or FABRIC 2 serves it, a port that opens refuses none (05 R158). -/
theorem refuseFadd_none (h : (lportAt s e).fabVer = 1 → ∀ x ∈ (lportAt s e).txq, needsFadd x.op.op x.op.data = false) :
    lportAt (refuseFadd s e) e = lportAt s e ∧ (refuseFadd s e).qos = s.qos := by
  unfold refuseFadd
  by_cases hfab : (lportAt s e).fabVer ≠ 1
  · rw [if_pos hfab]
    exact ⟨rfl, rfl⟩
  · have hall := h (not_not.mp hfab)
    have hrefused : (lportAt s e).txq.filter (fun x => needsFadd x.op.op x.op.data) = [] := by simpa [List.filter_eq_nil_iff] using hall
    have hkept : (lportAt s e).txq.filter (fun x => !needsFadd x.op.op x.op.data) = (lportAt s e).txq := by
      simpa [List.filter_eq_self] using hall
    simp only [hfab, hrefused, hkept, if_false, List.foldl_nil, setLport_qos, and_true]
    exact (lportAt_setLport ..).trans (if_pos rfl)

/-- The port that KEY_CONFIRM opens, before the operations that need FADD32 are refused. -/
def opened (s : State) (e : Nat) (b : List Byte) : State :=
  startCredits (setPortSt (takeCredits (setLport s e { lportAt s e with fail := 0, msgs := [] }) e (fld b 4 12)) e .open_) (qpOfLnk e)

theorem takeConfirm_opens (hinner : innerOk b = true) (htype : fld b 0 1 = 3) (hhash : slice b 16 (fld b 2 2) = bytes48 (lportAt s e).thash) :
    takeConfirm s e b = refuseFadd (opened s e b) e := by
  unfold takeConfirm
  simp only [hinner, htype, hhash, ne_eq, not_true_eq_false, and_false, if_false, Bool.not_true, bne_self_eq_false, Bool.or_self, Bool.false_eq_true]
  rfl

theorem lportAt_startCredits (q j : Nat) : lportAt (startCredits s q) j = lportAt s j := by
  have hset (l : List Nat) (u : State) : (l.foldl (fun s c => setCredit s q c (ceiling s q c)) u).ile = u.ile := by
    induction l generalizing u with
    | nil => rfl
    | cons c l ih => exact ih _
  exact congrArg (fun i : Ile => dget {} i.ports j) (hset (List.range 16) s)

/-- The opened port: its state, no FAIL, no message kept; sequences, session and waiting operations as before. -/
theorem lportAt_opened : ∃ used, lportAt (opened s e b) e = { lportAt s e with fail := 0, msgs := [], used := used, st := .open_ } := by
  rw [opened, lportAt_startCredits, lportAt_setPortSt, if_pos rfl, lportAt_takeCredits, lportAt_setLport, if_pos rfl]
  exact ⟨_, rfl⟩

theorem ceiling_setPortSt (s : State) (e : Nat) (st : PortSt) (q c : Nat) : ceiling (setPortSt s e st) q c = ceiling s q c := by
  obtain ⟨ports, irq, running, h⟩ := setPortSt_eq s e st
  rw [h]
  rfl

theorem ceiling_setLport (s : State) (e : Nat) (p : LPort) (q c : Nat) : ceiling (setLport s e p) q c = ceiling s q c := rfl

theorem creditAt_opened {c : Nat} (h : c < 16) : creditAt (opened s e b) (qpOfLnk e) c = ceiling s (qpOfLnk e) c := by
  rw [opened, creditAt_startCredits _ _ h, ceiling_setPortSt, takeCredits, ceiling_setLport, ceiling_setLport]

section
variable {f : Frame} (htakes : rxTakes s e = true) (hst : (lportAt s e).st = .keying) (hsession : (lportAt s e).session ≠ 0) (hkind : f.kind = 0#8)
include htakes hst hsession hkind

/-- At a port that waits for KEY_CONFIRM a frame that opens is the confirmation. -/
theorem rxPlain_confirms (hflaw : s.lane.flaw = []) (hframe : openFrame s e f = some b) : rxPlain s e f =
    takeConfirm (setLport (formPass s e false none 0).2 e { lportAt s e with rxSeq := (lportAt s e).rxSeq + 1 }) e b := by
  obtain ⟨c, d, hpass⟩ := formPass_clear hflaw e false none 0
  have hform : (formPass s e false none 0).1 = true := by rw [hpass]
  have hframe' : openFrame (formPass s e false none 0).2 e f = some b := ((passed_formPass s e false none 0).openFrame e f).trans hframe
  unfold rxPlain rxFrame rxSealed
  simp only [htakes, hkind, eq_true hst, hsession, hform, hframe', and_false, if_false, if_true, Bool.not_true, Bool.false_eq_true]

/-- A confirmation that names the transcript's hash opens the port, its counters full (05 R156; 10 R311). -/
theorem rxPlain_opensPort (hflaw : s.lane.flaw = []) (hframe : openFrame s e f = some b)
    (hfadd : (lportAt s e).fabVer = 1 → ∀ x ∈ (lportAt s e).txq, needsFadd x.op.op x.op.data = false) (hinner : innerOk b = true) (htype : fld b 0 1 = 3)
    (hhash : slice b 16 (fld b 2 2) = bytes48 (lportAt s e).thash) :
    (lportAt (rxPlain s e f) e).st = .open_ ∧ (lportAt (rxPlain s e f) e).fail = 0 ∧ (lportAt (rxPlain s e f) e).msgs = []
      ∧ (lportAt (rxPlain s e f) e).rxSeq = (lportAt s e).rxSeq + 1 ∧ ∀ c < 16, creditAt (rxPlain s e f) (qpOfLnk e) c = ceiling s (qpOfLnk e) c := by
  have hself : lportAt (setLport (formPass s e false none 0).2 e { lportAt s e with rxSeq := (lportAt s e).rxSeq + 1 }) e = _ :=
    (lportAt_setLport ..).trans (if_pos rfl)
  have hceiling (c : Nat) := ceiling_received (e := e) hflaw { lportAt s e with rxSeq := (lportAt s e).rxSeq + 1 } (qpOfLnk e) c
  rw [rxPlain_confirms htakes hst hsession hkind hflaw hframe]
  generalize setLport (formPass s e false none 0).2 e { lportAt s e with rxSeq := (lportAt s e).rxSeq + 1 } = u at hself hceiling ⊢
  obtain ⟨used, hopened⟩ := lportAt_opened (s := u) (e := e) (b := b)
  rw [hself] at hopened
  obtain ⟨hport, hqos⟩ := refuseFadd_none (s := opened u e b) (e := e) (by rw [hopened]; exact hfadd)
  rw [takeConfirm_opens hinner htype (by rw [hself]; exact hhash), hport, hopened]
  refine ⟨rfl, rfl, rfl, rfl, fun c hc => ?_⟩
  rw [creditAt, hqos]
  exact (creditAt_opened hc).trans (hceiling c)

/-- One that does not open fails the bring-up (05 R159). -/
theorem rxPlain_unconfirmed (hframe : openFrame s e f = none) : rxPlain s e f = bringupFail (formPass s e false none 0).2 e 6 := by
  have hframe' : openFrame (formPass s e false none 0).2 e f = none := ((passed_formPass s e false none 0).openFrame e f).trans hframe
  unfold rxPlain rxFrame rxSealed
  simp only [htakes, hkind, eq_true hst, hsession, hframe', ite_self, and_false, if_false, if_true, Bool.not_true, Bool.false_eq_true]

end

end Sys2Proof.Proofs.BringupMessages

namespace Sys2Proof.Proofs
open Sys2Proof.Machine LinkPorts SealedFrames Rekeys DataFrames BringupMessages

/-- Settles O30: each message by the equation of its receiver where it is taken, and `bringupFail_held` where it fails the port. -/
theorem bringUpMessages : Obligations.BringUpMessages := by
  unfold Obligations.BringUpMessages
  refine ⟨?_, ?_, ?_, ?_⟩
  · intro e b pub s htakes hst hform hfirst hpub
    have hrx : rxPlain s e (Safety.bringFrame b) = rxHello s e true b := by
      obtain ⟨hlen, htype, -⟩ := hform
      rw [rxPlain_bringFrame htakes (.inl hst) (by omega), if_pos htype]
    refine ⟨fun hdomain => ?_, fun hdomain hother => ?_, fun hdomain hsame hversions => ?_, fun hdomain hsame hport hfab => ⟨fun hinst => ?_, fun hinst => ?_⟩⟩
    · obtain ⟨hfailed, hcode, hen, -⟩ := bringupFail_held (s := s) (e := e) (code := 1) (by decide)
      exact ⟨_, congrArg Host.Outcome.next (hrx.trans (if_pos hdomain)), hfailed, hcode, hen⟩
    · obtain ⟨hfailed, hcode, hen, -⟩ := bringupFail_held (s := s) (e := e) (code := 2) (by decide)
      exact ⟨_, congrArg Host.Outcome.next (hrx.trans ((if_neg hdomain).trans (if_pos hother))), hfailed, hcode, hen⟩
    · obtain ⟨hfailed, hcode, hen, -⟩ := bringupFail_held (s := s) (e := e) (code := 3) (by decide)
      exact ⟨_, congrArg Host.Outcome.next (hrx.trans ((if_neg hdomain).trans ((if_neg (not_not.mpr hsame)).trans (if_pos hversions)))), hfailed, hcode, hen⟩
    · obtain ⟨hfailed, hcode, -, -⟩ := bringupFail_held (s := s) (e := e) (code := 4) (by decide)
      have hversions : ¬ (maskAnd (offerNow s (portKind e)) (fld b 0x18 2) = 0 ∨ maskAnd (offerNow s 3) (fld b 0x1A 2) = 0) := not_or.mpr ⟨hport, hfab⟩
      exact ⟨_, congrArg Host.Outcome.next (hrx.trans ((if_neg hdomain).trans ((if_neg (not_not.mpr hsame)).trans ((if_neg hversions).trans
        (if_pos hinst))))), hfailed, hcode⟩
    · have htaken := rxHello_taken hst hform hfirst hpub hdomain hsame hport hfab hinst
      obtain ⟨msgs, stepAt, hself⟩ := lportAt_helloAnswered s e b (2#8 :: (zeros 15 ++ bytes96 pub))
      refine ⟨_, congrArg Host.Outcome.next ((hrx.trans htaken).trans (sendBringup_eq ..)), ?_, ?_, ?_, ?_, ?_, ?_, ?_, ?_, ?_⟩
      · rw [lportAt_emit, hself]; exact hst
      · rw [lportAt_emit, hself]
      · rw [lportAt_emit, hself]
      · rw [lportAt_emit, hself]
      · rw [lportAt_emit, hself]
      · rw [lportAt_emit, hself]
      · rw [lportAt_emit, hself]
      · change msgAt (keepMsg (helloTaken s e b) e 2 _) e 1 = b
        rw [msgAt_keepMsg, if_neg (by decide), helloTaken, msgAt_keepMsg, if_pos rfl]
      · rw [emit_out, keepMsg, setLport_out, helloTaken, keepMsg, setLport_out, setLport_out]
  · intro e b id s htakes hst hpeer hown hlen htype hzero hid hdrbg
    have hrx : rxPlain s e (Safety.bringFrame b) = sendShare (setPortSt (keepMsg s e 3 b) e .keying) e := by
      rw [rxPlain_bringFrame htakes (.inl hst) (by omega), if_neg (by omega), if_pos htype, rxIdentity_taken hst hpeer hown hlen hzero]
    have hkey : (setPortSt (keepMsg s e 3 b) e .keying).key = s.key := setPortSt_key ..
    obtain ⟨d, n, hst', hmsg, heph, hscript, hout⟩ := sendShare_sends (s := setPortSt (keepMsg s e 3 b) e .keying) (e := e) (id := id)
      (by rw [← hid]; exact identity_congr hkey) (by rw [← hdrbg]; exact drbgServes_congr hkey)
    have hmsg4 := (hmsg 4).trans (if_pos rfl)
    refine ⟨_, d, n, shareHead d, congrArg Host.Outcome.next hrx, ?_, ?_, heph, rfl, ?_, ?_⟩
    · rw [hst', lportAt_setPortSt, if_pos rfl]
    · rw [hmsg, if_neg (by decide), msgAt_setPortSt, msgAt_keepMsg, if_pos rfl]
    · rw [hmsg4, hscript]
    · rw [hmsg4, hout, setPortSt_out]
      rfl
  · intro e b x all own pub eph s htakes hst hown hfirst hlen htype hzero hpub heph hall hx hrekey
    have hrx : rxPlain s e (Safety.bringFrame b) = rxKeyShare s e true b := by
      rw [rxPlain_bringFrame htakes (.inr hst) (by omega), if_neg (by omega), if_neg (by omega), if_pos htype]
    refine ⟨_, congrArg Host.Outcome.next hrx, fun hcurve hcurve' hinst hverify hlisted => ?_, fun hknown hbad => ?_⟩
    · subst hx
      have hscript : sessionScript s e own b = all := hall.symm
      rw [rxKeyShare_verified hst hown hfirst hlen hzero hpub heph hcurve hcurve' hinst hverify hlisted, hscript]
      obtain ⟨hsession, hseq, hpriv, hhash, hmsg, hslot⟩ := sendConfirm_begins (s := s) (e := e) (b := b) all
        (bytes48 (Config.ecdhX ((lportAt s e).ephPriv.getD 0#384) eph)) (bytes48 (Config.sha384 all))
      exact ⟨hsession, hseq, hpriv, hhash, hmsg, ⟨_, hslot, rfl⟩, sendConfirm_goes all _ _ hrekey⟩
    · obtain ⟨hfailed, hcode, -⟩ := bringupFail_held (s := s) (e := e) (code := 5) (by decide)
      rw [rxKeyShare_badKey hlen hknown hpub heph hbad]
      exact ⟨hfailed, hcode⟩
  · intro e f s htakes hst hsession hkind
    refine ⟨_, rfl, fun b hflaw hfadd hframe hinner htype hhash => ?_, fun hframe => ?_⟩
    · exact rxPlain_opensPort htakes hst hsession hkind hflaw hframe hfadd hinner htype hhash
    · obtain ⟨hfailed, hcode, -, hnone⟩ := bringupFail_held (s := (formPass s e false none 0).2) (e := e) (code := 6) (by decide)
      rw [rxPlain_unconfirmed htakes hst hsession hkind hframe]
      exact ⟨hfailed, hcode, hnone⟩

end Sys2Proof.Proofs
